-- ==== Sys2Proof/Word.lean ====
section
/-! DEFINITION. Byte and the plainest arithmetic every file uses: sample indices, sparse tables, rounding. -/

namespace Sys2Proof

/-- One byte of memory, of a packet or of a frame. -/
abbrev Byte := BitVec 8

/-- R6: the reserved value of a sample-index field, which means "no index". -/
abbrev noIndex : Nat := 0xFFFF_FFFF_FFFF_FFFF

/-- A sparse table from Nat keys, keys strictly rising; an absent key reads as the table's default. -/
abbrev KV (α : Type) := List (Nat × α)

/-- A value that one sample index switches: `base` holds before every entry of `later` (R19, R20, R556). -/
inductive When where
  /-- takes effect at this sample index in every channel -/
  | idx (start : Nat)
  /-- the reserved value of R6, resolved when accepted: one start index per channel, channel 0 first; `rest` beyond the list -/
  | chans (starts : List Nat) (rest : Nat)
  deriving DecidableEq, Repr

/-- A setting or table with scheduled successors, oldest acceptance first. -/
structure Sched (α : Type) where
  base : α
  later : List (When × α)
  deriving DecidableEq, Repr

end Sys2Proof
end

