-- ==== Sys2Proof/Syntax.lean ====
section
/-! DEFINITION. The commands and events of the table, one constructor of `Instr` per row, with their operands. -/

namespace Sys2Proof

/-- R279, R382: an instant on the wire, seconds, nanoseconds and a 16-bit fraction of a nanosecond. -/
structure Instant where
  sec : Nat
  ns : Nat
  frac : Nat
  deriving DecidableEq, Repr, Inhabited

/-- R387: a client within its endpoint. EP0: the command queue; EP1, EP2: source address and UDP source port; EP3: the port. -/
structure Client where
  ep : Fin 4
  /-- 4 or 6 on EP1 and EP2, otherwise 0 -/
  family : Nat
  /-- UDP source port, or command queue -/
  port : Nat
  /-- 16 bytes, an IPv4 address in the first four -/
  addr : List Byte
  deriving DecidableEq, Repr, Inhabited

/-- R384: the signature option of a version 2 command. -/
structure Signature where
  keySlot : Nat
  r : Nat
  s : Nat
  deriving DecidableEq, Repr, Inhabited

/-- R383: the header bits a command's receiver ignores; a signature covers them all the same (R393). -/
structure IgnoredBits where
  verNibble : Nat := 0
  flagsHigh : Nat := 0
  status : Nat := 0
  tail : List Byte := [0, 0, 0]
  deriving DecidableEq, Repr, Inhabited

/-- One command packet that passes R385, as its client sent it; the opcode is the constructor that carries it. -/
structure Cmd where
  client : Client
  /-- EP0: the element's index (R456). EP1, EP2: the Ethernet source address of the frame (R416). -/
  via : Nat := 0
  /-- R394: the header version, true for 2 -/
  v2 : Bool := true
  seq : Nat := 0
  tag : Option Instant := none
  sig : Option Signature := none
  ignored : IgnoredBits := {}
  /-- the parameter bytes, network byte order (R382) -/
  params : List Byte := []
  deriving DecidableEq, Repr, Inhabited

/-- One Ethernet frame without preamble and FCS. -/
structure Frame where
  dst : Nat
  src : Nat
  /-- 802.1Q tag control words, outermost first -/
  tags : List Nat := []
  etherType : Nat
  payload : List Byte
  deriving DecidableEq, Repr, Inhabited

/-- R66: what a lane reaches in bring-up. -/
inductive LockStep where
  | cdr                                  -- step 2: signal and CDR
  | block                                -- steps 3 and 4: block or codeword lock, under the polarity being tried
  | align (laneId : Nat)                 -- step 5: PCS alignment, or AM lock with the lane id of its markers
  deriving DecidableEq, Repr

/-- R69: why a lane loses lock. -/
inductive LossCause where
  | signal | cdr | block | am | codeword
  deriving DecidableEq, Repr

/-- R286: a port that carries PTP, a serial-lane port by its first lane or a management port. -/
inductive PtpPort where
  | lane (port : Fin 80)
  | mgmt (port : Fin 2)
  deriving DecidableEq, Repr

/-- R286: what a PTP port sends of its own accord. -/
inductive PtpSend where
  | sync | announce | delayRequest | l1Sync
  deriving DecidableEq, Repr

/-- R307: what a replica does wrong. -/
inductive ReplicaFault where
  | time (value : Nat)                   -- its time reads this, in units of 2^-48 ns
  | output                               -- a pulse, an epoch or another voted output of it differs once
  | conversion                           -- a conversion t(S) or S(T) of it differs once
  | delay (input : Nat)                  -- its evaluated delay or phase of an input differs (R310)
  deriving DecidableEq, Repr

/-- R429: whose outbound access has waited 10 ms. -/
inductive OutboundUser where
  | descriptor (channel : Nat) (reads : Bool) (offset : Nat)
  | commandElement (q : Nat)
  deriving DecidableEq, Repr

/-- What the targets of one descriptor's transfers answer beyond what State decides (R461 to R465). -/
structure DmaOutcome where
  /-- bytes read from host memory for src, as far as they arrived -/
  src : List Byte := []
  /-- COMPARE: bytes read from host memory for dst -/
  dst : List Byte := []
  /-- offset of a host write that received an error response -/
  writeErr : Option Nat := none
  deriving DecidableEq, Repr, Inhabited

/-- R161, R162, R177: an upset of a tile while it works on a visit, in the cell of a block. -/
inductive Upset where
  | cell (block row col : Nat) (re im : Int)   -- added to one short-term accumulator
  | presence (block row col : Nat) (by_ : Int) -- added to one presence count
  deriving DecidableEq, Repr

/-- R428: the window a PCIe inbound access arrives through: BAR0 or BAR2. -/
inductive Bar where
  | csr | hbm
  deriving DecidableEq, Repr

/-- R428: where a PCIe inbound access goes: a window and an offset in it. -/
structure BarPlace where
  bar : Bar
  off : Nat
  deriving DecidableEq, Repr

/-- R388, R549: the 7-bit SMBus address a transaction is sent to and its command code. -/
structure SmbusTarget where
  address : Nat
  code : Byte
  deriving DecidableEq, Repr

/-- R294: the new level of an EVT line and its instant, in sixteenths of a nanosecond after the tick. -/
structure LineEdge where
  rising : Bool
  phase : Nat
  deriving DecidableEq, Repr

/-- R448, R478: what stops a core: an error of its own, or an uncorrectable one that it meets in working SRAM. -/
structure CoreFault where
  core : Fin 2
  /-- the offset of the 32-byte unit in working SRAM, and a bit for each of its words -/
  sram : Option (Nat × Nat) := none
  deriving DecidableEq, Repr

/-- R516: a piece that is still outstanding when the fence of its domain acts. -/
structure FencePiece where
  write : Bool
  addr : Nat
  len : Nat
  deriving DecidableEq, Repr

/-- R325: the bytes of a Freran message and the instant it reaches the balls, in time units after the tick. -/
structure FreranArrival where
  bytes : List Byte
  phase : Nat
  deriving DecidableEq, Repr

/-- R325: the port that asks and the instant its question leaves the balls, in time units after the tick. -/
structure FreranAsk where
  port : Fin 2
  phase : Nat
  deriving DecidableEq, Repr

/-- R438: what PCIe inbound had granted and not finished when it was reset: the BAR2 offset and delivered beats of a write
piece cut short, and how many other pieces. -/
structure InboundCut where
  piece : Option (Nat × List Byte) := none
  others : Nat := 0
  deriving DecidableEq, Repr, Inhabited

/-- R521: the kinds of PCIe reset. -/
inductive PcieResetKind where
  | perst | hot | function | removal
  deriving DecidableEq, Repr

/-- R521: a PCIe reset, and what it cuts short. -/
structure PcieResetEvent where
  kind : PcieResetKind
  cut : InboundCut := {}
  deriving DecidableEq, Repr

/-- R518, R549: a power-on reset, with its cause and the SMB_ADDR straps sampled at it. -/
structure PowerOn where
  cause : Fin 2
  straps : Fin 8 := 0
  /-- R528: the parameters of a SEC_OTP_ROTATE whose programming the loss of power cuts short, and whether the fuse reads set -/
  rotation : Option (List Byte × Bool) := none
  deriving DecidableEq, Repr

/-- R525, R498, R499: what the self-tests and the stacks report while Beynan brings the device into service. -/
structure BootReport where
  /-- tiles that fail BIST after repair (R493) -/
  badTiles : List Nat := []
  /-- failing SRAM rows found by the memory self-test: macro and row (R498) -/
  badRows : List (Nat × Nat) := []
  /-- pending HBM candidates whose repair fails for want of a resource, by position in the journal's list (R499) -/
  failedHbm : List Nat := []
  /-- journal blocks that fail to program or erase during the boot (R504): below 64 in the active half, from 64 on in the other -/
  failingBlocks : List Nat := []
  deriving DecidableEq, Repr, Inhabited

/-- The commands and events of the table, in its order. -/
inductive Instr where
  | pwrSetOp (c : Cmd)
  | pwrGetOp (c : Cmd)
  | corrSetShed (c : Cmd)
  | corrGetLoad (c : Cmd)
  | portSetQuad (c : Cmd)
  | portSetLane (c : Cmd)
  | portSetKlp (c : Cmd)
  | portGetStatus (c : Cmd)
  | portGetLane (c : Cmd)
  | portEyeScan (c : Cmd)
  | portEyeRead (c : Cmd)
  | ingestSetPort (c : Cmd)
  | ingestMcast (c : Cmd)
  | ingestSetSource (c : Cmd)
  | ingestLoadMap (c : Cmd)
  | ingestApplyMap (c : Cmd)
  | ingestLoadGain (c : Cmd)
  | ingestApplyGain (c : Cmd)
  | ingestSetTiming (c : Cmd)
  | ingestGetPort (c : Cmd)
  | ingestGetInput (c : Cmd)
  | corrLoadCoarse (c : Cmd)
  | corrApplyCoarse (c : Cmd)
  | corrGetStaging (c : Cmd)
  | corrSetLayout (c : Cmd)
  | corrStart (c : Cmd)
  | corrStop (c : Cmd)
  | corrGetLayout (c : Cmd)
  | corrGetTiles (c : Cmd)
  | corrSetPreload (c : Cmd)
  | corrLoadFringe (c : Cmd)
  | corrSetRotation (c : Cmd)
  | corrSetCombine (c : Cmd)
  | corrGetAccum (c : Cmd)
  | corrSetDump (c : Cmd)
  | corrDumpAt (c : Cmd)
  | corrSetDest (c : Cmd)
  | corrMapDest (c : Cmd)
  | corrGetDump (c : Cmd)
  | beamSetConfig (c : Cmd)
  | beamLoadWeights (c : Cmd)
  | beamLoadScale (c : Cmd)
  | beamApply (c : Cmd)
  | beamSetDest (c : Cmd)
  | beamGetSet (c : Cmd)
  | filtSetChain (c : Cmd)
  | filtEnable (c : Cmd)
  | filtSync (c : Cmd)
  | filtLoadCoef (c : Cmd)
  | filtApply (c : Cmd)
  | filtGetChain (c : Cmd)
  | timeSetSource (c : Cmd)
  | timeSet (c : Cmd)
  | timeSetPtp (c : Cmd)
  | timeSetPtpPort (c : Cmd)
  | timeSetPulse (c : Cmd)
  | timeSetEvt (c : Cmd)
  | timeSetMapping (c : Cmd)
  | timeConvert (c : Cmd)
  | timeSetEpoch (c : Cmd)
  | timeLoadDelay (c : Cmd)
  | timeApplyDelay (c : Cmd)
  | timeResync (c : Cmd)
  | timeGetStatus (c : Cmd)
  | freranSetNode (c : Cmd)
  | freranSetPort (c : Cmd)
  | freranArm (c : Cmd)
  | freranGetStatus (c : Cmd)
  | corrSetSplit (c : Cmd)
  | capSetRing (c : Cmd)
  | capSetSegment (c : Cmd)
  | capSetDetector (c : Cmd)
  | capArm (c : Cmd)
  | capTrigger (c : Cmd)
  | capSetDest (c : Cmd)
  | capGetStatus (c : Cmd)
  | eventSetRoute (c : Cmd)
  | eventSetMode (c : Cmd)
  | eventFire (c : Cmd)
  | eventSetQueue (c : Cmd)
  | eventGetStatus (c : Cmd)
  | ownClaim (c : Cmd)
  | ownRelease (c : Cmd)
  | ownKeepalive (c : Cmd)
  | ownHandover (c : Cmd)
  | ownSetLease (c : Cmd)
  | ownSetPolicy (c : Cmd)
  | ownGetChallenge (c : Cmd)
  | ownGetStatus (c : Cmd)
  | devGetInfo (c : Cmd)
  | devGetStatus (c : Cmd)
  | devQueryOpcode (c : Cmd)
  | devSetMgmt (c : Cmd)
  | devGetMgmt (c : Cmd)
  | devSetLabel (c : Cmd)
  | diagEcho (c : Cmd)
  | diagBatch (c : Cmd)
  | diagReadCsr (c : Cmd)
  | diagWriteCsr (c : Cmd)
  | diagReadMem (c : Cmd)
  | diagWriteMem (c : Cmd)
  | memSetHost (c : Cmd)
  | memGetErrors (c : Cmd)
  | memGetStats (c : Cmd)
  | ringCreate (c : Cmd)
  | ringDelete (c : Cmd)
  | dmaSetChannel (c : Cmd)
  | dmaStop (c : Cmd)
  | ringGetStatus (c : Cmd)
  | dmaGetStatus (c : Cmd)
  | mcRehearse (c : Cmd)
  | mcGetStatus (c : Cmd)
  | spareSetAudit (c : Cmd)
  | spareRetire (c : Cmd)
  | spareGetStatus (c : Cmd)
  | jrnlGetStatus (c : Cmd)
  | jrnlCompact (c : Cmd)
  | jrnlRead (c : Cmd)
  | pwrSetDomain (c : Cmd)
  | pwrGetDomains (c : Cmd)
  | pwrQuiesce (c : Cmd)
  | pwrReset (c : Cmd)
  | secGetIdentity (c : Cmd)
  | secAttest (c : Cmd)
  | secSetCmdKey (c : Cmd)
  | secSetSignPolicy (c : Cmd)
  | secOtpRotate (c : Cmd)
  | secOtpRevoke (c : Cmd)
  | secFwStage (c : Cmd)
  | secFwActivate (c : Cmd)
  | mgmtDatagramReceive (port : Fin 2) (f : Frame)
  | smbusBlockWrite (target : SmbusTarget) (data : List Byte) (pec : Option Byte)
  | smbusBlockRead (target : SmbusTarget)
  | commandQueueRead (q : Nat) (element : Option (List Byte))
  | qzSnapTake (value : Nat)
  | erSwFire (value : Nat)
  | erCfire (value : Nat)
  | erConfigWrite (offset value : Nat)
  | mxCtrlRemap (value : Nat) (master : Nat)
  | rqDb (q value : Nat)
  | rqCfgEnable (q value : Nat)
  | btRecData (value : Nat)
  | btRecGo (value : Nat)
  | hcInjAddr (stack : Fin 4) (value : Nat)
  | csrWrite (addr value : Nat) (master : Nat)
  | pcieInboundRead (place : BarPlace) (len : Nat)
  | pcieInboundWrite (place : BarPlace) (data : List Byte)
  | pcieOutboundTimeout (user : OutboundUser)
  | ethFrameReceive (port : Fin 80) (f : Frame)
  | klpPacketReceive (port : Fin 80) (bytes : List Byte)
  | heldPartRelease
  | visitHoldExpiry (channel visit : Nat)
  | uncorrectableCodeword (lane : Fin 80) (packets : Nat)
  | sfmReceive (lane : Fin 80) (block : List Byte)
  | sfmTransmit (port : Fin 80)
  | laneLock (lane : Fin 80) (step : LockStep)
  | polarityTryTimeout (lane : Fin 80)
  | bringupRetry (lane : Fin 80)
  | laneLockLoss (lane : Fin 80) (cause : LossCause)
  | shedAgreeTimeout (port : Fin 80)
  | eyeScanDone (lane : Fin 80) (errors : List Nat)
  | mcastReportRepeat (port : Fin 80)
  | mcastQueryResponse (port : Fin 80)
  | micaLoadStart
  | shedVisitSkip (channel visit : Nat)
  | micaLoadComplete
  | visitStart
  | visitDeadline (channel visit : Nat)
  | tileVisitComplete (slot : Nat) (upsets : List Upset)
  | basaltVisitProcess
  | dumpPass (channel : Nat)
  | dumpWeightFrames (channel : Nat)
  | dumpDone (channel : Nat)
  | roundEnd
  | slotMove (slot tile : Nat)
  | slotWithdraw (slot : Nat)
  | beamSwapDone (set : Fin 16)
  | chainVisitProcess (chain : Fin 32)
  | filterSwapDone
  | partialFrameReceive (port : Fin 80) (f : Frame)
  | combineTimeout (channel : Nat)
  | refInLock
  | refInLoss
  | ppsEdge (phase : Nat)
  | ppsHoldoverTimeout
  | ptpMessageReceive (port : PtpPort) (bytes : List Byte)
  | ptpMessageSend (port : PtpPort) (kind : PtpSend)
  | ptpHoldoverTimeout
  | suspectHoldoverTimeout
  | pulseEdge (gen : Fin 8)
  | evtEdge (pin : Fin 16) (edge : LineEdge)
  | epochEvent
  | replicaDissent (replica : Fin 3) (fault : ReplicaFault)
  | replicaRejoin (replica : Fin 3)
  | majorityReturn
  | freranMessageReceive (port : Fin 2) (message : FreranArrival)
  | freranEchoSend (ask : FreranAsk)
  | freranLinkTimeout (port : Fin 2)
  | freranWindowClose
  | freranRearm
  | captureWindowClose
  | segmentEnd
  | autoForcedTrigger
  | segmentDone
  | eventDelivery
  | dmaDescriptorStart (channel : Nat) (element : Option (List Byte))
  | dmaDescriptorComplete (channel : Nat) (outcome : DmaOutcome)
  | msixCoalesceExpiry (q : Nat)
  | dmaDrainTimeout
  | scrubRead (stack : Fin 4)
  | heartbeat (core : Fin 2)
  | tokenExpiry
  | watchdogExpiry (core : Fin 2)
  | coreFault (fault : CoreFault)
  | standbyTakeover
  | coreBootClaim (core : Fin 2)
  | challengeExpiry (client : Client)
  | pcieReset (event : PcieResetEvent)
  | powerOnReset (event : PowerOn)
  | pwrResetFire
  | bootRom (core : Fin 2)
  | serviceBringUp (report : BootReport)
  | domainPowerUpDone (domain : Fin 96)
  | domainFence (domain : Fin 96) (outstanding : List FencePiece)
  | quiescePinLow
  | quiescePinHigh
  | quiesceDone
  | quiesceTimeout
  | journalCommitDone (failing : List Nat)
  | compactionStepDone (failing : List Nat)
  | auditStepDue
  | auditStep
  | faultMove (slot : Nat)
  | bistDone (tile : Nat) (pass : Bool) (rows : List Nat)
  | egressFrameSent (port : Nat)
  | pulseTrailingEdge (gen : Fin 8)
  | quiesceAckPulseEnd
  | mgmtLinkChange (port : Fin 2) (up : Bool)
  | pcieLinkUp (gen width : Nat)
  deriving DecidableEq, Repr

end Sys2Proof
end

