-- ==== Sys2Proof/WellFormed.lean ====
section
/-! DEFINITION. Which commands and events can be presented to the device at all: fields within the width of their wires,
packets within what R383 to R385 let through. -/

namespace Sys2Proof

/-- R387: the forms of a client. -/
def Client.wf (c : Client) : Bool :=
  c.addr.length = 16 && c.port < 65536 &&
  (match c.ep with
   | 0 => c.family = 0 && c.port < 4096 && c.addr.all (· == 0)
   | 3 => c.family = 0 && c.port = 0 && c.addr.all (· == 0)
   | _ => c.family = 6 || (c.family = 4 && (c.addr.drop 4).all (· == 0)))

def IgnoredBits.wf (b : IgnoredBits) : Bool :=
  b.verNibble < 16 && b.flagsHigh < 2 ^ 13 && b.status < 256 && b.tail.length = 3

/-- R383 to R385: a command packet that is neither discarded nor answered for its form. -/
def Cmd.wf (c : Cmd) : Bool :=
  c.client.wf && c.params.length ≤ 1280 && c.ignored.wf && c.via < 2 ^ 48 &&
  (if c.v2 then c.seq < 2 ^ 32 else c.seq < 2 ^ 16 && c.tag.isNone && c.sig.isNone) &&
  (match c.tag with | none => true | some t => t.sec < 2 ^ 48 && t.ns < 2 ^ 32 && t.frac < 2 ^ 16) &&
  (match c.sig with | none => true | some g => g.keySlot < 256 && g.r < 2 ^ 384 && g.s < 2 ^ 384)

/-- An Ethernet frame as a port receives it, of at most 9,216 bytes (R58): headers, tags and payload, the FCS not counted
(DESIGN CHOICE: the manual does not say which; log entry 104). -/
def Frame.wf (f : Frame) : Bool :=
  f.dst < 2 ^ 48 && f.src < 2 ^ 48 && f.tags.all (· < 65536) && f.etherType < 65536 &&
  f.payload.length + 14 + 4 * f.tags.length ≤ 9216

/-- R428: a window's size in bytes. -/
def Bar.size : Bar → Nat
  | .csr => 2 ^ 28
  | .hbm => 2 ^ 37

/-- R428: the matrix address of an offset in a window. -/
def Bar.address (b : Bar) (off : Nat) : Nat := (match b with | .csr => 0x80000000 | .hbm => 0x1000000000) + off

/-- R438, R433, R431: a cut piece lies within an aligned 256-byte block of BAR2, and was delivered beat by beat. -/
def InboundCut.wf (c : InboundCut) : Bool :=
  c.others + c.piece.toList.length ≤ 1024 &&
  (match c.piece with
   | none => true
   | some (off, bs) => off % 256 + bs.length ≤ 256 && off + bs.length ≤ 2 ^ 37)

/-- An operand list that some sender or some event can present, for every command and event. -/
def Instr.wf : Instr → Bool
  | .pwrSetOp c => c.wf
  | .pwrGetOp c => c.wf
  | .corrSetShed c => c.wf
  | .corrGetLoad c => c.wf
  | .portSetQuad c => c.wf
  | .portSetLane c => c.wf
  | .portSetKlp c => c.wf
  | .portGetStatus c => c.wf
  | .portGetLane c => c.wf
  | .portEyeScan c => c.wf
  | .portEyeRead c => c.wf
  | .ingestSetPort c => c.wf
  | .ingestMcast c => c.wf
  | .ingestSetSource c => c.wf
  | .ingestLoadMap c => c.wf
  | .ingestApplyMap c => c.wf
  | .ingestLoadGain c => c.wf
  | .ingestApplyGain c => c.wf
  | .ingestSetTiming c => c.wf
  | .ingestGetPort c => c.wf
  | .ingestGetInput c => c.wf
  | .corrLoadCoarse c => c.wf
  | .corrApplyCoarse c => c.wf
  | .corrGetStaging c => c.wf
  | .corrSetLayout c => c.wf
  | .corrStart c => c.wf
  | .corrStop c => c.wf
  | .corrGetLayout c => c.wf
  | .corrGetTiles c => c.wf
  | .corrSetPreload c => c.wf
  | .corrLoadFringe c => c.wf
  | .corrSetRotation c => c.wf
  | .corrSetCombine c => c.wf
  | .corrGetAccum c => c.wf
  | .corrSetDump c => c.wf
  | .corrDumpAt c => c.wf
  | .corrSetDest c => c.wf
  | .corrMapDest c => c.wf
  | .corrGetDump c => c.wf
  | .beamSetConfig c => c.wf
  | .beamLoadWeights c => c.wf
  | .beamLoadScale c => c.wf
  | .beamApply c => c.wf
  | .beamSetDest c => c.wf
  | .beamGetSet c => c.wf
  | .filtSetChain c => c.wf
  | .filtEnable c => c.wf
  | .filtSync c => c.wf
  | .filtLoadCoef c => c.wf
  | .filtApply c => c.wf
  | .filtGetChain c => c.wf
  | .timeSetSource c => c.wf
  | .timeSet c => c.wf
  | .timeSetPtp c => c.wf
  | .timeSetPtpPort c => c.wf
  | .timeSetPulse c => c.wf
  | .timeSetEvt c => c.wf
  | .timeSetMapping c => c.wf
  | .timeConvert c => c.wf
  | .timeSetEpoch c => c.wf
  | .timeLoadDelay c => c.wf
  | .timeApplyDelay c => c.wf
  | .timeResync c => c.wf
  | .timeGetStatus c => c.wf
  | .freranSetNode c => c.wf
  | .freranSetPort c => c.wf
  | .freranArm c => c.wf
  | .freranGetStatus c => c.wf
  | .corrSetSplit c => c.wf
  | .capSetRing c => c.wf
  | .capSetSegment c => c.wf
  | .capSetDetector c => c.wf
  | .capArm c => c.wf
  | .capTrigger c => c.wf
  | .capSetDest c => c.wf
  | .capGetStatus c => c.wf
  | .eventSetRoute c => c.wf
  | .eventSetMode c => c.wf
  | .eventFire c => c.wf
  | .eventSetQueue c => c.wf
  | .eventGetStatus c => c.wf
  | .ownClaim c => c.wf
  | .ownRelease c => c.wf
  | .ownKeepalive c => c.wf
  | .ownHandover c => c.wf
  | .ownSetLease c => c.wf
  | .ownSetPolicy c => c.wf
  | .ownGetChallenge c => c.wf
  | .ownGetStatus c => c.wf
  | .devGetInfo c => c.wf
  | .devGetStatus c => c.wf
  | .devQueryOpcode c => c.wf
  | .devSetMgmt c => c.wf
  | .devGetMgmt c => c.wf
  | .devSetLabel c => c.wf
  | .diagEcho c => c.wf
  | .diagBatch c => c.wf
  | .diagReadCsr c => c.wf
  | .diagWriteCsr c => c.wf
  | .diagReadMem c => c.wf
  | .diagWriteMem c => c.wf
  | .memSetHost c => c.wf
  | .memGetErrors c => c.wf
  | .memGetStats c => c.wf
  | .ringCreate c => c.wf
  | .ringDelete c => c.wf
  | .dmaSetChannel c => c.wf
  | .dmaStop c => c.wf
  | .ringGetStatus c => c.wf
  | .dmaGetStatus c => c.wf
  | .mcRehearse c => c.wf
  | .mcGetStatus c => c.wf
  | .spareSetAudit c => c.wf
  | .spareRetire c => c.wf
  | .spareGetStatus c => c.wf
  | .jrnlGetStatus c => c.wf
  | .jrnlCompact c => c.wf
  | .jrnlRead c => c.wf
  | .pwrSetDomain c => c.wf
  | .pwrGetDomains c => c.wf
  | .pwrQuiesce c => c.wf
  | .pwrReset c => c.wf
  | .secGetIdentity c => c.wf
  | .secAttest c => c.wf
  | .secSetCmdKey c => c.wf
  | .secSetSignPolicy c => c.wf
  | .secOtpRotate c => c.wf
  | .secOtpRevoke c => c.wf
  | .secFwStage c => c.wf
  | .secFwActivate c => c.wf
  | .mgmtDatagramReceive _ f => f.wf
  | .smbusBlockWrite target data _ => target.address < 128 && data.length ≤ 255
  | .smbusBlockRead target => target.address < 128
  | .commandQueueRead q element => q < 4096 && (match element with | none => true | some e => e.length ≤ 16384)
  | .qzSnapTake value => value < 2 ^ 64
  | .erSwFire value => value < 2 ^ 64
  | .erCfire value => value < 2 ^ 64
  | .erConfigWrite offset value => offset < 65536 && value < 2 ^ 64
  | .mxCtrlRemap value master => value < 2 ^ 64 && master ≤ 2
  | .rqDb q value => q < 4096 && value < 2 ^ 64
  | .rqCfgEnable q value => q < 4096 && value < 2 ^ 64
  | .btRecData value => value < 2 ^ 64
  | .btRecGo value => value < 2 ^ 64
  | .hcInjAddr _ value => value < 2 ^ 64
  | .csrWrite addr value master => 0x80000000 ≤ addr && addr < 0x90000000 && value < 2 ^ 64 && master ≤ 2
  | .pcieInboundRead place len => place.off + len ≤ place.bar.size && len ≤ 4096
  | .pcieInboundWrite place data => place.off + data.length ≤ place.bar.size && data.length ≤ 4096
  | .pcieOutboundTimeout _ => true
  | .ethFrameReceive _ f => f.wf
  | .klpPacketReceive _ bytes => bytes.length ≤ 9216
  | .heldPartRelease => true
  | .visitHoldExpiry _ _ => true
  | .uncorrectableCodeword _ _ => true
  | .sfmReceive _ block => block.length = 32
  | .sfmTransmit _ => true
  | .laneLock _ _ => true
  | .polarityTryTimeout _ => true
  | .bringupRetry _ => true
  | .laneLockLoss _ _ => true
  | .shedAgreeTimeout _ => true
  | .eyeScanDone _ errors => errors.all (· < 2 ^ 37)
  | .mcastReportRepeat _ => true
  | .mcastQueryResponse _ => true
  | .micaLoadStart => true
  | .shedVisitSkip _ _ => true
  | .micaLoadComplete => true
  | .visitStart => true
  | .visitDeadline _ _ => true
  | .tileVisitComplete _ _ => true
  | .basaltVisitProcess => true
  | .dumpPass _ => true
  | .dumpWeightFrames _ => true
  | .dumpDone _ => true
  | .roundEnd => true
  | .slotMove _ _ => true
  | .slotWithdraw _ => true
  | .beamSwapDone _ => true
  | .chainVisitProcess _ => true
  | .filterSwapDone => true
  | .partialFrameReceive _ f => f.wf
  | .combineTimeout _ => true
  | .refInLock => true
  | .refInLoss => true
  | .ppsEdge phase => phase < 16
  | .ppsHoldoverTimeout => true
  | .ptpMessageReceive _ bytes => bytes.length ≤ 1500
  | .ptpMessageSend _ _ => true
  | .ptpHoldoverTimeout => true
  | .suspectHoldoverTimeout => true
  | .pulseEdge _ => true
  | .evtEdge _ edge => edge.phase < 16
  | .epochEvent => true
  | .replicaDissent _ fault => (match fault with | .time v => v < 2 ^ 48 * 1000000000 * 2 ^ 48 | .output => true | .conversion => true | .delay i => i < 4096)
  | .replicaRejoin _ => true
  | .majorityReturn => true
  | .freranMessageReceive _ message => message.bytes.length = 36 && message.phase < 65536
  | .freranEchoSend ask => ask.phase < 65536
  | .freranLinkTimeout _ => true
  | .freranWindowClose => true
  | .freranRearm => true
  | .captureWindowClose => true
  | .segmentEnd => true
  | .autoForcedTrigger => true
  | .segmentDone => true
  | .eventDelivery => true
  | .dmaDescriptorStart _ _ => true
  | .dmaDescriptorComplete _ _ => true
  | .msixCoalesceExpiry _ => true
  | .dmaDrainTimeout => true
  | .scrubRead _ => true
  | .heartbeat _ => true
  | .tokenExpiry => true
  | .watchdogExpiry _ => true
  | .coreFault fault => (match fault.sram with
    | none => true
    | some (unit, words) => unit < 0x400000 && unit % 32 = 0 && 0 < words && words < 16)
  | .standbyTakeover => true
  | .coreBootClaim _ => true
  | .challengeExpiry client => client.wf
  | .pcieReset event => event.cut.wf
  | .powerOnReset event => (match event.rotation with | none => true | some r => r.1.length = 248)
  | .pwrResetFire => true
  | .bootRom _ => true
  | .serviceBringUp report => report.badTiles.all (· < 272) && report.badRows.all fun r => r.1 < 65536 && r.2 < 65536
  | .domainPowerUpDone _ => true
  | .domainFence _ outstanding => outstanding.all fun p => p.addr < 2 ^ 48 && 0 < p.len && p.addr % 256 + p.len ≤ 256
  | .quiescePinLow => true
  | .quiescePinHigh => true
  | .quiesceDone => true
  | .quiesceTimeout => true
  | .journalCommitDone _ => true
  | .compactionStepDone _ => true
  | .auditStepDue => true
  | .auditStep => true
  | .faultMove _ => true
  | .bistDone _ _ rows => rows.all (· < 512)
  | .egressFrameSent _ => true
  | .pulseTrailingEdge _ => true
  | .quiesceAckPulseEnd => true
  | .mgmtLinkChange _ _ => true
  | .pcieLinkUp _ _ => true

end Sys2Proof
end

