-- ==== Sys2Proof/Decode.lean ====
section
/-! DEFINITION. Decoding a word of the table: the table gives no row any bits, so no word spells a command. -/

namespace Sys2Proof

/-- The command that a word of `nbits` bits spells by the table's bits. Commands are packets (R383), and events are no words. -/
def decodeTableWord (_nbits _w : Nat) : Option Instr := none

end Sys2Proof
end

