-- ==== Sys2Proof/Machine/Flags.lean ====
section
/-! DEFINITION. Flags: bits of register and record words, counted from the least significant (R11), and the sticky alarm
bits (R414). -/

namespace Sys2Proof.Machine

/-- Bit `i` of `n`. -/
def bit (n i : Nat) : Bool := n / 2 ^ i % 2 = 1

def b2n (b : Bool) : Nat := if b then 1 else 0

/-- Set or clear bit `i` of `n`. -/
def withBit (n i : Nat) (v : Bool) : Nat :=
  if bit n i = v then n else if v then n + 2 ^ i else n - 2 ^ i

/-- Indices of the set bits below `w`, ascending. -/
def bitsOf (w n : Nat) : List Nat := (List.range w).filter (bit n)

/-- R414: the sticky bit of a producer. -/
def stickyBit (p : Nat) : Option Nat :=
  if p = 179 then some 0 else if p = 180 then some 1 else if p = 195 then some 2 else if p = 182 then some 3
  else if p = 184 then some 4 else if p = 193 then some 5 else if p = 194 then some 6 else if p = 170 then some 7
  else none

end Sys2Proof.Machine
end

