-- ==== Sys2Proof/Machine/Operands.lean ====
section
/-! DEFINITION. Operand forms: byte order of packets and records (R11, R382), fields of a parameter layout, sparse
tables, exact rounding, instants. -/

namespace Sys2Proof.Machine

/-! ## Byte order -/

/-- Network byte order, most significant byte first (R11, R382). -/
def beNat (bs : List Byte) : Nat := bs.foldl (fun acc b => acc * 256 + b.toNat) 0

/-- Little-endian, least significant byte first (R11). -/
def leNat : List Byte → Nat
  | [] => 0
  | b :: bs => b.toNat + 256 * leNat bs

/-- `size` bytes of `n`, most significant first; higher bits are cut. -/
def beBytes : Nat → Nat → List Byte
  | 0, _ => []
  | size + 1, n => BitVec.ofNat 8 (n / 256 ^ size) :: beBytes size n

/-- `size` bytes of `n`, least significant first. -/
def leBytes : Nat → Nat → List Byte
  | 0, _ => []
  | size + 1, n => BitVec.ofNat 8 n :: leBytes size (n / 256)

/-- A counter that never wraps, in a field of `size` bytes: it stands at the largest value (R408 and its like). -/
def beCount (size n : Nat) : List Byte := beBytes size (min n (256 ^ size - 1))

def zeros (n : Nat) : List Byte := List.replicate n 0

def slice {α : Type} (l : List α) (off len : Nat) : List α := (l.drop off).take len

/-- Exactly `len` elements, padded with `d`. -/
def padTo {α : Type} (d : α) (len : Nat) (l : List α) : List α := l.take len ++ List.replicate (len - l.length) d

def insertBy {α : Type} (key : α → Nat) (x : α) : List α → List α
  | [] => [x]
  | y :: t => if key y ≤ key x then y :: insertBy key x t else x :: y :: t

/-- In ascending order of a key, those of one key as they stand. -/
def sortBy {α : Type} (key : α → Nat) (l : List α) : List α := l.foldl (fun a x => insertBy key x a) []

/-- The field of `size` bytes at `off` of a parameter block (R382). -/
def fld (p : List Byte) (off size : Nat) : Nat := beNat (slice p off size)

/-- Two's complement: the integer that the low `bits` bits of `n` spell. -/
def toSigned (bits n : Nat) : Int :=
  let m := n % 2 ^ bits
  if m < 2 ^ (bits - 1) then (m : Int) else (m : Int) - 2 ^ bits

/-- Two's complement: the low `bits` bits of an integer. -/
def ofSigned (bits : Nat) (i : Int) : Nat := (i % (2 ^ bits : Int)).toNat

/-- A signed field of `size` bytes at `off`. -/
def sfld (p : List Byte) (off size : Nat) : Int := toSigned (8 * size) (fld p off size)

/-- Little-endian field of a record or descriptor. -/
def lfld (p : List Byte) (off size : Nat) : Nat := leNat (slice p off size)

/-- Signed saturation to `bits` bits. -/
def satInt (bits : Nat) (i : Int) : Int :=
  max (-(2 ^ (bits - 1) : Int)) (min ((2 ^ (bits - 1) : Int) - 1) i)

/-! ## Rounding -/

/-- `⌈a / b⌉` of naturals. -/
def ceilDiv (a b : Nat) : Nat := (a + b - 1) / b

def roundUp (a m : Nat) : Nat := ceilDiv a m * m

/-- `a / b`, `b > 0`, to the nearest integer, ties to even. -/
def roundHalfEven (a : Int) (b : Nat) : Int :=
  let q := a / (b : Int)
  let r := a % (b : Int)
  if 2 * r < b then q else if 2 * r > b then q + 1 else if q % 2 = 0 then q else q + 1

/-- Serial-number order of `w`-bit counters: `a` is later than `b` (R391, R500, R522). -/
def serialAfter (w a b : Nat) : Bool :=
  let d := (a + 2 ^ w - b % 2 ^ w) % 2 ^ w
  1 ≤ d && d < 2 ^ (w - 1)

/-! ## Sparse tables: keys strictly rising, no entry equal to the default -/

def kvGet {α : Type} (d : α) : KV α → Nat → α
  | [], _ => d
  | (a, v) :: t, k => if a = k then v else if k < a then d else kvGet d t k

def kvSet {α : Type} [DecidableEq α] (d : α) : KV α → Nat → α → KV α
  | [], k, v => if v = d then [] else [(k, v)]
  | (a, w) :: t, k, v =>
    if k < a then (if v = d then (a, w) :: t else (k, v) :: (a, w) :: t)
    else if k = a then (if v = d then t else (k, v) :: t)
    else (a, w) :: kvSet d t k v

/-- Canonical form: keys strictly rising and no entry equal to the default. -/
def kvWf {α : Type} [DecidableEq α] (d : α) : KV α → Bool
  | [] => true
  | (a, v) :: t => decide (v ≠ d) && (match t with | [] => true | (b, _) :: _ => decide (a < b)) && kvWf d t

/-- The entries of `a`, and those of `b` under other keys. -/
def kvOver {α : Type} : KV α → KV α → KV α
  | [], b => b
  | (k, v) :: t, b => b.takeWhile (·.1 < k) ++ (k, v) :: kvOver t (b.dropWhile (·.1 ≤ k))

def kvBump (m : KV Nat) (k by_ : Nat) : KV Nat := kvSet 0 m k (kvGet 0 m k + by_)

/-- A run of bytes into sparse memory. -/
def memWrite (d : Byte) (m : KV Byte) (addr : Nat) : List Byte → KV Byte
  | [] => m
  | b :: bs => memWrite d (kvSet d m addr b) (addr + 1) bs

def memRead (d : Byte) (m : KV Byte) (addr len : Nat) : List Byte :=
  (List.range len).map fun i => kvGet d m (addr + i)

/-- The stretch of a sparse memory with addresses in `[addr, addr + len)` returns to the default. -/
def memErase (m : KV Byte) (addr len : Nat) : KV Byte :=
  m.filter fun e => e.1 < addr || addr + len ≤ e.1

/-! ## Settings that a sample index switches (R19, R20, R556) -/

/-- The first index of channel `c` that an entry governs. -/
def whenStart (w : When) (c : Nat) : Nat :=
  match w with
  | .idx s => s
  | .chans l rest => l.getD c rest

/-- The value in force for channel `c` at index `x`: of the entries that have started, the last accepted one among
those with the greatest start. -/
def schedAt {α : Type} (s : Sched α) (c x : Nat) : α :=
  let rec go : α → Nat → List (When × α) → α
    | v, _, [] => v
    | v, from_, (w, u) :: t =>
      let st := whenStart w c
      if st ≤ x && from_ ≤ st then go u st t else go v from_ t
  go s.base 0 s.later

/-- The entries that have taken effect: those `done` says so of, and those that name the next visit of each channel. -/
def whenSettled (done : When → Bool) (w : When) : Bool := match w with | .idx _ => done w | .chans _ _ => true

/-- At the end of a schedule, what has taken effect stays in force whatever index follows (R19, R556). -/
def schedSettle {α : Type} (done : When → Bool) (c : Nat) (x : Sched α) : Sched α :=
  { base := schedAt { x with later := x.later.filter fun e => whenSettled done e.1 } c noIndex,
    later := x.later.filter fun e => !whenSettled done e.1 }

/-- Pieces of at most `n` elements. -/
def chunks {α : Type} (n : Nat) (l : List α) : List (List α) :=
  if n = 0 then [] else (List.range (ceilDiv l.length n)).map fun i => slice l (i * n) n

end Sys2Proof.Machine

namespace Sys2Proof

/-- A successor is accepted. -/
def Sched.push {α : Type} (x : Sched α) (w : When) (v : α) : Sched α := { x with later := x.later ++ [(w, v)] }

/-! ## Instants (R279) -/

/-- Time units of 2^-16 ns. -/
def Instant.units (t : Instant) : Nat := (t.sec * 1000000000 + t.ns) * 65536 + t.frac

/-- R382: a nanoseconds field above 999,999,999 is no instant. -/
def Instant.ok (t : Instant) : Bool := t.ns ≤ 999999999

end Sys2Proof

namespace Sys2Proof.Machine

def instantOf (units : Nat) : Instant :=
  ⟨units / 65536 / 1000000000, units / 65536 % 1000000000, units % 65536⟩

/-- 12 bytes in a command parameter or reply (R382). -/
def beInstant (t : Instant) : List Byte := beBytes 6 t.sec ++ beBytes 4 t.ns ++ beBytes 2 t.frac

/-- 12 bytes in a little-endian record (R371, R448). -/
def leInstant (t : Instant) : List Byte := leBytes 6 t.sec ++ leBytes 4 t.ns ++ leBytes 2 t.frac

def instantAt (p : List Byte) (off : Nat) : Instant := ⟨fld p off 6, fld p (off + 6) 4, fld p (off + 10) 2⟩

end Sys2Proof.Machine
end

