-- ==== Sys2Proof/Machine/Crypto.lean ====
section
/-! DEFINITION. CRC-32C, SHA-384 and ECDSA verification on brainpoolP384r1 (R393, R500, R523, R531). The manual names
these algorithms and gives none of their constants; they are the published ones (log entry 4, PRESUMED). -/

namespace Sys2Proof.Machine

/-! ## CRC-32C -/

def crcBits : Nat → Nat → Nat
  | 0, c => c
  | n + 1, c => crcBits n (if c % 2 = 1 then (c / 2) ^^^ 0x82F63B78 else c / 2)

/-- CRC-32C (Castagnoli), reflected, initial value and final complement all ones. -/
def crc32c (bs : List Byte) : Nat :=
  (bs.foldl (fun c b => crcBits 8 (c ^^^ b.toNat)) 0xFFFFFFFF) ^^^ 0xFFFFFFFF

/-! ## SHA-384 -/

def shaK : List Nat :=
  [0x428A2F98D728AE22, 0x7137449123EF65CD, 0xB5C0FBCFEC4D3B2F, 0xE9B5DBA58189DBBC, 0x3956C25BF348B538, 0x59F111F1B605D019, 0x923F82A4AF194F9B, 0xAB1C5ED5DA6D8118, 0xD807AA98A3030242, 0x12835B0145706FBE, 0x243185BE4EE4B28C, 0x550C7DC3D5FFB4E2, 0x72BE5D74F27B896F, 0x80DEB1FE3B1696B1, 0x9BDC06A725C71235, 0xC19BF174CF692694, 0xE49B69C19EF14AD2, 0xEFBE4786384F25E3, 0x0FC19DC68B8CD5B5, 0x240CA1CC77AC9C65] ++
  [0x2DE92C6F592B0275, 0x4A7484AA6EA6E483, 0x5CB0A9DCBD41FBD4, 0x76F988DA831153B5, 0x983E5152EE66DFAB, 0xA831C66D2DB43210, 0xB00327C898FB213F, 0xBF597FC7BEEF0EE4, 0xC6E00BF33DA88FC2, 0xD5A79147930AA725, 0x06CA6351E003826F, 0x142929670A0E6E70, 0x27B70A8546D22FFC, 0x2E1B21385C26C926, 0x4D2C6DFC5AC42AED, 0x53380D139D95B3DF, 0x650A73548BAF63DE, 0x766A0ABB3C77B2A8, 0x81C2C92E47EDAEE6, 0x92722C851482353B] ++
  [0xA2BFE8A14CF10364, 0xA81A664BBC423001, 0xC24B8B70D0F89791, 0xC76C51A30654BE30, 0xD192E819D6EF5218, 0xD69906245565A910, 0xF40E35855771202A, 0x106AA07032BBD1B8, 0x19A4C116B8D2D0C8, 0x1E376C085141AB53, 0x2748774CDF8EEB99, 0x34B0BCB5E19B48A8, 0x391C0CB3C5C95A63, 0x4ED8AA4AE3418ACB, 0x5B9CCA4F7763E373, 0x682E6FF3D6B2B8A3, 0x748F82EE5DEFB2FC, 0x78A5636F43172F60, 0x84C87814A1F0AB72, 0x8CC702081A6439EC] ++
  [0x90BEFFFA23631E28, 0xA4506CEBDE82BDE9, 0xBEF9A3F7B2C67915, 0xC67178F2E372532B, 0xCA273ECEEA26619C, 0xD186B8C721C0C207, 0xEADA7DD6CDE0EB1E, 0xF57D4F7FEE6ED178, 0x06F067AA72176FBA, 0x0A637DC5A2C898A6, 0x113F9804BEF90DAE, 0x1B710B35131C471B, 0x28DB77F523047D84, 0x32CAAB7B40C72493, 0x3C9EBE0A15C9BEBC, 0x431D67C49C100D4C, 0x4CC5D4BECB3E42B6, 0x597F299CFC657E2A, 0x5FCB6FAB3AD6FAEC, 0x6C44198C4A475817]

def shaInit : List Nat :=
  [0xCBBB9D5DC1059ED8, 0x629A292A367CD507, 0x9159015A3070DD17, 0x152FECD8F70E5939, 0x67332667FFC00B31, 0x8EB44A8768581511, 0xDB0C2E0D64F98FA7, 0x47B5481DBEFA4FA4]

def rotr64 (n x : Nat) : Nat := (x >>> n ||| x <<< (64 - n)) % 2 ^ 64

/-- The 64 words that follow the block's 16, newest first in `w`. -/
def shaExtend : Nat → List Nat → List Nat
  | 0, w => w
  | n + 1, w =>
    let g i := w.getD i 0
    let s0 := rotr64 1 (g 14) ^^^ rotr64 8 (g 14) ^^^ g 14 >>> 7
    let s1 := rotr64 19 (g 1) ^^^ rotr64 61 (g 1) ^^^ g 1 >>> 6
    shaExtend n ((g 15 + s0 + g 6 + s1) % 2 ^ 64 :: w)

/-- The eight working words. -/
structure ShaRegs where
  a : Nat
  b : Nat
  c : Nat
  d : Nat
  e : Nat
  f : Nat
  g : Nat
  h : Nat

def shaRound (r : ShaRegs) (kw : Nat × Nat) : ShaRegs :=
  let s1 := rotr64 14 r.e ^^^ rotr64 18 r.e ^^^ rotr64 41 r.e
  let ch := (r.e &&& r.f) ^^^ ((2 ^ 64 - 1 - r.e) &&& r.g)
  let t1 := r.h + s1 + ch + kw.1 + kw.2
  let s0 := rotr64 28 r.a ^^^ rotr64 34 r.a ^^^ rotr64 39 r.a
  let maj := (r.a &&& r.b) ^^^ (r.a &&& r.c) ^^^ (r.b &&& r.c)
  ⟨(t1 + s0 + maj) % 2 ^ 64, r.a, r.b, r.c, (r.d + t1) % 2 ^ 64, r.e, r.f, r.g⟩

def shaBlock (st : List Nat) (block : List Byte) : List Nat :=
  let w16 := ((List.range 16).map fun i => beNat (slice block (8 * i) 8)).reverse
  let w := (shaExtend 64 w16).reverse
  let g i := st.getD i 0
  let r := (shaK.zip w).foldl shaRound ⟨g 0, g 1, g 2, g 3, g 4, g 5, g 6, g 7⟩
  (st.zip [r.a, r.b, r.c, r.d, r.e, r.f, r.g, r.h]).map fun x => (x.1 + x.2) % 2 ^ 64

def shaBlocks : Nat → List Nat → List Byte → List Nat
  | 0, st, _ => st
  | n + 1, st, m => shaBlocks n (shaBlock st (m.take 128)) (m.drop 128)

/-- SHA-384, 48 bytes. -/
def sha384 (m : List Byte) : List Byte :=
  let padLen := (128 - (m.length + 17) % 128) % 128
  let p := m ++ [0x80] ++ zeros padLen ++ beBytes 16 (8 * m.length)
  ((shaBlocks (p.length / 128) shaInit p).take 6).flatMap (beBytes 8)

/-! ## brainpoolP384r1 -/

def bpP : Nat := 0x8CB91E82A3386D280F5D6F7E50E641DF152F7109ED5456B412B1DA197FB71123ACD3A729901D1A71874700133107EC53
def bpA : Nat := 0x7BC382C63D8C150C3C72080ACE05AFA0C2BEA28E4FB22787139165EFBA91F90F8AA5814A503AD4EB04A8C7DD22CE2826
def bpB : Nat := 0x4A8C7DD22CE28268B39B55416F0447C2FB77DE107DCD2A62E880EA53EEB62D57CB4390295DBC9943AB78696FA504C11
def bpGx : Nat := 0x1D1C64F068CF45FFA2A63A81B7C13F6B8847A3E77EF14FE3DB7FCAFE0CBD10E8E826E03436D646AAEF87B2E247D4AF1E
def bpGy : Nat := 0x8ABE1D7520F9C2A45CB1EB8E95CFD55262B70B29FEEC5864E19C054FF99129280E4646217791811142820341263C5315
def bpN : Nat := 0x8CB91E82A3386D280F5D6F7E50E641DF152F7109ED5456B31F166E6CAC0425A7CF3AB6AF6B7FC3103B883202E9046565

/-- `b ^ e mod m`, on the low `fuel` bits of `e`. -/
def powMod (m : Nat) : Nat → Nat → Nat → Nat
  | 0, _, _ => 1 % m
  | fuel + 1, b, e =>
    let r := powMod m fuel (b * b % m) (e / 2)
    if e % 2 = 1 then r * b % m else r

/-- The inverse modulo a prime below 2^384. -/
def invMod (m a : Nat) : Nat := powMod m 384 (a % m) (m - 2)

def subMod (m a b : Nat) : Nat := (a + m - b % m) % m

/-- Addition of affine points; none is the point at infinity. -/
def ecAdd : Option (Nat × Nat) → Option (Nat × Nat) → Option (Nat × Nat)
  | none, q => q
  | p, none => p
  | some (x1, y1), some (x2, y2) =>
    if x1 = x2 && (y1 + y2) % bpP = 0 then none
    else
      let l := if x1 = x2 then (3 * x1 * x1 + bpA) * invMod bpP (2 * y1) % bpP
        else subMod bpP y2 y1 * invMod bpP (subMod bpP x2 x1) % bpP
      let x := subMod bpP (l * l) (x1 + x2)
      some (x, subMod bpP (l * subMod bpP x1 x) y1)

def ecMul : Nat → Nat → Option (Nat × Nat) → Option (Nat × Nat)
  | 0, _, _ => none
  | fuel + 1, k, p =>
    let r := ecMul fuel (k / 2) (ecAdd p p)
    if k % 2 = 1 then ecAdd r p else r

/-- R539: a public key, 0x04 followed by X and Y, names a point on the curve. -/
def pointOf (key : List Byte) : Option (Nat × Nat) :=
  let x := fld key 1 48
  let y := fld key 49 48
  if key.length = 97 && fld key 0 1 = 4 && x < bpP && y < bpP && y * y % bpP = (x * x * x + bpA * x + bpB) % bpP
  then some (x, y) else none

/-- The public key of a private scalar: 0x04, X and Y. -/
def publicKey (d : Nat) : List Byte :=
  match ecMul 384 (d % (bpN - 1) + 1) (some (bpGx, bpGy)) with
  | some (x, y) => [0x04] ++ beBytes 48 x ++ beBytes 48 y
  | none => zeros 97

/-- ECDSA over SHA-384 with a private scalar and the scalar drawn for it: r then s. -/
def ecdsaSign (d nonce : Nat) (message : List Byte) : List Byte :=
  let k := nonce % (bpN - 1) + 1
  let r := match ecMul 384 k (some (bpGx, bpGy)) with | some (x, _) => x % bpN | none => 0
  let s := invMod bpN k * (beNat (sha384 message) + r * (d % (bpN - 1) + 1)) % bpN
  beBytes 48 r ++ beBytes 48 s

/-- ECDSA verification over SHA-384; the digest is 384 bits, as long as the order. -/
def ecdsaVerify (key : List Byte) (r s : Nat) (message : List Byte) : Bool :=
  match pointOf key with
  | none => false
  | some q =>
    if r = 0 || s = 0 || bpN ≤ r || bpN ≤ s then false
    else
      let z := beNat (sha384 message)
      let w := invMod bpN s
      match ecAdd (ecMul 384 (z * w % bpN) (some (bpGx, bpGy))) (ecMul 384 (r * w % bpN) (some q)) with
      | none => false
      | some (x, _) => x % bpN = r

end Sys2Proof.Machine
end

