-- ==== Sys2Proof/Machine/Klp.lean ====
section
/-! DEFINITION. KLP lane framing (R59 to R61): blocks, packets as blocks, the superframe that the device sends on a lane, and
the code of a codeword. The Reed-Solomon field and generator are those of IEEE 802.3 for RS(544,514), and the order of bits
within a symbol is its too (PRESUMED, log entry 106). -/

namespace Sys2Proof.Machine

/-- R59: one block: its header bit (true: data) and its 32 bytes. -/
structure KlpBlock where
  data : Bool
  bytes : List Byte
  deriving DecidableEq, Repr

/-! ## Packets (R61) -/

/-- A packet fits KLP framing (R60). -/
def klpLength (n : Nat) : Bool := decide (64 ≤ n ∧ n ≤ 9216)

def klpIdle : KlpBlock := ⟨false, zeros 32⟩

/-- A packet as its PKT_START block and its data blocks, the last padded with zeros. -/
def klpBlocks (packet : List Byte) : List KlpBlock :=
  ⟨false, [0x1E] ++ beBytes 2 packet.length ++ [0] ++ packet.take 28⟩ ::
    (chunks 32 (packet.drop 28)).map fun c => ⟨true, c ++ zeros (32 - c.length)⟩

/-- The packet that blocks, freed of AM and SFM, spell; none: they are not a PKT_START and the data blocks it asks for. -/
def klpPacketOf : List KlpBlock → Option (List Byte)
  | [] => none
  | b :: rest =>
    let n := fld b.bytes 1 2
    if b.data || fld b.bytes 0 1 ≠ 0x1E || !klpLength n || rest.length ≠ ceilDiv (n - 28) 32 || rest.any (!·.data) then none
    else some ((b.bytes.drop 4 ++ (rest.map (·.bytes)).flatten).take n)

/-- R60: an alignment or superframe marker. -/
def KlpBlock.marker (b : KlpBlock) : Bool := !b.data && (fld b.bytes 0 1 = 0x4B || fld b.bytes 0 1 = 0x78)

/-- R60, R61: the whole packets in the blocks that a lane receives, markers and IDLE blocks aside; what is left of a packet that is
not followed by its data blocks is no packet. -/
def klpReceived (blocks : List KlpBlock) : List (List Byte) :=
  let bs := blocks.filter (!·.marker)
  (List.range bs.length).filterMap fun i =>
    match bs.drop i with
    | [] => none
    | b :: rest => klpPacketOf (b :: rest.take (ceilDiv (fld b.bytes 1 2 - 28) 32))

/-! ## The superframe (R60, R63) -/

/-- An alignment marker: lane id, port width, and its index in the superframe. -/
def klpAm (id width index : Nat) : KlpBlock :=
  ⟨false, [0x4B] ++ beBytes 1 id ++ beBytes 1 width ++ beBytes 1 index ++ zeros 4 ++ List.replicate 24 0x3C⟩

/-- Block `j` of codeword `n` of a superframe that the device sends on a lane: it has no packets to send on a KLP port. -/
def superframeBlock (id width : Nat) (sfm : List Byte) (n j : Nat) : KlpBlock :=
  if n % 1024 = 0 && j = 0 then klpAm id width (n / 1024)
  else if n = 0 && j = 1 then ⟨false, sfm⟩
  else klpIdle

/-! ## Codewords (R59) -/

/-- Product in GF(2^10), reduced by x^10 + x^3 + 1. -/
def gfMul (a b : Nat) : Nat :=
  (List.range 10).foldl (fun acc i =>
    -- from the highest bit of b down: double, reduce, add a
    let d := 2 * acc
    let r := if 1024 ≤ d then d ^^^ 0x409 else d
    if bit b (9 - i) then r ^^^ a else r) 0

def gfPow (n : Nat) : Nat := (List.range n).foldl (fun acc _ => gfMul acc 2) 1

/-- The generator's coefficients below x^30, highest first. -/
def rsGenerator : List Nat :=
  ((List.range 30).foldl (fun (g : List Nat) j =>
    List.zipWith (· ^^^ ·) (g ++ [0]) (0 :: g.map (gfMul (gfPow j)))) [1]).drop 1

/-- The 30 check symbols of 514 symbols. -/
def rsParity (msg : List Nat) : List Nat :=
  let g := rsGenerator
  msg.foldl (fun (reg : List Nat) m =>
    let f := m ^^^ reg.headD 0
    List.zipWith (fun r c => r ^^^ gfMul f c) (reg.drop 1 ++ [0]) g) (List.replicate 30 0)

/-- The bits of a block: the header bit, then each byte from its least significant bit on. -/
def KlpBlock.bits (b : KlpBlock) : List Bool := b.data :: (b.bytes.map fun x => (List.range 8).map fun i => bit x.toNat i).flatten

def symbolOf (bits : List Bool) : Nat := (bits.zipIdx.map fun e => if e.1 then 2 ^ e.2 else 0).sum

/-- 20 blocks as one codeword of 544 symbols. -/
def klpCodeword (blocks : List KlpBlock) : List Nat :=
  let msg := (chunks 10 (blocks.map (·.bits)).flatten).map symbolOf
  msg ++ rsParity msg

/-- Codeword `n` of the superframe. -/
def superframeCodeword (id width : Nat) (sfm : List Byte) (n : Nat) : List Nat :=
  klpCodeword ((List.range 20).map (superframeBlock id width sfm n))

end Sys2Proof.Machine
end

