-- ==== Sys2Proof/Machine/Opcodes.lean ====
section
/-! DEFINITION. The opcode index of R409: for every opcode its version 1 code, access, index parameter, reply and
parameter layout (R412). -/

namespace Sys2Proof.Machine

/-- R409: R, O, C. -/
inductive Access where
  | read | owner | claim
  deriving DecidableEq, Repr

/-- R412: the shape of a parameter layout: sizes of its fields in order, and where a count field adds items. -/
inductive Layout where
  | fixed (fields : List Nat)
  /-- the count is the field of `size` bytes at `off`, from `lo` to `hi`; each item has the given fields, and items of one field
  are one field together -/
  | counted (fields : List Nat) (off size lo hi : Nat) (item : List Nat)
  /-- CORR_LOAD_FRINGE: items of 8 bytes in table 0 and of 4 bytes in table 1 -/
  | fringe
  /-- the body judges the layout (DIAG_ECHO, DIAG_BATCH) -/
  | free (lo hi : Nat)
  deriving DecidableEq, Repr

structure OpRow where
  code : Nat
  /-- 0: none -/
  v1 : Nat
  access : Access
  /-- offset of the index parameter that a time tag fills (R298) -/
  tag : Option Nat
  accepted : Bool
  layout : Layout
  replyMin : Nat
  replyMax : Nat
  deriving DecidableEq, Repr

def rowPwrSetOp : OpRow := ⟨0x0C10, 0xC0, .owner, none, false, .fixed [1, 3], 0, 0⟩
def rowPwrGetOp : OpRow := ⟨0x0C11, 0xC1, .read, none, false, .fixed [], 16, 16⟩
def rowCorrSetShed : OpRow := ⟨0x0640, 0x00, .owner, none, false, .fixed [1, 1, 1, 1, 2, 1, 1], 0, 0⟩
def rowCorrGetLoad : OpRow := ⟨0x0641, 0x6A, .read, none, false, .fixed [], 64, 64⟩
def rowPortSetQuad : OpRow := ⟨0x0401, 0x40, .owner, none, false, .fixed [1, 1, 1, 1, 1, 1, 1, 1, 1, 1, 1, 1], 0, 0⟩
def rowPortSetLane : OpRow := ⟨0x0402, 0x41, .owner, none, false, .fixed [1, 1, 1, 1, 1, 1, 2], 0, 0⟩
def rowPortSetKlp : OpRow := ⟨0x0403, 0x00, .owner, none, false, .fixed [1, 1, 1, 1], 0, 0⟩
def rowPortGetStatus : OpRow := ⟨0x0410, 0x42, .read, none, false, .fixed [1], 88, 88⟩
def rowPortGetLane : OpRow := ⟨0x0411, 0x43, .read, none, false, .fixed [1], 24, 24⟩
def rowPortEyeScan : OpRow := ⟨0x0420, 0x00, .owner, none, true, .fixed [1, 1, 1, 1, 1, 1, 1, 1, 1, 3], 0, 0⟩
def rowPortEyeRead : OpRow := ⟨0x0421, 0x00, .read, none, false, .fixed [1, 1, 2], 12, 268⟩
def rowIngestSetPort : OpRow := ⟨0x0501, 0x50, .owner, none, false, .fixed [1, 1, 2, 2, 6, 4, 16], 0, 0⟩
def rowIngestMcast : OpRow := ⟨0x0502, 0x51, .owner, none, false, .fixed [1, 1, 1, 1, 16, 16, 16, 16, 16], 0, 0⟩
def rowIngestSetSource : OpRow := ⟨0x0503, 0x52, .owner, none, false, .fixed [1, 1, 1, 1, 2, 2, 16], 0, 0⟩
def rowIngestLoadMap : OpRow := ⟨0x0510, 0x53, .owner, none, false, .counted [2, 2] 2 2 1 64 [2, 2, 2, 2, 2, 2, 2, 2], 0, 0⟩
def rowIngestApplyMap : OpRow := ⟨0x0511, 0x54, .owner, some 8, false, .fixed [2, 6, 8], 0, 0⟩
def rowIngestLoadGain : OpRow := ⟨0x0520, 0x55, .owner, none, false, .counted [2, 2, 2, 2] 4 2 1 256 [2], 0, 0⟩
def rowIngestApplyGain : OpRow := ⟨0x0521, 0x56, .owner, some 0, false, .fixed [8], 0, 0⟩
def rowIngestSetTiming : OpRow := ⟨0x0530, 0x00, .owner, none, false, .fixed [4, 4], 0, 0⟩
def rowIngestGetPort : OpRow := ⟨0x0540, 0x57, .read, none, false, .fixed [1], 88, 88⟩
def rowIngestGetInput : OpRow := ⟨0x0541, 0x58, .read, none, false, .fixed [2], 40, 40⟩
def rowCorrLoadCoarse : OpRow := ⟨0x0620, 0x64, .owner, none, false, .counted [2, 2, 4] 2 2 1 256 [2], 0, 0⟩

def opRows0 : List OpRow :=
  [rowPwrSetOp, rowPwrGetOp, rowCorrSetShed, rowCorrGetLoad, rowPortSetQuad,
   rowPortSetLane, rowPortSetKlp, rowPortGetStatus, rowPortGetLane, rowPortEyeScan,
   rowPortEyeRead, rowIngestSetPort, rowIngestMcast, rowIngestSetSource, rowIngestLoadMap,
   rowIngestApplyMap, rowIngestLoadGain, rowIngestApplyGain, rowIngestSetTiming, rowIngestGetPort,
   rowIngestGetInput, rowCorrLoadCoarse]

def rowCorrApplyCoarse : OpRow := ⟨0x0621, 0x65, .owner, some 0, false, .fixed [8], 0, 0⟩
def rowCorrGetStaging : OpRow := ⟨0x0642, 0x00, .read, none, false, .fixed [2], 64, 64⟩
def rowCorrSetLayout : OpRow := ⟨0x0601, 0x60, .owner, none, false, .fixed [1, 1, 2, 2, 2, 2, 2, 4, 2, 2, 4, 8], 0, 0⟩
def rowCorrStart : OpRow := ⟨0x0603, 0x62, .owner, some 0, false, .fixed [8], 0, 0⟩
def rowCorrStop : OpRow := ⟨0x0604, 0x63, .owner, some 0, false, .fixed [8], 0, 0⟩
def rowCorrGetLayout : OpRow := ⟨0x0602, 0x61, .read, none, false, .fixed [], 56, 56⟩
def rowCorrGetTiles : OpRow := ⟨0x0643, 0x00, .read, none, false, .fixed [2], 56, 56⟩
def rowCorrSetPreload : OpRow := ⟨0x0650, 0x6C, .owner, some 32, false, .fixed [2, 2, 1, 3, 6, 6, 4, 8, 8], 0, 0⟩
def rowCorrLoadFringe : OpRow := ⟨0x0652, 0x6E, .owner, none, false, .fringe, 0, 0⟩
def rowCorrSetRotation : OpRow := ⟨0x0651, 0x6D, .owner, some 8, false, .fixed [1, 7, 8], 0, 0⟩
def rowCorrSetCombine : OpRow := ⟨0x0653, 0x00, .owner, none, false, .fixed [1, 1, 1, 1, 4], 0, 0⟩
def rowCorrGetAccum : OpRow := ⟨0x0644, 0x6F, .read, none, false, .fixed [2], 88, 88⟩
def rowCorrSetDump : OpRow := ⟨0x0660, 0x66, .owner, some 16, false, .fixed [4, 1, 1, 1, 1, 2, 6, 8], 0, 0⟩
def rowCorrDumpAt : OpRow := ⟨0x0661, 0x67, .owner, some 8, false, .fixed [2, 2, 4, 8], 0, 0⟩
def rowCorrSetDest : OpRow := ⟨0x0662, 0x68, .owner, none, false, .fixed [1, 1, 1, 1, 2, 2, 2, 2, 2, 2, 6, 2, 16, 6, 2, 16], 0, 0⟩
def rowCorrMapDest : OpRow := ⟨0x0663, 0x69, .owner, none, false, .fixed [2, 2, 1, 3], 0, 0⟩
def rowCorrGetDump : OpRow := ⟨0x0645, 0x6B, .read, none, false, .fixed [2], 168, 168⟩
def rowBeamSetConfig : OpRow := ⟨0x0701, 0x70, .owner, none, false, .fixed [1, 1, 1, 1, 1, 1, 1, 1, 2, 2, 4, 1, 1, 2], 0, 0⟩
def rowBeamLoadWeights : OpRow := ⟨0x0710, 0x71, .owner, none, false, .counted [1, 1, 2, 2, 2] 6 2 1 512 [2], 0, 0⟩
def rowBeamLoadScale : OpRow := ⟨0x0711, 0x72, .owner, none, false, .counted [1, 1, 2, 2, 2] 4 2 1 64 [4], 0, 0⟩
def rowBeamApply : OpRow := ⟨0x0712, 0x73, .owner, some 8, false, .fixed [2, 6, 8], 0, 0⟩
def rowBeamSetDest : OpRow := ⟨0x0720, 0x74, .owner, none, false, .fixed [1, 1, 1, 1, 2, 2, 2, 2, 2, 2, 6, 2, 16, 6, 2, 16], 0, 0⟩

def opRows1 : List OpRow :=
  [rowCorrApplyCoarse, rowCorrGetStaging, rowCorrSetLayout, rowCorrStart, rowCorrStop,
   rowCorrGetLayout, rowCorrGetTiles, rowCorrSetPreload, rowCorrLoadFringe, rowCorrSetRotation,
   rowCorrSetCombine, rowCorrGetAccum, rowCorrSetDump, rowCorrDumpAt, rowCorrSetDest,
   rowCorrMapDest, rowCorrGetDump, rowBeamSetConfig, rowBeamLoadWeights, rowBeamLoadScale,
   rowBeamApply, rowBeamSetDest]

def rowBeamGetSet : OpRow := ⟨0x0740, 0x75, .read, none, false, .fixed [1, 1], 80, 80⟩
def rowFiltSetChain : OpRow := ⟨0x0801, 0x80, .owner, none, false, .fixed [1, 1, 1, 1, 2, 1, 1, 1, 1, 1, 1, 2, 1, 1, 2, 1, 1, 2, 1, 1, 8], 0, 0⟩
def rowFiltEnable : OpRow := ⟨0x0802, 0x81, .owner, some 8, false, .fixed [4, 1, 3, 8], 0, 0⟩
def rowFiltSync : OpRow := ⟨0x0803, 0x82, .owner, some 0, false, .fixed [8], 0, 0⟩
def rowFiltLoadCoef : OpRow := ⟨0x0810, 0x83, .owner, none, false, .counted [1, 1, 2, 2, 2] 4 2 1 256 [4], 0, 0⟩
def rowFiltApply : OpRow := ⟨0x0811, 0x84, .owner, some 8, false, .fixed [4, 4, 8], 0, 0⟩
def rowFiltGetChain : OpRow := ⟨0x0840, 0x85, .read, none, false, .fixed [1], 88, 88⟩
def rowTimeSetSource : OpRow := ⟨0x0301, 0x30, .owner, none, false, .fixed [1, 1, 1, 1, 4, 4, 4, 2, 2, 5, 3], 0, 0⟩
def rowTimeSet : OpRow := ⟨0x0302, 0x31, .owner, none, false, .fixed [12, 1, 3], 0, 0⟩
def rowTimeSetPtp : OpRow := ⟨0x0310, 0x00, .owner, none, false, .fixed [1, 1, 1, 1, 1, 1, 1, 1], 0, 0⟩
def rowTimeSetPtpPort : OpRow := ⟨0x0311, 0x00, .owner, none, false, .fixed [1, 1, 1, 1, 4, 4, 4], 0, 0⟩
def rowTimeSetPulse : OpRow := ⟨0x0320, 0x32, .owner, some 24, false, .fixed [1, 1, 2, 4, 12, 4, 8, 8, 4, 4], 0, 0⟩
def rowTimeSetEvt : OpRow := ⟨0x0321, 0x33, .owner, none, false, .fixed [1, 1, 1, 1, 2, 2], 0, 0⟩
def rowTimeSetMapping : OpRow := ⟨0x0330, 0x34, .owner, none, false, .fixed [8, 12, 4, 8], 0, 0⟩
def rowTimeConvert : OpRow := ⟨0x0331, 0x35, .read, none, false, .fixed [1, 3, 8, 12], 40, 40⟩
def rowTimeSetEpoch : OpRow := ⟨0x0340, 0x36, .owner, none, false, .fixed [8], 0, 0⟩
def rowTimeLoadDelay : OpRow := ⟨0x0341, 0x37, .owner, none, false, .counted [2, 2, 4] 2 2 1 26 [1, 7, 8, 8, 8, 8, 8], 0, 0⟩
def rowTimeApplyDelay : OpRow := ⟨0x0342, 0x38, .owner, some 0, false, .fixed [8], 0, 0⟩
def rowTimeResync : OpRow := ⟨0x0350, 0x00, .owner, none, false, .fixed [1, 7], 0, 0⟩
def rowTimeGetStatus : OpRow := ⟨0x0360, 0x39, .read, none, false, .fixed [], 136, 136⟩
def rowFreranSetNode : OpRow := ⟨0x0370, 0x00, .owner, none, false, .fixed [1, 1, 1, 1, 4, 4], 0, 0⟩
def rowFreranSetPort : OpRow := ⟨0x0371, 0x00, .owner, none, false, .fixed [1, 1, 2, 4], 0, 0⟩

def opRows2 : List OpRow :=
  [rowBeamGetSet, rowFiltSetChain, rowFiltEnable, rowFiltSync, rowFiltLoadCoef,
   rowFiltApply, rowFiltGetChain, rowTimeSetSource, rowTimeSet, rowTimeSetPtp,
   rowTimeSetPtpPort, rowTimeSetPulse, rowTimeSetEvt, rowTimeSetMapping, rowTimeConvert,
   rowTimeSetEpoch, rowTimeLoadDelay, rowTimeApplyDelay, rowTimeResync, rowTimeGetStatus,
   rowFreranSetNode, rowFreranSetPort]

def rowFreranArm : OpRow := ⟨0x0372, 0x00, .owner, none, false, .fixed [1, 3, 4], 0, 0⟩
def rowFreranGetStatus : OpRow := ⟨0x0373, 0x00, .read, none, false, .fixed [], 104, 104⟩
def rowCorrSetSplit : OpRow := ⟨0x0654, 0x00, .owner, none, false, .fixed [1, 1, 2, 2, 2, 4, 4], 0, 0⟩
def rowCapSetRing : OpRow := ⟨0x0901, 0x90, .owner, none, false, .fixed [2, 2, 2, 2, 2, 6], 0, 0⟩
def rowCapSetSegment : OpRow := ⟨0x0902, 0x91, .owner, none, false, .fixed [1, 1, 2, 4, 4, 4, 4, 4, 8], 0, 0⟩
def rowCapSetDetector : OpRow := ⟨0x0910, 0x92, .owner, none, false, .fixed [1, 1, 1, 1, 1, 1, 1, 1, 8, 8, 4, 4], 0, 0⟩
def rowCapArm : OpRow := ⟨0x0920, 0x93, .owner, none, false, .fixed [1, 7, 8], 0, 0⟩
def rowCapTrigger : OpRow := ⟨0x0921, 0x94, .owner, none, false, .fixed [1, 7, 8], 0, 0⟩
def rowCapSetDest : OpRow := ⟨0x0930, 0x95, .owner, none, false, .fixed [1, 1, 1, 1, 2, 2, 2, 2, 2, 2, 6, 2, 16, 6, 2, 16], 0, 0⟩
def rowCapGetStatus : OpRow := ⟨0x0940, 0x96, .read, none, false, .fixed [1], 128, 128⟩
def rowEventSetRoute : OpRow := ⟨0x0A01, 0xA0, .owner, none, false, .fixed [1, 1, 1, 1], 0, 0⟩
def rowEventSetMode : OpRow := ⟨0x0A02, 0xA1, .owner, none, false, .fixed [1], 0, 0⟩
def rowEventFire : OpRow := ⟨0x0A03, 0xA2, .owner, none, false, .fixed [1, 7, 8], 0, 0⟩
def rowEventSetQueue : OpRow := ⟨0x0A04, 0x00, .owner, none, false, .fixed [1, 1, 2], 0, 0⟩
def rowEventGetStatus : OpRow := ⟨0x0A10, 0xA3, .read, none, false, .fixed [1, 1], 32, 32⟩
def rowOwnClaim : OpRow := ⟨0x0201, 0x20, .claim, none, false, .fixed [4, 1, 3, 8], 0, 0⟩
def rowOwnRelease : OpRow := ⟨0x0202, 0x21, .owner, none, false, .fixed [], 0, 0⟩
def rowOwnKeepalive : OpRow := ⟨0x0203, 0x22, .owner, none, false, .fixed [], 0, 0⟩
def rowOwnHandover : OpRow := ⟨0x0204, 0x23, .owner, none, false, .fixed [1, 1, 2, 16, 4, 8], 0, 0⟩
def rowOwnSetLease : OpRow := ⟨0x0205, 0x24, .owner, none, false, .fixed [4], 0, 0⟩
def rowOwnSetPolicy : OpRow := ⟨0x0206, 0x00, .owner, none, false, .fixed [1, 1, 1, 1, 4], 0, 0⟩
def rowOwnGetChallenge : OpRow := ⟨0x0210, 0x00, .read, none, false, .fixed [], 36, 36⟩

def opRows3 : List OpRow :=
  [rowFreranArm, rowFreranGetStatus, rowCorrSetSplit, rowCapSetRing, rowCapSetSegment,
   rowCapSetDetector, rowCapArm, rowCapTrigger, rowCapSetDest, rowCapGetStatus,
   rowEventSetRoute, rowEventSetMode, rowEventFire, rowEventSetQueue, rowEventGetStatus,
   rowOwnClaim, rowOwnRelease, rowOwnKeepalive, rowOwnHandover, rowOwnSetLease,
   rowOwnSetPolicy, rowOwnGetChallenge]

def rowOwnGetStatus : OpRow := ⟨0x0211, 0x25, .read, none, false, .fixed [1], 88, 88⟩
def rowDevGetInfo : OpRow := ⟨0x0101, 0x10, .read, none, false, .fixed [], 104, 104⟩
def rowDevGetStatus : OpRow := ⟨0x0102, 0x11, .read, none, false, .fixed [], 72, 72⟩
def rowDevQueryOpcode : OpRow := ⟨0x0103, 0x12, .read, none, false, .fixed [2, 1, 1], 16, 16⟩
def rowDevSetMgmt : OpRow := ⟨0x0110, 0x13, .owner, none, false, .fixed [1, 1, 2, 6, 2, 4, 16], 0, 0⟩
def rowDevGetMgmt : OpRow := ⟨0x0111, 0x14, .read, none, false, .fixed [1], 88, 88⟩
def rowDevSetLabel : OpRow := ⟨0x0120, 0x00, .owner, none, false, .fixed [32], 0, 0⟩
def rowDiagEcho : OpRow := ⟨0x0F01, 0xF0, .read, none, false, .free 0 1280, 0, 1280⟩
def rowDiagBatch : OpRow := ⟨0x0F02, 0x00, .read, none, false, .free 12 1280, 32, 1280⟩
def rowDiagReadCsr : OpRow := ⟨0x0F10, 0xF1, .read, none, false, .fixed [8, 2, 6], 8, 520⟩
def rowDiagWriteCsr : OpRow := ⟨0x0F11, 0x00, .owner, none, false, .counted [8, 2, 6] 8 2 1 64 [8], 8, 8⟩
def rowDiagReadMem : OpRow := ⟨0x0F12, 0xF2, .read, none, false, .fixed [8, 2, 6], 9, 1032⟩
def rowDiagWriteMem : OpRow := ⟨0x0F13, 0x00, .owner, none, false, .counted [8, 2, 6] 8 2 1 1024 [1], 8, 8⟩
def rowMemSetHost : OpRow := ⟨0x0B30, 0x00, .owner, none, false, .fixed [4, 2, 2], 0, 0⟩
def rowMemGetErrors : OpRow := ⟨0x0B31, 0x00, .read, none, false, .fixed [], 64, 576⟩
def rowMemGetStats : OpRow := ⟨0x0B32, 0x00, .read, none, false, .fixed [1], 128, 128⟩
def rowRingCreate : OpRow := ⟨0x0B01, 0xB0, .owner, none, false, .fixed [2, 1, 1, 1, 1, 2, 2, 2, 4, 8, 8], 16, 16⟩
def rowRingDelete : OpRow := ⟨0x0B02, 0xB1, .owner, none, false, .fixed [2], 0, 0⟩
def rowDmaSetChannel : OpRow := ⟨0x0B10, 0xB2, .owner, none, false, .fixed [1, 1, 1, 1, 2, 2], 0, 0⟩
def rowDmaStop : OpRow := ⟨0x0B11, 0xB3, .owner, none, true, .fixed [1], 0, 0⟩
def rowRingGetStatus : OpRow := ⟨0x0B40, 0xB4, .read, none, false, .fixed [2], 48, 48⟩
def rowDmaGetStatus : OpRow := ⟨0x0B41, 0xB5, .read, none, false, .fixed [1], 56, 56⟩

def opRows4 : List OpRow :=
  [rowOwnGetStatus, rowDevGetInfo, rowDevGetStatus, rowDevQueryOpcode, rowDevSetMgmt,
   rowDevGetMgmt, rowDevSetLabel, rowDiagEcho, rowDiagBatch, rowDiagReadCsr,
   rowDiagWriteCsr, rowDiagReadMem, rowDiagWriteMem, rowMemSetHost, rowMemGetErrors,
   rowMemGetStats, rowRingCreate, rowRingDelete, rowDmaSetChannel, rowDmaStop,
   rowRingGetStatus, rowDmaGetStatus]

def rowMcRehearse : OpRow := ⟨0x0141, 0x00, .owner, none, true, .fixed [1, 7], 0, 0⟩
def rowMcGetStatus : OpRow := ⟨0x0140, 0x15, .read, none, false, .fixed [], 64, 64⟩
def rowSpareSetAudit : OpRow := ⟨0x0D02, 0x00, .owner, none, false, .fixed [4], 0, 0⟩
def rowSpareRetire : OpRow := ⟨0x0D03, 0x00, .owner, none, false, .fixed [2, 1, 1], 0, 0⟩
def rowSpareGetStatus : OpRow := ⟨0x0D01, 0xD0, .read, none, false, .fixed [2], 72, 72⟩
def rowJrnlGetStatus : OpRow := ⟨0x0D10, 0xD1, .read, none, false, .fixed [], 48, 48⟩
def rowJrnlCompact : OpRow := ⟨0x0D11, 0x00, .owner, none, true, .fixed [], 0, 0⟩
def rowJrnlRead : OpRow := ⟨0x0D12, 0x00, .read, none, false, .fixed [1, 1, 2, 4], 1, 1024⟩
def rowPwrSetDomain : OpRow := ⟨0x0C01, 0x00, .owner, none, false, .fixed [1, 1, 2], 0, 0⟩
def rowPwrGetDomains : OpRow := ⟨0x0C02, 0xC2, .read, none, false, .fixed [], 108, 108⟩
def rowPwrQuiesce : OpRow := ⟨0x0C20, 0x00, .owner, none, true, .fixed [1, 3, 4], 0, 0⟩
def rowPwrReset : OpRow := ⟨0x0C30, 0x00, .owner, none, false, .fixed [1, 3], 0, 0⟩
def rowSecGetIdentity : OpRow := ⟨0x0E01, 0x00, .read, none, false, .fixed [], 224, 224⟩
def rowSecAttest : OpRow := ⟨0x0E02, 0x00, .read, none, false, .fixed [32], 280, 280⟩
def rowSecSetCmdKey : OpRow := ⟨0x0E10, 0x00, .owner, none, false, .fixed [1, 1, 2, 97, 3], 0, 0⟩
def rowSecSetSignPolicy : OpRow := ⟨0x0E11, 0x00, .owner, none, false, .fixed [2, 2], 0, 0⟩
def rowSecOtpRotate : OpRow := ⟨0x0E20, 0x00, .owner, none, false, .fixed [1, 1, 2, 48, 97, 3, 96], 0, 0⟩
def rowSecOtpRevoke : OpRow := ⟨0x0E21, 0x00, .owner, none, false, .fixed [1, 1, 2, 97, 3, 96], 0, 0⟩
def rowSecFwStage : OpRow := ⟨0x0E30, 0x00, .owner, none, false, .counted [4, 2, 2] 4 2 1 1024 [1], 0, 0⟩
def rowSecFwActivate : OpRow := ⟨0x0E31, 0x00, .owner, none, true, .fixed [1, 7], 0, 0⟩

def opRows5 : List OpRow :=
  [rowMcRehearse, rowMcGetStatus, rowSpareSetAudit, rowSpareRetire, rowSpareGetStatus,
   rowJrnlGetStatus, rowJrnlCompact, rowJrnlRead, rowPwrSetDomain, rowPwrGetDomains,
   rowPwrQuiesce, rowPwrReset, rowSecGetIdentity, rowSecAttest, rowSecSetCmdKey,
   rowSecSetSignPolicy, rowSecOtpRotate, rowSecOtpRevoke, rowSecFwStage, rowSecFwActivate]

def opRows : List OpRow := opRows0 ++ opRows1 ++ opRows2 ++ opRows3 ++ opRows4 ++ opRows5

/-- The row of a version 2 opcode. -/
def rowOf (code : Nat) : Option OpRow := opRows.find? (·.code = code)

/-- R411: the row of a version 1 code. -/
def rowOfV1 (c : Nat) : Option OpRow := if c = 0 then none else opRows.find? (·.v1 = c)

def Layout.sizes (l : Layout) (p : List Byte) : List Nat :=
  match l with
  | .fixed f => f
  | .counted f off size _ _ item =>
    f ++ (if item.length = 1 then [fld p off size * item.sum] else (List.replicate (fld p off size) item).flatten)
  | .fringe => [1, 1, 2, 2, 2, fld p 4 2 * (if fld p 0 1 = 1 then 4 else 8)]
  | .free _ _ => []

/-- Offset of the first field that ends beyond `len`. -/
def firstShort (len : Nat) : Nat → List Nat → Option Nat
  | _, [] => none
  | off, n :: t => if len < off + n then some off else firstShort len (off + n) t

/-- R412: the param_offset of a length error; none where the length is right. -/
def Layout.lengthError (l : Layout) (p : List Byte) : Option Nat :=
  match l with
  | .free _ _ => none
  | _ =>
    -- a table that does not exist has no item size: the field `table` is the first to fail
    if l = .fringe && 1 < fld p 0 1 then none else
    let sizes := l.sizes p
    match firstShort p.length 0 sizes with
    | some off => some off
    | none => if sizes.sum < p.length then some sizes.sum else none

/-- Smallest and largest param_len under R412. -/
def Layout.lengths : Layout → Nat × Nat
  | .fixed f => (f.sum, f.sum)
  | .counted f _ _ lo hi item => (f.sum + lo * item.sum, f.sum + hi * item.sum)
  | .fringe => (12, 8 + 256 * 4)
  | .free lo hi => (lo, hi)

end Sys2Proof.Machine
end

