-- ==== Sys2Proof/Config.lean ====
section
/-! DEFINITION. What one device fixes and the manual leaves open: free values (no body) and the factory's constants. -/

namespace Sys2Proof.Config

/-- A fresh value for every draw: random challenges, boot identifiers, undefined memory (log entry 2). -/
opaque freeByte : Nat → Nat → Byte

/-- A free number for a quantity the manual leaves to timing or measurement (log entry 3). -/
opaque freeNat : Nat → Nat → Nat

/-- Pieces in flight right after the n-th grant of the device, and entries of a stack's write queues right after its n-th
write: matters of time (log entry 3). -/
opaque inFlight : Nat → Nat
opaque writesQueued : Nat → Nat → Nat

/-- R84, R85: what a receiver corrects in one nanosecond (ns since reset): codewords of port p (2p), symbols of lane l
(2l + 1). The manual gives no rule for the noise (log entry 77). -/
opaque corrected : Nat → Nat → Nat

/-- R220: entries of a weight log that the wire volume of a dump counts, by dwell; the log itself follows the data (log entry
27). -/
opaque logEntries : Nat → Nat

/-- R348: HBM contention has filled Flint's staging when the n-th open choice is made (log entry 99). -/
opaque stagingFull : Nat → Bool

/-- R463, R464: which of the units a faulted transfer may or may not have written were written (log entry 31). -/
opaque freeBool : Nat → Nat → Bool

/-- The factory-fused die identifier, 16 bytes (R413). -/
opaque dieId : Nat → Byte

/-- Die and package revisions, versions of Beynan and the boot ROM (R413), by field. -/
opaque version : Nat → Nat

/-- Factory MAC address of MGMT-A (0) and MGMT-B (1) (R416). -/
opaque factoryMac : Nat → Nat

/-- The identity private key, a scalar that no address reaches (R526). -/
opaque identityScalar : Nat

/-- The endorsement by Icber's manufacturing key, 96 bytes, and that key's identifier (R526). -/
opaque endorsement : Nat → Byte
opaque endorseId : Nat

/-- The scalar that the crypto block draws for a signature over a message (R540). -/
opaque signNonce : Nat → List Byte → Nat

/-- Base address the device allocates to a beam set's load bank (R236, R447): the manual gives no address. -/
opaque beamBankBase : Nat → Nat

/-- Where the channel areas of R37 begin, MiB above the system area; the manual gives no address (R447, log entry 49). -/
opaque channelBase : Nat

/-- Which of the tiles the factory retired in fuses (R497). -/
opaque factoryRetired : Nat → Bool

/-- Characterised ingress and egress latency of a PTP port in a mode, time units (R287). -/
opaque ptpLatency : Nat → Nat → Int

/-- The discipline loop's new adjustment from the old one, the offset and the bandwidth (R283 gives no loop gains). -/
opaque loopAdjust : Int → Int → Nat → Int

/-- The threshold step of an eye scan at a lane rate, microvolts (R87). -/
opaque eyeStepUv : Nat → Nat

/-- Residence of a forwarded FIRE in time units; R324 bounds it by 304 ns and 500 ns. -/
opaque residenceRaw : Nat → Nat

/-- Tile steps per second above the minimum of an operating point (R26 gives the minimum only). -/
opaque stepSurplus : Nat → Nat

/-- Phase of a core's sampling grid of R477 for its peer's heartbeats, ns. -/
opaque samplePhase : Nat → Nat

/-- Spare rows of an SRAM macro that factory fuses use (R498). -/
opaque factoryRows : Nat → Nat

/-- The SRAM macro behind each 256 KiB of working SRAM, above the 272 of the tiles (R491, R498): the manual gives no numbers. -/
opaque sramMacro : Nat → Nat

/-- The power domain of an SRAM macro above the 272 of the tiles (R498): the manual gives none. -/
opaque macroDomain : Nat → Nat

/-- Whether a unit of working SRAM, by offset, lies in Beynan's commit area: the manual gives it no place (log entry 99). -/
opaque commitArea : Nat → Bool

/-- Contents of the boot ROM, 256 KiB (R425); the manual gives none. -/
opaque romByte : Nat → Byte

/-- Fields of frames the device sends that the manual leaves open: 0 IPv4 type of service, 1 identification, 2 time to
live or hop limit, 3 IPv6 traffic class and flow label, 4 UDP source port of a class of frames that has none,
5 the minor version of PTP, 6 the UTC offset and 7 the time source of its Announce. -/
opaque ipField : Nat → Nat

end Sys2Proof.Config
end

