-- ==== Sys2Proof/Machine/StateControl.lean ====
section
/-! DEFINITION. The state of the control side: commands and ownership, event router, management cores, queues and
DMA, memory system, journal, spares, power, boot and security. Defaults are the reset values (INVENTORY.md names each). -/

namespace Sys2Proof.Machine

/-- Memory as the host's cells: addresses strictly rising, no entry equal to what an unlisted address reads as. -/
abbrev Mem := List Host.Cell

/-! ## Commands and ownership (R382 to R408) -/

/-- R395: the ownership states. -/
inductive OwnMode where
  | unowned | owned | handover
  deriving DecidableEq, Repr

/-- R392: one entry of the client table. -/
structure ClientEntry where
  key : Client
  /-- R391: highest sequence number executed, per header version; none before the first sequenced command -/
  h1 : Option Nat := none
  h2 : Option Nat := none
  /-- R391: the replies to the 32 most recent sequenced commands, newest first -/
  cache1 : List (Nat × List Byte) := []
  cache2 : List (Nat × List Byte) := []
  /-- R407: current challenge and the moment it was given, ns -/
  challenge : Option (List Byte × Nat) := none
  /-- ns of its last command -/
  used : Nat := 0
  deriving DecidableEq, Repr

/-- R408: the counters of one endpoint. -/
structure EpCounters where
  commands : Nat := 0
  malformed : Nat := 0
  duplicates : Nat := 0
  stale : Nat := 0
  notOwner : Nat := 0
  notAuth : Nat := 0
  deriving DecidableEq, Repr

/-- R406: the claim policy. -/
structure ClaimPolicy where
  epMask : Nat := 7
  claimAuth : Bool := false
  preempt : Bool := false
  defaultMs : Nat := 2000
  deriving DecidableEq, Repr

/-- A command that has been stamped and waits to be executed (R389, R401, R503). -/
structure Waiting where
  /-- version 2 opcode, or the unlisted code as sent -/
  code : Nat
  cmd : Cmd
  /-- the code as the packet carries it -/
  wireCode : Nat
  /-- a status that R385 fixes before any check -/
  verdict : Option Nat := none
  stamp : Nat
  deriving DecidableEq, Repr

/-- What a command waits for between its execution and its reply. -/
inductive Hold where
  /-- R503: its journal group commits -/
  | journal
  /-- R517: these power domains become ON -/
  | domains (ds : List Nat)
  /-- R535: PD95 becomes ON, before the command is served while QUIESCED -/
  | crypto
  deriving DecidableEq, Repr

/-- The one command that is executing and not yet answered (R389). -/
structure Executing where
  what : Waiting
  hold : Hold
  /-- the reply that is sent when the hold ends (journal: decided then) -/
  status : Nat := 0
  data : List Byte := []
  deriving DecidableEq, Repr

structure OwnState where
  mode : OwnMode := .unowned
  owner : Option Client := none
  /-- the challenge the owner's claim consumed (R393) -/
  ownerChallenge : Option (List Byte) := none
  /-- HANDOVER: the named successor and its nonce (R396) -/
  successor : Option (Client × Nat) := none
  leaseMs : Nat := 2000
  /-- lease left as charged at the last renewal, ns -/
  leaseLeft : Nat := 0
  /-- stamp of the command that is executing, or was last (R389) -/
  stamp : Nat := 0
  /-- R140, R291, R503: the command that executes passed its tests of index and time when it was accepted, before its group was
  handed over -/
  accepted : Bool := false
  /-- ns of the lease's last restart -/
  restartAt : Nat := 0
  /-- R395: ns up to which renewals of the token have charged -/
  chargedTo : Nat := 0
  /-- ns of the last raise of "management switchover": charging began there -/
  chargeFrom : Nat := 0
  /-- R398: lease left and last restart before the restarts of the cycle of `restartAt` -/
  leaseBefore : Nat := 0
  restartBefore : Nat := 0
  gen : Nat := 0
  expiries : Nat := 0
  policy : ClaimPolicy := {}
  ep0 : EpCounters := {}
  ep1 : EpCounters := {}
  ep2 : EpCounters := {}
  ep3 : EpCounters := {}
  clients : List ClientEntry := []
  /-- stamped commands not yet executed, in stamp order -/
  order : List Waiting := []
  executing : Option Executing := none
  /-- R388: bytes of the command being written and the next fragment number -/
  smbusIn : List Byte := []
  smbusNext : Nat := 0
  /-- R388: the reply not yet read, and how many of its fragments have been -/
  smbusOut : Option (List Byte) := none
  smbusRead : Nat := 0
  deriving DecidableEq, Repr

/-! ## The event router (R370 to R381) -/

/-- R371: one event as raised. -/
structure EventRec where
  producer : Nat
  index : Nat
  arg : Nat
  suspect : Bool
  late : Bool
  time : Instant
  seq : Nat
  /-- ns of the raise -/
  at_ : Nat
  deriving DecidableEq, Repr

structure Router where
  mode : Nat := 0
  swIndex : Nat := noIndex
  lost : Nat := 0
  /-- ER_PFLAG[3..0], ER_CACT[1..0], ER_COVR[1..0], each as one number -/
  pflag : Nat := 0
  cact : Nat := 0
  covr : Nat := 0
  sel : KV Nat := [(73, 187)]
  fixEn : KV Nat := [(73, 1)]
  pcount : KV Nat := []
  ccount : KV Nat := []
  pqueue : KV Nat := []
  /-- R376, R380: what the commands have set, which alone is journalled: ER_SEL + 256 * ER_FIX_EN + 1, the mode, the queues -/
  jRoutes : KV Nat := []
  jMode : Option Nat := none
  jQueues : KV Nat := []
  /-- raised and not yet delivered, oldest first (R377) -/
  raised : List EventRec := []
  /-- inputs busy from an activation until the end the table names (R372): C000 to C063, C072, C078 to C094 -/
  busy : List Nat := []
  /-- ns of the last activation of an input (R378) -/
  lastAct : KV Nat := []
  deriving DecidableEq, Repr

/-! ## Management cores (R475 to R490) -/

inductive CoreMode where
  | off | booting | standby | active | stopping | failed
  deriving DecidableEq, Repr

/-- One management core, as its mailbox half and its peer see it (R477). -/
structure McCore where
  mode : CoreMode := .booting
  hbCount : Nat := 0
  /-- mailbox byte 8: 0 booting, 1 standby ready, 2 active, 3 stopping -/
  role : Nat := 0
  bootId : Nat := 0
  commit : Nat := 0
  mailTime : Instant := ⟨0, 0, 0⟩
  /-- ns of its last heartbeat on the wire and in the mailbox -/
  wireAt : Nat := 0
  mailAt : Nat := 0
  /-- R477: ns from which the other core counts intervals without a heartbeat of this one, on each path -/
  wireFrom : Nat := 0
  mailFrom : Nat := 0
  /-- R483: consecutive heartbeats on both paths since its boot -/
  run : Nat := 0
  /-- R485: ns at which it completed its boot with the token unheld -/
  bootedAt : Option Nat := none
  deriving DecidableEq, Repr

structure McState where
  coreA : McCore := {}
  coreB : McCore := {}
  /-- R476: holder of the token and the moment of its last renewal -/
  token : Option (Fin 2) := none
  tokenAt : Nat := 0
  /-- R432: the token has been claimed since the reset of the device -/
  claimed : Bool := false
  /-- the core that was active last -/
  lastActive : Fin 2 := 0
  /-- R395: renewals charge nothing until the raise of "management switchover" -/
  inGap : Bool := false
  gapFrom : Nat := 0
  /-- R484: the active core failed while the standby was not ready -/
  orphaned : Bool := false
  rehearsal : Option Nat := none
  lastCause : Nat := 0
  lastGapUs : Nat := 0
  maxGapUs : Nat := 0
  switchovers : Nat := 0
  rehearsals : Nat := 0
  timeouts : Nat := 0
  lastSwitch : Instant := ⟨0, 0, 0⟩
  missedWire : Nat := 0
  missedMail : Nat := 0
  standbyBoots : Nat := 0
  deriving DecidableEq, Repr

/-! ## Queues and DMA (R451 to R474) -/

/-- One queue, under the names of its registers (R468). -/
structure Queue where
  base : Nat := 0
  kind : Nat := 0
  enable : Bool := false
  esize : Nat := 0
  entries : Nat := 0
  pair : Nat := 0
  vector : Nat := 0xFFFF
  wb : Nat := 0
  prod : Nat := 0
  cons : Nat := 0
  coal : Nat := 0
  dbBad : Bool := false
  accessErr : Bool := false
  drops : Nat := 0
  /-- R454: ns of the vector's last raise for this queue, and a suppressed raise is owed -/
  raisedAt : Option Nat := none
  owed : Bool := false
  deriving DecidableEq, Repr

inductive DmaMode where
  | off | idle | running | stopping | stopped | waitEvent
  deriving DecidableEq, Repr

/-- A descriptor that is running (R459). -/
structure RunningDesc where
  index : Nat
  /-- its 64 bytes; none: the element read failed (R462) -/
  bytes : Option (List Byte)
  deriving DecidableEq, Repr

structure DmaChannel where
  mode : DmaMode := .off
  descQ : Nat := 0
  complQ : Nat := 0
  eventStart : Bool := false
  /-- R459: "DMA start n" has activated since the previous descriptor -/
  started : Bool := false
  /-- R379: ns before which what the event started is not done -/
  doneAt : Nat := 0
  running : Option RunningDesc := none
  descs : Nat := 0
  bytes : Nat := 0
  errs : Nat := 0
  startIdle : Nat := 0
  lastStatus : Nat := 0
  deriving DecidableEq, Repr

structure RingState where
  queues : KV Queue := []
  channels : KV DmaChannel := []
  dbBad : Nat := 0
  recLost : Nat := 0
  deriving DecidableEq, Repr

/-! ## The memory system (R425 to R450) -/

/-- HC_* of one stack and the figures of MEM_GET_STATS. -/
structure HbmCtl where
  trained : Bool := false
  ceCount : Nat := 0
  ueCount : Nat := 0
  parRetry : Nat := 0
  parFail : Nat := 0
  scrubPos : Nat := 0
  injMode : Nat := 0
  injAddr : Nat := 0
  reads : Nat := 0
  writes : Nat := 0
  rmw : Nat := 0
  scrubPasses : Nat := 0
  /-- R446: parity errors injected at a unit and not met yet -/
  parity : KV Nat := []
  /-- WR_PEAK by pseudo-channel of the stack (R442) -/
  wrPeak : KV Nat := []
  deriving DecidableEq, Repr

/-- R448: a memory error record. -/
structure MemErr where
  kind : Nat
  stack : Nat
  pc : Nat
  requester : Nat
  words : Nat
  write : Bool
  addr : Nat
  time : Instant
  seq : Nat
  deriving DecidableEq, Repr

structure MemState where
  /-- HBM by offset from 0x0010_0000_0000 -/
  hbm : Mem := []
  /-- working SRAM by offset -/
  sram : Mem := []
  remap : Bool := false
  peak : Nat := 0
  hostHi : Nat := 0
  decerrAddr : Nat := 0
  decerrReq : Nat := 0
  decerrWrite : Bool := false
  decerrValid : Bool := false
  decerrCount : Nat := 0
  errCount : Nat := 0
  resetPieces : Nat := 0
  grants : KV Nat := []
  hc0 : HbmCtl := {}
  hc1 : HbmCtl := {}
  hc2 : HbmCtl := {}
  hc3 : HbmCtl := {}
  /-- R444: bad words by unit offset: bits 3:0 a single-bit error of word w, bits 7:4 an uncorrectable word w -/
  bad : KV Nat := []
  /-- R448: uncorrectable words of working SRAM, by unit offset: bit w for word w; and the errors met -/
  sramBad : KV Nat := []
  sramUe : Nat := 0
  hostMib : Nat := 0
  logQueue : Nat := 0xFFFF
  logLost : Nat := 0
  /-- the 16 most recent records, newest first (R450) -/
  errors : List MemErr := []
  errSeq : Nat := 0
  deriving DecidableEq, Repr

/-! ## Spares and the journal (R491 to R512) -/

inductive TileMode where
  | backing | ready | testing | retired
  deriving DecidableEq, Repr

/-- One physical tile. -/
structure TileInfo where
  mode : TileMode := .backing
  /-- as TILE records; 0 not retired in the field -/
  reason : Nat := 0
  factory : Bool := false
  faults : Nat := 0
  /-- ns since which it has been READY -/
  readyAt : Nat := 0
  /-- R495, R496: BIST failures of the test in progress -/
  fails : Nat := 0
  /-- R496: reported, and not yet moved or tested -/
  reported : Bool := false
  /-- R496: Quartz time of the last report, time units -/
  reportTime : Option Nat := none
  /-- retire whatever BIST finds: 2 a second report, 3 host -/
  doom : Nat := 0
  /-- R496: ns at which it was reported last -/
  reportNs : Nat := 0
  /-- R142, R156: the accumulators and the presence counts, by index p * 4,096 + r * cols + c -/
  acc : KV (Int × Int) := []
  presence : KV Nat := []
  deriving DecidableEq, Repr

/-- R499: one candidate row and what became of it. -/
structure HbmRepair where
  stack : Nat
  pc : Nat
  bank : Nat
  row : Nat
  /-- 0 pending; 1 done; 2 failed -/
  status : Nat
  deriving DecidableEq, Repr

structure SpareState where
  tiles : KV TileInfo := []
  auditPtr : Nat := 0
  auditS : Nat := 600
  /-- R494: Quartz time of the previous step, time units -/
  lastStep : Nat := 0
  due : Bool := false
  /-- ns at which the step last came to be due, or the pass that lets it be taken completed -/
  dueNs : Nat := 0
  /-- R494: a dump pass has completed since the step became due -/
  passed : Bool := false
  /-- R498: macro, row, spare row -/
  sramRepairs : List (Nat × Nat × Nat) := []
  sramExhausted : Bool := false
  hbmRepairs : List HbmRepair := []
  /-- R499: rows with one scrub-corrected error, by stack, pc, bank, row, and its Quartz time in time units -/
  scrubSeen : List (Nat × Nat × Nat × Nat × Nat) := []
  auditSteps : Nat := 0
  auditSkipped : Nat := 0
  bistRuns : Nat := 0
  bistFails : Nat := 0
  faultMoves : Nat := 0
  deriving DecidableEq, Repr

/-- A journal group on its way into flash: the records in order, and the command that waits for it (R503). -/
structure JGroup where
  records : List (Nat × List Byte)
  /-- a command of `OwnState.executing` waits for this group -/
  forCommand : Bool
  deriving DecidableEq, Repr

structure JrnlState where
  half : Nat := 0
  generation : Nat := 0
  baseSeq : Nat := 0
  lastSeq : Nat := 0
  /-- tail of the active half: block and offset within it -/
  tailBlock : Nat := 1
  tailOff : Nat := 0
  badMap : Nat := 0
  recovered : Nat := 0
  /-- 0 not compacting; otherwise the step of R505 in progress, 1 to 5 -/
  step : Nat := 0
  /-- bad blocks of the half being prepared -/
  otherBad : Nat := 0
  degraded : Bool := false
  full : Bool := false
  /-- groups handed to the engine, oldest first -/
  groups : List JGroup := []
  /-- R505: tail block, tail offset and last seq of the half that a snapshot has been written into -/
  next : Nat × Nat × Nat := (1, 0, 0)
  bootCount : Nat := 0
  snapshotBytes : Nat := 0
  compactions : Nat := 0
  pauseMaxUs : Nat := 0
  commitMaxUs : Nat := 0
  recordsLost : Nat := 0
  /-- ns at which the pause of R505 began -/
  pauseFrom : Nat := 0
  /-- ns at which the oldest group was handed over -/
  groupFrom : Nat := 0
  deriving DecidableEq, Repr

/-! ## Power, reset, boot, security (R513 to R540) -/

inductive DomState where
  | off | poweringUp | on | draining
  deriving DecidableEq, Repr

structure Domain where
  state : DomState := .off
  /-- 0 AUTO; 1 ON; 2 OFF -/
  mode : Nat := 0
  fences : Nat := 0
  /-- ns at which it entered its state -/
  since : Nat := 0
  deriving DecidableEq, Repr

/-- R528: one OTP key slot. -/
structure OtpSlot where
  /-- 48 bytes; empty list: blank -/
  hash : List Byte := []
  active : Bool := false
  revoked : Bool := false
  deriving DecidableEq, Repr

/-- R536: how QUIESCE_ACK_N stands. -/
inductive AckPin where
  | released | low | pulse (since : Nat)
  deriving DecidableEq, Repr

structure QuiesceState where
  /-- phase QUIESCING or QUIESCED -/
  active : Bool := false
  byPin : Bool := false
  byCommand : Bool := false
  /-- R536: action 1 accepted during a quiesce that the pin holds -/
  leave : Bool := false
  timeout : Bool := false
  /-- R533 step reached: 1 to 5 -/
  step : Nat := 0
  startedAt : Nat := 0
  limitMs : Nat := 5000
  /-- quiesce_ms of pin quiesces -/
  pinMs : Nat := 5000
  pinLow : Bool := false
  ack : AckPin := .released
  /-- a quiesce that arrived during boot (R533) -/
  deferred : Bool := false
  /-- SEC_FW_ACTIVATE waits for QUIESCED to reset with cause 3 (R539) -/
  thenReset : Bool := false
  deriving DecidableEq, Repr

structure PowerState where
  phase : Nat := 0
  slot : Nat := 0
  keySlot : Nat := 0
  cause : Nat := 0
  fail : Nat := 0
  secVer : Nat := 0
  /-- BT_MEASURE, 48 bytes -/
  measure : List Byte := List.replicate 48 0
  beynanVer : Nat := 0
  recAddr : Nat := 0
  /-- PD00 to PD95 -/
  domains : Vector Domain 96 := Vector.replicate 96 {}
  quiesce : QuiesceState := {}
  /-- ns at which an accepted PWR_RESET scope 0 resets the device -/
  resetAt : Option Nat := none
  /-- R520: the reply to PWR_RESET scope 0 has not been handed over yet -/
  resetAsked : Bool := false
  /-- SEC_FW_ACTIVATE without quiesce: the device resets once the reply has been handed over (R539) -/
  fwReset : Bool := false
  otp0 : OtpSlot := {}
  otp1 : OtpSlot := {}
  otp2 : OtpSlot := {}
  minVersion : Nat := 0
  /-- command keys by slot, 97 bytes each -/
  cmdKeys : KV (List Byte) := []
  signMask : Nat := 0
  /-- SEC_FW_STAGE: end of the last write since offset 0; none before it -/
  staged : Option Nat := none
  /-- 64 KiB blocks of the staged slot erased since offset 0 -/
  stagedBlocks : List Nat := []
  /-- SEC_FW_ACTIVATE bit 1: raise the thermometer once this image reaches SERVICE (kept in flash with the descriptor) -/
  raiseMin : Option (List Byte) := none
  /-- R549: SMB_ADDR2 to SMB_ADDR0 as the last power-on reset sampled them -/
  straps : Nat := 0
  pcieGen : Nat := 0
  pcieWidth : Nat := 0
  deriving DecidableEq, Repr

/-! ## Device-wide (R413 to R419) -/

/-- R417, R418: one management port. -/
structure MgmtPort where
  mode : Nat := 1
  vlan : Nat := 0
  /-- 0: factory address -/
  mac : Nat := 0
  ipv4 : Nat := 0
  ipv6 : Nat := 0
  link : Bool := false
  rxFrames : Nat := 0
  rxDiscard : Nat := 0
  txFrames : Nat := 0
  gapDrops : Nat := 0
  deriving DecidableEq, Repr

structure DevState where
  /-- 32 bytes, or empty: none -/
  label : List Byte := []
  mgmtA : MgmtPort := {}
  mgmtB : MgmtPort := {}
  /-- R417: a setting that takes effect once the reply to DEV_SET_MGMT has left -/
  next : Option (Nat × MgmtPort) := none
  sticky : Nat := 0
  deriving DecidableEq, Repr

/-! ## What leaves the device -/

/-- One thing the device has sent or driven, in order; the model's own record of its outputs. -/
inductive Output where
  | mgmtFrame (port : Nat) (f : Frame)
  | frame (port : Nat) (f : Frame)
  /-- R60, R64: a superframe on a lane, lane id `id` of a port of `width` lanes, with its SFM; its codewords are those of
  `superframeCodeword` -/
  | superframe (lane id width : Nat) (sfm : List Byte)
  | smbus (data : List Byte) (pec : Byte)
  | hostWrite (addr : Nat) (data : List Byte)
  | msix (vector : Nat)
  | readData (data : List Byte)
  | readUnsupported
  | readAbort
  | freran (port : Nat) (message : List Byte)
  | pin (name : String) (n : Nat) (high : Bool) (at_ : Nat)
  deriving DecidableEq, Repr

end Sys2Proof.Machine
end

