-- ==== Sys2Proof/Machine/StateData.lean ====
section
/-! DEFINITION. The state of the data path: operating point and overload, serial lanes and ports, and the stages
behind them. Defaults are the reset values. -/

namespace Sys2Proof.Machine

/-! ## Operating point and overload (R25 to R51) -/

/-- R50: the overload shed policy. -/
structure ShedPolicy where
  auto : Bool := true
  overcommit : Bool := false
  entryDrops : Nat := 2
  entryWindow : Nat := 16
  relaxRounds : Nat := 64
  slackFactor : Nat := 2
  deriving DecidableEq, Repr

/-- R42, R44: what one round has shown so far. -/
structure Round where
  k : Nat
  /-- visits of the round that have started -/
  started : Nat := 0
  /-- channels whose visit was dropped, and was shed -/
  dropped : List Nat := []
  shed : List Nat := []
  /-- channels the planner sheds in this round -/
  plan : List Nat := []
  /-- smallest slack so far, ns -/
  slackMin : Option Nat := none
  /-- channels whose visit started and whose fallback deadline has not occurred, with the ns of the start (R44) -/
  awaiting : List (Nat × Nat) := []
  durMax : Nat := 0
  /-- visits started and not yet completed -/
  running : Nat := 0
  /-- the round has completed (R42) -/
  ended : Bool := false
  /-- unplanned drops made before the last return to NORMAL, which count towards no entry (R42) -/
  forgiven : Nat := 0
  deriving DecidableEq, Repr

/-- The schedule states (R167 to R169). -/
inductive SchedMode where
  | none | loaded | running | stopping
  deriving DecidableEq, Repr

structure LoadState where
  op : Nat := 1
  /-- 0 default OP1; 1 restored from the journal; 2 declared since boot -/
  source : Nat := 0
  policy : ShedPolicy := {}
  /-- R50: takes effect at the start of the next round -/
  nextPolicy : Option ShedPolicy := none
  shed : Bool := false
  s : Nat := 0
  /-- drop totals per channel since entry to SHED -/
  totals : KV Nat := []
  pointer : Nat := 0
  /-- unplanned drops of the rounds completed in the entry window, newest first -/
  window : List Nat := []
  quiet : Nat := 0
  /-- the round that starts next, and whether the round before it has completed (R42) -/
  toBegin : Nat := 0
  ready : Bool := false
  /-- the rounds of the unplanned drops that s has not taken in (R42) -/
  owed : List Nat := []
  /-- rounds not yet judged, in round order -/
  rounds : List Round := []
  shedMax : Nat := 0
  shedEntries : Nat := 0
  unplanned : Nat := 0
  planned : Nat := 0
  shedRounds : Nat := 0
  visitMaxNs : Nat := 0
  slackMinNs : Nat := 0
  deriving DecidableEq, Repr

/-! ## Serial lanes and ports (R52 to R87) -/

/-- R81: one quad as configured. -/
structure Quad where
  rate : Nat := 0
  role : Nat := 0
  layout : Nat := 0
  /-- mode[j] and port_role[j], j = 0 to 3 -/
  modes : List Nat := [0, 0, 0, 0]
  roles : List Nat := [0, 0, 0, 0]
  deriving DecidableEq, Repr

/-- R66, R77, R82, R85: one lane. -/
structure Lane where
  rxPol : Nat := 0
  txPol : Nat := 1
  preset : Nat := 5
  txState : Nat := 0
  rxState : Nat := 0
  signal : Bool := false
  cdr : Bool := false
  block : Bool := false
  align : Bool := false
  rxInv : Bool := false
  txInv : Bool := false
  /-- the polarity found at the last lock, for polarity_flips -/
  lastInv : Bool := false
  laneId : Option Nat := none
  lockLosses : Nat := 0
  flips : Nat := 0
  /-- R85: FEC symbols corrected -/
  correctedSymbols : Nat := 0
  /-- R67: consecutive partner SFMs that report the lane inverted -/
  invSeen : Nat := 0
  /-- ns at which the present polarity try or the last retry began (R66) -/
  tryAt : Nat := 0
  retryAt : Nat := 0
  deriving DecidableEq, Repr

/-- R72: a shed that awaits the partner's agreement: the lane id, and the superframes sent since the SFM that cleared it. -/
structure PendingShed where
  laneId : Nat
  reported : Bool
  sent : Nat
  deriving DecidableEq, Repr

/-- R68 to R76, R83, R84: a port, kept under its first lane. -/
structure Port where
  state : Nat := 0
  shed : Bool := true
  agreeSf : Nat := 3
  /-- R83: settings that take effect from the next superframe -/
  nextKlp : Option (Bool × Nat) := none
  /-- lane ids in lock, as the device reports them in its SFM -/
  rxGood : Nat := 0
  /-- lane ids shed by agreement -/
  shedMap : Nat := 0
  pendingSheds : List PendingShed := []
  txActive : Nat := 0
  partnerSeen : Bool := false
  partnerFlags : Nat := 0
  partnerGood : Nat := 0
  partnerActive : Nat := 0
  /-- sf_count of the partner's last SFM -/
  partnerSf : Option Nat := none
  sfCount : Nat := 0
  sfAt : Nat := 0
  /-- R84: codewords corrected -/
  correctedCw : Nat := 0
  uncorrectableCw : Nat := 0
  rxPackets : Nat := 0
  rxDiscard : Nat := 0
  txPackets : Nat := 0
  txDiscard : Nat := 0
  downEvents : Nat := 0
  shedEvents : Nat := 0
  restoreEvents : Nat := 0
  changeSec : Nat := 0
  changeNs : Nat := 0
  deriving DecidableEq, Repr

/-- R79, R80, R87: the last scan of a lane. -/
structure EyeScan where
  running : Bool
  aborted : Bool
  eye : Nat
  phases : Nat
  volts : Nat
  dwell : Nat
  rate : Nat
  startedAt : Nat
  /-- error counts of the points measured, in point order -/
  points : List Nat
  deriving DecidableEq, Repr

/-- What produced a frame that waits at an egress port, for the counters of its chapter. -/
inductive FrameOwner where
  /-- a frame of a dump, and the dump buffer room it holds -/
  | dump (channel seq room : Nat)
  /-- a beam frame of a set, and a frame of a chain of that set, with the room each holds in the beam output buffer -/
  | beam (set room : Nat)
  | chain (chain room : Nat)
  | segment (seq : Nat)
  | own
  deriving DecidableEq, Repr

structure PortState where
  /-- R552: SerDes groups whose reference clock is absent, bit k group k; the board settles it, and no reset or row changes it -/
  noRefclk : Nat := 0
  /-- frames that wait at each egress port, the one being sent first -/
  txq : KV (List (FrameOwner × Frame)) := []
  quads : KV Quad := []
  lanes : KV Lane := []
  ports : KV Port := []
  scans : KV EyeScan := []
  deriving DecidableEq, Repr

/-! ## Ingest (R88 to R119) -/

/-- R91: one multicast group membership; no sources: any-source. -/
structure Membership where
  family : Nat
  /-- 4 or 16 bytes, the sources likewise -/
  group : List Byte
  sources : List (List Byte)
  deriving DecidableEq, Repr

/-- R91: an unsolicited report that is due once more: the ns of its first sending, and whether it is a leave. -/
structure Report where
  sentAt : Nat
  what : Membership
  leave : Bool
  deriving DecidableEq, Repr

/-- R91: a query that is to be answered: family, the group of a group-specific query, and the sources of one that names
any. -/
structure McastQuery where
  family : Nat
  group : Option (List Byte)
  sources : List (List Byte) := []
  deriving DecidableEq, Repr

/-- R112, R119: a port's own addressing and its ingest counters. -/
structure InPort where
  vlan : Nat := 0
  klpUdp : Nat := 47200
  mac : Nat := 0
  ipv4 : Nat := 0
  ipv6 : Nat := 0
  groups : List Membership := []
  repeats : List Report := []
  queries : List McastQuery := []
  klp1 : Nat := 0
  klp2 : Nat := 0
  filtered : Nat := 0
  malformed : Nat := 0
  unknown : Nat := 0
  unmapped : Nat := 0
  late : Nat := 0
  early : Nat := 0
  duplicate : Nat := 0
  overflow : Nat := 0
  deriving DecidableEq, Repr

/-- R114: an entry of the KLP-1 source table. -/
structure SourceEntry where
  valid : Bool := false
  port : Nat := 0
  family : Nat := 0
  source : Nat := 0
  udp : Nat := 0
  addr : List Byte := List.replicate 16 0
  deriving DecidableEq, Repr

/-- R98, R115: an entry of the input map; never written, it holds zeros. -/
structure MapEntry where
  source : Nat := 0
  firstInput : Nat := 0
  count : Nat := 0
  firstLogical : Nat := 0
  srcChan : Nat := 0
  chans : Nat := 0
  devChan : Nat := 0
  deriving DecidableEq, Repr

/-- R106: the part of a packet that lies in one visit. -/
structure Part where
  port : Nat
  source : Nat
  firstChan : Nat
  chans : Nat
  firstInput : Nat
  inputs : Nat
  /-- 8+8 samples, two bytes each -/
  wide : Bool
  invalid : Bool
  /-- first sample index, and samples per input and channel -/
  index : Nat
  nt : Nat
  /-- time outermost, then channel, then input (R93) -/
  samples : List Byte
  deriving DecidableEq, Repr

/-- R106: a mapped piece of a part, for one device channel; each input with its own samples in time order. -/
structure Piece where
  port : Nat
  channel : Nat
  visit : Nat
  wide : Bool
  invalid : Bool
  index : Nat
  nt : Nat
  rows : List (Nat × List Byte)
  deriving DecidableEq, Repr

/-- R119: one logical input's counters. -/
structure InputCount where
  samples : Nat := 0
  valid : Nat := 0
  invalid : Nat := 0
  saturated : Nat := 0
  /-- highest sample index written, plus one; 0 none -/
  last : Nat := 0
  deriving DecidableEq, Repr

/-- The two places of the ingest buffer (R106, R110). -/
inductive HeldItem where
  | part (p : Part)
  | piece (p : Piece)
  deriving DecidableEq, Repr

structure IngestState where
  ports : KV InPort := []
  sources : KV SourceEntry := []
  loadMap : KV MapEntry := []
  map : Sched (List MapEntry) := ⟨[], []⟩
  /-- keys input * 4096 + channel; absent 4,096 (R103) -/
  gainLoad : KV Nat := []
  gain : Sched (KV Nat) := ⟨[], []⟩
  holdUs : Nat := 500
  /-- the ingest buffer, oldest first -/
  held : List HeldItem := []
  inputs : KV InputCount := []
  deriving DecidableEq, Repr

/-! ## Visits and staging (R104 to R141) -/

/-- One visit of a channel: what ingest has stored and where it stands. -/
structure Visit where
  closed : Bool := false
  /-- Mica has loaded, dropped or shed it: its half is released -/
  gone : Bool := false
  /-- slot bits of each granule, key input * (D / 256) + granule (R104) -/
  slots : KV Nat := []
  /-- invalid bits, same key -/
  inval : KV Nat := []
  /-- ns at which ingest accepted its first part -/
  accepted : Option Nat := none
  deriving DecidableEq, Repr

/-- The visits of one channel: those below `floor` have closed and left; those kept reach from `floor - 1`. `parts` and
`index` are the time split the channel runs under (R335). -/
structure Chan where
  floor : Nat := 0
  visits : KV Visit := []
  /-- the corner-turn area and tail slot 2, by `cornerKey` (R120, R121) -/
  area : KV Nat := []
  /-- delay_last of the channel's input records (R178) -/
  lastDelay : KV Int := []
  /-- highest sample index written in the schedule, plus one (R117) -/
  written : Nat := 0
  parts : Nat := 1
  index : Nat := 0
  deriving DecidableEq, Repr

/-- R237, R239: one entry of a set's weight bank as a beam slot's tile holds it for a visit, rotated where the set tracks. -/
structure BeamWeights where
  /-- key beam * 4096 + input offset -/
  w : KV (Int × Int) := []
  /-- scale by beam; absent 1.0 -/
  scale : KV Nat := []
  deriving DecidableEq, Repr

/-- The weights of one set for one visit: the old bank, and the new one from the swap index on. -/
structure BeamLoad where
  set : Nat
  old : BeamWeights
  swap : Option (Nat × BeamWeights) := none
  deriving DecidableEq, Repr

/-- R127: a staging bank and the visit it holds. -/
structure Bank where
  full : Bool := false
  inUse : Bool := false
  /-- number of the load that filled it -/
  seq : Nat := 0
  /-- ns at which the load that filled it completed -/
  fullAt : Nat := 0
  /-- R134: the contents are undefined, those of this draw; `data` and `valid` then hold what was written since, plus one -/
  undef : Option Nat := none
  /-- channel and visit index -/
  visit : Nat × Nat := (0, 0)
  /-- staged samples, key position * N + input; absent zero -/
  data : KV Nat := []
  /-- granule map, key input * (D / 256) + granule; 1 valid -/
  valid : KV Nat := []
  /-- d_i(k) of each input of N; none where it had none (R141) -/
  delays : List (Option Int) := []
  beams : List BeamLoad := []
  deriving DecidableEq, Repr

/-- A load that Mica is making. -/
structure Loading where
  bank : Nat
  channel : Nat
  visit : Nat
  since : Nat
  /-- d_i(k) of each input as evaluated when the visit was taken up; none where it has none or a value failed its vote -/
  delays : List (Option Int)
  deriving DecidableEq, Repr

/-- What the tiles hand to Basalt: the visit, its staged samples, and which tile holds the sums of each slot. -/
structure TileWork where
  channel : Nat
  visit : Nat
  data : KV Nat
  valid : KV Nat
  delays : List (Option Int)
  beams : List BeamLoad := []
  tiles : List (Nat × Nat)
  /-- ns at which the visit started -/
  since : Nat
  deriving DecidableEq, Repr

structure StagingState where
  chans : KV Chan := []
  bank0 : Bank := {}
  bank1 : Bank := {}
  loading : Option Loading := none
  /-- loads begun since reset -/
  loads : Nat := 0
  /-- the visit the tiles work on, and the bank that holds it -/
  working : Option (Nat × TileWork) := none
  /-- ns at which the tiles last completed a visit -/
  idleAt : Nat := 0
  /-- completed by the tiles, for Basalt (R157, R173) -/
  inbox : Option TileWork := none
  coarseLoad : KV Nat := []
  coarse : Sched (KV Nat) := ⟨[], []⟩
  lastDelay : KV Int := []
  delayRange : KV Nat := []
  loaded : Nat := 0
  dropWaiting : Nat := 0
  dropLoading : Nat := 0
  dropLoaded : Nat := 0
  loadMax : Nat := 0
  loadLast : Nat := 0
  /-- R424: data-path CSRs were written; staged samples are those of this draw -/
  touched : Option Nat := none
  deriving DecidableEq, Repr

/-! ## Layouts, slots and tiles (R142 to R170) -/

/-- R165: a loaded layout. -/
structure CorrLayout where
  rect : Bool := false
  shape : Nat := 0
  n : Nat := 1
  row0 : Nat := 0
  rows : Nat := 0
  col0 : Nat := 0
  cols : Nat := 0
  dwell : Nat := 256
  channels : Nat := 1
  rate : Nat := 1
  deriving DecidableEq, Repr

/-- One logical slot (R148, R163, R170). -/
structure Slot where
  /-- the physical tile behind it; none: withdrawn -/
  tile : Option Nat
  /-- it has completed the visit the tiles work on -/
  done : Bool := false
  visits : Nat := 0
  discards : Nat := 0
  moves : Nat := 0
  deriving DecidableEq, Repr

/-- R164, R497: a withdrawal that waits for its tile's record and for a boundary; `due`: ns at which the record had committed. -/
structure Leaving where
  slot : Nat
  tile : Nat
  due : Option Nat := none
  deriving DecidableEq, Repr

structure TileState where
  layout : Option CorrLayout := none
  sched : SchedMode := .none
  start : Nat := 0
  /-- pending in RUNNING, in effect in STOPPING (R168) -/
  stop : Option Nat := none
  /-- the slots, 0 to 259 -/
  slots : List Slot := []
  /-- withdrawals that wait for a boundary (R164) -/
  leaving : List Leaving := []
  diagChecks : Nat := 0
  diagMismatch : Nat := 0
  tileDiscards : Nat := 0
  tileVisits : Nat := 0
  deriving DecidableEq, Repr

end Sys2Proof.Machine
end

