-- ==== Sys2Proof/Machine/StateBasalt.lean ====
section
/-! DEFINITION. The state of Basalt and of the dumps (R171 to R225). Defaults are the reset values. -/

namespace Sys2Proof.Machine

/-- R179: a weight-log entry; `body`: the invalid map (kind 1), or the run's length (kind 2). -/
structure LogEntry where
  kind : Nat
  id : Nat
  visit : Nat
  body : Nat
  deriving DecidableEq, Repr

/-- R175, R193: a channel's preload. -/
structure Preload where
  mode : Nat := 0
  biasRe : Int := 0
  biasIm : Int := 0
  residual : Nat := 0
  /-- bytes of the residual image -/
  length : Nat := 0
  /-- R176: the image was written while it was in use; the values of its integrations are those of this draw -/
  spoilt : Option Nat := none
  /-- the image as it was before that, by block-order ordinal: flags and weights still follow from it -/
  image : KV (Int × Int) := []
  deriving DecidableEq, Repr

/-- R178: a channel's header, weight log and long-term accumulators, of its current integration. -/
structure Integ where
  preload : Preload := {}
  rotation : Bool := false
  saturated : Bool := false
  excluded : Bool := false
  half : Nat := 1
  /-- integ_start of the header: it stays until the next integration begins -/
  headerStart : Nat := 0
  /-- visit index of the integration's first visit, and the next visit that is to be accounted for -/
  start : Nat := 0
  next : Nat := 0
  processed : Nat := 0
  unplanned : Nat := 0
  shed : Nat := 0
  excludedLog : Nat := 0
  satBaselines : Nat := 0
  entries : List LogEntry := []
  /-- R164: from processed visit v on, blocks at or beyond the limit were not correlated -/
  limits : List (Nat × Nat) := []
  /-- long-term values by block-order ordinal; none: the preload (R173) -/
  acc : KV (Option (Int × Int)) := []
  /-- ns of the close of the integration's first visit -/
  firstClose : Option Nat := none
  /-- θ_i of the last processed visit -/
  theta : KV Nat := []
  /-- R188: ns at which its last processed visit was completed -/
  lastDone : Option Nat := none
  /-- what earlier integrations left in the accumulators, and in the other log half -/
  stale : KV (Option (Int × Int)) := []
  oldLog : List LogEntry := []
  deriving DecidableEq, Repr

/-- R221: the dump settings. -/
structure DumpSet where
  period : Nat := 0
  stagger : Bool := true
  coding : Nat := 0
  order : Nat := 0
  weightMode : Nat := 0
  deriving DecidableEq, Repr

/-- R198: a scheduled or event dump: the channels it concerns, and where its boundary stands in each. -/
structure DumpAt where
  first : Nat
  count : Nat
  at_ : When
  /-- made by CORR_DUMP_AT (R222) -/
  command : Bool
  /-- R379: ns before which the dump of an event is not done -/
  due : Nat
  deriving DecidableEq, Repr

/-- R223, R256, R368: a destination. -/
structure Dest where
  kind : Nat := 0
  port : Nat := 0
  family : Nat := 0
  vlan : Nat := 0
  udpSrc : Nat := 0
  udpDst : Nat := 0
  stream : Nat := 0
  maxBody : Nat := 8192
  queue : Nat := 0
  dstMac : Nat := 0
  dstAddr : List Byte := List.replicate 16 0
  srcMac : Nat := 0
  srcAddr : List Byte := List.replicate 16 0
  deriving DecidableEq, Repr

/-- R202: a kept dump header record: its first 112 bytes, and what is filled in as the dump drains. -/
structure DumpRec where
  seq : Nat
  bytes : List Byte
  visDiscarded : Nat := 0
  portLost : Nat := 0
  complete : Bool := false
  deriving DecidableEq, Repr

/-- R201, R216, R338: a dump, or a part's partial image, on its way out. -/
structure DumpJob where
  channel : Nat
  seq : Nat
  dest : Nat
  dst : Dest
  half : Nat
  /-- a partial image: part index and split group -/
  part : Option (Nat × Nat) := none
  /-- first sample index of the integration -/
  integStart : Nat
  layout : CorrLayout
  coding : Nat
  order : Nat
  weightMode : Nat
  /-- what the weights follow from: V, the frozen log, the limits of R164; or the weights of a combination, by ordinal -/
  processed : Nat
  entries : List LogEntry
  limits : List (Nat × Nat)
  given : Option (KV Nat) := none
  visFrames : Nat
  weightFrames : Nat
  /-- header and VIS frames not yet handed to the port: bytes, and the dump buffer room each holds -/
  frames : List (List Byte × Nat)
  /-- R379: ns before which the dump is not done -/
  due : Nat := 0
  /-- frames handed to the port and not yet gone -/
  inFlight : Nat := 0
  weightsDone : Bool := false
  discarded : Nat := 0
  lost : Nat := 0
  deriving DecidableEq, Repr

/-- R186: one leaf of a combination: values and granule counts by block-order ordinal (absent: zero), and its header record. -/
structure Leaf where
  part : Nat
  values : KV (Int × Int)
  weights : KV Nat
  header : List Byte
  deriving DecidableEq, Repr

/-- R339: a leaf of which frames are still missing: frame_count, and the frames by frame_index as kind, first_item, body. -/
structure PartialLeaf where
  part : Nat
  count : Nat
  frames : KV (Option (Nat × Nat × List Byte))
  deriving DecidableEq, Repr

/-- R188: an integration that a combiner is collecting. -/
structure Collect where
  channel : Nat
  /-- first sample index of the integration -/
  integStart : Nat
  /-- ns at which collection started -/
  startedAt : Nat
  leaves : List Leaf := []
  partials : List PartialLeaf := []
  /-- the device's own integration, once its last visit has been accounted for -/
  own : Option Integ := none
  /-- the destination at its boundary (R224) -/
  dest : Option Nat := none
  /-- R379: ns before which its dump is not done -/
  due : Nat := 0
  deriving DecidableEq, Repr

structure Fringe where
  sky : KV Nat := []
  phase : KV Nat := []
  deriving DecidableEq, Repr

/-- R196: the combine role. The manual gives timeout_us no reset value; here 1,000 (DESIGN CHOICE, log entry 33). -/
structure Combine where
  role : Nat := 0
  parts : Nat := 1
  part : Nat := 0
  localLeaf : Nat := 0
  timeoutUs : Nat := 1000
  deriving DecidableEq, Repr

structure BasaltState where
  integs : KV Integ := []
  /-- visits lost and not yet accounted for: key channel * 2^40 + visit; 1 dropped, 2 shed -/
  lost : KV Nat := []
  /-- ns of the close of visits not yet accounted for, same keys; plus one -/
  closes : KV Nat := []
  preload : KV (Sched Preload) := []
  fringeLoad : Fringe := {}
  fringe : Sched Fringe := ⟨{}, []⟩
  rotate : Sched Bool := ⟨false, []⟩
  combine : Combine := {}
  collects : List Collect := []
  /-- integrations combined before their own last visit: channel and integ_start -/
  early : List (Nat × Nat) := []
  lastMissing : KV Nat := []
  presenceMismatch : Nat := 0
  excludedTotal : Nat := 0
  partialsCombined : Nat := 0
  partialsMissing : Nat := 0
  partialsLate : Nat := 0
  partialsDuplicate : Nat := 0
  partialsRejected : Nat := 0
  deriving DecidableEq, Repr

structure DumpState where
  set : Sched DumpSet := ⟨{}, []⟩
  /-- R200: the settings of the schedule that has ended, kept for its dumps that are still due when CORR_SET_DUMP replaces them -/
  prior : Option (Sched DumpSet) := none
  bufferMib : Nat := 256
  scheduled : List DumpAt := []
  dests : KV Dest := []
  /-- channel to destination; absent 0 -/
  map : KV Nat := []
  /-- R224: channels with a dump due whose boundary stood before their destination changed: the one it goes to, plus one -/
  mapDue : KV Nat := []
  /-- dumps made by channel, for dump_seq -/
  seqs : KV Nat := []
  /-- kept records by channel, newest first -/
  kept : KV (List DumpRec) := []
  /-- dumps on their way out, oldest first -/
  jobs : List DumpJob := []
  total : Nat := 0
  visDiscarded : Nat := 0
  portLost : Nat := 0
  unrouted : Nat := 0
  usedBytes : Nat := 0
  peakBytes : Nat := 0
  deriving DecidableEq, Repr

end Sys2Proof.Machine
end

