-- ==== Sys2Proof/Machine/StateProducts.lean ====
section
/-! DEFINITION. The state of beams, filter chains, the split of an array, the Freran bus and transient capture
(R226 to R278, R322 to R369). Defaults are the reset values. -/

namespace Sys2Proof.Machine

/-! ## Beams (R226 to R257) -/

/-- R234: a weight bank. Entries hold the value plus one; an entry that was never written is zero weight, scale 1.0,
unless `free` names the draw of a free value (R238: host software wrote the bank inside a swap). -/
structure WeightBank where
  /-- key (entry * 64 + beam) * 4096 + input offset: w_re * 256 + w_im, as bytes -/
  w : KV Nat := []
  /-- key entry * 64 + beam -/
  scale : KV Nat := []
  free : Option Nat := none
  deriving DecidableEq, Repr

/-- R253, R257: one beam set. -/
structure BeamSet where
  enable : Bool := false
  slots : Nat := 0
  groups : Nat := 0
  firstGroup : Nat := 0
  detect : Nat := 0
  track : Bool := false
  shared : Bool := false
  chan0 : Nat := 0
  chanCount : Nat := 0
  nInt : Nat := 0
  vDest : Nat := 0
  dDest : Nat := 0
  active : WeightBank := {}
  load : WeightBank := {}
  /-- R238: the swap that has not completed -/
  swap : Option When := none
  /-- R238: a second swap, accepted when the first had taken effect in a channel and not in all -/
  nextSwap : Option When := none
  /-- R379: ns before which the swap that an event asked for is not done; it has taken effect and "beam swap done" is owed -/
  doneAt : Nat := 0
  owed : Bool := false
  formed : Nat := 0
  lost : Nat := 0
  sent : Nat := 0
  discarded : Nat := 0
  portLost : Nat := 0
  clipped : Nat := 0
  sat : KV Nat := []
  /-- frame_seq by channel * 4 + kind -/
  seqs : KV Nat := []
  /-- R246: the gap flag is owed, same keys -/
  gaps : KV Nat := []
  /-- R250: visits for which "beam loss" has been raised: (channel, visit) -/
  lossSeen : List (Nat × Nat) := []
  deriving DecidableEq, Repr

structure BeamState where
  sets : KV BeamSet := []
  dests : KV Dest := []
  deriving DecidableEq, Repr

/-! ## Filter chains (R258 to R278) -/

/-- One stage as configured. -/
structure StageCfg where
  taps : Nat := 1
  decim : Nat := 1
  shift : Nat := 0
  deriving DecidableEq, Repr

/-- The running state of one stage: its last inputs since the restart, newest first. -/
structure StageRun where
  hist : List (List Int) := []
  deriving DecidableEq, Repr

/-- R272: what a chain has been handed for one visit: for each value its index, its components and its weight; or a gap in
the visit's place. -/
structure ChainInput where
  visit : Nat
  gap : Bool := false
  values : List (Nat × List Int × Nat)
  deriving DecidableEq, Repr

/-- One filter chain. -/
structure Chain where
  configured : Bool := false
  detected : Bool := false
  set : Nat := 0
  param : Nat := 0
  channel : Nat := 0
  first : Nat := 0
  series : Nat := 0
  wide : Bool := false
  dest : Nat := 0
  toFlint : Bool := false
  /-- the S stages -/
  stages : List StageCfg := []
  /-- coefficients by stage * 256 + tap -/
  active : KV Int := []
  load : KV Int := []
  swap : Option When := none
  /-- R275: enabled by sample index -/
  enable : Sched Bool := ⟨false, []⟩
  /-- it takes in values (the enable in force at its last value) -/
  on : Bool := false
  anchor : Option Nat := none
  runs : List StageRun := []
  /-- weights of the chain input values since the restart, newest first (R270) -/
  weights : List Nat := []
  /-- a restart since the last output emitted: the gap flag is owed -/
  gap : Bool := false
  /-- a stage output clipped since the last output emitted: the saturation flag is owed (R273) -/
  clip : Bool := false
  /-- R272: visits handed over and not yet processed -/
  input : List ChainInput := []
  /-- highest index taken in, plus one -/
  taken : Nat := 0
  /-- frame_seq by channel * 8 + kind -/
  seqs : KV Nat := []
  outputs : Nat := 0
  gaps : Nat := 0
  overruns : Nat := 0
  satOutputs : Nat := 0
  /-- it has emitted an output since its restart -/
  warm : Bool := false
  deriving DecidableEq, Repr

structure FilterState where
  chains : KV Chain := []
  /-- decimator resets that some chain has not passed, oldest first (R264, R276) -/
  syncs : List Nat := []
  /-- chain masks of swaps that have not completed, oldest first (R267) -/
  applies : List Nat := []
  /-- R379: the same of chains: the moment, and the masks for which "filter swap done" is owed -/
  doneAt : Nat := 0
  owed : List Nat := []
  lastSync : Nat := noIndex
  lateSyncs : Nat := 0
  deriving DecidableEq, Repr

/-! ## The split of an array (R335 to R344) -/

structure SplitState where
  parts : Nat := 1
  index : Nat := 0
  group : Nat := 0
  psxUdp : Nat := 47201
  mib : Nat := 0
  deriving DecidableEq, Repr

/-! ## The Freran bus (R322 to R343) -/

structure FreranPort where
  enable : Bool := false
  asym : Int := 0
  up : Bool := false
  /-- consecutive valid exchanges while it is not UP -/
  run : Nat := 0
  /-- ns of its last valid message, and of its last ECHO_REQ -/
  heardAt : Nat := 0
  sentAt : Nat := 0
  /-- t1 of the ECHO_REQ that awaits its answer -/
  asked : Option Nat := none
  /-- the last 16 mean values, newest first -/
  means : List Int := []
  deriving DecidableEq, Repr

/-- A FIRE that a window has collected. -/
structure Fire where
  origin : Nat
  index : Nat
  /-- R331: the freeze instant, time units; small mode -/
  instant : Int
  deriving DecidableEq, Repr

structure FreranState where
  mode : Nat := 0
  node : Nat := 0
  master : Nat := 0
  rearm : Bool := false
  maxLatency : Nat := 65536
  rearmUs : Nat := 1
  port0 : FreranPort := {}
  port1 : FreranPort := {}
  gen : Nat := 0
  armed : Bool := false
  /-- R329: collection windows: the generation, the ns at which the first FIRE was accepted, and the FIREs -/
  windows : List (Nat × Nat × List Fire) := []
  /-- an ARM accepted while a window was open -/
  armNext : Option Nat := none
  /-- the highest generation committed -/
  committed : Option Nat := none
  /-- R327: ns from which the master's next ARM is due, and its generation -/
  rearmAt : List (Nat × Nat) := []
  lastFreeze : Nat := noIndex
  /-- the device's own message counter and boot identifier -/
  seq : Nat := 0
  boot : Nat := 0
  /-- R324: last accepted seq and boot by origin, plus one: seq + boot * 2^32 + 1 -/
  origins : KV Nat := []
  /-- R333: EPOCHs that wait for the device's own epoch: e, S_e, t(S_e) low 64 bits -/
  epochs : List (Nat × Nat × Nat) := []
  merged : Nat := 0
  late : Nat := 0
  stale : Nat := 0
  slow : Nat := 0
  suppressed : Nat := 0
  duplicates : Nat := 0
  rxErrors : Nat := 0
  idConflicts : Nat := 0
  notMaster : Nat := 0
  epochMismatch : Nat := 0
  mapMismatch : Nat := 0
  deriving DecidableEq, Repr

/-! ## Transient capture (R345 to R369) -/

structure RingSel where
  mib : Nat := 0
  firstInput : Nat := 0
  nIn : Nat := 0
  firstChannel : Nat := 0
  nCh : Nat := 0
  deriving DecidableEq, Repr

/-- R346: a ring block and the granule it is allocated to. -/
structure RingBlock where
  granule : Nat
  /-- the schedule that it was allocated in, counted from reset -/
  gen : Nat := 0
  /-- key (channel offset * nIn + input offset) * 256 + position; one sample byte -/
  data : KV Nat := []
  /-- key channel offset * nIn + input offset; 1 valid -/
  valid : KV Nat := []
  /-- R348: same keys; 1: samples of the granule were discarded for want of staging -/
  spoilt : KV Nat := []
  deriving DecidableEq, Repr

/-- R350, R367: one trigger detector. -/
structure Detector where
  source : Nat := 0
  chain : Nat := 0
  series : Nat := 0
  pin : Nat := 0
  level : Bool := false
  falling : Bool := false
  low : Int := 0
  high : Int := 0
  minWeight : Nat := 0
  primed : Bool := false
  fires : Nat := 0
  deriving DecidableEq, Repr

/-- R353: a trigger that capture has collected. -/
structure Trigger where
  index : Nat
  /-- 0 detector; 1 "capture freeze"; 2 command; 3 forced -/
  source : Nat
  detector : Nat
  value : Int
  deriving DecidableEq, Repr

inductive CapMode where
  | disarmed | armed | deciding | capturing
  deriving DecidableEq, Repr

/-- Where a held segment stands. -/
inductive SegMode where
  | capturing | waiting | exporting
  deriving DecidableEq, Repr

/-- R356, R363: a frozen segment. -/
structure Segment where
  mode : SegMode
  seq : Nat
  trig : Trigger
  /-- number of the first granule of the span; a span may reach below index 0 -/
  first : Int
  count : Nat
  pre : Nat
  post : Nat
  merged : Nat
  suppressed : Nat
  level : Nat
  /-- granules of the span that are missing, by their place in it (R356, R358) -/
  lost : List Nat
  /-- frames handed to its destination and not yet gone -/
  inFlight : Nat := 0
  /-- the schedule whose granules it spans (R556: of one frozen while none was live, the next) -/
  gen : Nat := 0
  /-- its schedule has reached LOADED -/
  stopped : Bool := false
  /-- the destination as it was at its SEG_HEADER (R223) -/
  dest : Dest := {}
  deriving DecidableEq, Repr

structure CaptureState where
  sel : RingSel := {}
  blocks : List RingBlock := []
  /-- schedules started since reset -/
  gen : Nat := 0
  /-- the schedule that reached LOADED while the window of its triggers was open -/
  cutGen : Option Nat := none
  /-- granules whose block has been reused -/
  reused : List Nat := []
  /-- the schedule, counted from reset, whose data an arm waits for: the one that was live, or else the next (R556) -/
  armGen : Nat := 0
  /-- highest index ingest has written in the schedule, plus one (R354) -/
  top : Nat := 0
  segMode : Nat := 0
  mergeUs : Nat := 100
  pre : Nat := 0
  post : Nat := 0
  holdoff : Nat := 0
  autoLen : Nat := 0
  trigMask : Nat := 0
  dets : KV Detector := []
  dest : Dest := {}
  mode : CapMode := .disarmed
  rearm : Nat := 0
  /-- R354: triggers at or beyond this index are refused -/
  disarmAt : Option Nat := none
  /-- DECIDING: ns at which the window opened, and its triggers -/
  openedAt : Nat := 0
  window : List Trigger := []
  /-- CAPTURING: the trigger that is held (R358) -/
  held : Option Trigger := none
  /-- R358: a trigger in [A, A + auto_len) has been accepted, or the forced trigger has arisen -/
  autoSpent : Bool := false
  /-- S_f + post + holdoff of the last segment (R359) -/
  backoffFrom : Option Nat := none
  segs : List Segment := []
  level : Nat := 0
  segments : Nat := 0
  forced : Nat := 0
  merged : Nat := 0
  suppressed : Nat := 0
  /-- suppressed since the previous freeze -/
  sinceFreeze : Nat := 0
  suppressedBackoff : Nat := 0
  ringFull : Nat := 0
  noIndex : Nat := 0
  lostGranules : Nat := 0
  overflow : Nat := 0
  framesSent : Nat := 0
  portLost : Nat := 0
  deriving DecidableEq, Repr

end Sys2Proof.Machine
end

