-- ==== Sys2Proof/Machine/StateTime.lean ====
section
/-! DEFINITION. The state of Quartz, the time core (R279 to R321). Defaults are the reset values. -/

namespace Sys2Proof.Machine

/-- R279, R306, R307: one replica: its time in units of 2^-48 ns, its adjustment, its place in the vote. -/
structure Replica where
  time : Nat := 0
  adj : Int := 0
  inVote : Bool := true
  fenced : Bool := false
  /-- ns of uptime of its dissents in the last 60 s -/
  dissents : List Nat := []
  /-- out of the vote since this second of voted time -/
  outSec : Nat := 0
  deriving DecidableEq, Repr

/-- R296: the mapping; instants in time units of 2^-16 ns. -/
structure Mapping where
  sRef : Nat
  tRef : Nat
  num : Nat
  den : Nat
  deriving DecidableEq, Repr

/-- R300: the delay model of one input. -/
structure DelayModel where
  valid : Bool := false
  s0 : Nat := 0
  c0 : Int := 0
  c1 : Int := 0
  c2 : Int := 0
  c3 : Int := 0
  deriving DecidableEq, Repr

/-- R290, R291, R314: one pulse generator. -/
structure PulseGen where
  arm : Nat := 0
  outputs : Nat := 0
  /-- the start as it was set: time units (arm 1), sample index (arm 2), ns (arm 3) -/
  setStart : Nat := 0
  offsetNs : Nat := 0
  startIndex : Nat := 0
  /-- the instant of pulse 0, time units, once known -/
  start : Option Nat := none
  period : Nat := 0
  width : Nat := 4
  count : Nat := 0
  /-- number of the next pulse -/
  next : Nat := 0
  /-- its pins are driven high by the pulse of this leading instant -/
  high : Option Nat := none
  deriving DecidableEq, Repr

/-- R293 to R295, R315: one EVT pin. -/
structure EvtPin where
  output : Bool := false
  edges : Nat := 0
  queue : Nat := 0xFFFF
  /-- R294: the level the pin holds; none: as its line stood when the pin became an input, at which no edge has come yet -/
  level : Option Bool := none
  /-- time of the last detected edge, units of 2^-16 ns -/
  lastEdge : Option Nat := none
  merged : Nat := 0
  seq : Nat := 0
  deriving DecidableEq, Repr

/-- R285: a master that a port has heard: its port identity (10 bytes), the data set of its last Announce (the 14 bytes of
comparison), stepsRemoved, and the ns of its last two Announces. -/
structure ForeignMaster where
  source : List Byte
  data : List Byte
  steps : Nat
  /-- currentUtcOffset, the flags of the time scale, and timeSource of its last Announce -/
  utc : Nat := 0
  flags : Nat := 0
  timeSource : Nat := 0
  at_ : Nat
  before : Option Nat := none
  deriving DecidableEq, Repr

/-- R313: one PTP port as configured, and what it has seen. -/
structure PtpPortCfg where
  role : Nat := 0
  transport : Nat := 0
  trimIn : Int := 0
  trimOut : Int := 0
  asym : Int := 0
  /-- IEEE 1588-2019 portState -/
  portState : Nat := 3
  seqSync : Nat := 0
  seqAnnounce : Nat := 0
  seqDelay : Nat := 0
  foreigners : List ForeignMaster := []
  deriving DecidableEq, Repr

/-- The exchange of the slave port that is under way (R287); instants in time units. -/
structure PtpExchange where
  syncAt : Nat := 0
  t1 : Option Int := none
  t2 : Option Int := none
  t3 : Option Int := none
  corrMs : Int := 0
  /-- two-step: the Sync sequenceId whose Follow_Up is awaited -/
  wantFollow : Option Nat := none
  delaySeq : Option Nat := none
  meanPath : Int := 0
  havePath : Bool := false
  /-- peer delay: t2 received in a two-step response, and its correction -/
  peerT2 : Option Int := none
  peerT4 : Option Int := none
  peerCorr : Int := 0
  deriving DecidableEq, Repr

structure PtpState where
  profile : Nat := 0
  domain : Nat := 0
  logSync : Int := 0
  logAnnounce : Int := 1
  logDelay : Int := 0
  announceTimeout : Nat := 3
  syntonised : Bool := false
  /-- ports by number 0 to 79, 0x80, 0x81 -/
  ports : KV PtpPortCfg := []
  slave : Option Nat := none
  grandmaster : List Byte := List.replicate 8 0
  /-- the selected grandmaster's data set, as its Announce carries it, and its steps -/
  gmData : List Byte := []
  gmSteps : Nat := 0
  /-- and its currentUtcOffset, flags and timeSource -/
  gmUtc : Nat := 0
  gmFlags : Nat := 0
  gmSource : Nat := 0
  ex : PtpExchange := {}
  l1Up : Bool := false
  /-- ns of the last L1Sync signal of the master -/
  l1At : Nat := 0
  deriving DecidableEq, Repr

/-- R311: reference and discipline as set. -/
structure Source where
  ref : Nat := 0
  mode : Nat := 0
  falling : Bool := false
  ppsDelay : Int := 0
  stepNs : Nat := 1000
  suspectNs : Nat := 1000
  bwMhz : Nat := 100
  holdoverS : Nat := 60
  freeAdj : Int := 0
  deriving DecidableEq, Repr

/-- The snapshot registers (R281). -/
structure Snapshot where
  valid : Bool := false
  suspect : Bool := false
  noMap : Bool := false
  seq : Nat := 0
  sec : Nat := 0
  ns : Nat := 0
  frac : Nat := 0
  index : Nat := noIndex
  deriving DecidableEq, Repr

structure QuartzState where
  r0 : Replica := {}
  r1 : Replica := {}
  r2 : Replica := {}
  snap : Snapshot := {}
  /-- current causes and their sticky copy (R284, QZ_SUSPECT) -/
  causes : Nat := 1
  sticky : Nat := 1
  /-- ns at which time last ceased to be suspect -/
  suspectEnd : Option Nat := none
  source : Source := {}
  disc : Nat := 0
  pllLock : Bool := false
  /-- ns since which REF_IN has been lost; none: locked, or never locked -/
  refLostAt : Option Nat := none
  /-- ns since which the discipline is in HOLDOVER -/
  discLostAt : Option Nat := none
  lastOffset : Int := 0
  /-- R283: consecutive edges or Syncs within step_ns, and consecutive rejections -/
  good : Nat := 0
  rejected : Nat := 0
  lastPpsAt : Nat := 0
  /-- R312: TIME_SET that waits for the next PPS edge, time units -/
  pendingSet : Option Nat := none
  ptp : PtpState := {}
  pulses : KV PulseGen := []
  evt : KV EvtPin := []
  mapping : Option Mapping := none
  epochLen : Nat := 0
  /-- the number of the next epoch to be raised, of the schedule that runs -/
  nextEpoch : Nat := 0
  delayLoad : KV DelayModel := []
  delay : Sched (KV DelayModel) := ⟨[], []⟩
  /-- R308: outputs are held until a majority returns -/
  held : Bool := false
  /-- R309: the second in which the majority was lost; none: a TIME_RESYNC has come since -/
  heldSec : Option Nat := none
  /-- R320: the source of a TIME_RESYNC that waits for the next tick -/
  resync : Option Nat := none
  /-- R306: the next conversion has no two agreeing replicas -/
  convFail : Bool := false
  /-- R310: inputs whose next evaluation has no two agreeing replicas -/
  voteFail : List Nat := []
  /-- ns since which two replicas have agreed again (R284 bit 1) -/
  agreedAt : Option Nat := none
  steps : Nat := 0
  dissents : Nat := 0
  resyncs : Nat := 0
  ppsRejected : Nat := 0
  skippedPulses : Nat := 0
  lostEdges : Nat := 0
  lostRecords : Nat := 0
  lateEpochs : Nat := 0
  modelRange : Nat := 0
  delayVoteFail : Nat := 0
  deriving DecidableEq, Repr

end Sys2Proof.Machine
end

