-- ==== Sys2Proof/Machine/State.lean ====
section
/-! DEFINITION. The state of the block as plain data, the reasons a step can stop, and the state after reset. -/

namespace Sys2Proof.Machine

/-- Why a step stops the model. -/
inductive Fault where
  /-- Raised by every meaning when its operand is one that no sender and no event can present (`Instr.wf` fails):
  a parameter block longer than R385 lets through, a field wider than its wire. Safe: the manual gives such a thing no effect. -/
  | illFormed
  deriving DecidableEq, Repr

/-- Why the model gives a command no meaning. -/
inductive Refusal where
  /-- Raised by an arm of `exec` whose command has no meaning yet. Safe. -/
  | notModelled (mnemonic : String)
  deriving DecidableEq, Repr

/-- All that the manual gives the device, the queue of commands and events that wait to happen, and the record of its outputs. -/
structure State where
  /-- commands and events not yet taken, first in, first out -/
  pending : List Instr := []
  /-- ticks of the 1 GHz island since the reset of the device (R279) -/
  ns : Nat := 0
  /-- the model's own: how many free values have been drawn -/
  draws : Nat := 0
  /-- the model's own: everything sent or driven, newest first -/
  wire : List Output := []
  own : OwnState := {}
  dev : DevState := {}
  er : Router := {}
  mc : McState := {}
  ring : RingState := {}
  mem : MemState := {}
  /-- the flash by offset from 0x0000_C000_0000; erased bytes read 0xFF -/
  flash : Mem := []
  spare : SpareState := {}
  jrnl : JrnlState := {}
  pwr : PowerState := {}
  load : LoadState := {}
  port : PortState := {}
  ing : IngestState := {}
  stg : StagingState := {}
  bas : BasaltState := {}
  dump : DumpState := {}
  beam : BeamState := {}
  filt : FilterState := {}
  split : SplitState := {}
  fr : FreranState := {}
  cap : CaptureState := {}
  qz : QuartzState := {}
  tile : TileState := {}
  deriving DecidableEq, Repr

/-- The state after a power-on reset of a device that has never been programmed. -/
def State.reset : State := {}

end Sys2Proof.Machine
end

