-- ==== Sys2Proof/Machine/Areas.lean ====
section
/-! DEFINITION. What the device keeps in HBM for each channel, byte by byte: the long-term accumulators, the two halves of the
corner turn and the channel state area (R37, R120, R121, R171, R178, R179, R202). R447 gives the areas no addresses: where
the first begins is a free constant, and that a channel's parts lie in the order of R37 is the model's choice (log entry 49). -/

namespace Sys2Proof.Machine

def State.layout (s : State) : CorrLayout := s.tile.layout.getD {}

/-- P of R33: baselines. -/
def CorrLayout.baselines (l : CorrLayout) : Nat := if l.rect then l.rows * l.cols else l.n * (l.n + 1) / 2

/-- R120: the delay capacity. -/
def dCap (n d : Nat) : Nat := min (min (256 * (4096 / n)) 4096) (d / 2) / 256 * 256

/-- R179: E. -/
def entryBytes (dwell : Nat) : Nat := 8 + max 8 (dwell / 2048)
def logCapacity (dwell : Nat) : Nat := 1505280 / entryBytes dwell

/-! ## Where the areas lie (R37, R447) -/

def CorrLayout.accBytes (l : CorrLayout) : Nat := ceilDiv (12 * l.baselines) 1048576 * 1048576
def CorrLayout.halfBytes (l : CorrLayout) : Nat := ceilDiv (l.n * l.dwell) 1048576 * 1048576
/-- F, in bytes. -/
def CorrLayout.areaBytes (l : CorrLayout) : Nat := l.accBytes + 2 * l.halfBytes + 0x400000

/-- R234: E_w. -/
def BeamSet.entryBytes (b : BeamSet) : Nat := 256 + 8192 * b.groups
def BeamSet.entries (b : BeamSet) : Nat := if b.shared then 1 else b.chanCount
/-- R235: MiB of a set's two banks. -/
def BeamSet.bankMib (b : BeamSet) : Nat := ceilDiv (2 * b.entryBytes * b.entries) 1048576
def State.bankMib (s : State) : Nat := (s.beam.sets.map (·.2.bankMib)).sum

/-- MiB between the system area and the host region that nothing is allocated in. -/
def State.hbmSlack (s : State) : Nat :=
  98304 - 2048 - s.mem.hostMib - s.bankMib - s.layout.channels * s.layout.areaBytes / 1048576 - s.cap.sel.mib - s.split.mib

/-- R447: the banks of the sets in turn, above the system area, with gaps that the manual does not give: MiB of each set's load
bank; then where the channel areas may begin, and the slack that is left. -/
def State.bankPlaces (s : State) : List (Nat × Nat) × Nat × Nat :=
  s.beam.sets.foldl (fun (acc : List (Nat × Nat) × Nat × Nat) (e : Nat × BeamSet) =>
    let gap := Config.beamBankBase e.1 % (acc.2.2 + 1)
    let at_ := acc.2.1 + gap
    (acc.1 ++ [(e.1, at_)], at_ + e.2.bankMib, acc.2.2 - gap)) ([], 2048, s.hbmSlack)

/-- The HBM offset of a set's load bank (log entry 5). -/
def State.bankBase (s : State) (n : Nat) : Nat :=
  let p := s.bankPlaces
  ((p.1.find? (·.1 = n)).map (·.2)).getD p.2.1 * 1048576

/-- The HBM offset of a channel's areas, above the banks. -/
def State.channelOffset (s : State) (c : Nat) : Nat :=
  let p := s.bankPlaces
  (p.2.1 + Config.channelBase % (p.2.2 + 1)) * 1048576 + c * s.layout.areaBytes

/-- The channel that an HBM offset belongs to, and the place within its areas. -/
def State.areaAt (s : State) (off : Nat) : Option (Nat × Nat) :=
  match s.tile.layout with
  | none => none
  | some l =>
    let base := s.channelOffset 0
    if base ≤ off && off < base + l.channels * l.areaBytes then some ((off - base) / l.areaBytes, (off - base) % l.areaBytes)
    else none

/-! ## The corner turn (R120, R121) -/

/-- Where position `p` of input `i` in visit `k` is stored: half 0, half 1 or tail slot 2 (0 to 2), and the byte within it. -/
def cornerPlace (n d k i p : Nat) : Nat × Nat :=
  let cap := dCap n d
  if p < d - cap then (k % 2, i * d + p)
  else
    let q := p - (d - cap)
    if k % 3 = 2 then (2, i * cap + q) else (k % 3, i * d + (d - cap) + q)

/-- Key of a stored byte in `Chan.area`: halves hold at most 2^26 bytes. -/
def cornerKey (n d k i p : Nat) : Nat :=
  let (h, o) := cornerPlace n d k i p
  h * 2 ^ 26 + o

/-- The same byte's offset within the channel's areas. -/
def CorrLayout.cornerOffset (l : CorrLayout) (k i p : Nat) : Nat :=
  let (h, o) := cornerPlace l.n l.dwell k i p
  l.accBytes + h * l.halfBytes + o

/-! ## Long-term accumulators (R171) -/

def bytes48 (v : Int × Int) : List Byte := leBytes 6 (ofSigned 48 v.1) ++ leBytes 6 (ofSigned 48 v.2)
def value48 (b : List Byte) : Int × Int := (toSigned 48 (lfld b 0 6), toSigned 48 (lfld b 6 6))

/-- R176: values of an integration whose residual image was disturbed are not specified. -/
def freeValue (draw q : Nat) : Int × Int :=
  (toSigned 48 (Config.freeNat draw (2 * q) % 2 ^ 48), toSigned 48 (Config.freeNat draw (2 * q + 1) % 2 ^ 48))

/-- The value that an integration of this preload shows where it computes `v`. -/
def Preload.given (p : Preload) (q : Nat) (v : Int × Int) : Int × Int :=
  match p.spoilt with
  | some n => freeValue n q
  | none => v

/-- R187: parts and combiners accumulate from zero. -/
def State.accPreload (s : State) (p : Preload) : Preload := if s.bas.combine.role = 0 then p else {}

/-- What the region holds for ordinal `q`: the integration's value, or what the last one left. -/
def State.heldValue (s : State) (g : Integ) (q : Nat) : Option (Int × Int) :=
  match kvGet none g.acc q with
  | some v => some ((s.accPreload g.preload).given q v)
  | none => kvGet none g.stale q

/-! ## Channel header, input records and weight log (R178, R179) -/

/-- The fringe tables that are active in a channel: those of its last visit accounted for. -/
def State.activeFringe (s : State) (c : Nat) : Fringe :=
  let g := kvGet {} s.bas.integs c
  if g.next = 0 then s.bas.fringe.base else schedAt s.bas.fringe c (s.tile.start + (g.next - 1) * s.layout.dwell)

/-- R187: the preload that a channel's current integration has: zero in the part role. -/
def State.shownPreload (s : State) (g : Integ) : Preload := if s.bas.combine.role = 1 then {} else g.preload

/-- integ_state of R178. While the next integration accumulates and the dump of the last one is in progress, the manual does
not say which is shown; here 1 (DESIGN CHOICE, log entry 66). -/
def State.integState (s : State) (c : Nat) : Nat :=
  let g := kvGet {} s.bas.integs c
  if g.start < g.next then 1 else if s.dump.jobs.any (·.channel = c) then 2 else 0

/-- The first 64 bytes of the header; the rest is reserved. -/
def State.channelHeader (s : State) (c : Nat) (g : Integ) : List Byte :=
  let p := s.shownPreload g
  leBytes 1 (s.integState c) ++ leBytes 1 p.mode ++ leBytes 1 (b2n g.rotation) ++
  leBytes 1 (b2n g.saturated + 2 * b2n g.excluded) ++ leBytes 1 g.half ++ zeros 3 ++ leBytes 8 g.headerStart ++
  leBytes 4 g.processed ++ leBytes 4 g.entries.length ++ leBytes 4 g.excludedLog ++ leBytes 4 g.satBaselines ++
  leBytes 6 (ofSigned 48 p.biasRe) ++ leBytes 6 (ofSigned 48 p.biasIm) ++ zeros 4 ++
  leBytes 8 (if p.mode = 2 then p.residual else 0) ++ leBytes 8 (kvGet 0 (s.activeFringe c).sky c)

/-- A header that was written into: the integration goes on from what it says. -/
def Integ.withHeader (g : Integ) (b : List Byte) : Integ :=
  { g with
    preload := { g.preload with mode := lfld b 1 1 % 3, biasRe := toSigned 48 (lfld b 32 6), biasIm := toSigned 48 (lfld b 38 6),
                                residual := if lfld b 1 1 = 2 then lfld b 48 8 else g.preload.residual },
    rotation := bit (lfld b 2 1) 0, saturated := bit (lfld b 3 1) 0, excluded := bit (lfld b 3 1) 1, half := lfld b 4 1 % 2,
    headerStart := lfld b 8 8, processed := lfld b 16 4, entries := g.entries.take (lfld b 20 4), excludedLog := lfld b 24 4,
    satBaselines := lfld b 28 4 }

/-- Where the newest entry of an input lies in the current log half; 0xFFFF_FFFF none. -/
def Integ.lastEntry (g : Integ) (dwell i : Nat) : Nat :=
  match (g.entries.zipIdx.filter fun e => e.1.kind ≠ 3 && e.1.id = i).getLast? with
  | some e => e.2 * entryBytes dwell
  | none => 0xFFFFFFFF

def inputRecord (f : Fringe) (g : Integ) (ch : Chan) (dwell i : Nat) : List Byte :=
  leBytes 4 (kvGet 0 f.phase i) ++ leBytes 4 (kvGet 0 g.theta i) ++ leBytes 4 (g.lastEntry dwell i) ++
  leBytes 4 (ofSigned 32 (kvGet 0 ch.lastDelay i))

def LogEntry.bytes (e : LogEntry) (dwell : Nat) : List Byte :=
  leBytes 1 e.kind ++ [0] ++ leBytes 2 e.id ++ leBytes 4 e.visit ++ leBytes (entryBytes dwell - 8) e.body

def logEntryOf (b : List Byte) (dwell : Nat) : LogEntry :=
  { kind := lfld b 0 1, id := lfld b 2 2, visit := lfld b 4 4, body := lfld b 8 (entryBytes dwell - 8) }

/-- The entries of a log half: those of the current integration, or those the last one left in the other half. -/
def Integ.logHalf (g : Integ) (half : Nat) : List LogEntry := if g.half = half then g.entries else g.oldLog

/-! ## Kept dump headers (R202) -/

/-- The widths of the record's fields, bytes 0 to 111. -/
def recordWidths : List Nat :=
  [8, 8, 6, 4, 2, 6, 4, 2, 4, 4, 2, 1, 1, 1, 1, 1, 1, 4, 4, 4, 4, 4, 4, 4, 4, 4, 4, 1, 1, 1, 1, 4, 4, 4]

/-- Each field in the other byte order. -/
def swapFields : List Nat → List Byte → List Byte
  | [], _ => []
  | w :: t, b => (b.take w).reverse ++ swapFields t (b.drop w)

/-- A kept record as it lies in the channel state area. -/
def DumpRec.littleBytes (r : DumpRec) : List Byte :=
  swapFields recordWidths r.bytes ++ leBytes 4 r.visDiscarded ++ leBytes 4 r.portLost ++ leBytes 1 (b2n r.complete) ++ zeros 7

def DumpRec.withLittle (r : DumpRec) (b : List Byte) : DumpRec :=
  { r with bytes := swapFields recordWidths b, visDiscarded := lfld b 112 4, portLost := lfld b 116 4, complete := lfld b 120 1 = 1 }

/-! ## One byte of the areas -/

/-- Which field a byte of a channel's areas is. -/
inductive AreaByte where
  | acc (q o : Nat)          -- byte o of ordinal q
  | corner (key : Nat)
  | header (o : Nat)
  | input (i o : Nat)
  | record (slot o : Nat)    -- of the dump header area
  | log (half e o : Nat)
  | plain                    -- nothing the manual lays out
  deriving DecidableEq, Repr

def CorrLayout.areaByte (l : CorrLayout) (x : Nat) : AreaByte :=
  let body := l.n * l.dwell
  if x < l.accBytes then (if x < 12 * l.baselines then .acc (x / 12) (x % 12) else .plain)
  else if x < l.accBytes + 2 * l.halfBytes then
    let y := x - l.accBytes
    if y % l.halfBytes < body then .corner (y / l.halfBytes * 2 ^ 26 + y % l.halfBytes) else .plain
  else
    let y := x - l.accBytes - 2 * l.halfBytes
    if y < 0x100000 then (if y < l.n * dCap l.n l.dwell then .corner (2 * 2 ^ 26 + y) else .plain)
    else if y < 0x101000 then (if y < 0x100040 then .header (y - 0x100000) else .plain)
    else if y < 0x111000 then .input ((y - 0x101000) / 16) (y % 16)
    else if y < 0x121000 then .record ((y - 0x111000) / 128) ((y - 0x111000) % 128)
    else
      let half := (y - 0x121000) / 1505280
      let o := (y - 0x121000) % 1505280
      if half < 2 && o / entryBytes l.dwell < logCapacity l.dwell then
        .log half (o / entryBytes l.dwell) (o % entryBytes l.dwell)
      else .plain

/-- The byte at place `x` of channel `c`; none: plain memory. -/
def State.areaLoad (s : State) (c x : Nat) : Option Byte :=
  let l := s.layout
  let g := kvGet {} s.bas.integs c
  let ch := kvGet {} s.stg.chans c
  match l.areaByte x with
  | .acc q o => (s.heldValue g q).map fun v => (bytes48 v).getD o 0
  | .corner key => some (BitVec.ofNat 8 (kvGet 0 ch.area key))
  | .header o => some ((s.channelHeader c g).getD o 0)
  | .input i o => some ((inputRecord (s.activeFringe c) g ch l.dwell i).getD o 0)
  | .record slot o => ((kvGet [] s.dump.kept c).find? (·.seq % 512 = slot)).map fun r => r.littleBytes.getD o 0
  | .log half e o => ((g.logHalf half)[e]?).map fun x => (x.bytes l.dwell).getD o 0
  | .plain => none

/-- A byte is written there by something other than the engine that owns the area (R424): what the device does next follows
from it. integ_state, last_entry, sky_freq and phase_offset are those of other state, so a write to them has no effect. None:
plain memory. -/
def State.areaStore (s : State) (c x : Nat) (v : Byte) : Option State :=
  let l := s.layout
  let g := kvGet {} s.bas.integs c
  let ch := kvGet {} s.stg.chans c
  let setG (g1 : Integ) : State := { s with bas := { s.bas with integs := kvSet {} s.bas.integs c g1 } }
  let setC (c1 : Chan) : State := { s with stg := { s.stg with chans := kvSet {} s.stg.chans c c1 } }
  match l.areaByte x with
  | .acc q o => (s.heldValue g q).map fun w =>
      let w1 := value48 ((bytes48 w).set o v)
      if (kvGet none g.acc q).isSome then setG { g with acc := kvSet none g.acc q (some w1) }
      else setG { g with stale := kvSet none g.stale q (some w1) }
  | .corner key => some (setC { ch with area := kvSet 0 ch.area key v.toNat })
  | .header o => some (setG (g.withHeader ((s.channelHeader c g).set o v)))
  | .input i o =>
    let b := (inputRecord (s.activeFringe c) g ch l.dwell i).set o v
    if o < 4 then some s
    else if o < 8 then some (setG { g with theta := kvSet 0 g.theta i (lfld b 4 4) })
    else if o < 12 then some s
    else some (setC { ch with lastDelay := kvSet 0 ch.lastDelay i (toSigned 32 (lfld b 12 4)) })
  | .record slot o =>
    let rs := kvGet [] s.dump.kept c
    if rs.any (·.seq % 512 = slot) then
      let upd (r : DumpRec) : DumpRec := if r.seq % 512 = slot then r.withLittle (r.littleBytes.set o v) else r
      some { s with dump := { s.dump with kept := kvSet [] s.dump.kept c (rs.map upd) } }
    else none
  | .log half e o =>
    ((g.logHalf half)[e]?).map fun y =>
      let y1 := logEntryOf ((y.bytes l.dwell).set o v) l.dwell
      if g.half = half then setG { g with entries := g.entries.set e y1 } else setG { g with oldLog := g.oldLog.set e y1 }
  | .plain => none

end Sys2Proof.Machine
end

