-- ==== Sys2Proof/Machine/Net.lean ====
section
/-! DEFINITION. Ethernet, IP and UDP as the ports read and write them (R88 to R91, R387, R416): checksums, parsing,
building, and the answers to ARP, neighbour discovery and echo requests. -/

namespace Sys2Proof.Machine

/-- Sum of 16-bit words, network order, odd byte padded. -/
def wordSum : List Byte → Nat
  | [] => 0
  | [a] => a.toNat * 256
  | a :: b :: t => a.toNat * 256 + b.toNat + wordSum t

/-- The ones' complement fold of a sum that needs at most two carries more than once. -/
def foldSum (n : Nat) : Nat :=
  let n1 := n / 65536 + n % 65536
  let n2 := n1 / 65536 + n1 % 65536
  n2 / 65536 + n2 % 65536

def checksum (bs : List Byte) : Nat := 65535 - foldSum (wordSum bs)

/-- An IP packet as a port reads it. -/
structure Ip where
  v6 : Bool
  src : List Byte
  dst : List Byte
  proto : Nat
  hops : Nat
  body : List Byte
  fragment : Bool
  /-- a Router Alert option in the hop-by-hop header (IPv6) -/
  alert : Bool := false
  deriving DecidableEq, Repr

/-- A Router Alert option (type 5, two bytes) among the options of a hop-by-hop header. -/
def routerAlert : Nat → List Byte → Bool
  | 0, _ => false
  | _, [] => false
  | fuel + 1, t :: rest =>
    if t = 0 then routerAlert fuel rest
    else if t = 5 then fld rest 0 1 = 2 && 3 ≤ rest.length
    else routerAlert fuel (rest.drop (fld rest 0 1 + 1))

/-- Skip the extension headers that carry no payload of their own; a fragment header marks a fragment. -/
def skipExt : Nat → Nat → List Byte → Nat × List Byte × Bool
  | 0, nh, b => (nh, b, false)
  | fuel + 1, nh, b =>
    if nh = 44 then (fld b 0 1, b.drop 8, true)
    else if nh = 0 || nh = 43 || nh = 60 then
      skipExt fuel (fld b 0 1) (b.drop (8 * (fld b 1 1 + 1)))
    else (nh, b, false)

def parseIp (etherType : Nat) (p : List Byte) : Option Ip :=
  if etherType = 0x0800 then
    let ihl := fld p 0 1 % 16 * 4
    let total := fld p 2 2
    if p.length < 20 || fld p 0 1 / 16 ≠ 4 || ihl < 20 || total < ihl || p.length < total ||
        foldSum (wordSum (p.take ihl)) ≠ 65535 then none
    else some { v6 := false, src := slice p 12 4, dst := slice p 16 4, proto := fld p 9 1, hops := fld p 8 1,
                body := slice p ihl (total - ihl), fragment := fld p 6 2 % 0x4000 ≠ 0 }
  else if etherType = 0x86DD then
    let len := fld p 4 2
    if p.length < 40 + len || fld p 0 1 / 16 ≠ 6 then none
    else
      let (nh, b, frag) := skipExt 8 (fld p 6 1) (slice p 40 len)
      let alert := fld p 6 1 = 0 && routerAlert 2048 (slice p 42 (8 * (fld p 41 1 + 1) - 2))
      some { v6 := true, src := slice p 8 16, dst := slice p 24 16, proto := nh, hops := fld p 7 1, body := b, fragment := frag,
             alert := alert }
  else none

/-- The pseudo-header sum of UDP and ICMPv6. -/
def pseudoSum (src dst : List Byte) (proto len : Nat) : Nat := wordSum (src ++ dst) + proto + len

structure Udp where
  src : Nat
  dst : Nat
  body : List Byte
  /-- a checksum is present and correct -/
  sumOk : Bool
  /-- no checksum is present -/
  sumZero : Bool
  deriving DecidableEq, Repr

def parseUdp (ip : Ip) : Option Udp :=
  let b := ip.body
  let len := fld b 4 2
  if ip.proto ≠ 17 || b.length < 8 || len < 8 || b.length < len then none
  else some { src := fld b 0 2, dst := fld b 2 2, body := slice b 8 (len - 8),
              sumOk := fld b 6 2 ≠ 0 && foldSum (pseudoSum ip.src ip.dst 17 len + wordSum (b.take len)) = 65535,
              sumZero := fld b 6 2 = 0 }

/-- An IP packet, v4 by 4-byte addresses and v6 by 16-byte ones. -/
def buildIp (src dst : List Byte) (proto hops : Nat) (body : List Byte) : List Byte :=
  if src.length = 4 then
    let h0 := [BitVec.ofNat 8 0x45] ++ beBytes 1 (Config.ipField 0) ++ beBytes 2 (20 + body.length) ++
      beBytes 2 (Config.ipField 1) ++ beBytes 2 0x4000 ++ beBytes 1 hops ++ beBytes 1 proto
    h0 ++ beBytes 2 (checksum (h0 ++ [0, 0] ++ src ++ dst)) ++ src ++ dst ++ body
  else
    beBytes 4 (0x60000000 + Config.ipField 3 % 0x10000000) ++ beBytes 2 body.length ++ beBytes 1 proto ++
      beBytes 1 hops ++ src ++ dst ++ body

def buildUdp (src dst : List Byte) (sport dport : Nat) (body : List Byte) : List Byte :=
  let len := 8 + body.length
  let h := beBytes 2 sport ++ beBytes 2 dport ++ beBytes 2 len
  let c := 65535 - foldSum (pseudoSum src dst 17 len + wordSum (h ++ body))
  h ++ beBytes 2 (if c = 0 then 65535 else c) ++ body

def ipEther (addr : List Byte) : Nat := if addr.length = 4 then 0x0800 else 0x86DD

/-- A UDP datagram in a frame; `vlan` 0 is untagged. -/
def udpFrame (dstMac srcMac vlan : Nat) (src dst : List Byte) (sport dport : Nat) (body : List Byte) : Frame :=
  { dst := dstMac, src := srcMac, tags := if vlan = 0 then [] else [vlan], etherType := ipEther src,
    payload := buildIp src dst 17 (Config.ipField 2 % 256) (buildUdp src dst sport dport body) }

/-- R416: fe80::/64 with the modified EUI-64 identifier of a MAC address. -/
def linkLocal (mac : Nat) : List Byte :=
  let m := beBytes 6 mac
  let first := match m with | b :: _ => b ^^^ 2 | [] => 0
  beBytes 8 0xFE80000000000000 ++ [first] ++ slice m 1 2 ++ [0xFF, 0xFE] ++ slice m 3 3

/-- The addresses a port answers for: its MAC address, its IPv4 address (0 none) and its IPv6 addresses. -/
structure Addresses where
  mac : Nat
  vlan : Nat
  ipv4 : Nat
  ipv6 : List (List Byte)
  deriving DecidableEq, Repr

/-- R88: an untagged frame, or one with exactly one 802.1Q tag, whose VID is the port's. -/
def vlanOk (vlan : Nat) (f : Frame) : Bool :=
  match f.tags with
  | [] => true
  | [t] => t % 4096 = vlan
  | _ => false

/-- R90: the answer to an ARP request for the port's IPv4 address. -/
def arpReply (a : Addresses) (f : Frame) : Option Frame :=
  let p := f.payload
  if f.etherType = 0x0806 && 28 ≤ p.length && fld p 0 2 = 1 && fld p 2 2 = 0x0800 && fld p 4 2 = 0x0604 &&
      fld p 6 2 = 1 && a.ipv4 ≠ 0 && fld p 24 4 = a.ipv4 then
    some { dst := f.src, src := a.mac, tags := f.tags, etherType := 0x0806,
           payload := beBytes 2 1 ++ beBytes 2 0x0800 ++ beBytes 2 0x0604 ++ beBytes 2 2 ++ beBytes 6 a.mac ++
             beBytes 4 a.ipv4 ++ slice p 8 6 ++ slice p 14 4 }
  else none

/-- An ICMPv6 message with its checksum filled in at offset 2. -/
def icmp6 (src dst msg : List Byte) : List Byte :=
  let z := slice msg 0 2 ++ [0, 0] ++ msg.drop 4
  slice msg 0 2 ++ beBytes 2 (65535 - foldSum (pseudoSum src dst 58 z.length + wordSum z)) ++ msg.drop 4

def icmp6Ok (ip : Ip) : Bool := foldSum (pseudoSum ip.src ip.dst 58 ip.body.length + wordSum ip.body) = 65535

/-- R90: the neighbour advertisement that answers a solicitation for one of the port's IPv6 addresses. -/
def neighbourReply (a : Addresses) (f : Frame) (ip : Ip) : Option Frame :=
  let target := slice ip.body 8 16
  if ip.v6 && ip.proto = 58 && fld ip.body 0 1 = 135 && fld ip.body 1 1 = 0 && ip.hops = 255 && 24 ≤ ip.body.length &&
      icmp6Ok ip && a.ipv6.contains target then
    let unspecified := ip.src.all (· == 0)
    let dst := if unspecified then beBytes 8 0xFF02000000000000 ++ beBytes 8 1 else ip.src
    let flags := if unspecified then 0x20000000 else 0x60000000
    let msg := beBytes 1 136 ++ zeros 3 ++ beBytes 4 flags ++ target ++ beBytes 2 0x0201 ++ beBytes 6 a.mac
    some { dst := if unspecified then 0x333300000001 else f.src, src := a.mac, tags := f.tags, etherType := 0x86DD,
           payload := buildIp target dst 58 255 (icmp6 target dst msg) }
  else none

/-- R416: the answer to an ICMP or ICMPv6 echo request to one of the port's addresses. -/
def echoReply (a : Addresses) (f : Frame) (ip : Ip) : Option Frame :=
  let mine := if ip.v6 then a.ipv6.contains ip.dst else a.ipv4 ≠ 0 && beNat ip.dst = a.ipv4
  if !mine then none
  else if !ip.v6 && ip.proto = 1 && fld ip.body 0 1 = 8 && foldSum (wordSum ip.body) = 65535 then
    let b := [0, 0, 0, 0] ++ ip.body.drop 4
    let msg := [0, 0] ++ beBytes 2 (checksum b) ++ ip.body.drop 4
    some { dst := f.src, src := a.mac, tags := f.tags, etherType := 0x0800,
           payload := buildIp ip.dst ip.src 1 (Config.ipField 2 % 256) msg }
  else if ip.v6 && ip.proto = 58 && fld ip.body 0 1 = 128 && icmp6Ok ip then
    some { dst := f.src, src := a.mac, tags := f.tags, etherType := 0x86DD,
           payload := buildIp ip.dst ip.src 58 (Config.ipField 2 % 256)
             (icmp6 ip.dst ip.src (beBytes 1 129 ++ ip.body.drop 1)) }
  else none

end Sys2Proof.Machine
end

