-- ==== Sys2Proof/Machine/Ops.lean ====
section
/-! DEFINITION. The named operations every meaning shares: time as voted, free values, memory through the bus matrix,
queues, events, replies. -/

namespace Sys2Proof.Machine

/-- Memory in canonical form: addresses strictly rising, and no entry equal to what an unlisted address reads as. -/
def Memory.wf (unlisted : Byte) (m : Mem) : Bool := kvWf unlisted m

/-! ## Plain updates -/

/-- Everything sent or driven is kept, newest first. -/
def State.emit (s : State) (o : Output) : State := { s with wire := o :: s.wire }

/-- A free value's number; the next draw is another one. -/
def State.draw (s : State) : State := { s with draws := s.draws + 1 }

/-! ## Reset of the device (R518, R520) -/

/-- R520, causes 0 to 4: OTP and flash keep their contents, and what lies outside the device stays as it is. -/
def State.deviceReset (s : State) (cause : Nat) : State :=
  let z := State.reset
  let p := s.pwr
  -- QUIESCE_N held low through the reset asks for a quiesce that starts with SERVICE (R533)
  let low := p.quiesce.pinLow
  let q : QuiesceState := { z.pwr.quiesce with pinLow := low, byPin := low, deferred := low }
  let w : PowerState := { z.pwr with cause := cause, quiesce := q, otp0 := p.otp0, otp1 := p.otp1, otp2 := p.otp2,
                                     minVersion := p.minVersion, raiseMin := p.raiseMin, straps := p.straps }
  { z with pending := s.pending, draws := s.draws, wire := s.wire, flash := s.flash, pwr := w,
           port := { z.port with noRefclk := s.port.noRefclk } }

/-! ## Time (R279, R306 to R308) -/

def State.replicas (s : State) : List Replica := [s.qz.r0, s.qz.r1, s.qz.r2]

/-- The time two in-vote replicas agree on, in units of 2^-48 ns. -/
def votedRaw (rs : List Replica) : Option Nat :=
  let ts := (rs.filter (·.inVote)).map (·.time)
  ts.find? fun t => 2 ≤ ts.count t

def State.majority (s : State) : Bool := (votedRaw s.replicas).isSome

/-- Voted Quartz time, time units of 2^-16 ns; replica 0's while no majority exists (R281). -/
def State.now (s : State) : Nat := (votedRaw s.replicas).getD s.qz.r0.time / 2 ^ 32

def State.nowInstant (s : State) : Instant := instantOf s.now

/-- R284: time is suspect while any cause is set. -/
def State.suspect (s : State) : Bool := s.qz.causes ≠ 0

/-- R296: the instant of a sample index, time units; none before the epoch of R279. -/
def Mapping.instant (m : Mapping) (idx : Nat) : Int :=
  (m.tRef : Int) + ((idx : Int) - m.sRef) * m.den * (1000000000 * 65536) / (m.num : Int)

/-- R296: the smallest index whose instant is at or after `t`; none when negative or the reserved value. -/
def Mapping.index (m : Mapping) (t : Nat) : Option Nat :=
  -- t(S) ≥ T iff (S - S_ref) * den * 10^9 * 2^16 / num ≥ T - T_ref, the floor reaching an integer
  let d : Int := ((t : Int) - m.tRef) * m.num
  let q : Int := (m.den : Int) * (1000000000 * 65536)
  let i : Int := (m.sRef : Int) + -((-d) / q)
  if i < 0 || (noIndex : Int) ≤ i then none else some i.toNat

/-- t(S) where a mapping is loaded and the instant lies at or after the epoch (R297, R317). -/
def State.instantOfIndex (s : State) (idx : Nat) : Option Nat :=
  match s.qz.mapping with
  | none => none
  | some m => if idx ≥ noIndex then none else if m.instant idx < 0 then none else some (m.instant idx).toNat

/-- S(T), the reserved value where there is none (R297). -/
def State.indexOfInstant (s : State) (t : Nat) : Nat :=
  match s.qz.mapping with
  | none => noIndex
  | some m => (m.index t).getD noIndex

/-! ## Power domains (R513 to R516) -/

def State.domain (s : State) (d : Nat) : Domain := if h : d < 96 then s.pwr.domains[d] else {}
def State.setDomain (s : State) (d : Nat) (v : Domain) : State :=
  { s with pwr := { s.pwr with domains := s.pwr.domains.setIfInBounds d v } }
def State.domainOn (s : State) (d : Nat) : Bool := (s.domain d).state = .on

/-! ## The bus matrix (R425 to R438) -/

/-- The three responses of R436. -/
inductive Resp where
  | ok | err | decerr
  deriving DecidableEq, Repr

inductive Target where
  | rom (off : Nat)
  | sramLow (off : Nat)
  | sram (off : Nat)
  | csr (off : Nat)
  | staging (off : Nat)
  | flash (off : Nat)
  | hbm (off : Nat)
  | outbound (off : Nat)
  | none
  deriving DecidableEq, Repr

/-- R425: the address map. -/
def decodeAddr (remap : Bool) (a : Nat) : Target :=
  if a < 0x40000000 then
    if remap then (if a < 0x400000 then .sramLow a else .none) else (if a < 0x40000 then .rom a else .none)
  else if a < 0x80000000 then (if a - 0x40000000 < 0x400000 then .sram (a - 0x40000000) else .none)
  else if a < 0x90000000 then .csr (a - 0x80000000)
  else if 0xA0000000 ≤ a && a < 0xB0000000 then (if a - 0xA0000000 < 0x8010000 then .staging (a - 0xA0000000) else .none)
  else if 0xC0000000 ≤ a && a < 0x100000000 then (if a - 0xC0000000 < 0x10000000 then .flash (a - 0xC0000000) else .none)
  else if 0x1000000000 ≤ a && a < 0x2800000000 then .hbm (a - 0x1000000000)
  else if 0x10000000000 ≤ a && a < 0x20000000000 then .outbound (a - 0x10000000000)
  else .none

/-- R431: the targets a requester is connected to. -/
def connected (req : Nat) : Target → Bool
  | .none => false
  | .rom _ | .sramLow _ | .staging _ => req ≤ 1
  | .sram _ => req ≤ 1 || req = 3 || req = 4 || req = 7
  | .csr _ => req ≤ 2
  | .flash _ => req ≤ 1 || req = 7
  | .hbm _ => req ≤ 6 || req = 15
  | .outbound _ => req ≤ 1 || req = 3 || req = 4

/-- R431: the in-flight limits. -/
def requesterLimit (m : Nat) : Nat :=
  ([256, 256, 1024, 4096, 4096, 8192, 2048, 64, 6336, 6336, 0, 0, 0, 0, 0, 64] : List Nat).getD m 0

/-- R439: pseudo-channel 0 to 127 of an HBM offset. -/
def hbmPc (off : Nat) : Nat :=
  let p := off / 256
  ((p ^^^ (p / 128)) ^^^ (p / 2 ^ 14) ^^^ (p / 2 ^ 21)) % 128

def hbmBank (off : Nat) : Nat := 8 * (off / 256 / 128 % 6) + off / 32 % 8
def hbmLoc (off : Nat) : Nat := off / 256 / 128 / 6

/-- R439: unit number within its stack's pseudo-channel order is not given; the scrubber walks units by address. -/
def stackOf (off : Nat) : Nat := hbmPc off / 32

def MemState.hc (m : MemState) (h : Nat) : HbmCtl :=
  if h = 0 then m.hc0 else if h = 1 then m.hc1 else if h = 2 then m.hc2 else m.hc3

def MemState.setHc (m : MemState) (h : Nat) (c : HbmCtl) : MemState :=
  if h = 0 then { m with hc0 := c } else if h = 1 then { m with hc1 := c }
  else if h = 2 then { m with hc2 := c } else { m with hc3 := c }

def State.mapMem (s : State) (f : MemState → MemState) : State := { s with mem := f s.mem }

/-- R436: the default target. -/
def State.decErr (s : State) (req addr : Nat) (write : Bool) : State :=
  s.mapMem fun m => { m with decerrAddr := addr % 2 ^ 48, decerrReq := req, decerrWrite := write, decerrValid := true,
                             decerrCount := m.decerrCount + 1 }

def State.errResp (s : State) : State := s.mapMem fun m => { m with errCount := m.errCount + 1 }

/-- Pieces granted since reset. -/
def MemState.granted (m : MemState) : Nat := (m.grants.map (·.2)).sum

/-- One piece is granted. How many are in flight beside it is open; they are at most those granted, and R431's total. -/
def State.grant (s : State) (req : Nat) : State :=
  s.mapMem fun m => { m with grants := kvBump m.grants req 1,
                             peak := max m.peak (1 + Config.inFlight m.granted % min 32768 (m.granted + 1)) }

/-! ### Writing queue elements and records (R452, R454, R455) -/

/-- R429: the host address of an outbound offset. -/
def State.hostAddr (s : State) (off : Nat) : Nat := s.mem.hostHi * 2 ^ 40 + off

def State.linkUp (s : State) : Bool := s.pwr.pcieGen ≠ 0 && s.domainOn 85

/-! ### What HBM holds (R234, R236, R176) -/

def BeamSet.init : BeamSet := {}
def State.beamSet (s : State) (n : Nat) : BeamSet := kvGet BeamSet.init s.beam.sets n
def State.setBeamSet (s : State) (n : Nat) (v : BeamSet) : State :=
  { s with beam := { s.beam with sets := kvSet BeamSet.init s.beam.sets n v } }

/-- Key of a weight, and of a scale. -/
def weightKey (entry beam input : Nat) : Nat := (entry * 64 + beam) * 4096 + input
def scaleKey (entry beam : Nat) : Nat := entry * 64 + beam

/-- w_re * 256 + w_im. -/
def WeightBank.weight (b : WeightBank) (k : Nat) : Nat :=
  match kvGet 0 b.w k, b.free with
  | v + 1, _ => v
  | 0, none => 0
  | 0, some n => Config.freeNat n k % 65536

def WeightBank.scaleOf (b : WeightBank) (k : Nat) : Nat :=
  match kvGet 0 b.scale k with
  | v + 1 => v
  | 0 => 1048576

/-- Byte `o` of a load bank (R234, little-endian). -/
def BeamSet.bankByte (b : BeamSet) (o : Nat) : Byte :=
  let e := o / b.entryBytes
  let r := o % b.entryBytes
  if r < 256 then (leBytes 4 (b.load.scaleOf (scaleKey e (r / 4)))).getD (r % 4) 0
  else
    let q := r - 256
    let w := b.load.weight (weightKey e (q % 8192 / 128) (64 * (q / 8192) + q % 128 / 2))
    BitVec.ofNat 8 (if q % 2 = 0 then w / 256 else w)

def BeamSet.setBankByte (b : BeamSet) (o : Nat) (v : Byte) : BeamSet :=
  let e := o / b.entryBytes
  let r := o % b.entryBytes
  if r < 256 then
    let k := scaleKey e (r / 4)
    let bs := (leBytes 4 (b.load.scaleOf k)).set (r % 4) v
    { b with load := { b.load with scale := kvSet 0 b.load.scale k (leNat bs + 1) } }
  else
    let q := r - 256
    let k := weightKey e (q % 8192 / 128) (64 * (q / 8192) + q % 128 / 2)
    let w := b.load.weight k
    let x := if q % 2 = 0 then v.toNat * 256 + w % 256 else w / 256 * 256 + v.toNat
    { b with load := { b.load with w := kvSet 0 b.load.w k (x + 1) } }

/-- The configured set whose load bank holds an HBM offset, and the place within it. -/
def State.bankAt (s : State) (off : Nat) : Option (Nat × Nat) :=
  (s.beam.sets.find? fun e => s.bankBase e.1 ≤ off && off < s.bankBase e.1 + e.2.entries * e.2.entryBytes).map
    fun e => (e.1, off - s.bankBase e.1)

/-- R238: from the acceptance of a swap to "beam swap done", a load bank that is written holds no specified weights, and after
the swap's index nor does the active bank. -/
def BeamSet.disturb (b : BeamSet) (draw : Nat) : BeamSet :=
  if b.owed then
    { b with load := { b.load with w := [], free := some draw }, active := { b.active with w := [], free := some draw } }
  else if b.swap.isSome then { b with load := { b.load with w := [], free := some draw } } else b

def State.hbmByte (s : State) (off : Nat) : Byte :=
  match s.bankAt off with
  | some (n, o) => (s.beamSet n).bankByte o
  | none =>
    match s.areaAt off with
    | some (c, x) => (s.areaLoad c x).getD (kvGet 0 s.mem.hbm off)
    | none => kvGet 0 s.mem.hbm off

def State.hbmLoad (s : State) (off len : Nat) : List Byte := (List.range len).map fun i => s.hbmByte (off + i)

/-- R175: the residual of baseline ordinal `q`, where its image starts at HBM offset `base`. -/
def State.residualAt (s : State) (base q : Nat) : Int × Int := value48 (s.hbmLoad (base + 12 * q) 12)

/-- R176: a write into a residual image that some preload of a channel uses. Only values are lost: flags and weights go on
from the image as it was. -/
def State.touchPreload (s : State) (off len : Nat) (p : Preload) : Preload :=
  let base := p.residual - 0x1000000000
  if p.mode = 2 && p.spoilt.isNone && off < base + p.length && base < off + len then
    { p with spoilt := some s.draws, image := (List.range (p.length / 12)).map fun q => (q, s.residualAt base q) } else p

def State.touchResiduals (s : State) (off len : Nat) : State :=
  let f (p : Preload) : Preload := s.touchPreload off len p
  if s.bas.preload.all (fun e => f e.2.base = e.2.base && e.2.later.all fun x => f x.2 = x.2) &&
     s.bas.integs.all (fun e => f e.2.preload = e.2.preload) then s
  else
    { s.draw with bas := { s.bas with
        preload := s.bas.preload.map fun e => (e.1, ⟨f e.2.base, e.2.later.map fun x => (x.1, f x.2)⟩),
        integs := s.bas.integs.map fun e => (e.1, { e.2 with preload := f e.2.preload }) } }

/-- Bytes are stored in HBM by whatever writes them. -/
def State.hbmStore (s : State) (off : Nat) (bs : List Byte) : State :=
  let s1 := s.touchResiduals off bs.length
  let rec go : State → Nat → List Byte → State
    | u, _, [] => u
    | u, o, b :: t =>
      match u.bankAt o with
      | some (n, i) =>
        let v := u.beamSet n
        if v.swap.isSome || v.owed then go (u.draw.setBeamSet n ((v.setBankByte i b).disturb u.draws)) (o + 1) t
        else go (u.setBeamSet n (v.setBankByte i b)) (o + 1) t
      | none =>
        let plain := u.mapMem fun m => { m with hbm := kvSet 0 m.hbm o b }
        go (match u.areaAt o with | some (c, x) => (u.areaStore c x b).getD plain | none => plain) (o + 1) t
  go s1 off bs

/-- `[addr, addr + len)` cut at multiples of `m`: first address and length of each part. -/
def cuts (m addr len : Nat) : List (Nat × Nat) :=
  if len = 0 then [] else (List.range ((addr + len - 1) / m - addr / m + 1)).map fun i =>
    let a := max addr ((addr / m + i) * m)
    (a, min (addr + len) ((addr / m + i + 1) * m) - a)

def State.bumpHc (s : State) (h : Nat) (f : HbmCtl → HbmCtl) : State := s.mapMem fun m => m.setHc h (f (m.hc h))

/-- The 64-bit words of a unit that `n` bytes from offset `o` cover whole. -/
def wholeWords (o n : Nat) : List Nat := (List.range 4).filter fun w => o % 32 ≤ 8 * w && 8 * w + 8 ≤ o % 32 + n

/-- R442: one access is written at a pseudo-channel; how many wait in its queue of 64 is open. -/
def State.countWrite (s : State) (unit : Nat) : State :=
  let pc := hbmPc unit % 32
  s.bumpHc (stackOf unit) fun c =>
    { c with writes := c.writes + 1,
             wrPeak := kvSet 0 c.wrPeak pc (max (kvGet 0 c.wrPeak pc) (1 + Config.writesQueued (hbmPc unit) c.writes % 64)) }

/-- One unit is written from offset `o` on for `n` bytes: the words written whole carry a new code (R444). -/
def State.unitWritten (s : State) (o n : Nat) : State :=
  let unit := o / 32 * 32
  let bad := (wholeWords o n).foldl (fun b w => withBit (withBit b w false) (w + 4) false) (kvGet 0 s.mem.bad unit)
  (s.countWrite unit).mapMem fun m => { m with bad := kvSet 0 m.bad unit bad }

/-- Bytes of one unit are written. -/
def State.hbmWriteUnit (s : State) (o : Nat) (bs : List Byte) : State := (s.unitWritten o bs.length).hbmStore o bs

def State.hbmWrite (s : State) (off : Nat) (bs : List Byte) : State :=
  (cuts 32 off bs.length).foldl (fun u c => u.hbmWriteUnit c.1 (slice bs (c.1 - off) c.2)) s

/-- R447: base address of the host region. -/
def State.hostBase (s : State) : Nat := 0x2800000000 - s.mem.hostMib * 1048576

/-- R524: from LOADED on, the first 3 MiB of working SRAM take no write. -/
def State.imageLocked (s : State) (off : Nat) : Bool :=
  off < 0x300000 && s.pwr.phase ≠ 0 && s.pwr.phase ≠ 1 && s.pwr.phase ≠ 5

/-! ### Management cores, and the intervals missed on their paths (R477) -/

def State.core (s : State) (h : Fin 2) : McCore := if h = 0 then s.mc.coreA else s.mc.coreB
def State.setCore (s : State) (h : Fin 2) (c : McCore) : State :=
  { s with mc := if h = 0 then { s.mc with coreA := c } else { s.mc with coreB := c } }
def State.mapMc (s : State) (f : McState → McState) : State := { s with mc := f s.mc }

def otherCore (h : Fin 2) : Fin 2 := if h = 0 then 1 else 0

/-- R477: a core's half of the heartbeat mailbox, by working SRAM offset. -/
def mailOffset (h : Fin 2) : Nat := 0x3FF000 + 0x40 * h.val

/-- The interval of a receiving core's sampling grid that a moment lies in. -/
def gridIndex (receiver : Fin 2) (ns : Nat) : Nat := (ns + Config.samplePhase receiver.val % 100000) / 100000

/-- Whole intervals of the receiver's grid that ended without a heartbeat since the one that `from_` lies in. -/
def missedSince (receiver : Fin 2) (from_ now : Nat) : Nat := gridIndex receiver now - gridIndex receiver from_ - 1

/-- A core that has booted and has not stopped samples the paths. -/
def State.listening (s : State) (h : Fin 2) : Bool := (s.core h).mode = .standby || (s.core h).mode = .active

/-- The intervals missed on paths from core `h` enter the counters; the counts of those paths begin anew. -/
def State.countMissed (s : State) (h : Fin 2) (wire mail : Bool) : State :=
  let c := s.core h
  let r := otherCore h
  let heard := s.listening r
  (s.mapMc fun m => { m with
    missedWire := m.missedWire + (if heard && wire then missedSince r c.wireFrom s.ns else 0),
    missedMail := m.missedMail + (if heard && mail then missedSince r c.mailFrom s.ns else 0) }).setCore h
    { c with wireFrom := if wire then s.ns else c.wireFrom, mailFrom := if mail then s.ns else c.mailFrom }

/-- R477, R479: a change of hb_count in a half shows as a heartbeat, whoever wrote it. -/
def State.sawMail (before after : State) : State :=
  ([0, 1] : List (Fin 2)).foldl (fun u h =>
    if memRead 0 before.mem.sram (mailOffset h) 8 = memRead 0 after.mem.sram (mailOffset h) 8 then u
    else u.countMissed h false true) after

/-- R438: pieces of a reset requester that were granted and not finished complete, each counted: how many is open, up to its
limit and to what it has been granted. -/
def State.resetRequester (s : State) (m : Nat) : State :=
  let n := Config.freeNat s.draws 0 % (min (requesterLimit m) (kvGet 0 s.mem.grants m) + 1)
  s.draw.mapMem fun x => { x with resetPieces := x.resetPieces + n }

/-! ### Working SRAM (R448, R498) -/

/-- Bytes are stored in working SRAM: the words written whole carry a new code. -/
def State.sramStore (s : State) (off : Nat) (bs : List Byte) : State :=
  let t := s.mapMem fun m => { m with
    sram := memWrite 0 m.sram off bs,
    sramBad := if m.sramBad = [] then [] else (cuts 32 off bs.length).foldl (fun k c =>
      kvSet 0 k (c.1 / 32 * 32) ((wholeWords c.1 c.2).foldl (fun b w => withBit b w false) (kvGet 0 k (c.1 / 32 * 32)))) m.sramBad }
  if off < 0x3FF080 && 0x3FF000 < off + bs.length then State.sawMail s t else t

/-! ### Elements of queues, whoever writes their pieces (R452, R454, R455) -/

/-- What writes one piece: its state after, and whether it was answered OK. -/
abbrev PieceWriter := State → Nat → List Byte → State × Bool

/-- An element or an index is written by the DMA write requester (R452), piece by piece, each to the domain of its own
target. A requester whose domain is not powered gets an error response (R515). -/
def State.putBytesBy (w : PieceWriter) (s : State) (addr : Nat) (bs : List Byte) : State × Bool :=
  if (s.domain 94).state = .off || (s.domain 94).state = .poweringUp then (s.errResp, false)
  else (cuts 256 addr bs.length).foldl (fun x c =>
    let (u, ok) := w (x.1.grant 4) c.1 (slice bs (c.1 - addr) c.2)
    (u, x.2 && ok)) (s, true)

def Queue.init : Queue := {}
def State.queue (s : State) (q : Nat) : Queue := kvGet Queue.init s.ring.queues q
def State.setQueue (s : State) (q : Nat) (v : Queue) : State :=
  { s with ring := { s.ring with queues := kvSet Queue.init s.ring.queues q v } }

def Queue.size (q : Queue) : Nat := 2 ^ q.entries
def Queue.occupancy (q : Queue) : Nat := (q.prod + 2 ^ 32 - q.cons) % 2 ^ 32
/-- R452: the address of element `i`. -/
def Queue.element (q : Queue) (i : Nat) : Nat := q.base + i % q.size * 2 ^ q.esize

/-- A vector of the MSI-X table is raised (R372, R454). -/
def State.msix (s : State) (v : Nat) : State := if s.linkUp then s.emit (.msix v) else s

/-- R454: the index write-back of a queue, and its vector under coalescing. A queue without a write-back address has
neither. -/
def State.writeBackBy (w : PieceWriter) (s : State) (qn idx : Nat) : State :=
  let q := s.queue qn
  let s1 := (s.putBytesBy w q.wb (leBytes 8 idx)).1
  if q.wb = 0 then s
  else if q.vector = 0xFFFF then s1
  else
    let free := match q.raisedAt with
      | none => true
      | some t => t + q.coal * 1000 ≤ s.ns
    if free then (s1.setQueue qn { s1.queue qn with raisedAt := some s.ns }).msix q.vector
    else s1.setQueue qn { s1.queue qn with owed := true }

/-- What became of an element a block wanted to append. -/
inductive Push where
  | done (lost : Bool)   -- written, or counted as written although its write failed (R455)
  | full
  | absent
  deriving DecidableEq, Repr

/-- R454, R455: append one element to a device-produced queue of the given kind. -/
def State.pushBy (w : PieceWriter) (s : State) (qn kind : Nat) (bs : List Byte) : State × Push :=
  let q := s.queue qn
  if qn ≥ 4096 || !q.enable || q.kind ≠ kind then (s, .absent)
  else if q.occupancy ≥ q.size then (s, .full)
  else
    let (s1, ok) := s.putBytesBy w (q.element q.prod) bs
    let q1 := s1.queue qn
    let s2 := s1.setQueue qn { q1 with prod := (q1.prod + 1) % 2 ^ 32, accessErr := q1.accessErr || !ok,
                                       drops := q1.drops + b2n (!ok) }
    (s2.writeBackBy w qn ((q.prod + 1) % 2 ^ 32), .done (!ok))

/-- A record that is dropped when its queue is full (R455: log and event queues). -/
def State.pushOrDropBy (w : PieceWriter) (s : State) (qn kind : Nat) (bs : List Byte) : State × Bool :=
  match s.pushBy w qn kind bs with
  | (s1, .done _) => (s1, true)
  | (s1, .full) =>
    let q := s1.queue qn
    (s1.setQueue qn { q with drops := q.drops + 1 }, false)
  | (s1, .absent) => (s1, false)

/-! ## Events (R370, R371, R377) -/

/-- R371: the record, little-endian. -/
def EventRec.bytes (e : EventRec) : List Byte :=
  leBytes 1 e.producer ++
  leBytes 1 (b2n (e.index ≠ noIndex) + 2 * b2n e.suspect + 4 * b2n e.late) ++ zeros 2 ++
  leBytes 4 e.arg ++ leBytes 8 e.index ++ leInstant e.time ++ leBytes 4 e.seq

/-- Raise an event of a producer: its flag and count, its record in the bound queue, and the event on its way to the
consumers. `time` is the edge or pulse instant, otherwise voted time at the raise. -/
def State.raiseEventBy (w : PieceWriter) (s : State) (p index arg : Nat) (time : Option Instant := none) (late : Bool := false) : State :=
  let n := kvGet 0 s.er.pcount p
  let e : EventRec := { producer := p, index := index, arg := arg % 2 ^ 32, suspect := s.suspect, late := late,
                        time := time.getD s.nowInstant, seq := n % 2 ^ 32, at_ := s.ns }
  let s1 : State := { s with
    er := { s.er with pflag := withBit s.er.pflag p true, pcount := kvBump s.er.pcount p 1, raised := s.er.raised ++ [e] },
    dev := { s.dev with sticky := match stickyBit p with
                                  | some b => withBit s.dev.sticky b true
                                  | none => s.dev.sticky } }
  let q := kvGet 0xFFFF s.er.pqueue p
  if q = 0xFFFF then s1
  else
    match s1.pushOrDropBy w q 6 e.bytes with
    | (s2, true) => s2
    | (s2, false) =>
      -- R457: a binding restored from the journal that names no event queue records nothing
      if (s1.queue q).enable && (s1.queue q).kind = 6 then { s2 with er := { s2.er with lost := s2.er.lost + 1 } } else s2

/-! ## Memory errors (R444 to R448) -/

/-- R448: the record, little-endian. -/
def MemErr.bytes (e : MemErr) : List Byte :=
  leBytes 1 e.kind ++ leBytes 1 e.stack ++ leBytes 1 e.pc ++ leBytes 1 e.requester ++ leBytes 1 e.words ++
  leBytes 1 (b2n e.write) ++ zeros 2 ++ leBytes 8 e.addr ++ leInstant e.time ++ leBytes 4 e.seq

/-- A piece of a record that reports a memory error. An error that its own write meets is not reported in turn (DESIGN CHOICE,
log entry 50). -/
def putBlind : PieceWriter := fun s addr bs =>
  match decodeAddr s.mem.remap addr with
  | .sram off => if s.imageLocked off then (s.errResp, false) else (s.sramStore off bs, true)
  | .hbm off => if s.domainOn (76 + stackOf off) then (s.hbmWrite off bs, true) else (s.errResp, false)
  | .outbound off => if s.linkUp then (s.emit (.hostWrite (s.hostAddr off) bs), true) else (s.errResp, false)
  | _ => (s.decErr 4 addr true, false)

/-- Log a memory error, and raise "memory error" for kinds 1, 3 and 5. -/
def State.logMemErr (s : State) (kind stack pc req words : Nat) (write : Bool) (addr : Nat) : State :=
  let e : MemErr := { kind, stack, pc, requester := req, words, write, addr, time := s.nowInstant,
                      seq := s.mem.errSeq % 2 ^ 32 }
  let s1 := s.mapMem fun m => { m with errors := (e :: m.errors).take 16, errSeq := m.errSeq + 1 }
  let (s2, ok) := if s.mem.logQueue = 0xFFFF then (s1, false) else s1.pushOrDropBy putBlind s.mem.logQueue 5 e.bytes
  let s3 := if ok then s2 else s2.mapMem fun m => { m with logLost := m.logLost + 1 }
  if kind = 1 || kind = 3 || kind = 5 then s3.raiseEventBy putBlind 195 noIndex (stack * 256 + pc) else s3

/-- A group of records is handed to the journal engine (R502, R503). -/
def State.handGroup (s : State) (records : List (Nat × List Byte)) (forCommand : Bool) : State :=
  { s with jrnl := { s.jrnl with groups := s.jrnl.groups ++ [⟨records, forCommand⟩],
                                 groupFrom := if s.jrnl.groups = [] then s.ns else s.jrnl.groupFrom } }

/-- R499: the row of an HBM offset becomes a repair candidate, unless it is one already or its repair has failed. Its record
is handed to the journal engine. -/
def State.addCandidate (s : State) (off : Nat) : State :=
  let r : HbmRepair := { stack := stackOf off, pc := hbmPc off % 32, bank := hbmBank off, row := hbmLoc off, status := 0 }
  if s.spare.hbmRepairs.any (fun x => x.stack = r.stack && x.pc = r.pc && x.bank = r.bank && x.row = r.row && x.status ≠ 1) then s
  else
    { s with spare := { s.spare with hbmRepairs := s.spare.hbmRepairs ++ [r] } }.handGroup
      [(0xF004, beBytes 1 r.stack ++ beBytes 1 r.pc ++ beBytes 1 r.bank ++ [0] ++ leBytes 4 r.row)] false

/-- R446: an access to a unit meets the parity errors that wait there: one is retried, and the retry succeeds; of two, the
retry meets the second (DEDUCED, log entry 50). False: the retry has failed. -/
def State.meetParity (s : State) (req unit : Nat) (write : Bool) : State × Bool :=
  let h := stackOf unit
  let n := kvGet 0 (s.mem.hc h).parity unit
  let log (kind fails : Nat) : State :=
    (s.bumpHc h fun c => { c with parity := kvSet 0 c.parity unit (n - min n 2), parRetry := c.parRetry + 1,
                                  parFail := c.parFail + fails }).logMemErr kind h (hbmPc unit % 32) req 0 write (0x1000000000 + unit)
  if n = 0 then (s, true) else if n = 1 then (log 2 0, true) else (log 3 1, false)

/-- One 32-byte unit of HBM is read for a requester: parity, ECC and their records (R444, R446). `unit` is its offset. -/
def State.readHbmUnit (s : State) (req unit : Nat) (write : Bool := false) : State × Bool :=
  let h := stackOf unit
  let (s1, ok) := (s.bumpHc h fun c => { c with reads := c.reads + 1 }).meetParity req unit write
  let b := kvGet 0 s1.mem.bad unit
  let single := b % 16
  let double := b / 16 % 16
  if !ok then (s1, false)
  else if double ≠ 0 then
    -- memory stays unchanged, the unit's correctable words too (log entry 103)
    let s3 := (s1.bumpHc h fun c => { c with ueCount := c.ueCount + 1 }).logMemErr 1 h (hbmPc unit % 32) req double write
      (0x1000000000 + unit)
    (s3.addCandidate unit, false)
  else if single = 0 then (s1, true)
  else (((s1.bumpHc h fun c => { c with ceCount := c.ceCount + (bitsOf 4 single).length }).countWrite unit).mapMem fun m =>
      { m with bad := kvSet 0 m.bad unit 0 }, true)

/-- R442, R444: some word of the unit is enabled only in part. -/
def partialWord (o n : Nat) : Bool :=
  (List.range 4).any fun w => o % 32 < 8 * w + 8 && 8 * w < o % 32 + n && !(wholeWords o n).contains w

/-- R444, R446: `n` bytes of one unit are written, but for their values; false: a retry failed, or a read-modify-write met an
uncorrectable word, and nothing was written. -/
def State.writeUnit (s : State) (req o n : Nat) : State × Bool :=
  let unit := o / 32 * 32
  let (s1, ok) := if partialWord o n then s.readHbmUnit req unit true else s.meetParity req unit true
  if !ok then (s1, false)
  else ((if partialWord o n then s1.bumpHc (stackOf unit) fun c => { c with rmw := c.rmw + 1 } else s1).unitWritten o n, true)

/-- R436: bytes of a failed write piece that are undefined. -/
def State.scramble (s : State) (off len : Nat) : State :=
  s.draw.hbmStore off ((List.range len).map (Config.freeByte s.draws))

/-- R444, R446: bytes of one unit; false: they were not written. After a failed retry the unit is undefined. -/
def State.storeUnit (s : State) (req o : Nat) (bs : List Byte) : State × Bool :=
  let unit := o / 32 * 32
  let (s1, ok) := s.writeUnit req o bs.length
  if ok then (s1.hbmStore o bs, true)
  else (if 2 ≤ kvGet 0 (s.mem.hc (stackOf unit)).parity unit then s1.scramble unit 32 else s1, false)

/-- R436, R444: one write piece to HBM. Where a unit fails, the rest of the aligned 256 bytes is undefined. -/
def State.storePiece (s : State) (req off : Nat) (bs : List Byte) : State × Bool :=
  let step (x : State × List Nat) (c : Nat × Nat) : State × List Nat :=
    let (u, ok) := x.1.storeUnit req c.1 (slice bs (c.1 - off) c.2)
    (u, if ok then x.2 else c.1 / 32 * 32 :: x.2)
  let (s1, failed) := (cuts 32 off bs.length).foldl step (s, [])
  if failed = [] then (s1, true)
  else
    let rest := ((List.range 8).map fun i => off / 256 * 256 + 32 * i).filter fun u => !failed.contains u
    ((rest.foldl (fun u o => u.scramble o 32) s1).errResp, false)

/-! ### Rows of SRAM (R448, R498) -/

/-- The lowest free spare row of a macro. -/
def State.spareRow (s : State) (macro_ : Nat) : Option Nat :=
  ((List.range 4).drop (Config.factoryRows macro_ % 5)).find? fun r =>
    s.spare.sramRepairs.all fun x => !(x.1 = macro_ && x.2.2 = r)

/-- One failing row takes a spare row, which is journalled; false: none is left. -/
def State.repairRow (s : State) (macro_ row : Nat) : State × Bool :=
  match s.spareRow macro_ with
  | none => (s, false)
  | some r =>
    ({ s with spare := { s.spare with sramRepairs := s.spare.sramRepairs ++ [(macro_, row, r)] } }.handGroup
      [(0xF003, leBytes 2 macro_ ++ leBytes 2 row ++ leBytes 1 r)] false, true)

/-- R498: a row of working SRAM, by an offset in it, is to be repaired at the next boot. Its record is journalled at once, for
that boot to apply; the manual does not say how the device remembers it (DESIGN CHOICE, log entry 99). -/
def State.failRow (s : State) (off : Nat) : State :=
  let macro_ := 272 + Config.sramMacro (off / 262144) % 752
  let row := off % 262144 / 512
  if s.spare.sramRepairs.any fun x => x.1 = macro_ && x.2.1 = row then s
  else match s.repairRow macro_ row with
    | (u, true) => u
    | (u, false) => { u with spare := { u.spare with sramExhausted := true } }

/-- R448: an access meets uncorrectable words of a unit of working SRAM, at an offset and an address. -/
def State.sramError (s : State) (req off words : Nat) (write : Bool) (addr : Nat) : State :=
  ((s.mapMem fun m => { m with sramUe := m.sramUe + 1 }).logMemErr 1 0xFF 0 req words write addr).failRow off

/-! ### Elements, with the errors that their writes meet (R455) -/

/-- One piece of an element or an index, written by the DMA write requester to a target of R431. -/
def putPiece : PieceWriter := fun s addr bs =>
  match decodeAddr s.mem.remap addr with
  | .hbm off => if s.domainOn (76 + stackOf off) then s.storePiece 4 off bs else (s.errResp, false)
  | _ => putBlind s addr bs

def State.putBytes (s : State) (addr : Nat) (bs : List Byte) : State × Bool := s.putBytesBy putPiece addr bs
def State.writeBack (s : State) (qn idx : Nat) : State := s.writeBackBy putPiece qn idx
def State.push (s : State) (qn kind : Nat) (bs : List Byte) : State × Push := s.pushBy putPiece qn kind bs
def State.pushOrDrop (s : State) (qn kind : Nat) (bs : List Byte) : State × Bool := s.pushOrDropBy putPiece qn kind bs
def State.raiseEvent (s : State) (p index arg : Nat) (time : Option Instant := none) (late : Bool := false) : State :=
  s.raiseEventBy putPiece p index arg time late

/-- An event without an index. -/
def State.raise (s : State) (p arg : Nat) : State := s.raiseEvent p noIndex arg

/-! ### Traffic of the engines (R431, R433) -/

/-- One piece of an engine: a failed read beat is answered with an error each, a failed write piece with one (R436). -/
def State.enginePiece (s : State) (req : Nat) (p : Nat × Nat) (write : Bool) : State :=
  let (u, fails) := (cuts 32 p.1 p.2).foldl (fun (x : State × Nat) (c : Nat × Nat) =>
    let (v, ok) := if write then x.1.writeUnit req c.1 c.2 else x.1.readHbmUnit req (c.1 / 32 * 32)
    (v, x.2 + b2n (!ok))) (s.grant req, 0)
  u.mapMem fun m => { m with errCount := m.errCount + if write then min fails 1 else fails }

/-- One engine reads or writes a range of HBM, piece by piece; the values are its own affair. -/
def State.engineRange (s : State) (req off len : Nat) (write : Bool) : State :=
  (cuts 256 off len).foldl (fun u p => u.enginePiece req p write) s

/-- Some pieces are granted at once: how many are in flight beside them is open. -/
def MemState.grantMany (m : MemState) (req n : Nat) : MemState :=
  { m with grants := kvBump m.grants req n,
           peak := if n = 0 then m.peak else max m.peak (1 + Config.inFlight m.granted % min 32768 (m.granted + n)) }

/-- Pieces that an engine issues for its own records: the manual does not say how many (log entry 105). -/
def State.pieces (s : State) (req : Nat) : State :=
  s.draw.mapMem fun m => m.grantMany req (Config.freeNat s.draws 0)

/-- The same in HBM, where the stacks count them too. -/
def State.engineRecords (s : State) (req : Nat) : State :=
  let n := s.draws
  let more (i : Nat) (c : HbmCtl) : HbmCtl :=
    let w := Config.freeNat n (2 * i + 2)
    let pc := Config.freeNat n (2 * i + 9) % 32
    { c with reads := c.reads + Config.freeNat n (2 * i + 1), writes := c.writes + w,
             wrPeak := if w = 0 then c.wrPeak
               else kvSet 0 c.wrPeak pc (max (kvGet 0 c.wrPeak pc) (1 + Config.writesQueued (32 * i + pc) c.writes % 64)) }
  s.draw.mapMem fun m => { m.grantMany req (Config.freeNat n 0) with
                           hc0 := more 0 m.hc0, hc1 := more 1 m.hc1, hc2 := more 2 m.hc2, hc3 := more 3 m.hc3 }

/-- A unit whose words cannot be corrected gives no data (R444): what an engine makes of them is open. -/
def State.unitLost (s : State) (off : Nat) : Bool := s.mem.bad ≠ [] && 16 ≤ kvGet 0 s.mem.bad (off / 32 * 32)

/-- Offsets 32 bytes apart that touch `[addr, addr + len)`. -/
def unitsOf (addr len : Nat) : List Nat :=
  if len = 0 then [] else (List.range ((addr + len - 1) / 32 - addr / 32 + 1)).map fun i => (addr / 32 + i) * 32

/-- The staging debug window reads the banks, kept by the staging engine (R427). -/
def stagingDomain (off : Nat) : Nat :=
  if off < 0x8000000 then 68 + 4 * (off / 0x4000000) + off % 0x4000000 / 0x1000000
  else 68 + 4 * ((off - 0x8000000) / 0x8000)

end Sys2Proof.Machine
end

