-- ==== Sys2Proof/Machine/Layout.lean ====
section
/-! DEFINITION. Layouts: shapes, blocks, slots, and which slot carries which block (R120, R143 to R149, R164, R227). -/

namespace Sys2Proof.Machine

/-! ## Layouts (R145 to R149) -/

def State.loadedN (s : State) : Nat := match s.tile.layout with | some l => l.n | none => 4096
def State.loadedChannels (s : State) : Nat := match s.tile.layout with | some l => l.channels | none => 4096

/-- R143: row side, column side and group size of a shape. -/
def shapeSides (shape : Nat) : Nat × Nat × Nat :=
  if shape = 1 then (32, 128, 4) else if shape = 2 then (128, 32, 4) else (64, 64, 8)

/-- Blocks per block row of a layout: rows of blocks and columns of blocks. -/
def CorrLayout.grid (l : CorrLayout) : Nat × Nat :=
  if l.rect then (l.rows / (shapeSides l.shape).1, l.cols / (shapeSides l.shape).2.1)
  else (ceilDiv l.n 64, ceilDiv l.n 64)

/-- b of R33. -/
def CorrLayout.blocks (l : CorrLayout) : Nat :=
  let (a, c) := l.grid
  if l.rect then a * c else a * (a + 1) / 2

/-- R147: row and column block of block index `k`. -/
def CorrLayout.blockAt (l : CorrLayout) (k : Nat) : Nat × Nat :=
  let (_, c) := l.grid
  if l.rect then (k / c, k % c)
  else
    let rec go : Nat → Nat → Nat → Nat × Nat
      | 0, a, r => (a, a + r)
      | fuel + 1, a, r => if r < c - a then (a, a + r) else go fuel (a + 1) (r - (c - a))
    go c 0 k

/-- First row input and first column input of a block. -/
def CorrLayout.blockBase (l : CorrLayout) (k : Nat) : Nat × Nat :=
  let (a, c) := l.blockAt k
  let (rs, cs, _) := shapeSides l.shape
  if l.rect then (l.row0 + a * rs, l.col0 + c * cs) else (64 * a, 64 * c)

/-- R160: a diagonal block of a triangular layout. -/
def CorrLayout.diagonal (l : CorrLayout) (k : Nat) : Bool := !l.rect && (l.blockAt k).1 = (l.blockAt k).2

/-- Block index of the block that holds baseline (i, j), and its cell. -/
def CorrLayout.blockOf (l : CorrLayout) (i j : Nat) : Nat :=
  let (_, c) := l.grid
  let (rs, cs, _) := shapeSides l.shape
  if l.rect then (i - l.row0) / rs * c + (j - l.col0) / cs
  else
    let a := i / 64
    a * c - a * (a - 1) / 2 + (j / 64 - a)

/-- The baselines a block exports, in row-major order of its cells (R160). -/
def CorrLayout.blockBaselines (l : CorrLayout) (k : Nat) : List (Nat × Nat) :=
  let (i0, j0) := l.blockBase k
  let (rs, cs, _) := shapeSides l.shape
  ((List.range rs).map fun r => (List.range cs).filterMap fun c =>
    let i := i0 + r
    let j := j0 + c
    if l.rect then some (i, j) else if i ≤ j && j < l.n then some (i, j) else none).flatten

/-- R148: slots that are not withdrawn, ascending. -/
def State.liveSlots (s : State) : List Nat :=
  (List.range s.tile.slots.length).filter fun i =>
    match s.tile.slots[i]? with | some v => v.tile.isSome | none => false

/-- T_b of R227. -/
def State.beamCount (s : State) : Nat := (s.beam.sets.map fun e => if e.2.enable then e.2.slots else 0).sum

/-- R148: the beam slots are the highest-numbered live slots; the others carry correlation. -/
def State.corrSlots (s : State) : List Nat := s.liveSlots.take (s.liveSlots.length - s.beamCount)
def State.beamSlots (s : State) : List Nat := s.liveSlots.drop (s.liveSlots.length - s.beamCount)

/-- R149: B_max. -/
def bMax (blocks tc : Nat) : Nat := if tc = 0 then (if blocks = 0 then 0 else 2081) else ceilDiv blocks tc

/-- R149, R164: the blocks of correlation slot `i`, by position; blocks at 8 * T_c and above are not correlated. -/
def slotBlocks (blocks tc i : Nat) : List Nat := ((List.range 8).map fun p => i + p * tc).filter (· < blocks)

def State.uncorrelated (s : State) : Nat := s.layout.blocks - 8 * s.corrSlots.length

/-- R227: position, within the beam slots, of the first leaf of a set. -/
def State.firstLeaf (s : State) (n : Nat) : Nat :=
  (s.beam.sets.map fun e => if e.1 < n && e.2.enable then e.2.slots else 0).sum

end Sys2Proof.Machine
end

