-- ==== Sys2Proof/Machine/Reach.lean ====
section
/-! DEFINITION. How far a schedule has come: the indices of its visits, what Mica has taken up in a channel, and the enable in
force where a chain stands (R105, R131, R140, R275). -/

namespace Sys2Proof.Machine

def State.schedLive (s : State) : Bool := s.tile.sched = .running || s.tile.sched = .stopping

/-! ## Indices and visits (R105, R133) -/

def State.dwell (s : State) : Nat := s.layout.dwell
def State.firstIndex (s : State) (k : Nat) : Nat := s.tile.start + k * s.dwell

/-- The visit that an index lies in. -/
def State.visitOfIndex (s : State) (idx : Nat) : Nat := (idx - s.tile.start) / s.dwell

/-- The first visit boundary at or after an index. -/
def State.boundary (s : State) (idx : Nat) : Nat := ceilDiv (idx - s.tile.start) s.dwell

/-! ## The visits of a channel (R105, R106, R131) -/

def Chan.init : Chan := {}
def Visit.init : Visit := {}
def State.chan (s : State) (c : Nat) : Chan :=
  { kvGet Chan.init s.stg.chans c with parts := s.split.parts, index := s.split.index }
def State.setChan (s : State) (c : Nat) (v : Chan) : State :=
  { s with stg := { s.stg with chans := kvSet Chan.init s.stg.chans c { v with parts := 1, index := 0 } } }
def Chan.visit (ch : Chan) (k : Nat) : Visit := kvGet Visit.init ch.visits k
def Chan.setVisit (ch : Chan) (k : Nat) (v : Visit) : Chan := { ch with visits := kvSet Visit.init ch.visits k v }
def State.visit (s : State) (c k : Nat) : Visit := (s.chan c).visit k
def State.setVisit (s : State) (c k : Nat) (v : Visit) : State := s.setChan c ((s.chan c).setVisit k v)

/-- R335: the share visits, and the history visits before them. -/
def Chan.share (ch : Chan) (k : Nat) : Bool := ch.parts ≤ 1 || k % ch.parts = ch.index
def Chan.history (ch : Chan) (k : Nat) : Bool := 1 < ch.parts && 1 ≤ k && k % ch.parts = (ch.index + ch.parts - 1) % ch.parts
def Chan.takes (ch : Chan) (k : Nat) : Bool := ch.share k || ch.history k
/-- R133, R336: how many visits after it a visit's deadline lies, and its half is used again. -/
def Chan.reach (ch : Chan) : Nat := if ch.parts ≤ 1 then 2 else ch.parts
/-- Visits from one share visit to the next. -/
def Chan.stride (ch : Chan) : Nat := if ch.parts ≤ 1 then 1 else ch.parts

def Chan.closed (ch : Chan) (k : Nat) : Bool := !ch.takes k || k < ch.floor || (ch.visit k).closed
def Chan.gone (ch : Chan) (k : Nat) : Bool := !ch.share k || k < ch.floor || (ch.visit k).gone

/-- The next visit that Mica takes up (R131). -/
def Chan.next (ch : Chan) : Nat :=
  let rec go : Nat → Nat → Nat
    | 0, k => k
    | fuel + 1, k => if ch.gone k then go fuel (k + 1) else k
  go ((ch.visits.length + 1) * ch.stride) ch.floor

/-! ## What Mica has taken up (R140) -/

/-- Mica is loading a visit of channel `c`, or has loaded, dropped or shed one, that is visit `k` or lies beyond it. -/
def State.takenFrom (s : State) (c k : Nat) : Bool :=
  let ch := s.chan c
  decide (k + ch.stride ≤ ch.next) ||
  (match s.stg.loading with | some l => l.channel = c && decide (k ≤ l.visit) | none => false) ||
  ch.visits.any fun e => decide (k ≤ e.1) && ch.share e.1 && e.2.gone

/-- The first index of the next visit that Mica takes up in a channel. -/
def State.nextTaken (s : State) (c : Nat) : Nat :=
  s.firstIndex ((s.chan c).next + (match s.stg.loading with | some l => if l.channel = c then (s.chan c).stride else 0 | none => 0))

/-- Mica has taken up, in channel `c`, the visit that holds an index or a visit beyond it. -/
def State.sampleReached (s : State) (w : When) (c : Nat) : Bool := s.takenFrom c (s.visitOfIndex (whenStart w c))

/-! ## Where a chain stands (R275) -/

/-- What took effect in an ended schedule, with what waits for a later one. -/
def State.settledEnable (s : State) (c : Chain) : Sched Bool :=
  schedSettle (fun w => s.sampleReached w c.channel) c.channel c.enable

/-- The visits of a chain's channel that Mica has taken up and the chain has not processed. -/
def State.visitsBefore (s : State) (c : Chain) : List Nat :=
  let bank (b : Bank) : List Nat := if b.full && b.visit.1 = c.channel then [b.visit.2] else []
  let work (w : TileWork) : List Nat := if w.channel = c.channel then [w.visit] else []
  c.input.map (·.visit) ++ bank s.stg.bank0 ++ bank s.stg.bank1 ++
  (match s.stg.loading with | some l => if l.channel = c.channel then [l.visit] else [] | none => []) ++
  (match s.stg.working with | some w => work w.2 | none => []) ++ (match s.stg.inbox with | some w => work w | none => [])

/-- No value below this index will reach the chain any more. -/
def State.chainFront (s : State) (c : Chain) : Nat :=
  max c.taken ((s.visitsBefore c).foldl (fun m k => min m (s.firstIndex k)) (s.nextTaken c.channel))

/-- R275: the enable in force where the chain stands. -/
def State.chainOn (s : State) (c : Chain) : Bool :=
  if s.schedLive then schedAt c.enable c.channel (s.chainFront c) else (s.settledEnable c).base

end Sys2Proof.Machine
end

