-- ==== Sys2Proof/Machine/Power.lean ====
section
/-! DEFINITION. Power domains: what each AUTO domain's rule wants, and how the domains follow it (R513 to R517). -/

namespace Sys2Proof.Machine

/-! ## The next slot move (R494 to R497), whose tile's group must be ON (R517) -/

def TileInfo.init : TileInfo := {}
def State.tileInfo (s : State) (t : Nat) : TileInfo := kvGet TileInfo.init s.spare.tiles t

/-- The READY tile that has been READY longest; the lower number on a tie. -/
def State.readyTile (s : State) : Option Nat :=
  (List.range 272).foldl (fun (best : Option Nat) (t : Nat) =>
    let v := s.tileInfo t
    if v.mode ≠ .ready then best
    else match best with
      | none => some t
      | some b => if v.readyAt < (s.tileInfo b).readyAt then some t else some b) none

/-- The slot's tile has been reported, or is to be retired. -/
def State.slotFaulty (s : State) (i : Nat) : Bool :=
  match s.tile.slots[i]? with
  | some v => (match v.tile with
    | some t => (s.tileInfo t).reported || (s.tileInfo t).doom ≠ 0
    | none => false)
  | none => false

/-- The lowest such slot. -/
def State.faultySlot (s : State) : Option Nat := s.liveSlots.find? s.slotFaulty

/-- A move is due, so that the tile it takes is wanted. -/
def State.moveTarget (s : State) : Option Nat := if s.faultySlot.isSome || s.spare.due then s.readyTile else none

/-! ## Following the rules -/

/-- The domain starts to power up, unless it is on its way or on. -/
def State.powerUp (s : State) (d : Nat) : State :=
  let v := s.domain d
  if v.state = .off then s.setDomain d { v with state := .poweringUp, since := s.ns } else s

/-- A live slot carries blocks of the layout, or beam blocks of a set. -/
def State.slotCarries (s : State) (slot : Nat) : Bool :=
  let corr := s.corrSlots
  if corr.contains slot then s.tile.layout.isSome && decide (corr.idxOf slot < s.layout.blocks) else s.beamSlots.contains slot

/-- A tile of the group backs a slot that carries something, is TESTING, or is about to take a slot over. -/
def State.tileGroupWanted (s : State) (g : Nat) : Bool :=
  (s.tile.slots.zipIdx.any fun (e : Slot × Nat) => match e.1.tile with
    | some t => decide (t / 4 = g) && s.slotCarries e.2
    | none => false) ||
  ((List.range 4).any fun i => (s.tileInfo (4 * g + i)).mode = .testing) ||
  (match s.moveTarget with | some t => decide (t / 4 = g) | none => false)

/-- R517: the segments of a staging bank that the layout uses are ON. -/
def State.stagingOn (s : State) (b : Nat) : Bool :=
  (List.range 4).all fun q => s.layout.n * s.layout.dwell ≤ q * 16777216 || s.domainOn (68 + 4 * b + q)

/-- R517: the tile of a slot that carries something is ON. -/
def State.slotOn (s : State) (slot : Nat) : Bool :=
  !s.slotCarries slot || (match s.tile.slots[slot]? with
    | some v => (match v.tile with | some t => s.domainOn (t / 4) | none => true)
    | none => true)

/-- R513: what the AUTO rule of a domain says. A chain that holds visits is not done with being enabled. -/
def State.autoWants (s : State) (d : Nat) : Bool :=
  if d < 68 then s.tileGroupWanted d
  else if d < 76 then
    s.tile.layout.isSome && decide ((d - 68) % 4 * 16777216 < s.layout.n * s.layout.dwell)
  else if d < 80 then true
  else if d < 85 then s.port.quads.any fun e => e.1 / 4 = d - 80 && e.2.rate ≠ 0
  else if d < 89 then true
  else if d < 91 then s.tile.layout.isSome || (s.beam.sets.any fun e => e.2.enable) || s.bas.combine.role ≠ 0
  else if d < 93 then
    (s.beam.sets.any fun e => e.2.enable && e.1 / 8 = d - 91) ||
    s.filt.chains.any fun e => e.1 / 16 = d - 91 && (s.chainOn e.2 || e.2.input ≠ [])
  else if d = 93 then 0 < s.cap.sel.mib || s.cap.dets.any fun e => e.2.source ≠ 0
  else if d = 94 then s.ring.queues.any fun e => e.2.enable
  else s.pwr.phase ≠ 7 ||
    (match s.own.executing with
     | some ⟨_, .domains ds, _, _⟩ => ds.contains 95
     | some ⟨_, .crypto, _, _⟩ => true
     | _ => false)

/-- A domain's mode and rule together: is it to be on? -/
def State.wantsOn (s : State) (d : Nat) : Bool :=
  match (s.domain d).mode with
  | 1 => true
  | 2 => false
  | _ => s.autoWants d

/-- Domains follow their rules from LOADED on, and not in RECOVERY, where the ROM powers what it needs (R524, R527). -/
def State.managed (s : State) : Bool := 2 ≤ s.pwr.phase && s.pwr.phase ≠ 5

/-- A domain that is to be on powers up, and one that is not enters DRAINING at once. -/
def State.followed (s : State) (d : Nat) : Domain :=
  let v := s.domain d
  if s.wantsOn d then (if v.state = .off then { v with state := .poweringUp, since := s.ns } else v)
  else if v.state = .on then { v with state := .draining, since := s.ns } else v

/-- R517: every domain follows its mode and rule. -/
def State.settleDomains (s : State) : State :=
  if s.managed then { s with pwr := { s.pwr with domains := Vector.ofFn fun d => s.followed d.val } } else s

/-! ## What every meaning ends in -/

/-- The domains follow at once what a command or an event has changed (R517); the queue stays as `step` left it. -/
def State.settled (s after : State) : State := { after.settleDomains with pending := s.pending }

/-- The meaning of an event row: an operand that nothing can present faults, anything else leads to a next state. -/
def guarded (i : Instr) (s after : State) : Host.Outcome State Fault Refusal :=
  if i.wf then .next (s.settled after) else .fault .illFormed

end Sys2Proof.Machine
end

