-- ==== Sys2Proof/Machine/Snapshot.lean ====
section
/-! DEFINITION. The records that reproduce every current journalled setting and repair, in one fixed order: what a
compaction writes and what the configuration digest covers (R501, R505, R532). A setting at its reset value has none. -/

namespace Sys2Proof.Machine

abbrev JRecord := Nat × List Byte

/-! ## Tables, as the loads that a command carries -/

/-- One past the highest key. -/
def topKey {α : Type} (m : KV α) : Nat := m.foldl (fun a e => max a (e.1 + 1)) 0

/-- A table of `size`-byte values as loads of at most `per` values, each after its head; entries below `floor` that are zero
are loaded too, over what an earlier record left there. -/
def tableLoads (code size per : Nat) (head : Nat → Nat → List Byte) (floor : Nat) (m : KV Nat) : List JRecord :=
  let top := max floor (topKey m)
  (List.range (ceilDiv top per)).map fun j =>
    let n := min per (top - per * j)
    (code, head (per * j) n ++ ((List.range n).map fun i => beBytes size (kvGet 0 m (per * j + i))).flatten)

def fringeLoads (table size per floor : Nat) (m : KV Nat) : List JRecord :=
  tableLoads 0x0652 size per (fun first n => beBytes 1 table ++ [0] ++ beBytes 2 first ++ beBytes 2 n ++ zeros 2) floor m

def coarseLoads (floor : Nat) (m : KV Nat) : List JRecord :=
  tableLoads 0x0620 2 256 (fun first n => beBytes 2 first ++ beBytes 2 n ++ zeros 4) floor m

def MapEntry.bytes (e : MapEntry) : List Byte :=
  beBytes 2 e.source ++ beBytes 2 e.firstInput ++ beBytes 2 e.count ++ beBytes 2 e.firstLogical ++ beBytes 2 e.srcChan ++
  beBytes 2 e.chans ++ beBytes 2 e.devChan ++ zeros 2

def mapLoads (es : List MapEntry) : List JRecord :=
  (List.range (ceilDiv es.length 64)).map fun j =>
    let part := slice es (64 * j) 64
    (0x0510, beBytes 2 (64 * j) ++ beBytes 2 part.length ++ (part.map MapEntry.bytes).flatten)

def coefLoads (n : Nat) (bank : KV Int) : List JRecord :=
  (List.range 3).map fun st =>
    (0x0810, beBytes 1 n ++ beBytes 1 st ++ zeros 2 ++ beBytes 2 256 ++ zeros 2 ++
      ((List.range 256).map fun k => beBytes 4 (ofSigned 32 (kvGet 0 bank (st * 256 + k)))).flatten)

/-- The apply index of a restored setting (R503). -/
def noIndexBytes : List Byte := beBytes 8 noIndex

/-- The value accepted last. -/
def schedLast {α : Type} (x : Sched α) : α := (x.later.getLast?.map (·.2)).getD x.base

/-- A record, unless its payload is that of the reset value. -/
def unlessReset {α : Type} [DecidableEq α] (code : Nat) (v reset : α) (bytes : α → List Byte) : List JRecord :=
  if v = reset then [] else [(code, bytes v)]

/-- Consecutive keys of one value: first key, count, value. -/
def runsOf : KV Nat → List (Nat × Nat × Nat)
  | [] => []
  | (a, v) :: t =>
    match runsOf t with
    | (b, n, w) :: r => if b = a + 1 && w = v then (a, n + 1, v) :: r else (a, 1, v) :: (b, n, w) :: r
    | [] => [(a, 1, v)]

/-! ## Device, time and security -/

/-- A management port's setting, in force or about to be (R417). -/
def State.mgmtSetting (s : State) (p : Nat) : MgmtPort :=
  let m := if p = 0 then s.dev.mgmtA else s.dev.mgmtB
  match s.dev.next with
  | some (q, n) => if q = p then n else m
  | none => m

def State.snapDevice (s : State) : List JRecord :=
  let mgmt (p : Nat) (m : MgmtPort) : List JRecord :=
    unlessReset 0x0110 (m.mode, m.vlan, m.mac, m.ipv4, m.ipv6) (1, 0, 0, 0, 0) fun _ =>
      beBytes 1 p ++ beBytes 1 m.mode ++ beBytes 2 m.vlan ++ beBytes 6 m.mac ++ zeros 2 ++ beBytes 4 m.ipv4 ++ beBytes 16 m.ipv6
  let pol := s.own.policy
  (if s.load.source = 0 then [] else [(0x0C10, beBytes 1 s.load.op ++ zeros 3)]) ++
  ((List.range 96).map fun d =>
    if d = 87 || d = 88 then []
    else unlessReset 0x0C01 (s.domain d).mode 0 fun m => beBytes 1 d ++ beBytes 1 m ++ zeros 2).flatten ++
  unlessReset 0x0C20 s.pwr.quiesce.pinMs 5000 (fun n => beBytes 1 2 ++ zeros 3 ++ beBytes 4 n) ++
  mgmt 0 (s.mgmtSetting 0) ++ mgmt 1 (s.mgmtSetting 1) ++
  unlessReset 0x0120 s.dev.label [] (padTo 0 32) ++
  unlessReset 0x0206 pol {} (fun p => beBytes 1 p.epMask ++ beBytes 1 (b2n p.claimAuth) ++ beBytes 1 (b2n p.preempt) ++ [0] ++
    beBytes 4 p.defaultMs) ++
  s.pwr.cmdKeys.map (fun e => (0x0E10, beBytes 1 e.1 ++ beBytes 1 1 ++ zeros 2 ++ padTo 0 97 e.2 ++ zeros 3)) ++
  unlessReset 0x0E11 s.pwr.signMask 0 (fun m => beBytes 2 m ++ zeros 2) ++
  unlessReset 0x0D02 s.spare.auditS 600 (beBytes 4) ++
  unlessReset 0x0B30 (s.mem.hostMib, s.mem.logQueue) (0, 0xFFFF) fun x => beBytes 4 x.1 ++ beBytes 2 x.2 ++ zeros 2

def PulseGen.isReset (p : PulseGen) : Bool :=
  decide (((p.arm, p.outputs, p.startIndex, p.period), (p.setStart, p.offsetNs), (p.width, p.count)) =
    ((0, 0, 0, 0), (0, 0), (4, 0)))

def PulseGen.bytes (p : PulseGen) (g : Nat) : List Byte :=
  beBytes 1 g ++ beBytes 1 p.arm ++ zeros 2 ++ beBytes 4 p.outputs ++ beInstant (instantOf p.setStart) ++
  beBytes 4 p.offsetNs ++ beBytes 8 p.startIndex ++ beBytes 8 p.period ++ beBytes 4 p.width ++ beBytes 4 p.count

def Source.bytes (q : Source) : List Byte :=
  beBytes 1 q.ref ++ beBytes 1 q.mode ++ beBytes 1 (b2n q.falling) ++ [0] ++ beBytes 4 (ofSigned 32 q.ppsDelay) ++
  beBytes 4 q.stepNs ++ beBytes 4 q.suspectNs ++ beBytes 2 q.bwMhz ++ beBytes 2 q.holdoverS ++
  beBytes 5 (ofSigned 40 q.freeAdj) ++ zeros 3

def State.snapTime (s : State) : List JRecord :=
  let q := s.qz
  let p := q.ptp
  unlessReset 0x0301 q.source {} Source.bytes ++
  unlessReset 0x0310 ((p.profile, p.domain, p.announceTimeout, p.syntonised), (p.logSync, p.logAnnounce, p.logDelay))
    ((0, 0, 3, false), (0, 1, 0)) (fun _ => beBytes 1 p.profile ++ beBytes 1 p.domain ++ beBytes 1 (ofSigned 8 p.logSync) ++
      beBytes 1 (ofSigned 8 p.logAnnounce) ++ beBytes 1 (ofSigned 8 p.logDelay) ++ beBytes 1 p.announceTimeout ++
      beBytes 1 (b2n p.syntonised) ++ [0]) ++
  (match q.mapping with
   | none => []
   | some m => [(0x0330, beBytes 8 m.sRef ++ beInstant (instantOf m.tRef) ++ beBytes 4 m.den ++ beBytes 8 m.num)]) ++
  (q.evt.map fun e => unlessReset 0x0321 (e.2.output, e.2.edges, e.2.queue) (false, 0, 0xFFFF) fun x =>
    beBytes 1 e.1 ++ beBytes 1 (b2n x.1) ++ beBytes 1 x.2.1 ++ [0] ++ beBytes 2 x.2.2 ++ zeros 2).flatten ++
  (q.pulses.map fun e => if e.2.isReset then [] else [(0x0320, e.2.bytes e.1)]).flatten ++
  unlessReset 0x0340 q.epochLen 0 (beBytes 8)

/-! ## Ports, ingest and the Freran bus -/

def State.snapPorts (s : State) : List JRecord :=
  let g := s.port
  (g.quads.map fun e => (0x0401, beBytes 1 e.1 ++ beBytes 1 e.2.rate ++ beBytes 1 e.2.role ++ beBytes 1 e.2.layout ++
    ((List.range 4).map fun j => beBytes 1 (e.2.modes.getD j 0) ++ beBytes 1 (e.2.roles.getD j 0)).flatten)) ++
  (g.lanes.map fun e => unlessReset 0x0402 (e.2.rxPol, e.2.txPol, e.2.preset, e.2.txState, e.2.rxState) (0, 1, 5, 0, 0) fun _ =>
    beBytes 1 e.1 ++ beBytes 1 e.2.rxPol ++ beBytes 1 e.2.txPol ++ beBytes 1 e.2.preset ++ beBytes 1 e.2.txState ++
    beBytes 1 e.2.rxState ++ zeros 2).flatten ++
  (g.ports.map fun e => unlessReset 0x0403 (e.2.nextKlp.getD (e.2.shed, e.2.agreeSf)) (true, 3) fun x =>
    beBytes 1 e.1 ++ beBytes 1 (b2n x.1) ++ beBytes 1 x.2 ++ [0]).flatten ++
  (s.qz.ptp.ports.map fun e => unlessReset 0x0311 (e.2.role, e.2.transport, e.2.trimIn, e.2.trimOut, e.2.asym) (0, 0, 0, 0, 0)
    fun _ => beBytes 1 e.1 ++ beBytes 1 e.2.role ++ beBytes 1 e.2.transport ++ [0] ++ beBytes 4 (ofSigned 32 e.2.trimIn) ++
      beBytes 4 (ofSigned 32 e.2.trimOut) ++ beBytes 4 (ofSigned 32 e.2.asym)).flatten

/-- Group addresses in ascending order. -/
def sortGroups (l : List Membership) : List Membership :=
  let key (m : Membership) : Nat := beNat (BitVec.ofNat 8 m.family :: m.group)
  let rec put (m : Membership) : List Membership → List Membership
    | [] => [m]
    | x :: t => if key m ≤ key x then m :: x :: t else x :: put m t
  l.foldl (fun acc m => put m acc) []

def State.snapIngest (s : State) : List JRecord :=
  let g := s.ing
  let map := schedLast g.map
  (g.ports.map fun e =>
    unlessReset 0x0501 (e.2.vlan, e.2.klpUdp, e.2.mac, e.2.ipv4, e.2.ipv6) (0, 47200, 0, 0, 0) (fun _ =>
      beBytes 1 e.1 ++ [0] ++ beBytes 2 e.2.vlan ++ beBytes 2 e.2.klpUdp ++ beBytes 6 e.2.mac ++ beBytes 4 e.2.ipv4 ++
      beBytes 16 e.2.ipv6) ++
    (sortGroups e.2.groups).map fun m => (0x0502, beBytes 1 e.1 ++ [1] ++ beBytes 1 m.family ++ beBytes 1 m.sources.length ++
      padTo 0 16 m.group ++ padTo 0 64 ((m.sources.map fun a => padTo 0 16 a).flatten))).flatten ++
  (g.sources.map fun e => (0x0503, beBytes 1 e.1 ++ beBytes 1 (b2n e.2.valid) ++ beBytes 1 e.2.port ++ beBytes 1 e.2.family ++
    beBytes 2 e.2.source ++ beBytes 2 e.2.udp ++ padTo 0 16 e.2.addr)) ++
  (if map = [] then [] else mapLoads map ++ [(0x0511, beBytes 2 map.length ++ zeros 6 ++ noIndexBytes)]) ++
  unlessReset 0x0530 g.holdUs 500 (fun n => beBytes 4 n ++ zeros 4)

def State.snapFreran (s : State) : List JRecord :=
  let f := s.fr
  let port (n : Nat) (p : FreranPort) : List JRecord :=
    unlessReset 0x0371 (p.enable, p.asym) (false, 0) fun _ =>
      beBytes 1 n ++ beBytes 1 (b2n p.enable) ++ zeros 2 ++ beBytes 4 (ofSigned 32 p.asym)
  unlessReset 0x0370 (f.mode, f.node, f.master, f.rearm, f.maxLatency, f.rearmUs) (0, 0, 0, false, 65536, 1) (fun _ =>
    beBytes 1 f.mode ++ beBytes 1 f.node ++ beBytes 1 f.master ++ beBytes 1 (b2n f.rearm) ++ beBytes 4 f.maxLatency ++
    beBytes 4 f.rearmUs) ++ port 0 f.port0 ++ port 1 f.port1

/-! ## Layouts, integrations and dumps -/

def Dest.bytes (d : Dest) (n : Nat) : List Byte :=
  beBytes 1 n ++ beBytes 1 d.kind ++ beBytes 1 d.port ++ beBytes 1 d.family ++ beBytes 2 d.vlan ++ beBytes 2 d.udpSrc ++
  beBytes 2 d.udpDst ++ beBytes 2 d.stream ++ beBytes 2 d.maxBody ++ beBytes 2 d.queue ++ beBytes 6 d.dstMac ++ zeros 2 ++
  padTo 0 16 d.dstAddr ++ beBytes 6 d.srcMac ++ zeros 2 ++ padTo 0 16 d.srcAddr

def CorrLayout.bytes (l : CorrLayout) : List Byte :=
  beBytes 1 (b2n l.rect) ++ beBytes 1 l.shape ++ beBytes 2 l.n ++ beBytes 2 l.row0 ++ beBytes 2 l.rows ++ beBytes 2 l.col0 ++
  beBytes 2 l.cols ++ beBytes 4 l.dwell ++ beBytes 2 l.channels ++ zeros 2 ++ beBytes 4 l.rate ++ zeros 8

def Preload.bytes (p : Preload) (c : Nat) : List Byte :=
  beBytes 2 c ++ beBytes 2 1 ++ beBytes 1 p.mode ++ zeros 3 ++ beBytes 6 (ofSigned 48 p.biasRe) ++
  beBytes 6 (ofSigned 48 p.biasIm) ++ zeros 4 ++ beBytes 8 p.residual ++ noIndexBytes

def State.snapLayout (s : State) : List JRecord :=
  let r := s.cap.sel
  let p := s.split
  let c := s.bas.combine
  let f := schedLast s.bas.fringe
  let coarse := schedLast s.stg.coarse
  unlessReset 0x0901 r {} (fun r => beBytes 2 r.mib ++ beBytes 2 r.firstInput ++ beBytes 2 r.nIn ++ beBytes 2 r.firstChannel ++
    beBytes 2 r.nCh ++ zeros 6) ++
  unlessReset 0x0654 p {} (fun p => beBytes 1 p.parts ++ beBytes 1 p.index ++ beBytes 2 p.group ++ beBytes 2 p.psxUdp ++ zeros 2 ++
    beBytes 4 p.mib ++ zeros 4) ++
  (match s.tile.layout with | none => [] | some l => [(0x0601, l.bytes)]) ++
  unlessReset 0x0653 c {} (fun c => beBytes 1 c.role ++ beBytes 1 c.parts ++ beBytes 1 c.part ++ beBytes 1 c.localLeaf ++
    beBytes 4 c.timeoutUs) ++
  (if coarse = [] then [] else coarseLoads 0 coarse ++ [(0x0621, noIndexBytes)]) ++
  (if f = {} && !schedLast s.bas.rotate then []
   else fringeLoads 0 8 64 0 f.sky ++ fringeLoads 1 4 256 0 f.phase ++
     [(0x0651, beBytes 1 (b2n (schedLast s.bas.rotate)) ++ zeros 7 ++ noIndexBytes)]) ++
  (s.bas.preload.map fun e => unlessReset 0x0650 { schedLast e.2 with length := 0, spoilt := none, image := [] } {} (·.bytes e.1)).flatten

/-- The index of a scheduled dump. -/
def DumpAt.index (a : DumpAt) : Nat := match a.at_ with | .idx i => i | .chans _ _ => noIndex

/-- R532: boundaries in the order of their channels and indices, so that the order of their acceptance does not show. -/
def State.snapDumps (s : State) : List JRecord :=
  let d := s.dump
  let g := schedLast d.set
  unlessReset 0x0660 (g, d.bufferMib) ({}, 256) (fun x => beBytes 4 x.1.period ++ beBytes 1 (b2n x.1.stagger) ++
    beBytes 1 x.1.coding ++ beBytes 1 x.1.order ++ beBytes 1 x.1.weightMode ++ beBytes 2 x.2 ++ zeros 6 ++ noIndexBytes) ++
  (sortBy (fun a => (a.first * 8192 + a.count) * 2 ^ 64 + a.index) (d.scheduled.filter (·.command))).map (fun a =>
    (0x0661, beBytes 2 a.first ++ beBytes 2 a.count ++ zeros 4 ++ beBytes 8 a.index)) ++
  d.dests.map (fun e => (0x0662, e.2.bytes e.1)) ++
  (runsOf d.map).map fun r => (0x0663, beBytes 2 r.1 ++ beBytes 2 r.2.1 ++ beBytes 1 r.2.2 ++ zeros 3)

/-! ## Beams, chains, capture and events -/

def Chain.bytes (c : Chain) (n : Nat) : List Byte :=
  beBytes 1 n ++ beBytes 1 (b2n c.detected) ++ beBytes 1 c.set ++ beBytes 1 c.param ++ beBytes 2 c.channel ++ beBytes 1 c.first ++
  beBytes 1 c.series ++ beBytes 1 c.stages.length ++ beBytes 1 (b2n c.wide) ++ beBytes 1 c.dest ++ beBytes 1 (b2n c.toFlint) ++
  ((List.range 3).map fun j => match c.stages[j]? with
    | some st => beBytes 2 st.taps ++ beBytes 1 st.decim ++ beBytes 1 st.shift
    | none => zeros 4).flatten ++ zeros 8

/-- A pending swap has been accepted: its load bank is the setting. -/
def Chain.settled (c : Chain) : KV Int := if c.swap.isSome then c.load else c.active

def State.snapBeams (s : State) : List JRecord :=
  (s.beam.sets.map fun e =>
    let b := e.2
    unlessReset 0x0701 ((b.enable, b.track, b.shared), [b.slots, b.groups, b.firstGroup, b.detect, b.chan0, b.chanCount, b.nInt, b.vDest,
        b.dDest]) ((false, false, false), [0, 0, 0, 0, 0, 0, 0, 0, 0]) fun _ =>
      beBytes 1 e.1 ++ beBytes 1 (b2n b.enable) ++ beBytes 1 b.slots ++ beBytes 1 b.groups ++ beBytes 1 b.firstGroup ++
      beBytes 1 b.detect ++ beBytes 1 (b2n b.track) ++ beBytes 1 (b2n b.shared) ++ beBytes 2 b.chan0 ++ beBytes 2 b.chanCount ++
      beBytes 4 b.nInt ++ beBytes 1 b.vDest ++ beBytes 1 b.dDest ++ zeros 2).flatten ++
  s.beam.dests.map (fun e => (0x0720, e.2.bytes e.1)) ++
  (s.filt.chains.map fun e => if e.2.configured then [(0x0801, e.2.bytes e.1)] else []).flatten ++
  (s.filt.chains.map fun e => if e.2.settled = [] then []
    else coefLoads e.1 e.2.settled ++ [(0x0811, beBytes 4 (2 ^ e.1) ++ zeros 4 ++ noIndexBytes)]).flatten

def State.snapCapture (s : State) : List JRecord :=
  let c := s.cap
  unlessReset 0x0902 ((c.segMode, c.mergeUs, c.trigMask), (c.pre, c.post, c.holdoff, c.autoLen)) ((0, 100, 0), (0, 0, 0, 0)) (fun _ =>
    beBytes 1 c.segMode ++ [0] ++ beBytes 2 c.mergeUs ++ beBytes 4 c.pre ++ beBytes 4 c.post ++ beBytes 4 c.holdoff ++
    beBytes 4 c.autoLen ++ zeros 4 ++ beBytes 8 c.trigMask) ++
  (c.dets.map fun e => if e.2.source = 0 then [] else [(0x0910, beBytes 1 e.1 ++ beBytes 1 e.2.source ++ beBytes 1 e.2.chain ++
    beBytes 1 e.2.series ++ beBytes 1 e.2.pin ++ beBytes 1 (b2n e.2.level) ++ beBytes 1 (b2n e.2.falling) ++ [0] ++
    beBytes 8 (ofSigned 64 e.2.low) ++ beBytes 8 (ofSigned 64 e.2.high) ++ beBytes 4 e.2.minWeight ++ zeros 4)]).flatten ++
  unlessReset 0x0930 c.dest {} (·.bytes 0)

def State.snapEvents (s : State) : List JRecord :=
  let r := s.er
  (r.jRoutes.map fun e =>
    let sel := (e.2 - 1) % 256
    let fix := (e.2 - 1) / 256
    if e.1 = 73 && sel = 187 && fix = 1 || e.1 ≠ 73 && sel = 0 && fix = 0 then []
    else [(0x0A01, beBytes 1 e.1 ++ beBytes 1 sel ++ beBytes 1 fix ++ [0])]).flatten ++
  (if r.jMode = some 0 then [(0x0A02, [0])] else []) ++
  r.jQueues.map fun e => (0x0A04, beBytes 1 e.1 ++ [0] ++ beBytes 2 e.2)

/-! ## Repairs -/

def HbmRepair.bytes (r : HbmRepair) : List Byte :=
  beBytes 1 r.stack ++ beBytes 1 r.pc ++ beBytes 1 r.bank ++ beBytes 1 r.status ++ leBytes 4 r.row

/-- A TILE record. -/
def tileRecord (t reason : Nat) : JRecord := (0xF002, leBytes 2 t ++ leBytes 1 reason)

/-- R532: repairs in the order of the places they concern, so that the order in which they were found does not show. -/
def State.snapRepairs (s : State) : List JRecord :=
  (s.spare.tiles.map fun e =>
    if e.2.mode = .retired && e.2.reason ≠ 0 then [tileRecord e.1 e.2.reason]
    else if e.2.doom = 3 then [tileRecord e.1 3] else []).flatten ++
  (sortBy (fun r => r.1 * 8 + r.2.2) s.spare.sramRepairs).map (fun r => (0xF003, leBytes 2 r.1 ++ leBytes 2 r.2.1 ++ leBytes 1 r.2.2)) ++
  (sortBy (fun r => ((r.stack * 256 + r.pc) * 256 + r.bank) * 2 ^ 32 + r.row) s.spare.hbmRepairs).map fun r => (0xF004, r.bytes)

/-- R505: every current setting and repair. -/
def State.snapshot (s : State) : List JRecord :=
  s.snapDevice ++ s.snapTime ++ s.snapPorts ++ s.snapIngest ++ s.snapFreran ++ s.snapLayout ++ s.snapDumps ++ s.snapBeams ++
  s.snapCapture ++ s.snapEvents ++ s.snapRepairs

/-- R501: bytes of a record of a payload of `n` bytes. -/
def recordSize (n : Nat) : Nat := roundUp (24 + n) 16

/-- Bytes of a snapshot (R503). -/
def snapshotSize (l : List JRecord) : Nat := (l.map fun r => recordSize r.2.length).sum

end Sys2Proof.Machine
end

