-- ==== Sys2Proof/Machine/Protocol.lean ====
section
/-! DEFINITION. Command packets and ownership: header forms, replies, the client table, the checks of R390, the lease,
and the one path on which every command packet runs (R382 to R401). -/

namespace Sys2Proof.Machine

/-! ## Status codes (R386) -/

abbrev stOk : Nat := 0
abbrev stAccepted : Nat := 1
abbrev stNotOwner : Nat := 2
abbrev stBadOpcode : Nat := 3
abbrev stBadParam : Nat := 4
abbrev stBusy : Nat := 5
abbrev stNotAuth : Nat := 6
abbrev stVersion : Nat := 7
abbrev stStaleSeq : Nat := 8
abbrev stResource : Nat := 9
abbrev stTimeout : Nat := 10
abbrev stHwError : Nat := 11
abbrev stPast : Nat := 12

/-- What executing a command comes to: its status, param_offset, reply data, and the state it leaves. -/
structure Res where
  status : Nat
  off : Nat
  data : List Byte
  st : State
  deriving DecidableEq, Repr

def Res.fail (status : Nat) (s : State) : Res := ⟨status, 0xFFFF, [], s⟩
/-- BAD_PARAM at a field; nothing is applied. -/
def Res.bad (off : Nat) (s : State) : Res := ⟨stBadParam, off, [], s⟩
def Res.ok (s : State) : Res := ⟨stOk, 0xFFFF, [], s⟩
def Res.okWith (d : List Byte) (s : State) : Res := ⟨stOk, 0xFFFF, d, s⟩
def Res.accepted (s : State) : Res := ⟨stAccepted, 0xFFFF, [], s⟩
def Res.good (r : Res) : Bool := r.status ≤ 1

/-- The first of some tests that fails gives BAD_PARAM at its offset. -/
def firstBad : List (Bool × Nat) → Option Nat
  | [] => none
  | (ok, off) :: t => if ok then firstBad t else some off

/-- What executes one opcode: its row, its effect, and the journal records that restore it (none: not journalled). -/
structure OpSpec where
  row : OpRow
  body : Cmd → State → Res
  records : Cmd → State → List (Nat × List Byte) := fun _ _ => []

/-- R501: a command journalled under its own opcode and parameters. -/
def ownRecord (code : Nat) : Cmd → State → List (Nat × List Byte) := fun c _ => [(code, c.params)]

/-! ## Bytes of a packet -/

end Sys2Proof.Machine

namespace Sys2Proof

open Sys2Proof.Machine in
/-- R383, R384: every byte of the command before the signature option. -/
def Cmd.bytes (c : Cmd) (code : Nat) : List Byte :=
  if c.v2 then
    [0x43] ++ beBytes 1 (2 * 16 + c.ignored.verNibble) ++ beBytes 2 code ++
    beBytes 2 (2 * b2n c.tag.isSome + 4 * b2n c.sig.isSome + 8 * c.ignored.flagsHigh) ++
    beBytes 2 c.params.length ++ beBytes 4 c.seq ++ beBytes 1 c.ignored.status ++ c.ignored.tail ++
    (match c.tag with | none => [] | some t => beInstant t) ++ c.params
  else
    [0x43] ++ beBytes 1 (16 + c.ignored.verNibble) ++ beBytes 1 code ++ beBytes 1 c.ignored.status ++
    beBytes 2 c.seq ++ beBytes 2 c.params.length ++ c.params

end Sys2Proof

namespace Sys2Proof.Machine

/-- R383, R386: a reply packet. -/
def replyBytes (v2 : Bool) (code seq status : Nat) (data : List Byte) : List Byte :=
  if v2 then
    [0x43, 0x20] ++ beBytes 2 code ++ beBytes 2 1 ++ beBytes 2 data.length ++ beBytes 4 seq ++ beBytes 1 status ++
    zeros 3 ++ data
  else
    [0x43, 0x10] ++ beBytes 1 code ++ beBytes 1 status ++ beBytes 2 seq ++ beBytes 2 data.length ++ data

/-- R391: the cached reply, with flag bit 3 set in version 2. -/
def repeated (v2 : Bool) (packet : List Byte) : List Byte :=
  if v2 then packet.take 4 ++ beBytes 2 (fld packet 4 2 ||| 8) ++ packet.drop 6 else packet

/-! ## Ownership as the lease cell holds it -/

def State.mapOwn (s : State) (f : OwnState → OwnState) : State := { s with own := f s.own }

def OwnMode.code : OwnMode → Nat
  | .unowned => 0 | .owned => 1 | .handover => 2

def OwnState.leaseLeftMs (o : OwnState) : Nat := if o.mode = .unowned then 0 else o.leaseLeft / 1000000

/-- R386: the error detail record. -/
def State.errorDetail (s : State) (off : Nat) : List Byte :=
  beBytes 2 off ++ beBytes 1 (match s.own.owner with | some c => c.ep.val | none => 0xFF) ++
  beBytes 1 s.own.mode.code ++ beBytes 4 s.own.leaseLeftMs

def OwnState.isOwner (o : OwnState) (c : Client) : Bool := o.mode ≠ .unowned && o.owner = some c

/-- R395: every change of owner, to or from none, advances GEN. -/
def OwnState.setOwner (o : OwnState) (c : Option Client) : OwnState :=
  { o with owner := c, mode := if c.isSome then .owned else .unowned, successor := none,
           ownerChallenge := none, gen := (o.gen + 1) % 2 ^ 32, leaseLeft := if c.isSome then o.leaseLeft else 0 }

/-- R389: the 250 MHz cycle of a stamp. -/
def stampCycle (ns : Nat) : Nat := ns / 4

/-- R395: the lease restarts at a stamp; what renewals of the token have charged since then is charged to it, a switchover gap
left out. -/
def OwnState.restart (o : OwnState) (stamp : Nat) : OwnState :=
  let first := stampCycle o.restartAt ≠ stampCycle stamp
  { o with leaseLeft := o.leaseMs * 1000000 - (o.chargedTo - max stamp o.chargeFrom), restartAt := stamp,
           leaseBefore := if first then o.leaseLeft else o.leaseBefore,
           restartBefore := if first then o.restartAt else o.restartBefore }

def OwnState.ep (o : OwnState) (e : Fin 4) : EpCounters :=
  match e with | 0 => o.ep0 | 1 => o.ep1 | 2 => o.ep2 | 3 => o.ep3

def OwnState.setEp (o : OwnState) (e : Fin 4) (v : EpCounters) : OwnState :=
  match e with
  | 0 => { o with ep0 := v } | 1 => { o with ep1 := v } | 2 => { o with ep2 := v } | 3 => { o with ep3 := v }

def State.count (s : State) (e : Fin 4) (f : EpCounters → EpCounters) : State :=
  s.mapOwn fun o => o.setEp e (f (o.ep e))

def State.malformed (s : State) (e : Fin 4) : State := s.count e fun k => { k with malformed := k.malformed + 1 }

/-! ## The client table (R392) -/

def OwnState.client (o : OwnState) (c : Client) : Option ClientEntry := o.clients.find? (·.key = c)

def OwnState.mapClient (o : OwnState) (c : Client) (f : ClientEntry → ClientEntry) : OwnState :=
  { o with clients := o.clients.map fun e => if e.key = c then f e else e }

/-- The least recently used entry that has been unused for 10 s and is not the owner's. -/
def reusable (o : OwnState) (now : Nat) : Option ClientEntry :=
  (o.clients.filter fun e => o.owner ≠ some e.key && e.used + 10000000000 ≤ now).foldl
    (fun best e => match best with
      | none => some e
      | some b => if e.used < b.used then some e else some b) none

/-- A command takes or refreshes its client's entry; none: no entry can be had. -/
def OwnState.touch (o : OwnState) (c : Client) (now : Nat) : Option OwnState :=
  match o.client c with
  | some _ => some (o.mapClient c fun e => { e with used := now })
  | none =>
    if o.clients.length < 256 then some { o with clients := o.clients ++ [{ key := c, used := now }] }
    else
      match reusable o now with
      | none => none
      | some old => some { o with clients := o.clients.filter (fun e => e.key ≠ old.key) ++ [{ key := c, used := now }] }

/-- R391: what the sequence check finds. -/
inductive SeqVerdict where
  | fresh | duplicate (reply : List Byte) | stale
  deriving DecidableEq, Repr

def seqCheck (e : ClientEntry) (v2 : Bool) (seq : Nat) : SeqVerdict :=
  if seq = 0 then .fresh
  else
    match (if v2 then e.cache2 else e.cache1).find? (·.1 = seq) with
    | some r => .duplicate r.2
    | none =>
      match (if v2 then e.h2 else e.h1) with
      | none => .fresh
      | some h => if serialAfter (if v2 then 32 else 16) seq h then .fresh else .stale

/-- H becomes seq (R391). -/
def ClientEntry.advance (e : ClientEntry) (v2 : Bool) (seq : Nat) : ClientEntry :=
  if seq = 0 then e else if v2 then { e with h2 := some seq } else { e with h1 := some seq }

/-- R391: the reply cache keeps the 32 most recent sequenced replies of the version. -/
def ClientEntry.keep (e : ClientEntry) (v2 : Bool) (seq status : Nat) (packet : List Byte) : ClientEntry :=
  if seq = 0 || status = stStaleSeq then e
  else if v2 then { e with cache2 := ((seq, packet) :: e.cache2.filter (·.1 ≠ seq)).take 32 }
  else { e with cache1 := ((seq, packet) :: e.cache1.filter (·.1 ≠ seq)).take 32 }

/-! ## Sending a reply (R386, R387, R416, R417, R456) -/

def State.mgmt (s : State) (p : Nat) : MgmtPort := if p = 0 then s.dev.mgmtA else s.dev.mgmtB

def State.setMgmt (s : State) (p : Nat) (m : MgmtPort) : State :=
  { s with dev := if p = 0 then { s.dev with mgmtA := m } else { s.dev with mgmtB := m } }

def MgmtPort.macInUse (m : MgmtPort) (p : Nat) : Nat := if m.mac = 0 then Config.factoryMac p else m.mac

/-- The addresses a management port answers for (R416). -/
def State.mgmtAddresses (s : State) (p : Nat) : Addresses :=
  let m := s.mgmt p
  { mac := m.macInUse p, vlan := m.vlan, ipv4 := m.ipv4,
    ipv6 := linkLocal (m.macInUse p) :: (if m.ipv6 = 0 then [] else [beBytes 16 m.ipv6]) }

/-- A frame leaves a management port, or is discarded when the port cannot send. -/
def State.sendMgmt (s : State) (p : Nat) (f : Frame) : State :=
  let m := s.mgmt p
  if m.mode = 0 || !m.link || !s.domainOn 86 then s
  else (s.setMgmt p { m with txFrames := m.txFrames + 1 }).emit (.mgmtFrame p f)

/-- The source address of a reply: the port's address in the client's family and scope. -/
def replySource (m : MgmtPort) (p : Nat) (c : Client) : List Byte :=
  if c.family = 4 then beBytes 4 m.ipv4
  else if m.ipv6 = 0 || fld c.addr 0 2 / 64 = 0xFE80 / 64 then linkLocal (m.macInUse p)
  else beBytes 16 m.ipv6

/-- The reply at index `via` of the pair of a command queue, or a void element (R456). -/
def State.completeElement (s : State) (qn via : Nat) (bs : List Byte) : State :=
  let q := s.queue qn
  let p := s.queue q.pair
  if !q.enable || q.kind ≠ 0 || !p.enable || p.kind ≠ 1 then s
  else
    let (s1, ok) := s.putBytes (p.element via) bs
    let p1 := s1.queue q.pair
    (s1.setQueue q.pair { p1 with prod := (p1.prod + 1) % 2 ^ 32, accessErr := p1.accessErr || !ok,
                                  drops := p1.drops + b2n (!ok) }).writeBack q.pair ((p.prod + 1) % 2 ^ 32)

def State.sendReply (s : State) (c : Client) (via : Nat) (packet : List Byte) : State :=
  match c.ep with
  | 0 => s.completeElement c.port via packet
  | 3 => s.mapOwn fun o => { o with smbusOut := some packet, smbusRead := 0 }
  | e =>
    let p := e.val - 1
    let m := s.mgmt p
    s.sendMgmt p (udpFrame via (m.macInUse p) m.vlan (replySource m p c) (if c.family = 4 then c.addr.take 4 else c.addr)
      47100 c.port packet)

/-! ## Authentication (R393, R397, R406, R531) -/

/-- R531: the mask bit, or any installed key, requires a signature. -/
def State.sigRequired (s : State) (row : OpRow) : Bool :=
  if row.code = 0x0201 then s.own.policy.claimAuth
  else if row.code = 0x0E20 || row.code = 0x0E21 then false
  else
    row.access ≠ .read &&
    (bit s.pwr.signMask (row.code / 256) ||
     (row.code = 0x0206 && s.own.policy.claimAuth) ||
     ((row.code = 0x0E10 || row.code = 0x0E11 || row.code = 0x0E31) && s.pwr.cmdKeys ≠ []))

/-- R407: a challenge is valid for 30 s. -/
def ClientEntry.liveChallenge (e : ClientEntry) (now : Nat) : Option (List Byte) :=
  match e.challenge with
  | some (ch, at_) => if now < at_ + 30000000000 then some ch else none
  | none => none

/-- R393: the challenge a client's signature covers; a claim's own is the one it is about to consume. -/
def OwnState.challengeOf (o : OwnState) (c : Client) (code now : Nat) : Option (List Byte) :=
  if o.isOwner c && code ≠ 0x0201 then o.ownerChallenge
  else match o.client c with
    | some e => e.liveChallenge now
    | none => none

def State.sigValid (s : State) (c : Cmd) (code stamp : Nat) : Bool :=
  match c.sig with
  | none => false
  | some g =>
    c.seq ≠ 0 &&
    (match s.own.challengeOf c.client code stamp with
     | none => false
     | some ch =>
       match kvGet [] s.pwr.cmdKeys g.keySlot with
       | [] => false
       | key => ecdsaVerify key g.r g.s (ch ++ c.bytes code))

/-- R390 check 3. -/
def State.authOk (s : State) (c : Cmd) (row : OpRow) (stamp : Nat) : Bool :=
  match c.sig with
  | some _ => s.sigValid c row.code stamp
  | none => !s.sigRequired row

/-- R397: a claim consumes its client's challenge whether it succeeds or fails. -/
def State.consumeChallenge (s : State) (c : Client) : State :=
  s.mapOwn fun o => o.mapClient c fun e => { e with challenge := none }

/-! ## Time tags (R298) -/

/-- The parameters with a tag's index put in; or the status that answers it. -/
def State.applyTag (s : State) (c : Cmd) (row : OpRow) : Except (Nat × Nat) (List Byte) :=
  match c.tag with
  | none => .ok c.params
  | some t =>
    match row.tag with
    | none => .error (stBadParam, 0xFFFF)
    | some off =>
      -- R409: the note of TIME_SET_PULSE
      if !t.ok || (row.code = 0x0320 && fld c.params 1 1 ≠ 2) then .error (stBadParam, 0xFFFF)
      else if t.units ≤ s.now then .error (stPast, 0xFFFF)
      else
        match s.qz.mapping with
        | none => .error (stBadParam, 0xFFFF)
        | some m =>
          match m.index t.units with
          | none => .error (stBadParam, 0xFFFF)
          | some i =>
            if s.suspect then .error (stHwError, 0xFFFF)
            else .ok (c.params.take off ++ beBytes 8 i ++ c.params.drop (off + 8))

/-! ## Execution -/

/-- R534: what is served while QUIESCED beside the read-only commands. -/
def quiescedAllows (row : OpRow) (p : List Byte) : Bool :=
  row.access = .read || row.code = 0x0C30 || (row.code = 0x0C20 && fld p 0 1 = 1)

/-- R395: a command of the owner restarts the lease at its stamp, unless a later one has restarted it. -/
def State.renewed (s : State) (c : Client) (stamp : Nat) : State :=
  if s.own.isOwner c && s.own.restartAt ≤ stamp then s.mapOwn (·.restart stamp) else s

/-- R388, R390: who may send a command of this access. EP3 is always read-only. -/
def OwnState.mayIssue (o : OwnState) (row : OpRow) (c : Client) : Bool :=
  match row.access with
  | .read => true
  | .owner => c.ep ≠ 3 && o.isOwner c
  | .claim => c.ep ≠ 3

/-- R390 checks 3 to 6, for a new or unsequenced command of a known opcode: the state and the parameters its execution
starts from, or the result that answers it. -/
def State.judged (s' : State) (row : OpRow) (c : Cmd) (stamp : Nat) : Except Res (State × List Byte) :=
  let s := s'.mapOwn fun o => { o with stamp := stamp, accepted := false }
  -- R397: a claim that any check fails has consumed its client's challenge
  let spent (u : State) : State := if row.code = 0x0201 then u.consumeChallenge c.client else u
  if !s.authOk c row stamp then .error (.fail stNotAuth (spent s))
  else
    let s1 := s.renewed c.client stamp
    if !s1.own.mayIssue row c.client then .error (.fail stNotOwner (spent s1))
    else
      match s1.applyTag c row with
      | .error (st, off) => .error ⟨st, off, [], spent s1⟩
      | .ok params =>
        if s1.pwr.phase = 7 && !quiescedAllows row params then .error (.fail stBusy (spent s1))
        else
          -- the length is that of the parameters as sent, their index included
          match row.layout.lengthError c.params with
          | some off => .error (.bad off (spent s1))
          | none => .ok (s1, params)

/-- R477, R480: the active core commits a command. -/
def State.noteCommit (s : State) : State :=
  match s.mc.token with
  | none => s
  | some h => s.setCore h { s.core h with commit := ((s.core h).commit + 1) % 2 ^ 32 }

/-- R417: the new setting of a management port, once the reply has left; a changed mode, MAC or vlan restarts its link. -/
def State.adoptMgmt (s : State) : State :=
  match s.dev.next with
  | none => s
  | some (p, n) =>
    let m := s.mgmt p
    let same := n.mode = m.mode && n.mac = m.mac && n.vlan = m.vlan
    let s1 := s.setMgmt p { m with mode := n.mode, vlan := n.vlan, mac := n.mac, ipv4 := n.ipv4, ipv6 := n.ipv6,
                                   link := m.link && same }
    { s1 with dev := { s1.dev with next := none } }

/-- What a command has put off until its reply has been handed over (R417, R520, R539). -/
def State.afterReply (s : State) : State :=
  let u := s.adoptMgmt
  let s1 := if u.pwr.resetAsked then { u with pwr := { u.pwr with resetAsked := false, resetAt := some (u.ns + 10000000) } } else u
  if s1.pwr.fwReset then s1.deviceReset 3 else s1

/-- The reply is cached and mirrored before it is sent (R391), and counted by its status (R408). -/
def State.finish (s : State) (w : Waiting) (status : Nat) (data : List Byte) : State :=
  let c := w.cmd
  let packet := replyBytes c.v2 w.wireCode c.seq status data
  let s1 := s.count c.client.ep fun k =>
    { k with stale := k.stale + b2n (status = stStaleSeq), notOwner := k.notOwner + b2n (status = stNotOwner),
             notAuth := k.notAuth + b2n (status = stNotAuth) }
  let s2 := s1.mapOwn fun o => o.mapClient c.client fun e => e.keep c.v2 c.seq status packet
  (s2.noteCommit.sendReply c.client c.via packet).afterReply

/-- The reply of a result: its data on success, the error detail record otherwise (R386). -/
def Res.reply (r : Res) : List Byte := if r.good then r.data else r.st.errorDetail r.off

/-- R535: the commands that need PD95. -/
def cryptoCode (code : Nat) : Bool := code = 0x0E02 || code = 0x0210 || code = 0x0D12

/-- The opcodes of the entries of a batch (R421). -/
def batchCodes : Nat → List Byte → List Nat
  | 0, _ => []
  | n + 1, p => if p = [] then [] else fld p 0 2 :: batchCodes n (p.drop (4 + fld p 2 2))

/-- R535: serving the command while QUIESCED needs PD95, which is not ON: its signature is verified, or it passes the checks and
draws on the crypto block or reads the journal. -/
def State.cryptoWait (s : State) (row : OpRow) (w : Waiting) : Bool :=
  let draws := cryptoCode row.code || (row.code = 0x0F02 && (batchCodes 16 (w.cmd.params.drop 8)).any cryptoCode)
  s.pwr.phase = 7 && !s.domainOn 95 &&
  (w.cmd.sig.isSome || (draws && (match s.judged row w.cmd w.stamp with | .ok _ => true | .error _ => false)))

/-- Answer a result, or hold the reply until the domains the command turned on are ON (R517). -/
def State.answer (before : State) (w : Waiting) (_row : OpRow) (r : Res) : State :=
  let s := r.st.settleDomains
  let waits := (List.range 96).filter fun d => (s.domain d).state ≠ .on && s.wantsOn d && !before.wantsOn d
  if r.good && waits ≠ [] then
    s.mapOwn fun o => { o with executing := some ⟨w, .domains waits, r.status, r.data⟩ }
  else s.finish w r.status r.reply

/-- R408: a command has been accepted from its endpoint. -/
def State.counted (s : State) (w : Waiting) : State := s.count w.cmd.client.ep fun k => { k with commands := k.commands + 1 }

/-- R391, R392: its client's entry is found or made, and its sequence number judged; none: no entry can be had. -/
def State.entered (s : State) (w : Waiting) : Option (State × SeqVerdict) :=
  match s.own.touch w.cmd.client w.stamp with
  | none => none
  | some o =>
    match o.client w.cmd.client with
    | none => none
    | some e => some ({ s with own := o }, seqCheck e w.cmd.v2 w.cmd.seq)

/-- R391: a new command is processed, and H becomes its seq. -/
def State.advanced (s : State) (w : Waiting) : State :=
  s.mapOwn fun o => o.mapClient w.cmd.client fun e => e.advance w.cmd.v2 w.cmd.seq

/-- R503: the command hands its records over and waits for them; its stamp has renewed the owner's lease. -/
def State.awaitGroup (s : State) (w : Waiting) (records : List JRecord) : State :=
  ((s.renewed w.cmd.client w.stamp).handGroup records true).mapOwn fun o =>
    { o with executing := some ⟨w, .journal, 0, []⟩ }

/-- R503: a command that the checks let through is executed and answered, or waits for its journal group, when its chapter
journals it. Nothing is applied before the group has committed. -/
def State.perform (s : State) (sp : OpSpec) (w : Waiting) (u : State) (params : List Byte) : State :=
  let r := sp.body { w.cmd with params := params } u
  let w1 : Waiting := { w with cmd := { w.cmd with params := params, tag := none } }
  let records := sp.records w1.cmd s
  -- a slot is not committed while the journal engine writes a snapshot (R505)
  let paused := sp.row.code = 0x0E31 && 2 ≤ s.jrnl.step && s.jrnl.step ≤ 4
  if !r.good || (records = [] && !paused) then State.answer s w sp.row r
  else
    let v := s.renewed w.cmd.client w.stamp
    if 1048576 < snapshotSize r.st.snapshot then v.finish w stResource (v.errorDetail 0xFFFF)
    else if s.jrnl.full && records ≠ [] then v.finish w stHwError (v.errorDetail 0xFFFF)
    else s.awaitGroup w1 records

/-- R390 checks 3 to 6 and what follows them. -/
def State.serve (s : State) (sp : OpSpec) (w : Waiting) : State :=
  match s.judged sp.row w.cmd w.stamp with
  | .error r => State.answer s w sp.row r
  | .ok (u, params) => s.perform sp w u params

/-- R390, R391: one stamped command is taken through the checks. -/
def State.process (s : State) (spec : Option OpSpec) (w : Waiting) : State :=
  let c := w.cmd
  match w.verdict with
  | some st =>
    -- R385: answered before any check, and never cached
    s.sendReply c.client c.via (replyBytes c.v2 w.wireCode c.seq st (s.errorDetail 0xFFFF))
  | none =>
    let s1 := s.counted w
    match s1.entered w with
    | none => s1.sendReply c.client c.via (replyBytes c.v2 w.wireCode c.seq stResource (s1.errorDetail 0xFFFF))
    | some (s2, .duplicate packet) =>
      (s2.count c.client.ep fun k => { k with duplicates := k.duplicates + 1 }).sendReply c.client c.via (repeated c.v2 packet)
    | some (s2, .stale) => s2.finish w stStaleSeq (s2.errorDetail 0xFFFF)
    | some (s2, .fresh) =>
      let s3 := s2.advanced w
      match spec with
      | none => s3.finish w stBadOpcode (s3.errorDetail 0xFFFF)
      | some sp =>
        if s3.cryptoWait sp.row w then s3.mapOwn fun o => { o with executing := some ⟨w, .crypto, 0, []⟩ } else s3.serve sp w

/-! ## The command order (R389, R401) -/

/-- Beynan serves commands: boot has reached SERVICE, and the token's holder is active outside a gap. -/
def State.serving (s : State) : Bool :=
  (s.pwr.phase = 4 || s.pwr.phase = 6 || s.pwr.phase = 7) && !s.mc.inGap &&
  (match s.mc.token with
   | none => false
   | some h => (s.core h).mode = .active)

def State.free (s : State) : Bool := s.serving && s.own.executing.isNone

/-- R391: the same command is still executing. -/
def State.isExecuting (s : State) (c : Cmd) : Bool :=
  match s.own.executing with
  | none => false
  | some x => c.seq ≠ 0 && x.what.cmd.client = c.client && x.what.cmd.v2 = c.v2 && x.what.cmd.seq = c.seq

/-- R395: a command that has to wait passes checks 1 to 3 as far as its stamp shows: its sequence number is new beside those of
its client that wait before it, its opcode is defined, and its signature holds (log entry 36). -/
def State.renewsAtStamp (s : State) (spec : Option OpSpec) (w : Waiting) : Bool :=
  let earlier := s.own.order.filter fun x => x.cmd.client = w.cmd.client && x.cmd.v2 = w.cmd.v2
  match spec, s.own.client w.cmd.client with
  | some sp, some e =>
    let e1 := earlier.foldl (fun e x => if seqCheck e x.cmd.v2 x.cmd.seq = .fresh then e.advance x.cmd.v2 x.cmd.seq else e) e
    w.verdict.isNone && seqCheck e1 w.cmd.v2 w.cmd.seq = .fresh && s.authOk w.cmd sp.row w.stamp
  | _, _ => false

/-- R389: the order of stamps; within a cycle, of endpoints. -/
def Waiting.before (a b : Waiting) : Bool :=
  stampCycle a.stamp < stampCycle b.stamp ||
  (stampCycle a.stamp = stampCycle b.stamp && decide (a.cmd.client.ep.val ≤ b.cmd.client.ep.val))

/-- A stamped command waits: in a gap a management port holds 64 datagrams and SMBus one packet (R401). -/
def State.enqueue (s : State) (spec : Option OpSpec) (w : Waiting) : State :=
  let ep := w.cmd.client.ep
  let held := (s.own.order.filter fun x => x.cmd.client.ep = ep).length
  let limit := if ep = 0 then none else if ep = 3 then some 1 else some 64
  let inGap := !s.serving
  if inGap && (match limit with | some n => n ≤ held | none => false) then
    let s1 := s.malformed ep
    if ep = 3 then s1
    else
      let m := s1.mgmt (ep.val - 1)
      s1.setMgmt (ep.val - 1) { m with gapDrops := m.gapDrops + 1 }
  else
    -- the lease cell renews at the stamp (R395, R503)
    let s1 := if s.renewsAtStamp spec w then s.renewed w.cmd.client w.stamp else s
    s1.mapOwn fun o => { o with order := o.order.takeWhile (·.before w) ++ w :: o.order.dropWhile (·.before w) }

/-- A command arrives and is stamped: it runs at once when nothing is before it, and waits otherwise. -/
def State.arrive (s : State) (spec : Option OpSpec) (w : Waiting) : State :=
  if w.verdict.isNone && s.isExecuting w.cmd && s.serving then
    s.count w.cmd.client.ep fun k => { k with commands := k.commands + 1, duplicates := k.duplicates + 1 }
  else if s.free && s.own.order = [] then s.process spec w
  else s.enqueue spec w

/-- R394, R411: a version 1 header can carry only the opcodes with a version 1 code; for the others its code is reserved. -/
def OpSpec.reachable (sp : OpSpec) (v2 : Bool) : Option OpSpec := if v2 || sp.row.v1 ≠ 0 then some sp else none

/-- The meaning of every command row: the packet is stamped now. -/
def State.submit (s : State) (spec : OpSpec) (c : Cmd) : Host.Outcome State Fault Refusal :=
  if c.wf then
    let sp := spec.reachable c.v2
    .next (s.settled (s.arrive sp
      ⟨if sp.isSome then spec.row.code else 0, c, if c.v2 then spec.row.code else spec.row.v1, none, s.ns⟩))
  else .fault .illFormed

end Sys2Proof.Machine
end

