-- ==== Sys2Proof/Machine/Output.lean ====
section
/-! DEFINITION. Frames on their way out: the queue of each egress port and of each DMA destination, and what a frame's
producer counts when the frame leaves or is lost (R70, R215, R218, R250, R338, R362, R455). -/

namespace Sys2Proof.Machine

def Port.init : Port := {}
def State.portAt (s : State) (p : Nat) : Port := kvGet Port.init s.port.ports p
def State.setPort (s : State) (p : Nat) (v : Port) : State :=
  { s with port := { s.port with ports := kvSet Port.init s.port.ports p v } }

/-! ## Ports as configured (R52 to R56) -/

def Quad.init : Quad := {}
def State.quad (s : State) (q : Nat) : Quad := kvGet Quad.init s.port.quads q

/-- R53: positions and widths of a layout's ports. -/
def layoutPorts (layout : Nat) : List (Nat × Nat) :=
  match layout with
  | 0 => [(0, 1), (1, 1), (2, 1), (3, 1)]
  | 1 => [(0, 2), (2, 2)]
  | 2 => [(0, 4)]
  | _ => [(0, 1), (1, 1), (2, 2)]

/-- A configured port. -/
structure PortCfg where
  width : Nat
  mode : Nat
  /-- 0 ingest; 1 egress -/
  role : Nat
  deriving DecidableEq, Repr

def PortCfg.klp (c : PortCfg) : Bool := c.mode = 8 || c.mode = 9
def PortCfg.duplex (c : PortCfg) : Bool := c.mode = 8

/-- The port that starts at lane `p`. -/
def State.portCfg (s : State) (p : Nat) : Option PortCfg :=
  let q := s.quad (p / 4)
  if q.rate = 0 then none
  else
    match (layoutPorts q.layout).find? (·.1 = p % 4) with
    | none => none
    | some (j, w) => some { width := w, mode := q.modes.getD j 0,
                            role := if q.role = 2 then q.roles.getD j 0 else q.role }

/-- The frames that wait at an egress port, or (key 80 + q) for DMA queue `q`. -/
def State.txq (s : State) (p : Nat) : List (FrameOwner × Frame) := kvGet [] s.port.txq p
def State.setTxq (s : State) (p : Nat) (l : List (FrameOwner × Frame)) : State :=
  { s with port := { s.port with txq := kvSet [] s.port.txq p l } }

/-- R218: a lost frame of a dump, in the device's count and in the dump's kept record. -/
def State.dumpFrameGone (s : State) (c seq room : Nat) (lost : Bool) : State :=
  let n := b2n lost
  let d := s.dump
  let kept := (kvGet [] d.kept c).map fun r => if r.seq = seq then { r with portLost := r.portLost + n } else r
  let jobs := d.jobs.map fun j =>
    if j.channel = c && j.seq = seq then { j with inFlight := j.inFlight - 1, lost := j.lost + n } else j
  { s with dump := { d with usedBytes := d.usedBytes - room, portLost := d.portLost + n,
                            kept := kvSet [] d.kept c kept, jobs := jobs } }

/-- A frame has left its port or reached its queue element, or is lost there. -/
def State.frameGone (s : State) (o : FrameOwner) (lost : Bool) : State :=
  let n := b2n lost
  let m := b2n (!lost)
  match o with
  | .dump c seq room => s.dumpFrameGone c seq room lost
  | .beam b _ =>
    let v := s.beamSet b
    s.setBeamSet b { v with sent := v.sent + m, portLost := v.portLost + n }
  | .chain h _ =>
    -- chain frames share the loss rule of their set (R273)
    let b := (kvGet ({} : Chain) s.filt.chains h).set
    let v := s.beamSet b
    s.setBeamSet b { v with sent := v.sent + m, portLost := v.portLost + n }
  | .segment seq =>
    let left := s.cap.segs.map fun x => if x.seq = seq then { x with inFlight := x.inFlight - 1 } else x
    { s with cap := { s.cap with framesSent := s.cap.framesSent + m, portLost := s.cap.portLost + n, segs := left } }
  | .own => s

/-- R250: bytes of the beam output buffer in use. -/
def FrameOwner.beamRoom : FrameOwner → Nat
  | .beam _ r => r
  | .chain _ r => r
  | _ => 0

def State.beamBufferUsed (s : State) : Nat := (s.port.txq.map fun q => (q.2.map fun f => f.1.beamRoom).sum).sum

/-- R70: the frames bound to a port that goes down are discarded there. -/
def State.dropTxq (s : State) (p : Nat) : State :=
  let q := s.txq p
  let s1 := q.foldl (fun u f => u.frameGone f.1 true) (s.setTxq p [])
  s1.setPort p { s1.portAt p with txDiscard := (s1.portAt p).txDiscard + q.length }

/-- R457: a DMA destination whose queue is not an egress queue is disabled. -/
def Dest.usable (d : Dest) (s : State) : Bool :=
  d.kind = 1 || (d.kind = 2 && (s.queue d.queue).enable && (s.queue d.queue).kind = 4)

/-- The UDP datagram of a frame to a destination (R215). -/
def Dest.frame (d : Dest) (bytes : List Byte) : Frame :=
  let n := if d.family = 4 then 4 else 16
  udpFrame d.dstMac d.srcMac d.vlan (d.srcAddr.take n) (d.dstAddr.take n) d.udpSrc d.udpDst bytes

/-- R54, R70: a port transmits output frames while it is UP, an Ethernet port and an egress port. -/
def State.portTransmits (s : State) (p : Nat) : Bool :=
  2 ≤ (s.portAt p).state && (match s.portCfg p with | some c => !c.klp && c.role = 1 | none => false)

/-- A frame is handed to the port or queue of its destination; a port that does not transmit it discards it (R70). -/
def State.handFrame (s : State) (o : FrameOwner) (d : Dest) (bytes : List Byte) : State :=
  if d.kind = 1 then
    if s.portTransmits d.port then s.setTxq d.port (s.txq d.port ++ [(o, d.frame bytes)])
    else
      let v := s.portAt d.port
      (s.setPort d.port { v with txDiscard := v.txDiscard + 1 }).frameGone o true
  else
    let k := 80 + d.queue
    s.setTxq k (s.txq k ++ [(o, { dst := 0, src := 0, etherType := 0, payload := bytes })])

/-- R215, R455: the frame at the head leaves its egress port, or is written to the next free element of its queue. -/
def evEgressFrameSent (port : Nat) (s : State) : State :=
  match s.txq port with
  | [] => s
  | (o, f) :: rest =>
    if port < 80 then
      let s1 := (s.setTxq port rest).emit (.frame port f)
      (s1.setPort port { s1.portAt port with txPackets := (s1.portAt port).txPackets + 1 }).frameGone o false
    else
      match s.push (port - 80) 4 f.payload with
      | (s1, .done lost) => (s1.setTxq port rest).frameGone o lost
      | (_, .full) => s
      | (s1, .absent) => (s1.setTxq port rest).frameGone o true

def execEgressFrameSent (port : Nat) (s : State) : Host.Outcome State Fault Refusal :=
  guarded (.egressFrameSent port) s (evEgressFrameSent port s)

end Sys2Proof.Machine
end

