-- ==== Sys2Proof/Machine/Ports.lean ====
section
/-! DEFINITION. Serial lanes and ports (R52 to R87): quads, bring-up, KLP superframes, lane shedding, sleep, eye scans;
and the multicast reports a port sends (R91). -/

namespace Sys2Proof.Machine

/-! ## Quads and ports (R52 to R56) -/

def Lane.init : Lane := {}
def State.lane (s : State) (l : Nat) : Lane := kvGet Lane.init s.port.lanes l
def State.setLane (s : State) (l : Nat) (v : Lane) : State :=
  { s with port := { s.port with lanes := kvSet Lane.init s.port.lanes l v } }

/-- R55, R56: the modes a rate admits at a width. -/
def modeAdmitted (rate width mode : Nat) : Bool :=
  match mode with
  | 0 => rate = 1 && width = 1
  | 1 | 2 => rate = 2 && width = 1
  | 3 => rate = 3 && width = 1
  | 4 => rate = 4 && width = 1
  | 5 => rate = 2 && width = 4
  | 6 => rate = 3 && width = 4
  | 7 => rate = 4 && width = 4
  | 8 | 9 => rate = 4
  | _ => false

/-- The port a lane belongs to, and its configuration. -/
def State.portOfLane (s : State) (l : Nat) : Option (Nat × PortCfg) :=
  let q := s.quad (l / 4)
  match (layoutPorts q.layout).find? (fun e => e.1 ≤ l % 4 && l % 4 < e.1 + e.2) with
  | none => none
  | some (j, _) => (s.portCfg (l / 4 * 4 + j)).map fun c => (l / 4 * 4 + j, c)

def State.portLanes (_s : State) (p : Nat) (c : PortCfg) : List Nat := (List.range c.width).map (p + ·)

/-- R69, R78: the lane is in lock in its mode, its directions awake. -/
def Lane.inLock (v : Lane) (c : PortCfg) : Bool :=
  v.signal && v.cdr && v.block && v.rxState = 0 &&
  (if c.klp then v.align else v.txState = 0 && (c.width = 1 || v.align))

/-- R52, R552: the SerDes group of a quad is powered and has its reference clock. -/
def State.serdesOn (s : State) (quad : Nat) : Bool := s.domainOn (80 + quad / 4) && !bit s.port.noRefclk (quad / 4)

/-! ## Transmit equalisation (R82, R553) -/

/-- R553: c-1 and c+1 of a preset, in hundredths, the same at every rate. -/
def presetCursors (preset : Nat) : Int × Int :=
  ([(0, 0), (0, -5), (0, -10), (0, -15), (-5, -5), (-5, -10), (-5, -15), (-10, -10), (-10, -15), (-10, -20), (-15, -10),
    (-15, -20), (0, -25), (-5, -25), (-10, -25), (-15, -25)] : List (Int × Int)).getD preset (0, 0)

/-- c-1, c0 and c+1 of a lane's transmitter, in hundredths. -/
def Lane.cursors (v : Lane) : Int × Int × Int :=
  let (pre, post) := presetCursors v.preset
  (pre, 100 - pre.natAbs - post.natAbs, post)

/-- Lane ids in lock (R63). -/
def State.goodIds (s : State) (p : Nat) (c : PortCfg) : Nat :=
  (s.portLanes p c).foldl (fun acc l =>
    let v := s.lane l
    if v.inLock c then
      (match v.laneId with
       | some i => withBit acc i true
       | none => withBit acc (l - p) true)
    else acc) 0

def State.txAwake (s : State) (p : Nat) (c : PortCfg) : Bool := (s.portLanes p c).any fun l => (s.lane l).txState = 0

/-! ## Multicast reports (R91) -/

def InPort.init : InPort := {}
def State.inPort (s : State) (p : Nat) : InPort := kvGet InPort.init s.ing.ports p
def State.setInPort (s : State) (p : Nat) (v : InPort) : State :=
  { s with ing := { s.ing with ports := kvSet InPort.init s.ing.ports p v } }

/-- The MAC address of a group. -/
def groupMac (g : List Byte) : Nat :=
  if g.length = 4 then 0x01005E000000 + fld g 1 3 % 0x800000 else 0x333300000000 + fld g 12 4

/-- A frame leaves a port of its own accord (R54). -/
def State.sendOwn (s : State) (p : Nat) (f : Frame) : State :=
  if 2 ≤ (s.portAt p).state then
    (s.setPort p { s.portAt p with txPackets := (s.portAt p).txPackets + 1 }).emit (.frame p f)
  else s

/-- One group record: the record type, and the group's sources. -/
def groupRecord (kind : Nat) (m : Membership) (sources : List (List Byte)) : List Byte :=
  beBytes 1 kind ++ [0] ++ beBytes 2 sources.length ++ m.group ++ sources.flatten

/-- An IGMPv3 or MLDv2 report of one group record, as the port sends it. -/
def State.reportFrame (s : State) (p : Nat) (m : Membership) (record : List Byte) : Frame :=
  let v := s.inPort p
  let tags := if v.vlan = 0 then [] else [v.vlan]
  if m.family = 4 then
    let h := [0x22, 0] ++ zeros 2 ++ zeros 2 ++ beBytes 2 1 ++ record
    let body := [0x22, 0] ++ beBytes 2 (checksum h) ++ h.drop 4
    -- the IP header carries the router alert option and a time to live of 1 (RFC 3376)
    let h0 : List Byte := [0x46, 0xC0] ++ beBytes 2 (24 + body.length) ++ beBytes 2 (Config.ipField 1) ++ beBytes 2 0x4000 ++
      [1, 2]
    let rest := beBytes 4 v.ipv4 ++ [224, 0, 0, 22] ++ [0x94, 4, 0, 0]
    { dst := 0x01005E000016, src := v.mac, tags := tags, etherType := 0x0800,
      payload := h0 ++ beBytes 2 (checksum (h0 ++ [0, 0] ++ rest)) ++ rest ++ body }
  else
    -- no link-local address is given to a serial port: the unspecified address is the source (RFC 3810)
    let src := zeros 16
    let dst := beBytes 8 0xFF02000000000000 ++ beBytes 8 0x16
    let msg := icmp6 src dst ([143, 0] ++ zeros 2 ++ zeros 2 ++ beBytes 2 1 ++ record)
    { dst := 0x333300000016, src := v.mac, tags := tags, etherType := 0x86DD,
      payload := beBytes 4 0x60000000 ++ beBytes 2 (8 + msg.length) ++ [0, 1] ++ src ++ dst ++
        [58, 0, 5, 2, 0, 0, 1, 0] ++ msg }

/-- The state-change record of a membership that is added or removed. -/
def changeRecord (m : Membership) (leave : Bool) : List Byte :=
  if m.sources = [] then groupRecord (if leave then 3 else 4) m []
  else groupRecord (if leave then 6 else 5) m m.sources

/-- The current-state record that answers a query. -/
def currentRecord (m : Membership) : List Byte := groupRecord (if m.sources = [] then 2 else 1) m m.sources

/-- The record that answers a query for a membership; one that names sources asks for those the port listens to (RFC 3376). -/
def answerRecord (q : McastQuery) (m : Membership) : Option (List Byte) :=
  if q.sources = [] then some (currentRecord m)
  else
    let heard := if m.sources = [] then q.sources else q.sources.filter m.sources.contains
    if heard = [] then none else some (groupRecord 1 m heard)

/-- An unsolicited report goes out, and is owed once more 1 s later. -/
def State.reportChange (s : State) (p : Nat) (m : Membership) (leave : Bool) : State :=
  match s.portCfg p with
  | none => s
  | some c =>
    if c.klp || c.role ≠ 0 || (s.portAt p).state < 2 then s
    else
      let s1 := s.sendOwn p (s.reportFrame p m (changeRecord m leave))
      let v := s1.inPort p
      s1.setInPort p { v with repeats := v.repeats ++ [⟨s.ns, m, leave⟩] }

/-- R91: 1 s after the first, each report is sent a second time. -/
def evMcastReportRepeat (port : Fin 80) (s : State) : State :=
  let p := port.val
  let v := s.inPort p
  let due := v.repeats.filter fun r => r.sentAt + 1000000000 ≤ s.ns
  let s1 := s.setInPort p { v with repeats := v.repeats.filter fun r => s.ns < r.sentAt + 1000000000 }
  due.foldl (fun u r => u.sendOwn p (u.reportFrame p r.what (changeRecord r.what r.leave))) s1

def execMcastReportRepeat (port : Fin 80) (s : State) : Host.Outcome State Fault Refusal :=
  guarded (.mcastReportRepeat port) s (evMcastReportRepeat port s)

/-- R91: the oldest unanswered query is answered, one record for each membership it asks for. -/
def evMcastQueryResponse (port : Fin 80) (s : State) : State :=
  let p := port.val
  let v := s.inPort p
  match v.queries with
  | [] => s
  | q :: rest =>
    let asked := v.groups.filter fun m => m.family = q.family && (match q.group with | none => true | some g => m.group = g)
    (asked.filterMap fun m => (answerRecord q m).map fun r => (m, r)).foldl (fun u e => u.sendOwn p (u.reportFrame p e.1 e.2))
      (s.setInPort p { v with queries := rest })

def execMcastQueryResponse (port : Fin 80) (s : State) : Host.Outcome State Fault Refusal :=
  guarded (.mcastQueryResponse port) s (evMcastQueryResponse port s)

/-! ## Port state (R68, R70 to R76, R84) -/

/-- R76, R84: the port's state changes; its moment, its counts and its producer follow. -/
def State.enterPort (s : State) (p new : Nat) : State :=
  let v := s.portAt p
  if v.state = new then s
  else
    let t := s.nowInstant
    let s1 := s.setPort p { v with state := new, changeSec := t.sec, changeNs := t.ns,
                                   downEvents := v.downEvents + b2n (new = 0) }
    if 2 ≤ v.state && new < 2 then (s1.dropTxq p).raise 174 p
    else if v.state < 2 && 2 ≤ new then
      let s2 := s1.raise 175 p
      -- every membership is reported at UP
      (s2.inPort p).groups.foldl (fun u m => u.reportChange p m false) s2
    else s1

/-- R84: DOWN or TRAINING, for a port that is not UP. -/
def State.idlePortState (s : State) (p : Nat) (c : PortCfg) : Nat :=
  if s.serdesOn (p / 4) && (s.portLanes p c).any (fun l => (s.lane l).signal && (s.lane l).cdr) then 1 else 0

/-- R68: the port can be UP as its lanes stand. -/
def State.portReady (s : State) (p : Nat) (c : PortCfg) : Bool :=
  s.serdesOn (p / 4) &&
  (if c.klp then
    (s.portLanes p c).any (fun l => (s.lane l).inLock c) && (!c.duplex || ((s.portAt p).partnerSeen && s.txAwake p c))
   else (s.portLanes p c).all fun l => (s.lane l).inLock c)

/-- R66: in automatic polarity the search for a lock begins with normal polarity. -/
def Lane.firstTry (v : Lane) : Lane := if v.rxPol = 0 then { v with rxInv := false } else v

/-- The lane keeps nothing of its lock. -/
def Lane.unlock (v : Lane) : Lane :=
  { v with signal := false, cdr := false, block := false, align := false, laneId := none }.firstTry

/-- The lane has lost its blocks or codewords, and what rests on them; in automatic polarity normal polarity is tried again. -/
def Lane.noBlock (v : Lane) (ns : Nat) : Lane :=
  { v with block := false, align := false, laneId := none, tryAt := ns }.firstTry

/-- R55: the codewords of a mode carry a code that corrects errors. -/
def PortCfg.fec (c : PortCfg) : Bool := 2 ≤ c.mode

/-- The lane receives codewords that can be corrected. -/
def State.correcting (s : State) (l : Nat) : Bool :=
  (s.lane l).block && (match s.portOfLane l with | some (_, c) => c.fec | none => false)

/-- R84, R85: in each nanosecond the receivers correct some codewords and symbols, how many is open (log entry 77). -/
def State.countCorrected (s : State) : State :=
  { s with port := { s.port with
      lanes := s.port.lanes.map fun e => (e.1, if s.correcting e.1 then
        { e.2 with correctedSymbols := e.2.correctedSymbols + Config.corrected (2 * e.1 + 1) s.ns } else e.2),
      ports := s.port.ports.map fun e =>
        let lanes := match s.portCfg e.1 with | some c => s.portLanes e.1 c | none => []
        (e.1, if lanes.any s.correcting then { e.2 with correctedCw := e.2.correctedCw + Config.corrected (2 * e.1) s.ns } else e.2) } }

/-! ## Eye scans, and what a loss of lock counts (R79, R80, R85) -/

def EyeScan.total (e : EyeScan) : Nat := e.phases * e.volts

/-- Symbol rate of a lane rate code, symbols per second (R55). -/
def symbolRate (rate : Nat) : Nat :=
  ([1, 10312500000, 25781250000, 26562500000, 53125000000] : List Nat).getD rate 1

/-- R80: points measured by now, each in 2^dwell_exp symbols. -/
def EyeScan.done (e : EyeScan) (ns : Nat) : Nat :=
  if e.running then min e.total ((ns - e.startedAt) * symbolRate e.rate / (2 ^ e.dwell * 1000000000)) else e.points.length

/-- The error counts measured so far by a scan of lane `l`: what the receiver counts is a free value until the scan is done. -/
def EyeScan.counts (e : EyeScan) (l ns : Nat) : List Nat :=
  if e.running then (List.range (e.done ns)).map fun i => Config.freeNat (l + 128 * e.startedAt) i % 2 ^ 32 else e.points

/-- R80: a scan of the lane ends early; the points measured before stay readable. -/
def State.abortScan (s : State) (l : Nat) : State :=
  { s with port := { s.port with scans := s.port.scans.map fun e =>
      if e.1 = l && e.2.running then (e.1, { e.2 with running := false, aborted := true, points := e.2.counts l s.ns }) else e } }

/-- Lane `l` leaves its lock, if it was in lock: the loss is counted, and a scan of the lane ends. -/
def State.countLoss (s : State) (l : Nat) (c : PortCfg) (before : Lane) : State :=
  if before.inLock c && !(s.lane l).inLock c then
    (s.setLane l { s.lane l with lockLosses := (s.lane l).lockLosses + 1 }).abortScan l
  else s

/-- A lane as it is after losing lock, with what that counts. -/
def State.dropLock (s : State) (l : Nat) (c : PortCfg) (after : Lane) : State := (s.setLane l after).countLoss l c (s.lane l)

/-! ## Ports as their lanes stand -/

/-- The state a port rests in is derived from its lanes. -/
def State.settlePort (s : State) (p : Nat) : State :=
  match s.portCfg p with
  | none => s.enterPort p 0
  | some c =>
    let v := s.portAt p
    if s.portReady p c then
      if 2 ≤ v.state then s.enterPort p (if v.shedMap = 0 then 2 else 3)
      else
        -- a duplex port comes up on the lanes it has; the others join as restored lanes do (R68, R74)
        let missing := if c.duplex then (2 ^ c.width - 1) ^^^ s.goodIds p c else 0
        (s.setPort p { v with shedMap := missing, pendingSheds := [] }).enterPort p (if missing = 0 then 2 else 3)
    else (s.setPort p { v with shedMap := 0, pendingSheds := [] }).enterPort p (s.idlePortState p c)

/-- R73: the port goes down and bring-up restarts on all its lanes. -/
def State.restartPort (s : State) (p : Nat) (c : PortCfg) : State :=
  let s1 := (s.portLanes p c).foldl (fun u l => u.dropLock l c (u.lane l).unlock) s
  (s1.setPort p { s1.portAt p with partnerSeen := false, pendingSheds := [], shedMap := 0 }).settlePort p

/-- R72 step 3: each pending shed whose lane the partner's tx_active excludes is agreed. -/
def State.agreeSheds (s : State) (p : Nat) : State :=
  let v := s.portAt p
  let agreed := v.pendingSheds.filter fun x => !bit v.partnerActive x.laneId
  agreed.foldl (fun u x =>
    let w := u.portAt p
    ((u.setPort p { w with shedMap := withBit w.shedMap x.laneId true, shedEvents := w.shedEvents + 1,
                           pendingSheds := w.pendingSheds.filter (· ≠ x) }).settlePort p).raise 176 p) s

/-- R74: a shed lane in lock, reported good, to which the partner deals again, is restored. -/
def State.restoreLanes (s : State) (p : Nat) : State :=
  match s.portCfg p with
  | none => s
  | some c =>
    let v := s.portAt p
    let good := s.goodIds p c
    let back := (bitsOf 8 v.shedMap).filter fun i => bit good i && bit v.rxGood i && bit v.partnerActive i
    if v.state < 2 then s
    else
      back.foldl (fun u i =>
        let w := u.portAt p
        ((u.setPort p { w with shedMap := withBit w.shedMap i false, restoreEvents := w.restoreEvents + 1 }).settlePort p).raise
          177 p) s

/-! ## Loss of lock (R69 to R73, R78) -/

/-- The consequences of a lane that has lost lock; `before` is the lane as it was. -/
def State.laneLost (s : State) (l : Nat) (before : Lane) : State :=
  match s.portOfLane l with
  | none => s
  | some (p, c) =>
    let was := before.inLock c && !(s.lane l).inLock c
    let s0 := s.countLoss l c before
    let v := s0.portAt p
    if v.state < 2 then s0.settlePort p
    else if !c.klp then
      -- the PCS of the whole port loses its alignment
      ((s0.portLanes p c).foldl (fun u k => u.dropLock k c { u.lane k with align := false }) s0).settlePort p
    else if !c.duplex then s0.settlePort p
    else if !was then s0.settlePort p
    else
      let id := before.laneId.getD (l - p)
      if s0.portReady p c && v.shed && bit v.partnerFlags 0 then
        -- a lane lost again while it was being restored is shed again (R74)
        let pend := if v.pendingSheds.any (·.laneId = id) then v.pendingSheds
                    else v.pendingSheds ++ [⟨id, false, 0⟩]
        ((s0.setPort p { v with pendingSheds := pend }).settlePort p).agreeSheds p
      else s0.restartPort p c

/-- R69: a lane loses its signal, CDR, block, AM or codeword lock, or (cause am, on Ethernet) its alignment; one Ethernet lane
that has lost its alignment is in lock no more, and looks for its blocks again. -/
def evLaneLockLoss (lane : Fin 80) (cause : LossCause) (s : State) : State :=
  let l := lane.val
  let v := s.lane l
  match s.portOfLane l with
  | none => s
  | some (_, c) =>
    match cause with
    | .signal => if v.signal then (s.setLane l v.unlock).laneLost l v else s
    | .cdr => if v.cdr then (s.setLane l { v.unlock with signal := v.signal }).laneLost l v else s
    | .block =>
      if v.block && !c.klp then (s.setLane l (v.noBlock s.ns)).laneLost l v else s
    | .am =>
      if c.klp || 1 < c.width then
        if v.align then (s.setLane l { v with align := false, laneId := none }).laneLost l v else s
      else if v.block then (s.setLane l (v.noBlock s.ns)).laneLost l v else s
    | .codeword =>
      if v.block && c.klp then (s.setLane l (v.noBlock s.ns)).laneLost l v else s

def execLaneLockLoss (lane : Fin 80) (cause : LossCause) (s : State) : Host.Outcome State Fault Refusal :=
  guarded (.laneLockLoss lane cause) s (evLaneLockLoss lane cause s)

/-- R73: the agreement has not come within agree_sf superframes after the SFM that cleared the bit. -/
def evShedAgreeTimeout (port : Fin 80) (s : State) : State :=
  let p := port.val
  match s.portCfg p with
  | none => s
  | some c =>
    let v := s.portAt p
    if v.pendingSheds.any (fun x => x.reported && v.agreeSf ≤ x.sent) then s.restartPort p c else s

def execShedAgreeTimeout (port : Fin 80) (s : State) : Host.Outcome State Fault Refusal :=
  guarded (.shedAgreeTimeout port) s (evShedAgreeTimeout port s)

/-! ## Bring-up (R66 to R68) -/

/-- A lane of a port in bring-up reaches its next step. The quad's PLL has locked by then: step 1 takes no time and no row
(DESIGN CHOICE, log entry 104). -/
def evLaneLock (lane : Fin 80) (step : LockStep) (s : State) : State :=
  let l := lane.val
  let v := s.lane l
  match s.portOfLane l with
  | none => s
  | some (p, c) =>
    if !s.serdesOn (l / 4) || v.rxState ≠ 0 then s
    else
      match step with
      | .cdr => if v.cdr then s else (s.setLane l { v with signal := true, cdr := true, tryAt := s.ns }).settlePort p
      | .block =>
        if !v.cdr || v.block then s
        else
          let flip := v.rxInv ≠ v.lastInv
          (s.setLane l { v with block := true, lastInv := v.rxInv, flips := v.flips + b2n flip }).settlePort p
      | .align id =>
        if !v.block || v.align || (c.klp && c.width ≤ id) then s
        else ((s.setLane l { v with align := true, laneId := some id }).settlePort p).restoreLanes p

def execLaneLock (lane : Fin 80) (step : LockStep) (s : State) : Host.Outcome State Fault Refusal :=
  guarded (.laneLock lane step) s (evLaneLock lane step s)

/-- R66 step 3: 2 ms of one polarity without lock; the other is tried. -/
def evPolarityTryTimeout (lane : Fin 80) (s : State) : State :=
  let l := lane.val
  let v := s.lane l
  if v.rxPol = 0 && v.cdr && !v.block && v.tryAt + 2000000 ≤ s.ns then
    s.setLane l { v with rxInv := !v.rxInv, tryAt := s.ns }
  else s

def execPolarityTryTimeout (lane : Fin 80) (s : State) : Host.Outcome State Fault Refusal :=
  guarded (.polarityTryTimeout lane) s (evPolarityTryTimeout lane s)

/-- R66: every 10 ms a lane that is not in lock repeats steps 2 to 4. -/
def evBringupRetry (lane : Fin 80) (s : State) : State :=
  let l := lane.val
  let v := s.lane l
  match s.portOfLane l with
  | none => s
  | some (p, c) =>
    if v.inLock c || s.ns < v.retryAt + 10000000 || v.rxState ≠ 0 then s
    else (s.setLane l { v.unlock with retryAt := s.ns }).settlePort p

def execBringupRetry (lane : Fin 80) (s : State) : Host.Outcome State Fault Refusal :=
  guarded (.bringupRetry lane) s (evBringupRetry lane s)

/-! ## Superframes (R60, R63 to R65, R67, R72, R74) -/

/-- R63: the device's own superframe marker, sampled now. Flags bit 0 says what the sender supports, so it is set whatever
PORT_SET_KLP shed says (DESIGN CHOICE, log entry 104). -/
def State.sfmBlock (s : State) (p : Nat) (c : PortCfg) : List Byte :=
  let v := s.portAt p
  let inverted := (s.portLanes p c).foldl (fun acc l =>
    let w := s.lane l
    if w.rxInv && w.block then (match w.laneId with | some i => withBit acc i true | none => withBit acc (l - p) true)
    else acc) 0
  [0x78, 1, 3, 0] ++ beBytes 4 v.sfCount ++ beBytes 1 v.rxGood ++ beBytes 1 v.txActive ++ beBytes 1 inverted ++ zeros 21

/-- R64: the device sends its superframe marker on every transmitting lane of a duplex port. PORT_SET_QUAD clears sf_count,
so the first marker after it carries 1 (DESIGN CHOICE, log entry 104). -/
def evSfmTransmit (port : Fin 80) (s : State) : State :=
  let p := port.val
  match s.portCfg p with
  | none => s
  | some c =>
    let v := s.portAt p
    if !c.duplex || !s.serdesOn (p / 4) || !s.txAwake p c || (v.sfAt ≠ 0 && s.ns < v.sfAt + 1048576) then s
    else
      let good := s.goodIds p c
      let active := (s.portLanes p c).foldl (fun acc l =>
        if (s.lane l).txState = 0 && bit v.partnerGood (l - p) then withBit acc (l - p) true else acc) 0
      let klp := v.nextKlp.getD (v.shed, v.agreeSf)
      let s1 := s.setPort p { v with
        rxGood := good, txActive := active, sfAt := s.ns, sfCount := (v.sfCount + 1) % 2 ^ 32,
        shed := klp.1, agreeSf := klp.2, nextKlp := none,
        -- a lane that has relocked before a marker could clear its bit is not shed
        pendingSheds := v.pendingSheds.filterMap fun x =>
          if x.reported then some { x with sent := x.sent + 1 }
          else if bit good x.laneId then none else some { x with reported := true } }
      let block := s1.sfmBlock p c
      (((s1.portLanes p c).foldl (fun u l => if (u.lane l).txState = 0 then u.emit (.superframe l (l - p) c.width block) else u) s1).agreeSheds
        p).restoreLanes p

def execSfmTransmit (port : Fin 80) (s : State) : Host.Outcome State Fault Refusal :=
  guarded (.sfmTransmit port) s (evSfmTransmit port s)

/-- R67: a lane in automatic transmit polarity inverts after two consecutive reports. -/
def State.followInversion (s : State) (p : Nat) (c : PortCfg) (map : Nat) : State :=
  (s.portLanes p c).foldl (fun u l =>
    let v := u.lane l
    if v.txPol ≠ 0 then u
    else if bit map (l - p) then
      u.setLane l { v with invSeen := v.invSeen + 1, txInv := if v.invSeen + 1 = 2 then !v.txInv else v.txInv }
    else u.setLane l { v with invSeen := 0 }) s

/-- R64: a superframe marker arrives on a lane in lock; each is sent on every lane, and counts once. -/
def evSfmReceive (lane : Fin 80) (block : List Byte) (s : State) : State :=
  match s.portOfLane lane.val with
  | none => s
  | some (p, c) =>
    let v := s.portAt p
    let sf := fld block 4 4
    if !c.klp || !(s.lane lane.val).inLock c || fld block 0 1 ≠ 0x78 || fld block 1 1 ≠ 1 then s
    else
      let s1 := s.setPort p { v with partnerSeen := true, partnerFlags := fld block 2 1, partnerGood := fld block 8 1,
                                     partnerActive := fld block 9 1, partnerSf := some sf }
      let s2 := if v.partnerSf = some sf || !c.duplex then s1 else s1.followInversion p c (fld block 10 1)
      ((s2.settlePort p).agreeSheds p).restoreLanes p

def execSfmReceive (lane : Fin 80) (block : List Byte) (s : State) : Host.Outcome State Fault Refusal :=
  guarded (.sfmReceive lane block) s (evSfmReceive lane block s)

/-- R63: an uncorrectable codeword, and the packets that had a block in it. -/
def evUncorrectableCodeword (lane : Fin 80) (packets : Nat) (s : State) : State :=
  match s.portOfLane lane.val with
  | none => s
  | some (p, _) =>
    let v := s.portAt p
    if !(s.lane lane.val).block then s
    else s.setPort p { v with uncorrectableCw := v.uncorrectableCw + 1, rxDiscard := v.rxDiscard + packets }

def execUncorrectableCodeword (lane : Fin 80) (packets : Nat) (s : State) : Host.Outcome State Fault Refusal :=
  guarded (.uncorrectableCodeword lane packets) s (evUncorrectableCodeword lane packets s)

/-! ## Commands -/

/-- The first port entry that breaks R55 or R56, as its parameter offset. -/
def badPortEntry (rate role : Nat) (p : List Byte) : List (Nat × Nat) → Option Nat
  | [] => none
  | (j, w) :: t =>
    let mode := fld p (4 + 2 * j) 1
    let pr := if role = 2 then fld p (5 + 2 * j) 1 else role
    if !modeAdmitted rate w mode then some (4 + 2 * j)
    else if 1 < pr then some (5 + 2 * j)
    else if (mode = 8 || mode = 9) && pr ≠ 0 then some (4 + 2 * j)
    else badPortEntry rate role p t

/-- R81: the lanes of a quad start bring-up afresh. A lane that was in lock counts no loss of lock by the command: the manual
does not say (DESIGN CHOICE, log entry 104). -/
def State.restartQuad (s : State) (q : Nat) : State :=
  (List.range 4).foldl (fun u j =>
    let l := 4 * q + j
    let v := u.lane l
    (u.setLane l { v.unlock with rxInv := v.rxPol = 2, txInv := v.txPol = 2, invSeen := 0, tryAt := u.ns,
                                 retryAt := u.ns }).abortScan l) s

def doPortSetQuad (c : Cmd) (s : State) : Res :=
  let p := c.params
  let q := fld p 0 1
  let rate := fld p 1 1
  let role := fld p 2 1
  let layout := fld p 3 1
  match firstBad [(q ≤ 19, 0), (rate ≤ 4, 1), (role ≤ 2, 2), (layout ≤ 3, 3)] with
  | some off => .bad off s
  | none =>
    match (if rate = 0 then none else badPortEntry rate role p (layoutPorts layout)) with
    | some off => .bad off s
    | none =>
      let quad : Quad := { rate, role, layout, modes := (List.range 4).map fun j => fld p (4 + 2 * j) 1,
                           roles := (List.range 4).map fun j => fld p (5 + 2 * j) 1 }
      -- every port of the quad goes down, then the new configuration stands
      let s1 := (List.range 4).foldl (fun u j => u.enterPort (4 * q + j) 0) s
      let s2 := (s1.restartQuad q)
      let s3 : State := { s2 with port := { s2.port with quads := kvSet Quad.init s2.port.quads q quad } }
      .ok ((List.range 4).foldl (fun u j =>
        u.setPort (4 * q + j) { u.portAt (4 * q + j) with
          shedMap := 0, pendingSheds := [], partnerSeen := false, partnerFlags := 0, partnerGood := 0, partnerActive := 0,
          partnerSf := none, rxGood := 0, txActive := 0, sfCount := 0, sfAt := 0 }) s3)

def specPortSetQuad : OpSpec := { row := rowPortSetQuad, body := doPortSetQuad, records := ownRecord 0x0401 }
def execPortSetQuad (c : Cmd) (s : State) : Host.Outcome State Fault Refusal := s.submit specPortSetQuad c

def doPortSetLane (c : Cmd) (s : State) : Res :=
  let p := c.params
  let l := fld p 0 1
  let rxPol := fld p 1 1
  let txPol := fld p 2 1
  let duplex := match s.portOfLane l with | some (_, k) => k.duplex | none => false
  match firstBad [(l ≤ 79, 0), (rxPol ≤ 2, 1), (txPol ≤ 2 && (txPol ≠ 0 || duplex), 2), (fld p 3 1 ≤ 15, 3),
      (fld p 4 1 ≤ 2, 4), (fld p 5 1 ≤ 2, 5)] with
  | some off => .bad off s
  | none =>
    let v := s.lane l
    let w : Lane := { v with rxPol := rxPol, txPol := txPol, preset := fld p 3 1, txState := fld p 4 1, rxState := fld p 5 1 }
    let relock := v.rxPol ≠ rxPol || v.txPol ≠ txPol || v.preset ≠ fld p 3 1
    let slept := (v.rxState = 0 && w.rxState ≠ 0) || (v.txState = 0 && w.txState ≠ 0)
    let rxGone := relock || w.rxState ≠ 0
    let w1 : Lane := if rxGone then { w.unlock with rxInv := decide (rxPol = 2) } else w
    let w2 : Lane := if v.txPol = txPol then w1 else { w1 with txInv := decide (txPol = 2), invSeen := 0 }
    let s1 := s.setLane l { w2 with tryAt := s.ns, retryAt := s.ns }
    if relock || slept then
      let s2 := (s1.laneLost l v).abortScan l
      .ok (match s2.portOfLane l with
        | some (q, k) => if k.duplex && !s2.txAwake q k then s2.settlePort q else s2
        | none => s2)
    else
      .ok (match s1.portOfLane l with
        | some (q, _) => s1.settlePort q
        | none => s1)

def specPortSetLane : OpSpec := { row := rowPortSetLane, body := doPortSetLane, records := ownRecord 0x0402 }
def execPortSetLane (c : Cmd) (s : State) : Host.Outcome State Fault Refusal := s.submit specPortSetLane c

def doPortSetKlp (c : Cmd) (s : State) : Res :=
  let p := c.params
  let port := fld p 0 1
  let klp := match s.portCfg port with | some k => k.klp | none => false
  match firstBad [(port ≤ 79 && klp, 0), (fld p 1 1 ≤ 1, 1), (1 ≤ fld p 2 1 && fld p 2 1 ≤ 8, 2)] with
  | some off => .bad off s
  | none =>
    let v := s.portAt port
    let new := (fld p 1 1 = 1, fld p 2 1)
    -- a port that sends no superframes has none to wait for (DESIGN CHOICE, log entry 104)
    if (match s.portCfg port with | some k => k.duplex | none => false) then
      .ok (s.setPort port { v with nextKlp := some (decide new.1, new.2) })
    else .ok (s.setPort port { v with shed := new.1, agreeSf := new.2, nextKlp := none })

def specPortSetKlp : OpSpec := { row := rowPortSetKlp, body := doPortSetKlp, records := ownRecord 0x0403 }
def execPortSetKlp (c : Cmd) (s : State) : Host.Outcome State Fault Refusal := s.submit specPortSetKlp c

def doPortGetStatus (c : Cmd) (s : State) : Res :=
  let p := fld c.params 0 1
  if 79 < p then .bad 0 s
  else
    let v := s.portAt p
    let head : List Byte := match s.portCfg p with
      | none => [0, 0, 0xFF, 0, 0, 0]
      | some k => beBytes 1 v.state ++ beBytes 1 k.width ++ beBytes 1 k.mode ++ beBytes 1 (s.goodIds p k) ++
          beBytes 1 (if k.klp then v.partnerGood else 0) ++ beBytes 1 (if k.klp then v.partnerActive else 0)
    .okWith (head ++ zeros 2 ++ beCount 8 v.correctedCw ++ beCount 8 v.uncorrectableCw ++ beCount 8 v.rxPackets ++
      beCount 8 v.rxDiscard ++ beCount 8 v.txPackets ++ beCount 8 v.txDiscard ++ beCount 4 v.downEvents ++
      beCount 4 v.shedEvents ++ beCount 4 v.restoreEvents ++ zeros 4 ++ beBytes 8 v.changeSec ++ beBytes 4 v.changeNs ++
      zeros 4) s

def specPortGetStatus : OpSpec := { row := rowPortGetStatus, body := doPortGetStatus }
def execPortGetStatus (c : Cmd) (s : State) : Host.Outcome State Fault Refusal := s.submit specPortGetStatus c

def doPortGetLane (c : Cmd) (s : State) : Res :=
  let l := fld c.params 0 1
  if 79 < l then .bad 0 s
  else
    let v := s.lane l
    -- R77: a quad whose rate is OFF holds all its lanes OFF
    let off := (s.quad (l / 4)).rate = 0
    .okWith (beBytes 1 (if off then 2 else v.txState) ++ beBytes 1 (if off then 2 else v.rxState) ++
      beBytes 1 (b2n v.signal + 2 * b2n v.cdr + 4 * b2n v.block + 8 * b2n v.align) ++
      beBytes 1 (b2n v.rxInv + 2 * b2n v.txInv) ++ beBytes 1 (v.laneId.getD 0xFF) ++ zeros 3 ++
      beCount 4 v.lockLosses ++ beCount 4 v.flips ++ beCount 8 v.correctedSymbols) s

def specPortGetLane : OpSpec := { row := rowPortGetLane, body := doPortGetLane }
def execPortGetLane (c : Cmd) (s : State) : Host.Outcome State Fault Refusal := s.submit specPortGetLane c

def doPortEyeScan (c : Cmd) (s : State) : Res :=
  let p := c.params
  let l := fld p 0 1
  let eye := fld p 1 1
  let rate := (s.quad (l / 4)).rate
  let pmin := sfld p 2 1
  let pmax := sfld p 3 1
  let pstep := fld p 4 1
  let vmin := sfld p 5 1
  let vmax := sfld p 6 1
  let vstep := fld p 7 1
  let dwell := fld p 8 1
  -- NRZ has eye 0 only, PAM4 eyes 1 to 3; a lane that runs at no rate has none
  let eyeOk := if rate = 1 || rate = 2 then eye = 0 else (rate = 3 || rate = 4) && 1 ≤ eye && eye ≤ 3
  match firstBad [(l ≤ 79, 0), (eyeOk, 1), (-32 ≤ pmin && pmin ≤ 31, 2), (pmin ≤ pmax && pmax ≤ 31, 3),
      (1 ≤ pstep && pstep ≤ 16, 4), (-63 ≤ vmin && vmin ≤ 63, 5), (vmin ≤ vmax && vmax ≤ 63, 6),
      (1 ≤ vstep && vstep ≤ 16, 7), (20 ≤ dwell && dwell ≤ 36, 8)] with
  | some off => .bad off s
  | none =>
    if s.port.scans.any (fun e => e.1 / 4 = l / 4 && e.2.running) then .fail stBusy s
    else
      let scan : EyeScan :=
        { running := true, aborted := false, eye := eye, phases := ((pmax - pmin) / pstep).toNat + 1,
          volts := ((vmax - vmin) / vstep).toNat + 1, dwell := dwell, rate := rate, startedAt := s.ns, points := [] }
      .accepted { s with port := { s.port with scans := (s.port.scans.filter (·.1 ≠ l)) ++ [(l, scan)] } }

def specPortEyeScan : OpSpec := { row := rowPortEyeScan, body := doPortEyeScan }
def execPortEyeScan (c : Cmd) (s : State) : Host.Outcome State Fault Refusal := s.submit specPortEyeScan c

/-- R80: the scan of a lane has lasted its time, and completes with its error counts in point order. -/
def evEyeScanDone (lane : Fin 80) (errors : List Nat) (s : State) : State :=
  match s.port.scans.find? (·.1 = lane.val) with
  | none => s
  | some (_, e) =>
    if !e.running || e.done s.ns ≠ e.total then s
    else
      let done : EyeScan := { e with running := false, points := padTo 0 e.total (errors.map (min · 0xFFFFFFFF)) }
      State.raise { s with port := { s.port with
        scans := s.port.scans.map fun x => if x.1 = lane.val then (x.1, done) else x } } 178 lane.val

def execEyeScanDone (lane : Fin 80) (errors : List Nat) (s : State) : Host.Outcome State Fault Refusal :=
  guarded (.eyeScanDone lane errors) s (evEyeScanDone lane errors s)

def doPortEyeRead (c : Cmd) (s : State) : Res :=
  let l := fld c.params 0 1
  let first := fld c.params 2 2
  if 79 < l then .bad 0 s
  else
    match s.port.scans.find? (·.1 = l) with
    | none => .okWith ([3] ++ zeros 9 ++ beBytes 2 first) s
    | some (_, e) =>
      let pts := e.counts l s.ns
      let done := pts.length
      let out := slice pts first 64
      .okWith (beBytes 1 (if e.running then 0 else if e.aborted then 2 else 1) ++ beBytes 1 e.eye ++ beBytes 1 e.phases ++
        beBytes 1 e.volts ++ beBytes 2 (Config.eyeStepUv e.rate) ++ beBytes 1 e.dwell ++ beBytes 1 out.length ++
        beBytes 2 done ++ beBytes 2 first ++ (out.map (beBytes 4)).flatten) s

def specPortEyeRead : OpSpec := { row := rowPortEyeRead, body := doPortEyeRead }
def execPortEyeRead (c : Cmd) (s : State) : Host.Outcome State Fault Refusal := s.submit specPortEyeRead c

end Sys2Proof.Machine
end

