-- ==== Sys2Proof/Machine/Ownership.lean ====
section
/-! DEFINITION. The ownership commands (R402 to R408), the lease (R395) and the lapse of a challenge (R407). -/

namespace Sys2Proof.Machine

/-! ## OWN_CLAIM -/

/-- The claimant becomes owner; its consumed challenge stays its own (R393, R395). -/
def OwnState.take (o : OwnState) (c : Client) (ms stamp : Nat) (ch : Option (List Byte)) : OwnState :=
  let n := ({ (o.setOwner (some c)) with leaseMs := ms }).restart stamp
  { n with ownerChallenge := ch, leaseBefore := n.leaseLeft, restartBefore := stamp }

def doOwnClaim (c : Cmd) (s : State) : Res :=
  let ch := s.own.challengeOf c.client 0x0201 s.own.stamp
  let s1 := s.consumeChallenge c.client
  let ms0 := fld c.params 0 4
  let preempt := bit (fld c.params 4 1) 0
  let nonce := fld c.params 8 8
  let o := s1.own
  if ms0 ≠ 0 && (ms0 < 100 || 60000 < ms0) then .bad 0 s1
  else
    let ms := if ms0 = 0 then o.policy.defaultMs else ms0
    if !bit o.policy.epMask c.client.ep.val then .fail stNotOwner s1
    else if o.mode = .unowned then .ok { s1 with own := o.take c.client ms s.own.stamp ch }
    else if o.owner = some c.client then
      .ok { s1 with own := { ({ o with leaseMs := ms }).restart s.own.stamp with ownerChallenge := ch } }
    else if preempt && o.policy.preempt && c.sig.isSome then .ok { s1 with own := o.take c.client ms s.own.stamp ch }
    else
      match o.successor with
      | some (who, n) =>
        if who = c.client then
          (if nonce = n then .ok { s1 with own := o.take c.client ms s.own.stamp ch } else .fail stNotAuth s1)
        else .fail stNotOwner s1
      | none => .fail stNotOwner s1

def specOwnClaim : OpSpec := { row := rowOwnClaim, body := doOwnClaim }
def execOwnClaim (c : Cmd) (s : State) : Host.Outcome State Fault Refusal := s.submit specOwnClaim c

/-! ## OWN_RELEASE, OWN_KEEPALIVE -/

def doOwnRelease (_c : Cmd) (s : State) : Res := .ok (s.mapOwn (·.setOwner none))
def specOwnRelease : OpSpec := { row := rowOwnRelease, body := doOwnRelease }
def execOwnRelease (c : Cmd) (s : State) : Host.Outcome State Fault Refusal := s.submit specOwnRelease c

/-- R403: no effect beyond the renewal that check 3 of R390 has already made. -/
def doOwnKeepalive (_c : Cmd) (s : State) : Res := .ok s
def specOwnKeepalive : OpSpec := { row := rowOwnKeepalive, body := doOwnKeepalive }
def execOwnKeepalive (c : Cmd) (s : State) : Host.Outcome State Fault Refusal := s.submit specOwnKeepalive c

/-! ## OWN_HANDOVER -/

/-- R404: the successor that the parameters name. -/
def successorOf (p : List Byte) : Client :=
  let ep := fld p 0 1
  { ep := if ep = 0 then 0 else if ep = 1 then 1 else 2, family := if ep = 0 then 0 else fld p 1 1, port := fld p 2 2,
    addr := if ep = 0 then zeros 16 else if fld p 1 1 = 4 then slice p 4 4 ++ zeros 12 else slice p 4 16 }

def doOwnHandover (c : Cmd) (s : State) : Res :=
  let p := c.params
  let ep := fld p 0 1
  let fam := fld p 1 1
  let nonce := fld p 24 8
  match firstBad [(ep ≤ 2, 0), (if ep = 0 then fam = 0 else fam = 4 || fam = 6, 1), (ep ≠ 0 || fld p 2 2 < 4096, 2)] with
  | some off => .bad off s
  | none =>
    if nonce = 0 then .ok (s.mapOwn fun o => { o with successor := none, mode := .owned })
    else if s.own.owner = some (successorOf p) then .bad 0 s
    else .ok (s.mapOwn fun o => { o with successor := some (successorOf p, nonce), mode := .handover })

def specOwnHandover : OpSpec := { row := rowOwnHandover, body := doOwnHandover }
def execOwnHandover (c : Cmd) (s : State) : Host.Outcome State Fault Refusal := s.submit specOwnHandover c

/-! ## OWN_SET_LEASE -/

def doOwnSetLease (c : Cmd) (s : State) : Res :=
  let ms := fld c.params 0 4
  if ms < 100 || 60000 < ms then .bad 0 s
  else .ok (s.mapOwn fun o => ({ o with leaseMs := ms }).restart s.own.stamp)

def specOwnSetLease : OpSpec := { row := rowOwnSetLease, body := doOwnSetLease }
def execOwnSetLease (c : Cmd) (s : State) : Host.Outcome State Fault Refusal := s.submit specOwnSetLease c

/-! ## OWN_SET_POLICY -/

def doOwnSetPolicy (c : Cmd) (s : State) : Res :=
  let p := c.params
  match firstBad [(fld p 1 1 ≤ 1, 1), (fld p 2 1 ≤ 1, 2), (100 ≤ fld p 4 4 && fld p 4 4 ≤ 60000, 4)] with
  | some off => .bad off s
  | none => .ok (s.mapOwn fun o => { o with policy :=
      { epMask := fld p 0 1 % 8, claimAuth := fld p 1 1 = 1, preempt := fld p 2 1 = 1, defaultMs := fld p 4 4 } })

def specOwnSetPolicy : OpSpec := { row := rowOwnSetPolicy, body := doOwnSetPolicy, records := ownRecord 0x0206 }
def execOwnSetPolicy (c : Cmd) (s : State) : Host.Outcome State Fault Refusal := s.submit specOwnSetPolicy c

/-! ## OWN_GET_CHALLENGE -/

/-- R407: 32 random bytes, of the draw numbered `n`. -/
def challengeBytes (n : Nat) : List Byte := (List.range 32).map (Config.freeByte n)

def doOwnGetChallenge (c : Cmd) (s : State) : Res :=
  let ch := challengeBytes s.draws
  .okWith (ch ++ beBytes 4 30000)
    (s.draw.mapOwn fun o => o.mapClient c.client fun e => { e with challenge := some (ch, s.ns) })

def specOwnGetChallenge : OpSpec := { row := rowOwnGetChallenge, body := doOwnGetChallenge }
def execOwnGetChallenge (c : Cmd) (s : State) : Host.Outcome State Fault Refusal := s.submit specOwnGetChallenge c

/-! ## OWN_GET_STATUS -/

def doOwnGetStatus (c : Cmd) (s : State) : Res :=
  let e := fld c.params 0 1
  if h : e < 4 then
    let o := s.own
    let k := o.ep ⟨e, h⟩
    let own := o.owner.getD ⟨0, 0, 0, zeros 16⟩
    .okWith (beBytes 1 o.mode.code ++ beBytes 1 (if o.owner.isSome then own.ep.val else 0xFF) ++ beBytes 1 own.family ++
      beBytes 1 (b2n (o.isOwner c.client)) ++ beBytes 2 own.port ++ zeros 2 ++ padTo 0 16 own.addr ++
      beBytes 4 o.leaseMs ++ beBytes 4 o.leaseLeftMs ++ beBytes 4 o.gen ++ beCount 4 o.expiries ++
      beCount 8 k.commands ++ beCount 8 k.malformed ++ beCount 8 k.duplicates ++ beCount 8 k.stale ++
      beCount 8 k.notOwner ++ beCount 8 k.notAuth) s
  else .bad 0 s

def specOwnGetStatus : OpSpec := { row := rowOwnGetStatus, body := doOwnGetStatus }
def execOwnGetStatus (c : Cmd) (s : State) : Host.Outcome State Fault Refusal := s.submit specOwnGetStatus c

/-! ## The lease (R395) and challenges -/

/-- The device becomes UNOWNED, and "lease expiry" is raised with the owner's endpoint. -/
def State.loseOwner (s : State) : State :=
  match s.own.owner with
  | none => s
  | some c => (s.mapOwn fun o => { o.setOwner none with expiries := o.expiries + 1 }).raise 193 c.ep.val

/-- R395, R398: a renewal of the token charges the lease with the time since the later of the previous renewal and the
last restart, and judges expiry, before any command stamped in this cycle: a restart in it comes too late. In a switchover gap
nothing is charged. -/
def State.chargeLease (s : State) (prevRenewal : Nat) : State :=
  if s.mc.inGap then s
  else if s.own.mode = .unowned then s.mapOwn fun o => { o with chargedTo := s.ns }
  else
    let o := s.own
    let left (lease restart : Nat) : Nat := lease - (s.ns - max prevRenewal restart)
    let now := left o.leaseLeft o.restartAt
    let judged := if stampCycle o.restartAt = stampCycle s.ns then left o.leaseBefore o.restartBefore else now
    let s1 := s.mapOwn fun o => { o with leaseLeft := now, chargedTo := s.ns }
    if judged = 0 then s1.loseOwner else s1

/-- R407: 30 s after it was given, a challenge lapses. -/
def evChallengeExpiry (client : Client) (s : State) : State :=
  s.mapOwn fun o => o.mapClient client fun e =>
    match e.challenge with
    | some (_, at_) => if at_ + 30000000000 ≤ s.ns then { e with challenge := none } else e
    | none => e

def execChallengeExpiry (client : Client) (s : State) : Host.Outcome State Fault Refusal :=
  guarded (.challengeExpiry client) s (evChallengeExpiry client s)

end Sys2Proof.Machine
end

