-- ==== Sys2Proof/Machine/Time.lean ====
section
/-! DEFINITION. Quartz: the tick, steps, discipline, snapshots, pulses, replicas, the mapping and the delay models
(R279 to R321); the PTP protocol, EVT edges and epochs stand in files of their own. -/

namespace Sys2Proof.Machine

def State.mapQz (s : State) (f : QuartzState → QuartzState) : State := { s with qz := f s.qz }

/-- R284: a cause is set; its sticky copy too. -/
def State.setCause (s : State) (n : Nat) : State :=
  s.mapQz fun q => { q with causes := withBit q.causes n true, sticky := withBit q.sticky n true }

def State.clearCause (s : State) (n : Nat) : State :=
  s.mapQz fun q => { q with causes := withBit q.causes n false,
                            suspectEnd := if q.causes ≠ 0 && withBit q.causes n false = 0 then some s.ns else q.suspectEnd }

def State.causeIf (s : State) (n : Nat) (v : Bool) : State := if v then s.setCause n else s.clearCause n

/-- Time units of one second. -/
abbrev secUnits : Nat := 1000000000 * 65536

/-- The seconds field wraps within 2^48 s (R279). -/
abbrev timeModulus : Nat := 2 ^ 48 * 1000000000 * 2 ^ 48

/-! ## The tick (R279, R284) -/

/-- R279: each tick adds 1 ns + a x 2^-48 ns. -/
def Replica.tick (r : Replica) : Replica :=
  { r with time := ((r.time : Int) + 2 ^ 48 + r.adj).toNat % timeModulus }

/-! ## Pulse generators (R290 to R292) -/

def PulseGen.init : PulseGen := {}
def State.pulse (s : State) (g : Nat) : PulseGen := kvGet PulseGen.init s.qz.pulses g
def State.setPulse (s : State) (g : Nat) (v : PulseGen) : State :=
  s.mapQz fun q => { q with pulses := kvSet PulseGen.init q.pulses g v }

/-- The exact instant of pulse `n`. -/
def PulseGen.edge (p : PulseGen) (n : Nat) : Option Nat := p.start.map (· + n * p.period)

/-- All pulses have been emitted or skipped. -/
def PulseGen.spent (p : PulseGen) : Bool :=
  if p.period = 0 then 1 ≤ p.next else p.count ≠ 0 && p.count ≤ p.next

/-- Running up to the trailing edge of its last pulse (R372). -/
def PulseGen.busy (p : PulseGen) : Bool := p.start.isSome && (!p.spent || p.high.isSome)

/-- Skip the pulses before instant `t` (all of them at or after stay). -/
def PulseGen.skipTo (p : PulseGen) (t : Nat) : PulseGen × Nat :=
  match p.start with
  | none => (p, 0)
  | some st =>
    if p.spent then (p, 0)
    else
      let first := if t ≤ st then 0 else if p.period = 0 then 1 else ceilDiv (t - st) p.period
      let stop := if p.period = 0 then 1 else if p.count = 0 then first else p.count
      let n := max p.next (min first stop)
      ({ p with next := n }, n - p.next)

/-- R292, R309: every generator skips the pulses before an instant, and counts them. -/
def State.skipPulses (s : State) (t : Nat) : State :=
  (List.range 8).foldl (fun u g =>
    let (p, n) := (u.pulse g).skipTo t
    (u.setPulse g p).mapQz fun q => { q with skippedPulses := q.skippedPulses + n }) s

/-- R290: an instant as an edge on the pins shows it: to the nearest 2^-4 ns, ties to even. -/
def pinInstant (t : Nat) : Nat := (roundHalfEven t 4096).toNat * 4096

/-- Output `k` of TIME_SET_PULSE, 0, 1 the PPS outputs, 2 to 17 the EVT pins, changes at an instant. -/
def pinOutput (k : Nat) (high : Bool) (t : Nat) : Output :=
  if k < 2 then .pin "PPS_OUT" k high (pinInstant t) else .pin "EVT" (k - 2) high (pinInstant t)

def EvtPin.init : EvtPin := {}
def State.evtPin (s : State) (n : Nat) : EvtPin := kvGet EvtPin.init s.qz.evt n
def State.setEvtPin (s : State) (n : Nat) (v : EvtPin) : State :=
  s.mapQz fun q => { q with evt := kvSet EvtPin.init q.evt n v }

/-- Is output `k` driven high by some generator? Generators sharing a pin are ORed. -/
def State.pinHigh (s : State) (k : Nat) : Bool :=
  (List.range 8).any fun g => let p := s.pulse g; p.high.isSome && bit p.outputs k

/-- Pins whose level a change from `before` has moved are driven at instant `t`. -/
def State.drivePins (s before : State) (t : Nat) : State :=
  (List.range 18).foldl (fun u k => if before.pinHigh k = s.pinHigh k then u else u.emit (pinOutput k (s.pinHigh k) t)) s

/-- R291: arm 3, on the consumer "pulse start": the first edge falls offset_ns after the event's arrival. -/
def State.startPulse (s : State) (g : Nat) : State :=
  let p := s.pulse g
  if p.arm = 3 && !p.busy then s.setPulse g { p with start := some (s.now + p.offsetNs * 65536), next := 0, high := none }
  else s

/-- R290: the next pulse of a generator has fallen due. A majority drives it, once it has returned (R308, R309). -/
def evPulseEdge (gen : Fin 8) (s : State) : State :=
  let p := s.pulse gen.val
  match p.edge p.next with
  | none => s
  | some t =>
    if p.spent || s.now < t then s
    else if !s.majority || s.qz.held then
      (s.setPulse gen.val { p with next := p.next + 1 }).mapQz fun q => { q with skippedPulses := q.skippedPulses + 1 }
    else
      let s1 := s.setPulse gen.val { p with next := p.next + 1, high := some t }
      (s1.drivePins s t).raiseEvent (33 + gen.val) (s.indexOfInstant t) p.next (some (instantOf t))

def execPulseEdge (gen : Fin 8) (s : State) : Host.Outcome State Fault Refusal :=
  guarded (.pulseEdge gen) s (evPulseEdge gen s)

/-- R290: the pulse ends width ns after its leading edge. -/
def evPulseTrailingEdge (gen : Fin 8) (s : State) : State :=
  let p := s.pulse gen.val
  match p.high with
  | none => s
  | some t =>
    if s.now < t + p.width * 65536 then s
    else (s.setPulse gen.val { p with high := none }).drivePins s (t + p.width * 65536)

def execPulseTrailingEdge (gen : Fin 8) (s : State) : Host.Outcome State Fault Refusal :=
  guarded (.pulseTrailingEdge gen) s (evPulseTrailingEdge gen s)

/-! ## Steps (R280) -/

def Replica.shift (r : Replica) (units : Int) : Replica :=
  { r with time := ((r.time : Int) + units * 2 ^ 32).toNat % timeModulus }

/-- Local time is stepped by a signed number of time units; pulses stepped over are not emitted. -/
def State.stepTime (s : State) (units : Int) : State :=
  let s1 := s.mapQz fun q => { q with r0 := q.r0.shift units, r1 := q.r1.shift units, r2 := q.r2.shift units,
                                      steps := q.steps + 1 }
  let s2 := s1.skipPulses s1.now
  s2.raise 170 (ofSigned 32 (satInt 32 (units / 65536)))

def State.setAdj (s : State) (a : Int) : State :=
  s.mapQz fun q => { q with r0 := { q.r0 with adj := a }, r1 := { q.r1 with adj := a }, r2 := { q.r2 with adj := a } }

/-- R320: TIME_RESYNC takes effect: every replica is unfenced and holds the source's state, or, with source 3, zero time
under the adjustment in use, NOT_SET set. -/
def State.resyncTick (s : State) (src : Nat) : State :=
  let before := s.now
  let from_ : Replica := if src = 0 then s.qz.r0 else if src = 1 then s.qz.r1 else if src = 2 then s.qz.r2
    else { s.qz.r0 with time := 0 }
  let r : Replica := { time := from_.time, adj := from_.adj }
  let s1 := s.mapQz fun q => { q with r0 := r, r1 := r, r2 := r, resync := none, steps := q.steps + 1,
                                      agreedAt := if q.held then some s.ns else q.agreedAt, heldSec := none }
  let s2 := if src = 3 then s1.setCause 0 else s1
  (s2.skipPulses s2.now).raise 170 (ofSigned 32 (satInt 32 (((s2.now : Int) - before) / 65536)))

/-- One tick of the island. NO_MAJORITY clears once two replicas have agreed for one whole second. -/
def State.tick (s : State) : State :=
  let s0 : State := { s with ns := s.ns + 1,
                             qz := { s.qz with r0 := s.qz.r0.tick, r1 := s.qz.r1.tick, r2 := s.qz.r2.tick } }
  let s1 := match s0.qz.resync with | some src => s0.resyncTick src | none => s0
  match s1.qz.agreedAt with
  | some t => if s1.majority && t + 1000000000 ≤ s1.ns then (s1.clearCause 1).mapQz fun q => { q with agreedAt := none } else s1
  | none => s1

/-- A is held within +-2^38 (R279). -/
def clampAdj (a : Int) : Int := max (-(2 ^ 38)) (min (2 ^ 38) a)

/-! ## Reference and discipline (R282 to R284) -/

/-- R282: the PLL locks, or relocks. -/
def evRefInLock (s : State) : State :=
   ((s.clearCause 2).mapQz fun q => { q with pllLock := true, refLostAt := none })

def execRefInLock (s : State) : Host.Outcome State Fault Refusal :=
  guarded (.refInLock) s (evRefInLock s)

/-- R282: no edge of REF_IN for 1 us; the PLL holds its last control value and ticks go on. -/
def evRefInLoss (s : State) : State :=
   (s.mapQz fun q => { q with pllLock := false, refLostAt := if q.refLostAt.isSome then q.refLostAt else some s.ns })

def execRefInLoss (s : State) : Host.Outcome State Fault Refusal :=
  guarded (.refInLoss) s (evRefInLoss s)

def State.setDisc (s : State) (d : Nat) : State :=
  let s1 := s.mapQz fun q => { q with disc := d, discLostAt := if d ≠ 3 then none else if q.disc = 3 then q.discLostAt else some s.ns }
  if d = 2 then s1.clearCause 3 else s1

/-- R283: one measured offset of PPS or PTP steps or steers the time, and moves the discipline state. -/
def State.discipline (s : State) (offset : Int) (phaseOnly : Bool) : State :=
  let q := s.qz
  let stepU : Int := q.source.stepNs * 65536
  let s1 := (s.causeIf 4 (decide ((q.source.suspectNs * 65536 : Int) < offset.natAbs))).mapQz fun q => { q with lastOffset := offset }
  if q.disc = 2 && 100000 * 65536 ≤ offset.natAbs then
    let n := q.rejected + 1
    let s2 := s1.mapQz fun q => { q with ppsRejected := q.ppsRejected + 1, rejected := n }
    if 3 ≤ n then (s2.setDisc 1).mapQz fun q => { q with good := 0 } else s2
  else
    -- after three rejections the next edge steps the time whatever its offset
    let forced := 3 ≤ q.rejected
    let s2 := if q.disc = 3 then (s1.setDisc 1).mapQz fun q => { q with good := 0 } else s1
    let s3 := s2.mapQz fun q => { q with rejected := 0 }
    if forced || stepU ≤ offset.natAbs then
      (s3.stepTime (-offset)).mapQz fun q => { q with good := if stepU ≤ offset.natAbs then 0 else q.good + 1 }
    else
      -- L1_SYNC_UP holds a and corrects phase only (R286), which is a step (R280)
      let s4 := if phaseOnly then (if offset = 0 then s3 else s3.stepTime (-offset))
        else s3.setAdj (clampAdj (Config.loopAdjust q.r0.adj offset q.source.bwMhz))
      let s5 := s4.mapQz fun q => { q with good := q.good + 1 }
      if s5.qz.disc ≠ 2 && 3 ≤ s5.qz.good then s5.setDisc 2 else s5

/-- A timestamp at a resolution of 2^-4 ns (R294): `phase` sixteenths of a nanosecond after the tick. -/
def State.stampAt (s : State) (phase : Nat) : Nat := (s.now + phase * 4096) / 4096 * 4096

/-- R283: an edge of PPS_IN of the selected polarity. -/
def evPpsEdge (phase : Nat) (s : State) : State :=
  let ts : Int := (s.stampAt phase : Int) - s.qz.source.ppsDelay
  let offset := ts - roundHalfEven ts secUnits * secUnits
  let s1 := s.mapQz fun q => { q with lastPpsAt := s.ns }
  let rejected := s.qz.source.mode = 1 && s.qz.disc = 2 && 100000 * 65536 ≤ offset.natAbs
  match s.qz.pendingSet with
  | some t =>
    if rejected then (s1.discipline offset false)
    else
      let s2 := ((s1.stepTime ((t : Int) - ts)).clearCause 0).mapQz fun q => { q with pendingSet := none, good := 0, rejected := 0 }
      if s2.qz.source.mode = 1 && s2.qz.disc = 3 then s2.setDisc 1 else s2
  | none => if s.qz.source.mode = 1 then (s1.discipline offset false) else s1

def execPpsEdge (phase : Nat) (s : State) : Host.Outcome State Fault Refusal :=
  guarded (.ppsEdge phase) s (evPpsEdge phase s)

/-- R283: no PPS edge for 1.5 s. -/
def evPpsHoldoverTimeout (s : State) : State :=
  if s.qz.source.mode = 1 && s.qz.lastPpsAt + 1500000000 ≤ s.ns then (s.setDisc 3) else s

def execPpsHoldoverTimeout (s : State) : Host.Outcome State Fault Refusal :=
  guarded (.ppsHoldoverTimeout) s (evPpsHoldoverTimeout s)

/-- R284: holdover beyond holdover_s. -/
def evSuspectHoldoverTimeout (s : State) : State :=
  let expired (t : Option Nat) : Bool := match t with
    | some x => decide (x + s.qz.source.holdoverS * 1000000000 < s.ns)
    | none => false
  let s1 := if expired s.qz.refLostAt then s.setCause 2 else s
  if expired s.qz.discLostAt then s1.setCause 3 else s1

def execSuspectHoldoverTimeout (s : State) : Host.Outcome State Fault Refusal :=
  guarded (.suspectHoldoverTimeout) s (evSuspectHoldoverTimeout s)

/-! ## Snapshot registers (R281) -/

/-- TAKE: latch the voted time and its sample index. -/
def State.takeSnapshot (s : State) : State :=
  let t := s.nowInstant
  s.mapQz fun q => { q with snap :=
    { valid := s.majority, suspect := s.suspect, noMap := q.mapping.isNone, seq := (q.snap.seq + 1) % 65536,
      sec := t.sec, ns := t.ns, frac := t.frac, index := s.indexOfInstant s.now } }

/-- A write to QZ_SNAP_CTRL. -/
def evQzSnapTake (value : Nat) (s : State) : State :=
  if bit value 0 then s.takeSnapshot else s

def execQzSnapTake (value : Nat) (s : State) : Host.Outcome State Fault Refusal :=
  guarded (.qzSnapTake value) s (evQzSnapTake value s)

/-- QZ_STATUS. -/
def State.qzStatus (s : State) : Nat :=
  let q := s.qz
  b2n q.r0.inVote + 2 * b2n q.r1.inVote + 4 * b2n q.r2.inVote + 8 * b2n q.r0.fenced + 16 * b2n q.r1.fenced +
  32 * b2n q.r2.fenced + 64 * b2n s.majority + 128 * b2n s.suspect + 256 * q.disc + 1024 * b2n q.pllLock

/-! ## Replicas (R306 to R309) -/

def State.replica (s : State) (r : Fin 3) : Replica := match r with | 0 => s.qz.r0 | 1 => s.qz.r1 | 2 => s.qz.r2

def State.setReplica (s : State) (r : Fin 3) (v : Replica) : State :=
  s.mapQz fun q => match r with
    | 0 => { q with r0 := v } | 1 => { q with r1 := v } | 2 => { q with r2 := v }

/-- Two replicas other than `r` are in the vote and agree. -/
def State.othersAgree (s : State) (r : Fin 3) : Bool :=
  let os := ([0, 1, 2] : List (Fin 3)).filter (· ≠ r) |>.map s.replica
  os.all (·.inVote) && (os.map (·.time)).eraseDups.length = 1

/-- R307: a dissenter leaves the vote; three dissents within 60 s fence it. -/
def State.dissent (s : State) (r : Fin 3) : State :=
  let v := s.replica r
  let recent := s.ns :: v.dissents.filter (fun t => s.ns < t + 60000000000)
  let fence := 3 ≤ recent.length
  let s1 := (s.setReplica r { v with inVote := false, fenced := v.fenced || fence, dissents := recent }).mapQz fun q =>
    { q with dissents := q.dissents + 1 }
  let s2 := s1.setReplica r { s1.replica r with outSec := s1.now / secUnits }
  if fence && !v.fenced then s2.raise 171 r.val else s2

/-- R308: no two in-vote replicas agree on the time; pins are held inactive. -/
def State.noMajority (s : State) : State :=
  let s1 := (s.setCause 1).mapQz fun q => { q with held := true, heldSec := some (s.now / secUnits), agreedAt := none }
  ((List.range 8).foldl (fun u g => u.setPulse g { u.pulse g with high := none }) s1).drivePins s s.now

/-- A replica disagrees on a voted output. -/
def evReplicaDissent (replica : Fin 3) (fault : ReplicaFault) (s : State) : State :=
  let v := s.replica replica
  match fault with
  | .time value =>
    let s1 := s.setReplica replica { v with time := value }
    if !v.inVote then s1
    else if s1.othersAgree replica then
      (if (votedRaw s1.replicas) = some value then s1 else (s1.dissent replica))
    else if s1.majority then s1 else s1.noMajority
  | .output => (if v.inVote && s.othersAgree replica then s.dissent replica else s)
  | .conversion =>
    if !v.inVote then s
    else if s.othersAgree replica then s.dissent replica
    else s.mapQz fun q => { q with convFail := true }
  | .delay input =>
    if !v.inVote then s
    else if s.othersAgree replica then (s.dissent replica)
    else (s.mapQz fun q => { q with voteFail := q.voteFail ++ [input] })

def execReplicaDissent (replica : Fin 3) (fault : ReplicaFault) (s : State) : Host.Outcome State Fault Refusal :=
  guarded (.replicaDissent replica fault) s (evReplicaDissent replica fault s)

/-- R307: at the next advance of the seconds field the dissenter, loaded from a majority replica, rejoins the vote. -/
def evReplicaRejoin (replica : Fin 3) (s : State) : State :=
  let v := s.replica replica
  match votedRaw s.replicas with
  | none => s
  | some t =>
    if v.inVote || v.fenced || s.now / secUnits ≤ v.outSec then s
    else
      let src := (s.replicas.find? fun x => x.inVote && x.time = t).getD v
      (s.setReplica replica { v with time := t, adj := src.adj, inVote := true }).mapQz fun q =>
        { q with resyncs := q.resyncs + 1 }

def execReplicaRejoin (replica : Fin 3) (s : State) : Host.Outcome State Fault Refusal :=
  guarded (.replicaRejoin replica) s (evReplicaRejoin replica s)

/-! ## Time commands -/

def doTimeSetSource (c : Cmd) (s : State) : Res :=
  let p := c.params
  let adj := toSigned 40 (fld p 20 5)
  match firstBad [(fld p 0 1 ≤ 1, 0), (fld p 1 1 ≤ 2, 1), (fld p 2 1 ≤ 1, 2),
      (100 ≤ fld p 8 4 && fld p 8 4 ≤ 1000000000, 8), (10 ≤ fld p 12 4 && fld p 12 4 ≤ 1000000000, 12),
      (10 ≤ fld p 16 2 && fld p 16 2 ≤ 1000, 16), (1 ≤ fld p 18 2, 18), (adj.natAbs ≤ 2 ^ 38, 20)] with
  | some off => .bad off s
  | none =>
    let src : Source := { ref := fld p 0 1, mode := fld p 1 1, falling := fld p 2 1 = 1, ppsDelay := sfld p 4 4,
                          stepNs := fld p 8 4, suspectNs := fld p 12 4, bwMhz := fld p 16 2, holdoverS := fld p 18 2,
                          freeAdj := adj }
    let old := s.qz.source
    let s1 := s.mapQz fun q => { q with source := src }
    let s2 := if src.ref = old.ref then s1
      else s1.mapQz fun q => { q with pllLock := false, refLostAt := if q.refLostAt.isSome then q.refLostAt else some s.ns }
    let s3 := if src.mode = old.mode then s2
      else s2.mapQz fun q => { q with disc := if src.mode = 0 then 0 else 1, good := 0, rejected := 0, discLostAt := none,
                                      lastPpsAt := s.ns, ptp := { q.ptp with ex := { q.ptp.ex with syncAt := s.ns } } }
    .ok (if src.mode = 0 then s3.setAdj adj else s3)

def specTimeSetSource : OpSpec := { row := rowTimeSetSource, body := doTimeSetSource, records := ownRecord 0x0301 }
def execTimeSetSource (c : Cmd) (s : State) : Host.Outcome State Fault Refusal := s.submit specTimeSetSource c

def doTimeSet (c : Cmd) (s : State) : Res :=
  let p := c.params
  match firstBad [((instantAt p 0).ok, 6), (fld p 12 1 ≤ 1, 12)] with
  | some off => .bad off s
  | none =>
    let t := (instantAt p 0).units
    if s.qz.source.mode = 2 then .fail stBusy s
    else if fld p 12 1 = 1 then .ok (s.mapQz fun q => { q with pendingSet := some t })
    else .ok (((s.stepTime ((t : Int) - s.now)).clearCause 0).mapQz fun q => { q with pendingSet := none })

def specTimeSet : OpSpec := { row := rowTimeSet, body := doTimeSet }
def execTimeSet (c : Cmd) (s : State) : Host.Outcome State Fault Refusal := s.submit specTimeSet c

/-- R503: settings are being replayed; bindings may then name queues that do not exist (R457). -/
def State.replaying (s : State) : Bool := s.pwr.phase = 3

/-- A queue field that must name an existing queue of a kind, or none (R380, R457). -/
def State.queueOk (s : State) (q kind : Nat) : Bool :=
  q = 0xFFFF || s.replaying || (q < 4096 && (s.queue q).enable && (s.queue q).kind = kind)

def doTimeSetPulse (c : Cmd) (s : State) : Res :=
  let p := c.params
  let g := fld p 0 1
  let arm := fld p 1 1
  let outs := fld p 4 4
  let period := fld p 32 8
  let width := fld p 40 4
  let idx := fld p 24 8
  match firstBad [(g ≤ 7, 0), (arm ≤ 3, 1), (outs < 2 ^ 18, 4),
      ((List.range 16).all fun n => !bit outs (n + 2) || (s.evtPin n).output, 4),
      (arm ≠ 1 || (instantAt p 8).ok, 14),
      (arm ≠ 3 || (100 ≤ fld p 20 4 && fld p 20 4 ≤ 1000000000), 20),
      (arm ≠ 2 || (s.instantOfIndex idx).isSome, 24),
      (4 ≤ width && (period = 0 || width * 65536 < period), 40)] with
  | some off => .bad off s
  | none =>
    let start : Option Nat := if arm = 1 then some (instantAt p 8).units else if arm = 2 then s.instantOfIndex idx else none
    let past := match start with
      | some t => !s.own.accepted && decide (t ≤ s.now + 1000 * 65536)
      | none => false
    if past && !s.replaying then .fail stPast s
    else
      let s1 := s.setPulse g { arm := arm, outputs := outs, setStart := (instantAt p 8).units, offsetNs := fld p 20 4,
                               startIndex := idx, start := if past then none else start, period := period, width := width, count := fld p 44 4 }
      .ok (s1.drivePins s s.now)

def specTimeSetPulse : OpSpec := { row := rowTimeSetPulse, body := doTimeSetPulse, records := ownRecord 0x0320 }
def execTimeSetPulse (c : Cmd) (s : State) : Host.Outcome State Fault Refusal := s.submit specTimeSetPulse c

def doTimeSetEvt (c : Cmd) (s : State) : Res :=
  let p := c.params
  let n := fld p 0 1
  match firstBad [(n ≤ 15, 0), (fld p 1 1 ≤ 1, 1), (1 ≤ fld p 2 1 && fld p 2 1 ≤ 3, 2), (s.queueOk (fld p 4 2) 6, 4)] with
  | some off => .bad off s
  | none =>
    let pin := s.evtPin n
    let out := fld p 1 1 = 1
    -- R294: a pin that becomes an input samples its line: whichever level stands there, the next change is an edge
    let level := if pin.output && !out then none else pin.level
    let s1 := s.setEvtPin n { pin with output := out, edges := fld p 2 1, queue := fld p 4 2, level := level }
    -- R315: a pin that becomes an input stops driving, and its generators drop it
    if pin.output && !out then
      .ok (((List.range 8).foldl (fun u g =>
        let v := u.pulse g
        u.setPulse g { v with outputs := withBit v.outputs (n + 2) false }) s1).drivePins s s.now)
    else .ok s1

def specTimeSetEvt : OpSpec := { row := rowTimeSetEvt, body := doTimeSetEvt, records := ownRecord 0x0321 }
def execTimeSetEvt (c : Cmd) (s : State) : Host.Outcome State Fault Refusal := s.submit specTimeSetEvt c

/-- R299: a change of rate, loading and unloading included. -/
def rateChange (old new : Option Mapping) : Bool :=
  match old, new with
  | none, none => false
  | some a, some b => a.num * b.den ≠ b.num * a.den
  | _, _ => true

def doTimeSetMapping (c : Cmd) (s : State) : Res :=
  let p := c.params
  let den := fld p 20 4
  let num := fld p 24 8
  match firstBad [((instantAt p 8).ok, 14), (1 ≤ den, 20),
      (num = 0 || (num ≤ 2 ^ 48 && den ≤ num && num ≤ 1450000000 * den), 24)] with
  | some off => .bad off s
  | none =>
    let m : Option Mapping := if num = 0 then none else some ⟨fld p 0 8, (instantAt p 8).units, num, den⟩
    if s.schedLive && rateChange s.qz.mapping m then .fail stBusy s
    else .ok (s.mapQz fun q => { q with mapping := m })

def specTimeSetMapping : OpSpec := { row := rowTimeSetMapping, body := doTimeSetMapping, records := ownRecord 0x0330 }
def execTimeSetMapping (c : Cmd) (s : State) : Host.Outcome State Fault Refusal := s.submit specTimeSetMapping c

def doTimeConvert (c : Cmd) (s : State) : Res :=
  let p := c.params
  let from_ := fld p 0 1
  let idx := fld p 4 8
  let t := instantAt p 12
  match firstBad [(from_ ≤ 1, 0), (from_ = 0 || t.ok, 18)] with
  | some off => .bad off s
  | none =>
    -- the given form is echoed; the other is the conversion, or stands for none
    let outIdx := if from_ = 0 then idx else s.indexOfInstant t.units
    let outT : Option Instant := if from_ = 1 then some t else (s.instantOfIndex idx).map instantOf
    let noMap := s.qz.mapping.isNone
    let none_ := !noMap && (if from_ = 0 then outT.isNone else outIdx = noIndex)
    -- with no majority on a conversion that exists (R306), what it holds is open
    let lost := s.qz.convFail
    let free (k : Nat) := Config.freeNat s.draws k
    let shownI := if lost && from_ = 1 && outIdx ≠ noIndex then free 0 % 2 ^ 64 else outIdx
    let shownT : Instant := if lost && from_ = 0 && outT.isSome then ⟨free 1 % 2 ^ 48, free 2 % 2 ^ 32, free 3 % 2 ^ 16⟩ else outT.getD ⟨0, 0, 0⟩
    let s1 := if lost then s.draw.mapQz fun q => { q with convFail := false } else s
    .okWith (beBytes 1 (b2n noMap + 2 * b2n none_ + 4 * b2n s.suspect + 8 * b2n lost) ++ zeros 7 ++
      beBytes 8 shownI ++ beInstant shownT ++ beInstant s.nowInstant) s1

def specTimeConvert : OpSpec := { row := rowTimeConvert, body := doTimeConvert }
def execTimeConvert (c : Cmd) (s : State) : Host.Outcome State Fault Refusal := s.submit specTimeConvert c

/-- R318: the check of a non-zero epoch_len against a dwell. -/
def epochLenOk (len : Nat) (dwell : Option Nat) : Bool :=
  len = 0 || (match dwell with
    | some d => len % d = 0 && d ≤ len && len ≤ 65536 * d
    | none => len % 256 = 0 && 256 ≤ len && len ≤ 2 ^ 32)

def doTimeSetEpoch (c : Cmd) (s : State) : Res :=
  let len := fld c.params 0 8
  if !epochLenOk len (s.tile.layout.map (·.dwell)) then .bad 0 s
  else if s.schedLive then .fail stBusy s
  else .ok (s.mapQz fun q => { q with epochLen := len })

def specTimeSetEpoch : OpSpec := { row := rowTimeSetEpoch, body := doTimeSetEpoch, records := ownRecord 0x0340 }
def execTimeSetEpoch (c : Cmd) (s : State) : Host.Outcome State Fault Refusal := s.submit specTimeSetEpoch c

/-- R320: the copy is made at the next tick. -/
def doTimeResync (c : Cmd) (s : State) : Res :=
  let src := fld c.params 0 1
  if 3 < src then .bad 0 s else .ok (s.mapQz fun q => { q with resync := some src })

def specTimeResync : OpSpec := { row := rowTimeResync, body := doTimeResync }
def execTimeResync (c : Cmd) (s : State) : Host.Outcome State Fault Refusal := s.submit specTimeResync c

def doTimeGetStatus (_c : Cmd) (s : State) : Res :=
  let q := s.qz
  let portState := match q.ptp.slave with
    | some n => (kvGet ({} : PtpPortCfg) q.ptp.ports n).portState
    | none => 0
  .okWith (beBytes 8 s.qzStatus ++ beBytes 1 q.causes ++ beBytes 1 (q.ptp.slave.getD 0xFF) ++ beBytes 1 portState ++ [0] ++
    padTo 0 8 q.ptp.grandmaster ++ beBytes 8 (ofSigned 64 q.lastOffset) ++ beBytes 8 (ofSigned 64 q.ptp.ex.meanPath) ++
    beBytes 8 (ofSigned 64 q.r0.adj) ++ beInstant s.nowInstant ++ beCount 8 q.steps ++ beCount 8 q.dissents ++
    beCount 8 q.resyncs ++ beCount 8 q.ppsRejected ++ beCount 8 q.skippedPulses ++ beCount 8 q.lostEdges ++
    beCount 8 q.lostRecords ++ beCount 8 q.lateEpochs ++ beCount 8 q.modelRange ++ beCount 8 q.delayVoteFail) s

def specTimeGetStatus : OpSpec := { row := rowTimeGetStatus, body := doTimeGetStatus }
def execTimeGetStatus (c : Cmd) (s : State) : Host.Outcome State Fault Refusal := s.submit specTimeGetStatus c

/-! ## Delay models (R300 to R302) -/

def DelayModel.init : DelayModel := {}

/-- τ over the common denominator 2^128; none outside the valid range. -/
def DelayModel.tau (m : DelayModel) (idx : Nat) : Option Int :=
  if idx < m.s0 || m.s0 + 2 ^ 32 ≤ idx then none
  else
    let u : Int := (idx - m.s0 : Nat)
    some (m.c0 * 2 ^ 96 + m.c1 * 2 ^ 64 * u + m.c2 * 2 ^ 32 * u ^ 2 + m.c3 * u ^ 3)

/-- τ_raw, units of 2^-32 samples. -/
def tauRaw (t : Int) : Int := toSigned 64 (ofSigned 64 (roundHalfEven t (2 ^ 96)))

/-- R301, R299: the rate that forms phases: the mapping's, or the layout's rate_sps. -/
def State.phaseRate (s : State) : Nat × Nat :=
  match s.qz.mapping with
  | some m => (m.num, m.den)
  | none => ((s.tile.layout.getD {}).rate, 1)

/-- R301: φ of a sky frequency ν in units of 2^-16 Hz, units of 2^-32 turn. -/
def fringePhase (nu : Nat) (raw : Int) (num den : Nat) : Nat :=
  ofSigned 32 (roundHalfEven ((nu : Int) * raw * den) (num * 65536))

end Sys2Proof.Machine
end

