-- ==== Sys2Proof/Machine/Schedule.lean ====
section
/-! DEFINITION. The visits of a schedule, and overload (R33 to R47, R105, R106, R131 to R134, R168). -/

namespace Sys2Proof.Machine

/-! ## Indices and instants of visits (R105, R109, R133) -/

/-- The stop that has taken effect (R168). -/
def State.stopped (s : State) (idx : Nat) : Bool :=
  s.tile.sched = .stopping && (match s.tile.stop with | some x => x ≤ idx | none => false)

/-- A visit of the schedule that is RUNNING or STOPPING. -/
def State.visitExists (s : State) (c k : Nat) : Bool :=
  s.schedLive && c < s.layout.channels && !s.stopped (s.firstIndex k)

/-- A mapping is loaded and time is not suspect. -/
def State.timed (s : State) : Bool := s.qz.mapping.isSome && !s.suspect

/-- f as numerator and denominator (R105). -/
def State.sampleRate (s : State) : Nat × Nat := s.phaseRate

/-- R105: the effective hold, time units. -/
def State.holdUnits (s : State) : Nat :=
  let (num, den) := s.sampleRate
  min (s.ing.holdUs * 1000 * 65536) (s.dwell * den * secUnits / (4 * max num 1))

/-! ## The visits of a channel (R105, R106, R131) -/

/-- R105, R336: the half of visit `k` has been released to it; a history visit waits as the share visit behind it does. -/
def Chan.released (ch : Chan) (k : Nat) : Bool :=
  let j := if ch.share k then k else k + 1
  ch.takes k && (j < ch.reach || ch.gone (j - ch.reach))

/-- R106: the lowest visit that has not closed. -/
def Chan.current (ch : Chan) : Nat :=
  let rec go : Nat → Nat → Nat
    | 0, k => k
    | fuel + 1, k => if ch.closed k then go fuel (k + 1) else k
  go ((ch.visits.length + 1) * ch.stride) ch.floor

/-- The visit that the channel takes up after `k`. -/
def Chan.after (ch : Chan) (k : Nat) : Nat :=
  ((List.range ch.stride).find? fun i => ch.takes (k + 1 + i)).elim (k + 1) (k + 1 + ·)

/-- Visits that have closed and left are forgotten, but for the last of them, whose tail is history (R123). -/
def Chan.settle (ch : Chan) : Chan :=
  let rec go : Nat → Nat → Nat
    | 0, k => k
    | fuel + 1, k => if ch.closed k && ch.gone k then go fuel (k + 1) else k
  let f := go ((ch.visits.length + 1) * ch.stride) ch.floor
  { ch with floor := f, visits := ch.visits.filter fun e => f ≤ e.1 + 1 }

/-- R131: closed, and every earlier visit of the channel has left. -/
def Chan.eligible (ch : Chan) (k : Nat) : Bool := ch.closed k && ch.next = k && (k = 0 || ch.closed (k - 1))

/-- R133: the deadline of a visit has come; `strict`: it lies before this moment. -/
def State.deadlinePassed (s : State) (c k : Nat) (strict : Bool) : Bool :=
  if s.timed then
    match s.instantOfIndex (s.firstIndex (k + (s.chan c).reach)) with
    | some t => if strict then t < s.now else t ≤ s.now
    | none => false
  else
    match (s.visit c (k + (s.chan c).reach)).accepted with
    | some a => if strict then a < s.ns else true
    | none => false

/-- R44: the deadline of a visit has occurred; a visit that needed its half and has left came after it. -/
def State.deadlineOccurred (s : State) (c k : Nat) : Bool :=
  s.deadlinePassed c k false || (!s.timed && decide (k + (s.chan c).reach < (s.chan c).floor))

/-! ## Overload (R41 to R47) -/

def State.mapLoad (s : State) (f : LoadState → LoadState) : State := { s with load := f s.load }

/-- The round of visit index `k`, kept in round order. -/
def LoadState.round (l : LoadState) (k : Nat) : Round := (l.rounds.find? (·.k = k)).getD { k := k }

def putRound (rs : List Round) (r : Round) : List Round :=
  match rs with
  | [] => [r]
  | x :: t => if x.k = r.k then r :: t else if r.k < x.k then r :: x :: t else x :: putRound t r

def State.mapRound (s : State) (k : Nat) (f : Round → Round) : State :=
  s.mapLoad fun l => { l with rounds := putRound l.rounds (f (l.round k)) }

/-- R41, R47: one unplanned drop of channel `c` in round `k`. -/
def State.countDrop (s : State) (c k : Nat) : State :=
  let s1 := s.mapRound k fun r => { r with dropped := r.dropped ++ [c] }
  (s1.mapLoad fun l => { l with unplanned := l.unplanned + 1, owed := l.owed ++ [k],
                                totals := if l.shed then kvBump l.totals c 1 else l.totals }).raiseEvent 172 (s.firstIndex k) c

/-- R41, R47: one planned shed. -/
def State.countShed (s : State) (c k : Nat) : State :=
  let s1 := s.mapRound k fun r => { r with shed := r.shed ++ [c] }
  (s1.mapLoad fun l => { l with planned := l.planned + 1,
                                totals := if l.shed then kvBump l.totals c 1 else l.totals }).raiseEvent 172 (s.firstIndex k) c

/-- R42: the channels a round sheds, of those whose visit of the round is still to be taken up, and the pointer past the last
of them. -/
def planSheds (channels : Nat) (among : List Nat) (count pointer : Nat) (totals : KV Nat) : List Nat × Nat :=
  -- by their totals, then by their distance from the pointer
  let key (c : Nat) : Nat := kvGet 0 totals c * 65536 + (c + channels - pointer % max channels 1) % max channels 1
  let chosen := (sortBy key among).take count
  (chosen, match chosen.getLast? with | some c => (c + 1) % max channels 1 | none => pointer)

/-- R44: the return to NORMAL. The rotating pointer of R42 keeps its place, here and at a new schedule (DESIGN CHOICE, log
entry 104). -/
def State.enterNormal (s : State) : State :=
  (s.mapLoad fun l => { l with
    shed := false, s := 0, totals := [], window := [], quiet := 0,
    rounds := l.rounds.map fun r => if r.ended then r else { r with forgiven := r.dropped.length } }).raise 173 0

/-- R50: a change of policy takes effect at the start of a round. -/
def State.adoptPolicy (s : State) : State :=
  match s.load.nextPolicy with
  | none => s
  | some p =>
    let s1 := s.mapLoad fun l => { l with policy := p, nextPolicy := none }
    if !p.auto && s1.load.shed then s1.enterNormal else s1

/-- The planner chooses the visits that round `k` sheds. -/
def State.planRound (s : State) (k : Nat) : State :=
  if s.load.shed then
    let among := (List.range s.layout.channels).filter fun c => !(s.chan c).gone k
    let (chosen, ptr) := planSheds s.layout.channels among s.load.s s.load.pointer s.load.totals
    (s.mapLoad fun l => { l with pointer := ptr }).mapRound k fun r => { r with plan := chosen }
  else s

/-- R42: every visit of the round has started, was dropped or was shed. -/
def State.roundComplete (s : State) (r : Round) : Bool :=
  !r.ended && r.started + r.dropped.length + r.shed.length = s.layout.channels

/-- R42, R50: round `k` starts: a new policy acts, s takes in the drops of the rounds before it, the planner chooses. A drop
that the round before makes after this start is taken in at the next one (DESIGN CHOICE, log entry 104). -/
def State.startRound (s : State) (k : Nat) : State :=
  let s1 := (s.mapLoad fun l => { l with toBegin := k + (s.chan 0).stride, ready := false }).adoptPolicy
  let s2 := if s1.load.shed then
      let n := min (s1.load.s + (s1.load.owed.filter (· < k)).length) s.layout.channels
      s1.mapLoad fun l => { l with s := n, shedMax := max l.shedMax n }
    else s1
  (s2.mapLoad fun l => { l with owed := l.owed.filter (k ≤ ·) }).planRound k

/-- A round starts as soon as the round before it has completed and a visit of its own is eligible; at the latest, when Mica
would take up the first of its visits (`State.beginRounds`; DESIGN CHOICE, log entry 104). -/
def State.tryRound (s : State) : State :=
  if s.load.ready && (List.range s.layout.channels).any (fun c => (s.chan c).eligible s.load.toBegin) then
    s.startRound s.load.toBegin
  else s

/-- R51: the last round that is over, with every round before it: its visits have ended and their slacks are known. A round in
which no visit started, and the time before any round, shows a smallest slack of 0 (DESIGN CHOICE, log entry 104). -/
def State.showRound (s : State) : State :=
  match (s.load.rounds.takeWhile fun r => r.ended && r.running = 0 && r.awaiting = []).getLast? with
  | some r => s.mapLoad fun l => { l with visitMaxNs := r.durMax, slackMinNs := r.slackMin.getD 0 }
  | none => s

/-- R42: the round completes, and the policy acts. The drops of as many rounds are kept as entry_window can ever ask for. -/
def State.endRound (s : State) (r : Round) : State :=
  let drops := r.dropped.length
  let s1 := s.mapRound r.k fun x => { x with ended := true }
  let l := s1.load
  let window := ((drops - r.forgiven) :: l.window).take 255
  let s2 :=
    if l.shed then s1.mapLoad fun l => { l with shedRounds := l.shedRounds + 1 }
    else if l.policy.auto && l.policy.entryDrops ≤ (window.take l.policy.entryWindow).sum then
      (s1.mapLoad fun l => { l with
        shed := true, s := drops, window := window, shedEntries := l.shedEntries + 1, quiet := 0,
        shedMax := max l.shedMax drops, owed := l.owed.filter (r.k < ·),
        totals := r.dropped.foldl (fun t c => kvBump t c 1) [] }).raise 173 1
    else s1.mapLoad fun l => { l with window := window }
  let follow := r.k + (s.chan 0).stride
  ((s2.mapLoad fun m => { m with toBegin := max m.toBegin follow, ready := m.ready || m.toBegin ≤ follow }).showRound).tryRound

/-- R44: a completed round whose visits have all ended and whose deadlines have occurred is judged. A round in which no visit
started has no slack and counts as one whose slack suffices (DESIGN CHOICE, log entry 104). -/
def State.judgeRound (s : State) (r : Round) : State :=
  let s1 := s.mapLoad fun l => { l with rounds := l.rounds.filter (·.k ≠ r.k) }
  if !s1.load.shed then s1
  else
    let quiet := r.dropped = [] && (match r.slackMin with
      | some x => s1.load.policy.slackFactor * r.durMax ≤ x
      | none => true)
    let n := if quiet then s1.load.quiet + 1 else 0
    if n < s1.load.policy.relaxRounds then s1.mapLoad fun l => { l with quiet := n }
    else if s1.load.s = 0 then s1.enterNormal
    else s1.mapLoad fun l => { l with s := l.s - 1, quiet := 0 }

/-- R44: a round can be judged: it has completed, its visits have ended, and the deadline of every one has occurred. -/
def State.roundOver (s : State) (r : Round) : Bool :=
  r.ended && r.running = 0 && r.awaiting = [] && (List.range s.layout.channels).all fun c => s.deadlineOccurred c r.k

/-- The slack of a visit is known: it awaits its deadline no more. -/
def State.noteSlack (s : State) (c k slack : Nat) : State :=
  (s.mapRound k fun r => { r with awaiting := r.awaiting.filter (·.1 ≠ c),
                                  slackMin := some (match r.slackMin with | some x => min x slack | none => slack) }).showRound

/-- R44: the time, ns, from now to the deadline that the mapping gives a visit. -/
def State.slackLeft (s : State) (c k : Nat) : Int :=
  match s.instantOfIndex (s.firstIndex (k + (s.chan c).reach)) with
  | some t => ((t : Int) - s.now) / 65536
  | none => 0

/-- R44, R133: once time is suspect no more, the deadline of a visit that started while it was is the mapping's. -/
def State.resolveSlacks (s : State) : State :=
  if !s.timed then s
  else (s.load.rounds.filter (·.awaiting ≠ [])).foldl (fun u r => r.awaiting.foldl (fun v a =>
    v.noteSlack a.1 r.k (v.slackLeft a.1 r.k + (v.ns - a.2 : Nat)).toNat) u) s

/-- A round completes, or a completed round is judged. -/
def evRoundEnd (s0 : State) : State :=
  let s := s0.resolveSlacks
  let s1 := match s.load.rounds.find? (s.roundComplete ·) with
    | some r => if s.schedLive then s.endRound r else s
    | none => s
  match s1.load.rounds with
  | r :: _ => if s1.roundOver r then s1.judgeRound r else s1
  | [] => s1

def execRoundEnd (s : State) : Host.Outcome State Fault Refusal := guarded (.roundEnd) s (evRoundEnd s)

/-- R44: the fallback deadline of a visit that has started occurs. -/
def State.slackKnown (s : State) (c k : Nat) : State :=
  match (s.load.round k).awaiting.find? (·.1 = c) with
  | none => s
  | some (_, at_) => s.noteSlack c k (s.ns - at_)

/-- R33 to R35: T_corr of a layout, bytes per second. -/
def CorrLayout.traffic (l : CorrLayout) : Nat :=
  let r := l.channels * l.rate
  2 * l.n * r + ceilDiv (24 * l.baselines * r) l.dwell

/-- The minimum step rate of an operating point (R27). -/
def stepRate (op : Nat) : Nat :=
  ([0, 750000000, 1000000000, 1200000000, 1350000000, 1450000000] : List Nat).getD op 0

end Sys2Proof.Machine
end

