-- ==== Sys2Proof/Machine/Integrate.lean ====
section
/-! DEFINITION. Integrations: where their boundaries stand, how they begin, and how lost visits enter them, the beams and
the chains (R46, R175, R182, R198, R199, R246, R269). -/

namespace Sys2Proof.Machine

def State.mapBas (s : State) (f : BasaltState → BasaltState) : State := { s with bas := f s.bas }
def State.mapDump (s : State) (f : DumpState → DumpState) : State := { s with dump := f s.dump }
def State.mapFilt (s : State) (f : FilterState → FilterState) : State := { s with filt := f s.filt }

def Integ.init : Integ := {}
def State.integ (s : State) (c : Nat) : Integ := kvGet Integ.init s.bas.integs c
def State.setInteg (s : State) (c : Nat) (v : Integ) : State :=
  s.mapBas fun b => { b with integs := kvSet Integ.init b.integs c v }

/-- The integration holds at least one visit. -/
def Integ.begun (g : Integ) : Bool := g.start < g.next

def Chain.init : Chain := {}
def State.chain (s : State) (n : Nat) : Chain := kvGet Chain.init s.filt.chains n
def State.setChain (s : State) (n : Nat) (v : Chain) : State :=
  s.mapFilt fun f => { f with chains := kvSet Chain.init f.chains n v }

/-! ## Boundaries (R198 to R200) -/

/-- The dump settings that the boundaries of the schedule follow. -/
def State.dumpSched (s : State) : Sched DumpSet := s.dump.prior.getD s.dump.set

/-- Item 1: the periodic pattern of the settings in force at the visit. -/
def State.periodic (s : State) (c k : Nat) : Bool :=
  let d := schedAt s.dumpSched c (s.firstIndex k)
  let off := if d.stagger then c * d.period / max s.layout.channels 1 else 0
  d.period ≠ 0 && ((k : Int) - off) % d.period = 0

def DumpAt.covers (a : DumpAt) (c : Nat) : Bool := a.first ≤ c && c < a.first + a.count

/-- Items 2 and 3: the first visit of the channel whose first index is at or after the dump's index. -/
def State.scheduledAt (s : State) (c k : Nat) : Bool :=
  s.dump.scheduled.any fun a => a.covers c && s.boundary (whenStart a.at_ c) = k

/-- Item 4: an integration spans at most 2^24 - 1 visits. -/
def forcedAt (start k : Nat) : Bool := 2 ^ 24 - 1 ≤ k - start

/-- A boundary stands before visit `k` of channel `c`, `start` being the first visit of the integration that ends there. -/
def State.boundaryBefore (s : State) (c k start : Nat) : Bool :=
  1 ≤ k && (s.periodic c k || s.scheduledAt c k || forcedAt start k)

/-- R168: the visit lies at or beyond the stop that has taken effect. A stop without an index leaves alone what Mica had taken up,
also where another channel stops earlier. -/
def State.pastStop (s : State) (c k : Nat) : Bool :=
  (s.tile.sched = .stopping || s.tile.sched = .loaded) &&
  (match s.tile.stop with | some x => x ≤ s.firstIndex k | none => false) && !s.takenFrom c k

/-- The integration in progress ends before its next visit: at a boundary, or at the stop. -/
def State.integEnds (s : State) (c : Nat) : Bool :=
  let g := s.integ c
  g.begun && (s.boundaryBefore c g.next g.start || s.pastStop c g.next)

/-- R335: the share of the visits that a part of a time split processes. -/
def State.share (s : State) (k : Nat) : Bool := s.split.parts ≤ 1 || k % s.split.parts = s.split.index

/-! ## How an integration begins (R175, R182) -/

/-- A dump of the channel still reads this log half (R180). -/
def State.halfHeld (s : State) (c half : Nat) : Bool :=
  s.dump.jobs.any (fun j => j.channel = c && j.half = half) ||
  s.bas.collects.any fun x => x.channel = c && (match x.own with | some g => g.half = half | none => false)

def State.preloadAt (s : State) (c x : Nat) : Preload := schedAt (kvGet ⟨{}, []⟩ s.bas.preload c) c x

/-- Key of a visit of a channel in the tables of visits not yet accounted for. -/
def visitKey (c k : Nat) : Nat := c * 2 ^ 40 + k

/-- What a channel's areas hold when a new schedule starts: all of it, with nothing in progress. -/
def Integ.fresh (g : Integ) : Integ :=
  { g with start := 0, next := 0, acc := [], stale := kvOver g.acc g.stale, limits := [], firstClose := none }

/-- The integration as it is when visit `k` is its first. -/
def State.beginInteg (s : State) (c k : Nat) : Integ :=
  let old := s.integ c
  let x := s.firstIndex k
  { preload := s.preloadAt c x, rotation := schedAt s.bas.rotate c x, half := 1 - old.half, headerStart := x, start := k, next := k,
    theta := old.theta, stale := kvOver old.acc old.stale, oldLog := old.entries }

/-- R203: the integration sees its first visit close. -/
def State.withClose (s : State) (c k : Nat) (g : Integ) : Integ :=
  let closed := kvGet 0 s.bas.closes (visitKey c k)
  { g with firstClose := if g.firstClose.isSome then g.firstClose else some (if closed = 0 then s.ns else closed - 1) }

/-- The integration that visit `k` belongs to. -/
def State.openInteg (s : State) (c k : Nat) : Integ := if (s.integ c).begun then s.integ c else s.beginInteg c k

/-- Visit `k` has been accounted for. -/
def State.forgetVisit (s : State) (c k : Nat) : State :=
  s.mapBas fun b => { b with lost := kvSet 0 b.lost (visitKey c k) 0, closes := kvSet 0 b.closes (visitKey c k) 0 }

/-! ## Lost visits (R41, R46, R246, R269) -/

/-- R269: the chain restarts: history and support are cleared, positions go on. -/
def Chain.restart (c : Chain) : Chain :=
  { c with runs := c.runs.map (fun r => { r with hist := [] }), weights := [], gap := true, clip := false, warm := false }

/-- A restart for a gap: counted, with "chain gap". -/
def State.chainGap (s : State) (n : Nat) : State :=
  let c := s.chain n
  (s.setChain n { c.restart with gaps := c.gaps + 1 }).raise 186 n

/-- R263, R275: the chain has taken in values and has not been disabled in between, as far as sample `x`. -/
def Chain.onUntil (c : Chain) (x : Nat) : Bool :=
  c.on && !c.enable.later.any fun e =>
    let st := whenStart e.1 c.channel
    !e.2 && c.taken ≤ st && st ≤ x && !schedAt c.enable c.channel st

/-- Visit `k` is missing from a chain's input. -/
def State.chainLost (s : State) (n k : Nat) : State :=
  let c := s.chain n
  let x := s.firstIndex k
  if !schedAt c.enable c.channel x then s
  else if c.input ≠ [] then s.setChain n { c with input := c.input ++ [{ visit := k, gap := true, values := [] }] }
  else if c.onUntil x then s.chainGap n
  else s

/-- R246: the sets and chains that lose visit `k` of channel `c`. -/
def State.beamsLost (s : State) (c k : Nat) : State :=
  let s1 := (List.range 16).foldl (fun u n =>
    let b := u.beamSet n
    if b.enable && b.chan0 ≤ c && c < b.chan0 + b.chanCount then
      u.setBeamSet n { b with gaps := [1, 2, 3].foldl (fun m q => kvSet 0 m (c * 4 + q) 1) b.gaps }
    else u) s
  (List.range 32).foldl (fun u n =>
    let h := u.chain n
    if h.configured && h.channel = c && (u.beamSet h.set).enable then u.chainLost n k else u) s1

/-- A dropped (1) or shed (2) visit takes its place in the integration of its channel. -/
def State.accountLost (s : State) (c k kind : Nat) : State :=
  let g := s.withClose c k (s.openInteg c k)
  let g1 := { g with next := k + 1, unplanned := g.unplanned + b2n (kind = 1), shed := g.shed + b2n (kind = 2) }
  ((s.setInteg c g1).beamsLost c k).forgetVisit c k

/-- R335, R337: a visit that belongs to another part is passed over. -/
def State.skipVisit (s : State) (c k : Nat) : State := s.setInteg c { s.openInteg c k with next := k + 1 }

/-- The visits of other parts that follow a visit of the channel, up to the next boundary. -/
def State.skipOthers (s : State) (c : Nat) : State :=
  (List.range s.split.parts).foldl (fun u _ =>
    if u.integEnds c || u.share (u.integ c).next then u else u.skipVisit c (u.integ c).next) s

/-- Lost visits are accounted for as soon as every earlier visit of the channel is, up to the next boundary. -/
def State.settleLost (s : State) (c : Nat) : State :=
  let rec go : Nat → State → State
    | 0, u => u
    | fuel + 1, u =>
      let k := (u.integ c).next
      let kind := kvGet 0 u.bas.lost (visitKey c k)
      if u.integEnds c || u.pastStop c k then u
      else if !u.share k then go fuel (u.skipVisit c k)
      else if kind = 0 then u
      else go fuel (u.accountLost c k kind)
  go (8 * (s.bas.lost.length + 1)) s

/-- R41: a visit has been dropped (1) or shed (2). -/
def State.loseVisit (s : State) (c k kind : Nat) : State :=
  let s1 := s.mapBas fun b => { b with lost := kvSet 0 b.lost (visitKey c k) kind }
  let s2 := (List.range 16).foldl (fun u n =>
    let b := u.beamSet n
    if b.enable && b.chan0 ≤ c && c < b.chan0 + b.chanCount then u.setBeamSet n { b with lost := b.lost + 1 } else u) s1
  s2.settleLost c

/-- R203: a visit closes; the close of an integration's first visit matters for its flags. -/
def State.noteClose (s : State) (c k : Nat) : State :=
  s.mapBas fun b => { b with closes := kvSet 0 b.closes (visitKey c k) (s.ns + 1) }

/-- R222: a scheduled dump whose boundary has been passed in every channel of its range is no longer pending; one at the
visit that a stop excludes coincides with the final dump (R199). -/
def State.settleDumps (s : State) : State :=
  let waits (a : DumpAt) : Bool := !s.schedLive || (List.range s.layout.channels).any fun c =>
    let k := (s.integ c).next
    a.covers c && k + b2n (s.pastStop c k) ≤ s.boundary (whenStart a.at_ c)
  s.mapDump fun d => { d with scheduled := d.scheduled.filter waits }

end Sys2Proof.Machine
end

