-- ==== Sys2Proof/Machine/DumpCode.lean ====
section
/-! DEFINITION. What a dump says: baseline order, codings, weights, the header record and the KVF and partial frames
(R171 to R174, R181, R202 to R214, R338). -/

namespace Sys2Proof.Machine

/-! ## Long-term values (R171, R174, R175) -/

/-- SAT_POS and SAT_NEG. -/
abbrev satPos : Int := 2 ^ 47 - 1
abbrev satNeg : Int := -2 ^ 47

def isCode (v : Int) : Bool := v = satPos || v = satNeg
def saturatedPair (v : Int × Int) : Bool := isCode v.1 || isCode v.2

/-- R174: sticky saturating addition of one component. -/
def satAdd (a b : Int) : Int :=
  if isCode a then a
  else if isCode b then b
  else if satPos - 1 < a + b then satPos
  else if a + b < satNeg + 1 then satNeg
  else a + b

def satAdd2 (a b : Int × Int) : Int × Int := (satAdd a.1 b.1, satAdd a.2 b.2)

/-- R175: the preload of baseline ordinal `q`. -/
def State.preloadValue (s : State) (p : Preload) (q : Nat) : Int × Int :=
  if p.mode = 0 then (0, 0)
  else if p.mode = 1 then (p.biasRe, p.biasIm)
  else
    if p.spoilt.isSome then kvGet (0, 0) p.image q else s.residualAt (p.residual - 0x1000000000) q

/-! ## Baseline order (R171, R204) -/

/-- Baselines that block `k` exports. -/
def CorrLayout.blockSize (l : CorrLayout) (k : Nat) : Nat :=
  if l.rect then 4096
  else
    let (a, c) := l.blockAt k
    let m (x : Nat) : Nat := min 64 (l.n - 64 * x)
    if a = c then m a * (m a + 1) / 2 else m a * m c

/-- The block-order ordinal of a baseline of the layout. -/
def CorrLayout.ordinal (l : CorrLayout) (i j : Nat) : Nat :=
  let k := l.blockOf i j
  let before := ((List.range k).map l.blockSize).sum
  let (i0, j0) := l.blockBase k
  let r := i - i0
  let s := j - j0
  let m (x : Nat) : Nat := min 64 (l.n - x)
  if l.rect then k * 4096 + r * (shapeSides l.shape).2.1 + s
  else if i0 < j0 then before + r * m j0 + s
  else before + r * m i0 - r * (r - 1) / 2 + (s - r)

/-- All baselines in block order. -/
def CorrLayout.blockList (l : CorrLayout) : List (Nat × Nat) := ((List.range l.blocks).map l.blockBaselines).flatten

/-- All baselines in baseline order. -/
def CorrLayout.baselineList (l : CorrLayout) : List (Nat × Nat) :=
  if l.rect then ((List.range l.rows).map fun r => (List.range l.cols).map fun c => (l.row0 + r, l.col0 + c)).flatten
  else ((List.range l.n).map fun i => (List.range (l.n - i)).map fun d => (i, i + d)).flatten

/-- The items of a dump in its order: each baseline with its block-order ordinal. -/
def CorrLayout.items (l : CorrLayout) (order : Nat) : List ((Nat × Nat) × Nat) :=
  if order = 0 then l.blockList.zipIdx else l.baselineList.map fun b => (b, l.ordinal b.1 b.2)

/-! ## Weights (R179, R181, R164) -/

def allOnes (dwell : Nat) : Nat := 2 ^ (dwell / 256) - 1

/-- map(i, v) of R181. -/
def invalidMap (entries : List LogEntry) (dwell i v : Nat) : Nat :=
  entries.foldl (fun m e =>
    if e.kind = 1 && e.id = i && e.visit = v then e.body
    else if e.kind = 2 && e.id = i && e.visit ≤ v && v < e.visit + e.body then allOnes dwell else m) 0

def blockDiscarded (entries : List LogEntry) (k v : Nat) : Bool := entries.any fun e => e.kind = 3 && e.id = k && e.visit = v

/-- R164, R181: block `k` has been correlated in every processed visit. The limits only fall. -/
def correlated (limits : List (Nat × Nat)) (k : Nat) : Bool :=
  match limits.getLast? with
  | some e => k < e.2
  | none => true

/-- The weight of a baseline divided by 256. -/
def granuleCount (l : CorrLayout) (v : Nat) (entries : List LogEntry) (limits : List (Nat × Nat)) (i j : Nat) : Nat :=
  let k := l.blockOf i j
  let per := l.dwell / 256
  if !correlated limits k then 0
  else ((List.range v).map fun x =>
    if blockDiscarded entries k x then 0
    else per - (bitsOf per (invalidMap entries l.dwell i x ||| invalidMap entries l.dwell j x)).length).sum

/-- The block of a baseline's ordinal. -/
def CorrLayout.ordinalBlock (l : CorrLayout) (q : Nat) : Nat :=
  match l.blockList[q]? with
  | some b => l.blockOf b.1 b.2
  | none => l.blocks

/-- The long-term value of ordinal `q`; a block that was not correlated in every visit leaves the preload (R181). -/
def State.longTerm (s : State) (g : Integ) (q : Nat) : Int × Int :=
  let p := s.accPreload g.preload
  if g.limits.any (fun e => e.2 < s.layout.blocks) && !correlated g.limits (s.layout.ordinalBlock q) then
    p.given q (s.preloadValue p q)
  else p.given q ((kvGet none g.acc q).getD (s.preloadValue p q))

/-- R212: an entry as a WLOG frame carries it. -/
def LogEntry.wire (e : LogEntry) (dwell : Nat) : List Byte :=
  let n := entryBytes dwell - 8
  beBytes 1 e.kind ++ [0] ++ beBytes 2 e.id ++ beBytes 4 e.visit ++
  (if e.kind = 1 then leBytes n e.body else if e.kind = 2 then padTo 0 n (beBytes 4 e.body) else zeros n)

/-! ## Codings (R206 to R210) -/

def codeLossless (v : Int × Int) : List Byte := beBytes 6 (ofSigned 48 v.1) ++ beBytes 6 (ofSigned 48 v.2)

/-- R207: the shift of a block: the smallest under which every unsaturated mantissa fits. -/
def blockShift (vs : List (Int × Int)) : Nat :=
  let fits (e : Nat) (v : Int) : Bool := isCode v || (roundHalfEven v (2 ^ e)).natAbs ≤ 32767
  ((List.range 34).find? fun e => vs.all fun v => fits e v.1 && fits e v.2).getD 33

def mantissa (e : Nat) (v : Int) : List Byte :=
  beBytes 2 (if isCode v then 0x8000 else ofSigned 16 (roundHalfEven v (2 ^ e)))

/-- A block of 32 baselines, padded with zero ones: 132 bytes. -/
def codeBlockFloat (vs : List (Int × Int)) : List Byte :=
  let e := blockShift vs
  beBytes 1 e ++ beBytes 1 (b2n (vs.any saturatedPair)) ++ [0, 0] ++
  ((padTo (0, 0) 32 vs).map fun v => mantissa e v.1 ++ mantissa e v.2).flatten

/-- R209: one component as binary32; `shift` is unit_shift. -/
def binary32 (shift : Nat) (v : Int) : Nat :=
  if v = satPos then 0x7F800000
  else if v = satNeg then 0xFF800000
  else if v = 0 then 0
  else
    let mag := v.natAbs
    let e := Nat.log2 mag
    -- 24 significant bits, ties to even; a carry out of the rounding advances the exponent
    let m := if e ≤ 23 then mag * 2 ^ (23 - e) else (roundHalfEven mag (2 ^ (e - 23))).toNat
    let (m1, e1) := if m = 2 ^ 24 then (2 ^ 23, e + 1) else (m, e)
    b2n (v < 0) * 2 ^ 31 + (e1 + 127 - shift) * 2 ^ 23 + (m1 - 2 ^ 23)

def codeBinary32 (shift : Nat) (v : Int × Int) : List Byte := beBytes 4 (binary32 shift v.1) ++ beBytes 4 (binary32 shift v.2)

/-- Bytes of one item, or of one block-float block, in a coding. -/
def itemBytes (coding : Nat) : Nat := if coding = 0 then 12 else if coding = 1 then 132 else 8
/-- Baselines per item. -/
def itemBaselines (coding : Nat) : Nat := if coding = 1 then 32 else 1

/-- Baselines a full VIS frame carries (R214). -/
def visPerFrame (coding maxBody : Nat) : Nat := maxBody / itemBytes coding * itemBaselines coding

def codeItems (coding shift : Nat) (vs : List (Int × Int)) : List Byte :=
  if coding = 0 then (vs.map codeLossless).flatten
  else if coding = 1 then ((chunks 32 vs).map codeBlockFloat).flatten
  else (vs.map (codeBinary32 shift)).flatten

/-! ## The header record (R202, R203) -/

/-- What a dump is made of. -/
structure DumpBody where
  channel : Nat
  /-- its destination -/
  dest : Nat
  seq : Nat
  /-- visits: the first of the integration, and the one after its last -/
  start : Nat
  stop : Nat
  set : DumpSet
  rotation : Bool
  preloadMode : Nat
  planned : Nat
  processed : Nat
  unplanned : Nat
  shed : Nat
  excludedLog : Nat
  blockDiscards : Nat
  satBaselines : Nat
  saturated : Bool
  excluded : Bool
  missing : Bool
  forced : Bool
  firstClose : Option Nat
  /-- R379: ns before which the dump is not done -/
  due : Nat
  parts : Nat
  present : Nat
  visFrames : Nat
  weightFrames : Nat
  entries : Nat

/-- R202: t(S) in a time field, zero where there is none. -/
def State.timeField (s : State) (idx : Nat) : List Byte := beInstant (((s.instantOfIndex idx).map instantOf).getD ⟨0, 0, 0⟩)

def State.dumpFlags (s : State) (d : DumpBody) : Nat :=
  let sus := s.suspect || (match s.qz.suspectEnd, d.firstClose with
    | some e, some c => decide (c ≤ e)
    | _, _ => false)
  b2n d.saturated + 2 * b2n d.excluded + 4 * b2n d.missing + 8 * b2n sus + 16 * b2n s.qz.mapping.isNone +
  32 * b2n d.forced + 64 * b2n (s.uncorrelated ≠ 0)

/-- The first 112 bytes of the record, network byte order. -/
def State.headerRecord (s : State) (d : DumpBody) : List Byte :=
  let l := s.layout
  let a := s.firstIndex d.start
  let b := s.firstIndex d.stop
  beBytes 8 a ++ beBytes 8 (b - 1) ++ s.timeField a ++ s.timeField b ++ beBytes 4 d.seq ++ beBytes 4 l.dwell ++
  beBytes 2 l.n ++ beBytes 1 (b2n l.rect) ++ beBytes 1 l.shape ++ beBytes 1 d.set.order ++ beBytes 1 d.set.coding ++
  beBytes 1 d.set.weightMode ++ beBytes 1 (if d.rotation then 4 else 0) ++ beBytes 4 d.planned ++ beBytes 4 d.processed ++
  beBytes 4 d.unplanned ++ beBytes 4 d.shed ++ beBytes 4 d.excludedLog ++ beBytes 4 d.blockDiscards ++
  beBytes 4 d.satBaselines ++ beBytes 4 s.uncorrelated ++ beBytes 4 l.baselines ++ beBytes 4 (s.dumpFlags d) ++
  beBytes 1 d.preloadMode ++ beBytes 1 (b2n d.rotation) ++ beBytes 1 d.parts ++ beBytes 1 d.present ++
  beBytes 4 d.visFrames ++ beBytes 4 d.weightFrames ++ beBytes 4 d.entries

/-! ## Frames (R213, R338) -/

def withCrc (head body : List Byte) : List Byte := head ++ beBytes 4 (crc32c (head ++ body)) ++ body

/-- R213: a KVF frame. -/
def kvfFrame (kind coding channel stream start seq index count first items : Nat) (body : List Byte) : List Byte :=
  withCrc ([0x56, 1] ++ beBytes 1 kind ++ beBytes 1 coding ++ beBytes 2 channel ++ beBytes 2 stream ++ beBytes 8 start ++
    beBytes 4 seq ++ beBytes 4 index ++ beBytes 4 count ++ beBytes 4 first ++ beBytes 2 items ++ beBytes 2 body.length) body

/-- R338: a partial frame. -/
def partialFrame (kind part channel group start index count first items : Nat) (body : List Byte) : List Byte :=
  withCrc ([0x50, 1] ++ beBytes 1 kind ++ beBytes 1 part ++ beBytes 2 channel ++ beBytes 2 group ++ beBytes 8 start ++
    beBytes 4 index ++ beBytes 4 count ++ beBytes 4 first ++ beBytes 2 items ++ beBytes 2 body.length ++ zeros 4) body

/-- Kinds of frame of a dump; a partial image numbers them 1, 2, 3 and 4. -/
inductive DumpKind where
  | header | vis | weight | log | last
  deriving DecidableEq, Repr

def DumpKind.kvf : DumpKind → Nat
  | .header => 1 | .vis => 2 | .weight => 3 | .log => 4 | .last => 5

def DumpKind.partialKind : DumpKind → Nat
  | .header => 1 | .vis => 2 | .weight => 3 | .log => 3 | .last => 4

/-- A frame of a dump on its way out. -/
def DumpJob.frame (j : DumpJob) (kind : DumpKind) (index first items : Nat) (body : List Byte) : List Byte :=
  let count := j.visFrames + j.weightFrames + 2
  match j.part with
  | some (p, g) => partialFrame kind.partialKind p j.channel g j.integStart index count first items body
  | none => kvfFrame kind.kvf (if kind = .vis then j.coding else 0) j.channel j.dst.stream j.integStart j.seq index count
      first items body

end Sys2Proof.Machine
end

