-- ==== Sys2Proof/Machine/Dumps.lean ====
section
/-! DEFINITION. Dumps on their way out, and the combination of partial images (R46, R186 to R188, R200, R201, R215 to R219,
R337 to R339). -/

namespace Sys2Proof.Machine

def Dest.init : Dest := {}

/-- R224: the destination that a dump of a channel goes to. A dump whose boundary stood before the last CORR_MAP_DEST keeps the
destination of that time. -/
def State.destOf (s : State) (c : Nat) : Nat :=
  let due := kvGet 0 s.dump.mapDue c
  if due = 0 then kvGet 0 s.dump.map c else due - 1

/-! ## Handing frames to the port (R201, R216) -/

/-- No earlier dump is on its way to the same destination. -/
def DumpJob.first (j : DumpJob) (jobs : List DumpJob) : Bool :=
  match jobs.find? (·.dest = j.dest) with
  | some x => x.channel = j.channel && x.seq = j.seq
  | none => false

def State.mapJob (s : State) (c seq : Nat) (f : DumpJob → DumpJob) : State :=
  s.mapDump fun d => { d with jobs := d.jobs.map fun j => if j.channel = c && j.seq = seq then f j else j }

/-- Frames of a dump go to its port or queue in frame_index order. -/
def State.handAll (s : State) (j : DumpJob) (frames : List (List Byte × Nat)) : State :=
  let s1 := s.mapJob j.channel j.seq fun x => { x with inFlight := x.inFlight + frames.length }
  frames.foldl (fun u f => u.handFrame (.dump j.channel j.seq f.2) j.dst f.1) s1

/-- Each dump that is first at its destination hands over the frames that wait in the dump buffer. -/
def State.pumpJobs (s : State) : State :=
  s.dump.jobs.foldl (fun u j =>
    if j.first s.dump.jobs && j.frames ≠ [] then
      (u.mapJob j.channel j.seq fun x => { x with frames := [] }).handAll j j.frames
    else u) s

/-! ## Making a dump (R200 to R202, R216, R217) -/

/-- VIS frames as they are put into the dump buffer: those that find room, and how many do not. -/
def bufferFrames (cap : Nat) : Nat → List (List Byte) → List (List Byte × Nat) × Nat × Nat
  | used, [] => ([], 0, used)
  | used, f :: t =>
    if used + f.length ≤ cap then
      let (l, n, u) := bufferFrames cap (used + f.length) t
      ((f, f.length) :: l, n, u)
    else
      let (l, n, u) := bufferFrames cap used t
      (l, n + 1, u)

/-- R217: the buffer without its reserve, a DUMP_HEADER of 168 bytes and a DUMP_END of 72 bytes for every channel. -/
def State.visRoom (s : State) : Nat := s.dump.bufferMib * 1048576 - (168 + 72) * s.layout.channels

/-- The dump of one integration leaves: its record is kept, and its header and VIS frames wait for their destination.
`b` lacks only what follows from the destination; `values` gives each ordinal's value. -/
def State.sendDump (s : State) (b : DumpBody) (half : Nat) (values : Nat → Int × Int) (entries : List LogEntry)
    (limits : List (Nat × Nat)) (given : Option (KV Nat)) : State :=
  let l := s.layout
  let dn := b.dest
  let dst := kvGet Dest.init s.dump.dests dn
  let part := if s.bas.combine.role = 1 then some (s.bas.combine.part, s.split.group) else none
  let per := visPerFrame b.set.coding dst.maxBody
  let wPer := if b.set.weightMode = 0 then dst.maxBody / 4 else dst.maxBody / entryBytes l.dwell
  let wItems := if b.set.weightMode = 0 then l.baselines else entries.length
  let vf := ceilDiv l.baselines per
  let wf := ceilDiv wItems wPer
  let body := { b with visFrames := vf, weightFrames := wf, entries := entries.length }
  let rec_ := s.headerRecord body
  let keep : DumpRec := { seq := b.seq, bytes := rec_ }
  let records := (keep :: kvGet [] s.dump.kept b.channel).take 512
  let s1 := s.mapDump fun d => { d with total := d.total + 1, seqs := kvSet 0 d.seqs b.channel (b.seq + 1),
                                        kept := kvSet [] d.kept b.channel records,
                                        mapDue := kvSet 0 d.mapDue b.channel 0 }
  if !dst.usable s then s1.mapDump fun d => { d with unrouted := d.unrouted + 1 }
  else
    let j0 : DumpJob := {
      channel := b.channel, seq := b.seq, dest := dn, dst := dst, half := half, part := part,
      integStart := s.firstIndex b.start, layout := l, coding := b.set.coding, order := b.set.order,
      weightMode := b.set.weightMode, processed := b.processed, entries := entries, limits := limits, given := given,
      visFrames := body.visFrames, weightFrames := body.weightFrames, frames := [], due := b.due }
    let shift := if b.rotation then 4 else 0
    let items := (l.items b.set.order).map fun e => values e.2
    let frames := (chunks per items).zipIdx.map fun e =>
      let n := roundUp e.1.length (itemBaselines b.set.coding)
      j0.frame .vis (e.2 + 1) (e.2 * per) n (codeItems b.set.coding shift e.1)
    let (kept, gone, used) := bufferFrames s.visRoom s.dump.usedBytes frames
    let header := j0.frame .header 0 0 0 (if part.isSome then rec_ else rec_ ++ zeros 16)
    let j := { j0 with frames := (header, 0) :: kept, discarded := gone }
    let mark (r : DumpRec) : DumpRec := if r.seq = b.seq then { r with visDiscarded := gone } else r
    let s2 := s1.mapDump fun d => { d with
      jobs := d.jobs ++ [j], usedBytes := used, peakBytes := max d.peakBytes used, visDiscarded := d.visDiscarded + gone,
      kept := kvSet [] d.kept b.channel ((kvGet [] d.kept b.channel).map mark) }
    let s3 := if gone = 0 then s2 else s2.raiseEvent 182 j.integStart b.channel
    s3.pumpJobs

/-- The dump settings under which an integration that ends before visit `stop` is dumped; a part sends lossless block order. -/
def State.dumpSettings (s : State) (c stop : Nat) : DumpSet :=
  let d := schedAt s.dumpSched c (s.firstIndex stop)
  if s.bas.combine.role = 1 then { d with coding := 0, order := 0, weightMode := 0 } else d

/-- R379: ns before which a dump at the boundary before visit `stop` is not done. -/
def State.eventDue (s : State) (c stop : Nat) : Nat :=
  (s.dump.scheduled.filter fun a => a.covers c && s.boundary (whenStart a.at_ c) = stop).foldl (fun m a => max m a.due) 0

/-- What an integration says of itself. -/
def State.ownBody (s : State) (c : Nat) (g : Integ) : DumpBody :=
  { channel := c, dest := s.destOf c, seq := kvGet 0 s.dump.seqs c, start := g.start, stop := g.next, set := s.dumpSettings c g.next,
    rotation := g.rotation, preloadMode := (s.accPreload g.preload).mode,
    planned := g.processed + g.unplanned + g.shed + g.excludedLog, processed := g.processed, unplanned := g.unplanned,
    shed := g.shed, excludedLog := g.excludedLog, blockDiscards := (g.entries.filter (·.kind = 3)).length,
    satBaselines := g.satBaselines, saturated := g.saturated, excluded := g.excluded, missing := false,
    forced := forcedAt g.start g.next, firstClose := g.firstClose, due := s.eventDue c g.next, parts := 1, present := 1, visFrames := 0,
    weightFrames := 0, entries := g.entries.length }

/-- Nothing is in progress; the header keeps what it says until the next integration begins, and `left` what the accumulators
hold. -/
def Integ.idle (g : Integ) (left : KV (Option (Int × Int))) : Integ :=
  { g with start := g.next, acc := [], stale := kvOver left g.stale, limits := [], firstClose := none }

/-- The values that an integration leaves in the accumulators. -/
def State.leftValues (s : State) (g : Integ) : KV (Option (Int × Int)) := g.acc.map fun e => (e.1, s.heldValue g e.1)

/-- R175: a residual that nothing has read yet is read for the dump; ordinals that hold a code are saturated from the start. -/
def State.residualCodes (s : State) (g : Integ) : List Nat :=
  let p := s.accPreload g.preload
  if p.mode = 2 then (List.range s.layout.baselines).filter fun q => saturatedPair (s.preloadValue p q)
  else []

/-- The count of saturated baselines that an integration starts with, taken when its preload is first read. -/
def State.readPreload (s : State) (g : Integ) : Integ :=
  if g.processed = 0 then
    let n := (s.residualCodes g).length
    { g with satBaselines := n, saturated := n ≠ 0 }
  else g

/-! ## Combining (R186 to R188, R337, R339) -/

/-- R186: one level of the tree: leaf p takes in leaf p + w. -/
def treeStep {α : Type} (f : α → α → α) (w : Nat) (l : List α) : List α :=
  l.zipIdx.map fun e =>
    if e.2 % (2 * w) = 0 then (match l[e.2 + w]? with | some y => f e.1 y | none => e.1) else e.1

/-- R186: the balanced pairwise tree over at most 8 leaves. -/
def treeCombine {α : Type} (f : α → α → α) (l : List α) : Option α :=
  (treeStep f 4 (treeStep f 2 (treeStep f 1 l))).head?

def State.putCollect (s : State) (x : Collect) : State :=
  let same (y : Collect) : Bool := y.channel = x.channel && y.integStart = x.integStart
  let put (l : List Collect) : List Collect := if l.any same then l.map (fun y => if same y then x else y) else l ++ [x]
  s.mapBas fun b => { b with collects := put b.collects }

/-- The collection of an integration, started now when it is new. -/
def State.collectAt (s : State) (c start : Nat) : Collect :=
  (s.bas.collects.find? fun x => x.channel = c && x.integStart = start).getD
    { channel := c, integStart := start, startedAt := s.ns }

/-- R188: the first visit after `start` that a boundary of the combiner's own schedule, or its stop, stands before. -/
def State.boundaryAfter (s : State) (c start : Nat) : Nat :=
  let longest := ((s.dumpSched.base :: s.dumpSched.later.map (·.2)).map (·.period)).foldl max 0
  let periodic := ((List.range longest).find? fun i => s.periodic c (start + 1 + i)).toList.map (start + 1 + ·)
  let scheduled := (s.dump.scheduled.filter (·.covers c)).map fun a => s.boundary (whenStart a.at_ c)
  let stop := s.tile.stop.toList.map s.boundary
  ((periodic ++ scheduled ++ stop).filter (start < ·)).foldl min (start + (2 ^ 24 - 1))

/-- R203: the close of the first visit of an integration of the combiner's own schedule. -/
def State.closeOf (s : State) (c start : Nat) : Option Nat :=
  let g := s.integ c
  if g.begun && g.start = start then g.firstClose
  else match kvGet 0 s.bas.closes (visitKey c start) with | 0 => none | n + 1 => some n

/-- R187: the leaves present are combined, the preload is added at the root, and the result is dumped. -/
def State.combine (s : State) (x : Collect) : State :=
  let cfg := s.bas.combine
  let p := cfg.parts
  let leaf (i : Nat) : Option Leaf := x.leaves.find? (·.part = i)
  let present := x.leaves.length
  let missing := p - present
  let stopIdx := match x.own, x.leaves with
    | some g, _ => s.firstIndex g.next
    | none, y :: _ => fld y.header 8 8 + 1
    | none, [] => s.firstIndex (s.boundaryAfter x.channel (s.visitOfIndex x.integStart))
  let stop := s.visitOfIndex stopIdx
  let start := s.visitOfIndex x.integStart
  let c := x.channel
  let pre := s.preloadAt c x.integStart
  let sums : KV (Int × Int) := (List.range s.layout.baselines).filterMap fun q =>
    let leaves := (List.range p).map fun i => match leaf i with | some y => kvGet (0, 0) y.values q | none => (0, 0)
    let v := satAdd2 ((treeCombine satAdd2 leaves).getD (0, 0)) (s.preloadValue pre q)
    if v = (0, 0) then none else some (q, v)
  let weights : KV Nat := (List.range s.layout.baselines).filterMap fun q =>
    let w := (x.leaves.map fun y => kvGet 0 y.weights q).sum
    if w = 0 then none else some (q, w)
  let total (off : Nat) : Nat := (x.leaves.map fun y => fld y.header off 4).sum
  let codes := (sums.filter fun e => saturatedPair e.2).length
  -- R212: a weight log can only be the combiner's own (log entry 70)
  let log := match x.own with | some g => g.entries | none => []
  let b : DumpBody :=
    { channel := c, dest := x.dest.getD (s.destOf c), seq := kvGet 0 s.dump.seqs c, start := start, stop := stop,
      set := s.dumpSettings c stop,
      rotation := schedAt s.bas.rotate c x.integStart, preloadMode := pre.mode, planned := total 56, processed := total 60,
      unplanned := total 64, shed := total 68, excludedLog := total 72, blockDiscards := total 76, satBaselines := codes,
      saturated := codes ≠ 0, excluded := total 72 ≠ 0, missing := missing ≠ 0, forced := forcedAt start stop,
      firstClose := match x.own with | some g => g.firstClose | none => s.closeOf c start, due := x.due,
      parts := p, present := present, visFrames := 0, weightFrames := 0, entries := log.length }
  let s1 := s.mapBas fun k => { k with
    collects := k.collects.filter fun y => !(y.channel = c && y.integStart = x.integStart),
    early := if x.own.isNone then k.early ++ [(c, x.integStart)] else k.early,
    lastMissing := kvSet 0 k.lastMissing c (b2n (missing ≠ 0)),
    partialsCombined := k.partialsCombined + present, partialsMissing := k.partialsMissing + missing }
  s1.sendDump b (match x.own with | some g => g.half | none => 2) (fun q => pre.given q (kvGet (0, 0) sums q)) log [] (some weights)

/-- Every leaf is present: the combination is made (R188). -/
def State.tryCombine (s : State) (x : Collect) : State :=
  if x.leaves.length = s.bas.combine.parts then s.combine x else s

/-- R187, R188: collections that started more than timeout_us ago have been combined. At the very moment of the expiry, which
of the two comes first is the order of the events. -/
def State.expireCollects (s : State) : State :=
  (s.bas.collects.filter fun x => x.startedAt + s.bas.combine.timeoutUs * 1000 < s.ns).foldl State.combine s

/-- The device's own accumulators as a leaf. -/
def State.ownLeaf (s : State) (c : Nat) (g : Integ) : Leaf :=
  let l := s.layout
  { part := s.bas.combine.localLeaf,
    values := (List.range l.baselines).filterMap fun q => let v := s.longTerm g q; if v = (0, 0) then none else some (q, v),
    weights := l.blockList.zipIdx.filterMap fun e =>
      let w := granuleCount l g.processed g.entries g.limits e.1.1 e.1.2
      if w = 0 then none else some (e.2, w),
    header := s.headerRecord (s.ownBody c g) }

/-- R494: a dump pass of a channel has completed, so that a due audit step may be taken; in a switchover gap it waits for the
next pass after the gap (R482). -/
def State.notePass (s : State) : State :=
  if s.spare.due && !s.spare.passed && !s.mc.inGap then { s with spare := { s.spare with passed := true, dueNs := s.ns } } else s

/-- The integration of a channel ends before its next visit: it is dumped, or enters its combination. -/
def State.endInteg (s : State) (c : Nat) : State :=
  let g := s.readPreload (s.integ c)
  let s0 := s.notePass
  let dest := s.destOf c
  let s1 := ((s0.setInteg c (g.idle (s0.leftValues g))).settleDumps).expireCollects
  if s.bas.combine.role = 2 then
    let start := s.firstIndex g.start
    if s1.bas.early.contains (c, start) then s1.mapBas fun b => { b with early := b.early.filter (· ≠ (c, start)) }
    else
      let x := s1.collectAt c start
      let leaves := if s.bas.combine.localLeaf = 0xFF then x.leaves else x.leaves ++ [s.ownLeaf c g]
      -- R188: collection started no later than at the end of the last processed visit
      let x1 := { x with own := some g, leaves := leaves, dest := some dest, due := s.eventDue c g.next, startedAt := min x.startedAt (g.lastDone.getD s.ns) }
      ((s1.putCollect x1).mapDump fun d => { d with mapDue := kvSet 0 d.mapDue c 0 }).tryCombine x1
  else s1.sendDump (s.ownBody c g) g.half (s.longTerm g) g.entries g.limits none

/-- R46: the passes that are due in a channel before visit `k` is processed, and the lost visits between them. -/
def State.catchUp (s : State) (c k : Nat) : State :=
  let rec go : Nat → State → State
    | 0, u => u
    | fuel + 1, u =>
      let v := u.settleLost c
      if v.integEnds c then go fuel (v.endInteg c)
      else v
  go (2 * (k + 1 - (s.integ c).next)) s

/-- A boundary has come to stand behind the last visit accounted for: the dump is made in a pass of its own (R46). -/
def evDumpPass (channel : Nat) (s : State) : State :=
  if channel < s.layout.channels && s.integEnds channel then
    let t := (s.endInteg channel).settleLost channel
    -- R533: in a quiesce, in ascending channel order, and only with room for every VIS frame
    if s.pwr.phase = 6 && (s.dump.visDiscarded < t.dump.visDiscarded || (List.range channel).any s.integEnds) then s else t
  else s

def execDumpPass (channel : Nat) (s : State) : Host.Outcome State Fault Refusal :=
  guarded (.dumpPass channel) s (evDumpPass channel s)

/-- Passes still due when a new schedule is loaded or starts (R168), and combinations still collecting. -/
def State.finishDumps (s : State) : State :=
  let s1 := (List.range s.layout.channels).foldl (fun u c =>
    (u.settleLost c).catchUp c ((u.integ c).next + u.bas.lost.length)) s
  (s1.bas.collects.foldl State.combine s1).mapDump fun d => { d with prior := none }

/-- R187: timeout_us has passed since the start of a collection. -/
def evCombineTimeout (channel : Nat) (s : State) : State :=
  match s.bas.collects.find? fun x => x.channel = channel && x.startedAt + s.bas.combine.timeoutUs * 1000 ≤ s.ns with
  | some x => s.combine x
  | none => s

def execCombineTimeout (channel : Nat) (s : State) : Host.Outcome State Fault Refusal :=
  guarded (.combineTimeout channel) s (evCombineTimeout channel s)

/-! ## Weights and the end of a dump (R211, R212, R216, R218) -/

/-- The WEIGHT or WLOG frames of a dump. -/
def DumpJob.weightBytes (j : DumpJob) : List (List Byte) :=
  let l := j.layout
  let make (kind : DumpKind) (per : Nat) (items : List (List Byte)) : List (List Byte) :=
    (chunks per items).zipIdx.map fun e => j.frame kind (1 + j.visFrames + e.2) (e.2 * per) e.1.length e.1.flatten
  if j.weightMode = 0 then
    make .weight (j.dst.maxBody / 4) ((l.items j.order).map fun e => beBytes 4 (match j.given with
      | some w => kvGet 0 w e.2
      | none => granuleCount l j.processed j.entries j.limits e.1.1 e.1.2))
  else make .log (j.dst.maxBody / entryBytes l.dwell) (j.entries.map (·.wire l.dwell))

/-- The destination is ready for the weights of the dump that it is receiving. -/
def evDumpWeightFrames (channel : Nat) (s : State) : State :=
  match s.dump.jobs.find? fun j => j.channel = channel && j.first s.dump.jobs && j.frames = [] && j.inFlight = 0 && !j.weightsDone with
  | none => s
  | some j => (s.mapJob j.channel j.seq fun x => { x with weightsDone := true }).handAll j (j.weightBytes.map fun f => (f, 0))

def execDumpWeightFrames (channel : Nat) (s : State) : Host.Outcome State Fault Refusal :=
  guarded (.dumpWeightFrames channel) s (evDumpWeightFrames channel s)

/-- R214: the DUMP_END; the END of a partial image has no body. -/
def DumpJob.endFrame (j : DumpJob) (lost : Nat) : List Byte :=
  j.frame .last (1 + j.visFrames + j.weightFrames) 0 0
    (if j.part.isSome then []
     else beBytes 4 j.visFrames ++ beBytes 4 j.discarded ++ beBytes 4 j.weightFrames ++
       beBytes 4 (b2n (j.discarded ≠ 0 || lost ≠ 0)) ++ zeros 16)

/-- The DUMP_END leaves, or is lost at a port that is down: the half is released and "dump done" is raised. -/
def evDumpDone (channel : Nat) (s : State) : State :=
  match s.dump.jobs.find? fun j => j.channel = channel && j.first s.dump.jobs && j.weightsDone && j.inFlight = 0 && j.due ≤ s.ns with
  | none => s
  | some j =>
      let bytes := j.endFrame j.lost
      let tag : FrameOwner := .dump j.channel j.seq 0
      let finish (u : State) : State :=
        let jobs := u.dump.jobs.filter fun x => !(x.channel = j.channel && x.seq = j.seq)
        let kept := (kvGet [] u.dump.kept j.channel).map fun r => if r.seq = j.seq then { r with complete := true } else r
        let v := u.mapDump fun d => { d with jobs := jobs, kept := kvSet [] d.kept j.channel kept }
        (v.raiseEvent 181 j.integStart (j.channel * 65536 + j.seq % 65536)).pumpJobs
      if j.dst.kind = 1 then
        let v := s.portAt j.dst.port
        if s.portTransmits j.dst.port then
          finish ((s.setPort j.dst.port { v with txPackets := v.txPackets + 1 }).emit (.frame j.dst.port (j.dst.frame bytes)))
        else finish ((s.setPort j.dst.port { v with txDiscard := v.txDiscard + 1 }).frameGone tag true)
      else
        match s.push j.dst.queue 4 bytes with
        | (u, .done lost) => finish (u.frameGone tag lost)
        | (_, .full) => s
        | (u, .absent) => finish (u.frameGone tag true)

def execDumpDone (channel : Nat) (s : State) : Host.Outcome State Fault Refusal :=
  guarded (.dumpDone channel) s (evDumpDone channel s)

end Sys2Proof.Machine
end

