-- ==== Sys2Proof/Machine/Ring.lean ====
section
/-! DEFINITION. Flint's transient ring: the copy it takes of ingested samples (R345 to R349, R356). -/

namespace Sys2Proof.Machine

def State.mapCap (s : State) (f : CaptureState → CaptureState) : State := { s with cap := f s.cap }

/-- R346: bytes of one ring block. -/
def RingSel.blockBytes (r : RingSel) : Nat := 256 * (r.nIn * r.nCh) + roundUp (ceilDiv (r.nIn * r.nCh) 8) 64

/-- K of R346. -/
def RingSel.blocks (r : RingSel) : Nat := if r.mib = 0 then 0 else r.mib * 1048576 / r.blockBytes

/-- The place of an input of a channel in a block, when the selection holds it. -/
def RingSel.place (r : RingSel) (input channel : Nat) : Option Nat :=
  if r.firstInput ≤ input && input < r.firstInput + r.nIn && r.firstChannel ≤ channel && channel < r.firstChannel + r.nCh then
    some ((channel - r.firstChannel) * r.nIn + (input - r.firstInput))
  else none

/-- The span of a segment covers a granule. -/
def Segment.spans (x : Segment) (granule : Nat) : Bool := x.first ≤ granule && (granule : Int) < x.first + x.count

/-- A held segment pins the block. -/
def CaptureState.pinned (c : CaptureState) (b : RingBlock) : Bool := c.segs.any fun x => x.gen = b.gen && x.spans b.granule

/-- The block of a granule of the present schedule. -/
def CaptureState.isBlock (c : CaptureState) (granule : Nat) (b : RingBlock) : Bool := b.granule = granule && b.gen = c.gen

/-- R347: the block of a granule; a new one takes the unpinned block that was allocated longest ago. -/
def CaptureState.allocate (c : CaptureState) (granule : Nat) : CaptureState :=
  let fresh : RingBlock := { granule := granule, gen := c.gen }
  if c.blocks.any (c.isBlock granule) || c.reused.contains granule then c
  else if c.blocks.length < c.sel.blocks then { c with blocks := c.blocks ++ [fresh] }
  else
    match c.blocks.find? fun b => !c.pinned b with
    | none => c
    | some old => { c with
      blocks := c.blocks.erase old ++ [fresh],
      reused := if old.gen = c.gen then c.reused ++ [old.granule] else c.reused }

def CaptureState.mapBlock (c : CaptureState) (granule : Nat) (f : RingBlock → RingBlock) : CaptureState :=
  { c with blocks := c.blocks.map fun b => if c.isBlock granule b then f b else b }

/-- R348: samples of a granule are discarded for want of staging; each granule counts once. -/
def CaptureState.spoil (c : CaptureState) (granule place : Nat) : CaptureState :=
  let first := c.blocks.any fun b => c.isBlock granule b && kvGet 0 b.spoilt place = 0
  { c.mapBlock granule fun b => { b with spoilt := kvSet 0 b.spoilt place 1 } with overflow := c.overflow + b2n first }

/-- Samples of one logical input and channel from index `idx` on, one byte each, pass to Flint. Whether HBM contention has
filled its staging then (R348) is open. The copy cannot wait for PD93 as R517 has actions wait: samples that pass while it is
not ON are not captured (DESIGN CHOICE, log entry 104). -/
def State.flintWrite (s : State) (input channel idx : Nat) (bytes : List Nat) (_invalid : Bool) : State :=
  let s1 := s.mapCap fun c => { c with top := max c.top (idx + bytes.length) }
  match s.cap.sel.place input channel with
  | none => s1
  | some pl =>
    if s.cap.sel.blocks = 0 || !s.domainOn 93 then s1
    else
      let full := Config.stagingFull s.draws
      let s2 := if full then s1.draw else s1.draw.engineRecords 6
      bytes.zipIdx.foldl (fun u (e : Nat × Nat) =>
        let x := idx + e.2
        u.mapCap fun c =>
          let d := c.allocate (x / 256)
          if full then d.spoil (x / 256) pl
          else d.mapBlock (x / 256) fun b => { b with data := kvSet 0 b.data (pl * 256 + x % 256) e.1 }) s2

/-- The visit of a channel has closed: its granules are marked as R108 finds them. -/
def State.flintClose (s : State) (channel visit : Nat) : State :=
  let r := s.cap.sel
  if r.blocks = 0 || channel < r.firstChannel || r.firstChannel + r.nCh ≤ channel then s
  else
    let per := s.dwell / 256
    let v := s.visit channel visit
    let first := s.firstIndex visit / 256
    (List.range per).foldl (fun u g =>
      (List.range r.nIn).foldl (fun w o =>
        let key := (r.firstInput + o) * per + g
        let good := kvGet 0 v.slots key = 0xFFFF && kvGet 0 v.inval key = 0
        w.mapCap fun c => c.mapBlock (first + g) fun b =>
          let pl := (channel - r.firstChannel) * r.nIn + o
          { b with valid := kvSet 0 b.valid pl (b2n (good && kvGet 0 b.spoilt pl = 0)) }) u) s

/-- R358: the schedule reaches LOADED; what it has not written of a segment will not come. -/
def CaptureState.scheduleOver (c : CaptureState) : CaptureState :=
  { c with segs := c.segs.map (fun x => if x.mode = .capturing then { x with stopped := true } else x),
           cutGen := if c.mode = .deciding then some c.gen else none }

/-- A schedule starts: what the ring held of earlier schedules is beyond reach (R356), but held segments keep their blocks. A
segment that was frozen while no schedule was live waits for this one (R556), and misses what lies before its start. -/
def CaptureState.newSchedule (c : CaptureState) (start : Nat) : CaptureState :=
  let waits (x : Segment) : Bool := x.mode = .capturing && !x.stopped
  let before (x : Segment) : List Nat := (List.range x.count).filter fun i => (x.first + i) * 256 < start
  let segs := c.segs.map fun x => if waits x then { x with gen := c.gen + 1, lost := before x } else x
  let lost := (c.segs.map fun x => if waits x then (before x).length else 0).sum
  let d := { c with segs := segs, lostGranules := c.lostGranules + lost, gen := c.gen + 1, reused := [], top := 0 }
  { d with blocks := c.blocks.filter fun b => d.pinned b }

end Sys2Proof.Machine
end

