-- ==== Sys2Proof/Machine/Ingest.lean ====
section
/-! DEFINITION. Ingest (R88 to R119): frames, KLP packets, the input map, requantisation, arrival and closing. -/

namespace Sys2Proof.Machine

def State.mapIng (s : State) (f : IngestState → IngestState) : State := { s with ing := f s.ing }
def State.countIn (s : State) (p : Nat) (f : InPort → InPort) : State := s.setInPort p (f (s.inPort p))

/-! ## The input map (R98 to R100) -/

def MapEntry.init : MapEntry := {}

def MapEntry.ranges (e : MapEntry) : Bool := 1 ≤ e.count && e.count ≤ 4096 && 1 ≤ e.chans && e.chans ≤ 4096

/-- Two ranges of one dimension meet. -/
def rangesMeet (a n b m : Nat) : Bool := a < b + m && b < a + n

/-- R99: two entries share a place or a source sample. -/
def MapEntry.clash (x y : MapEntry) : Bool :=
  (rangesMeet x.firstLogical x.count y.firstLogical y.count && rangesMeet x.devChan x.chans y.devChan y.chans) ||
  (x.source = y.source && rangesMeet x.firstInput x.count y.firstInput y.count && rangesMeet x.srcChan x.chans y.srcChan y.chans)

def clashFree : List MapEntry → Bool
  | [] => true
  | e :: t => t.all (fun x => !e.clash x) && clashFree t

/-- R99, R165: the entries fit `n` inputs and `channels` channels. -/
def mapFits (n channels : Nat) (es : List MapEntry) : Bool :=
  es.all fun e => e.firstLogical + e.count ≤ n && e.devChan + e.chans ≤ channels

def mapOk (n channels : Nat) (es : List MapEntry) : Bool := es.all (·.ranges) && mapFits n channels es && clashFree es

/-- R100: the map in force for channel `c` in the visit of first index `x`. -/
def State.mapAt (s : State) (c x : Nat) : List MapEntry := schedAt s.ing.map c x

/-- The logical inputs that the map in force sends to a visit of channel `c`. -/
def State.mappedInputs (s : State) (c k : Nat) : List Nat :=
  let es := (s.mapAt c (s.firstIndex k)).filter fun e => e.devChan ≤ c && c < e.devChan + e.chans
  (es.map fun e => (List.range e.count).map (e.firstLogical + ·)).flatten

/-! ## Requantisation (R101, R102) -/

/-- One part: its 4-bit value, and whether it was clipped. -/
def requant (x : Int) (g : Nat) : Int × Bool :=
  let y := x * g
  let q := roundHalfEven y 4096
  (max (-7) (min 7 q), decide (30720 ≤ y.natAbs))

/-- One 4+4 sample as its byte. -/
def packSample (re im : Int) : Nat := ofSigned 4 re * 16 + ofSigned 4 im

/-- The samples of a row as stored bytes, and how many were saturated. -/
def State.storeRow (s : State) (p : Piece) (input : Nat) (raw : List Byte) : List Nat × Nat :=
  if p.wide then
    (List.range p.nt).foldl (fun acc t =>
      let g := schedAt s.ing.gain p.channel (p.index + t)
      let gain := kvGet 4096 g (input * 4096 + p.channel)
      let (re, cr) := requant (toSigned 8 (raw.getD (2 * t) 0).toNat) gain
      let (im, ci) := requant (toSigned 8 (raw.getD (2 * t + 1) 0).toNat) gain
      (acc.1 ++ [packSample re im], acc.2 + b2n (cr || ci))) ([], 0)
  else (raw.map (·.toNat), 0)

/-! ## Closing a visit (R105, R108) -/

/-- R108: a stored granule of a visit is valid. -/
def Visit.granuleValid (v : Visit) (key : Nat) : Bool := kvGet 0 v.slots key = 0xFFFF && kvGet 0 v.inval key = 0

def InputCount.init : InputCount := {}
def State.inputCount (s : State) (i : Nat) : InputCount := kvGet InputCount.init s.ing.inputs i
def State.setInputCount (s : State) (i : Nat) (v : InputCount) : State :=
  s.mapIng fun g => { g with inputs := kvSet InputCount.init g.inputs i v }

/-- The visit closes: granule validity is fixed and counted for every input of the layout. -/
def State.closeVisit (s : State) (c k : Nat) : State :=
  let v := s.visit c k
  if v.closed || k < (s.chan c).floor then s
  else
    let per := s.dwell / 256
    let s1 := if !(s.chan c).share k then s else (List.range s.layout.n).foldl (fun u i =>
      let good := ((List.range per).filter fun g => v.granuleValid (i * per + g)).length
      let x := u.inputCount i
      u.setInputCount i { x with valid := x.valid + good, invalid := x.invalid + (per - good) }) s
    let s2 := s1.setVisit c k { v with closed := true }
    let s3 := s2.setChan c (s2.chan c).settle
    ((if (s.chan c).share k then s3.noteClose c k else s3).flintClose c k).tryRound

/-- R105 step 1: every slot of every mapped input has arrived; of a history visit, those of its tail (R335). -/
def State.allArrived (s : State) (c k : Nat) : Bool :=
  let v := s.visit c k
  let per := s.dwell / 256
  let from_ := if (s.chan c).share k then 0 else per - dCap s.layout.n s.dwell / 256
  let ins := s.mappedInputs c k
  ins ≠ [] && ins.all fun i => (List.range per).all fun g => g < from_ || kvGet 0 v.slots (i * per + g) = 0xFFFF

/-! ## Pieces (R106, R107) -/

/-- R133, R44: ingest has accepted a part for visit `k` of channel `c`. -/
def State.accepted (s : State) (c k : Nat) : State :=
  let v := s.visit c k
  match v.accepted with
  | some _ => s
  | none =>
    let s1 := s.setVisit c k { v with accepted := some s.ns }
    let n := (s.chan c).reach
    if s.timed || k < n then s1 else s1.slackKnown c (k - n)

/-- The slot bits of granule `g` that positions `[p, p + nt)` cover. -/
def slotMask (p nt g : Nat) : Nat :=
  ((List.range 16).filter fun b => p ≤ g * 256 + b * 16 && g * 256 + b * 16 < p + nt).foldl (fun acc b => acc + 2 ^ b) 0

/-- R121, R433: `bytes` of input `i` go from position `pos` of visit `k` on into the channel's area, in the body and the tail. -/
def State.storeSamples (s : State) (c k i pos : Nat) (bytes : List Byte) : State :=
  let l := s.layout
  let ch := s.chan c
  let edge := l.dwell - dCap l.n l.dwell
  let area := (List.range bytes.length).foldl (fun m t =>
    kvSet 0 m (cornerKey l.n l.dwell k i (pos + t)) (bytes.getD t 0).toNat) ch.area
  let base := s.channelOffset c
  let head := min bytes.length (edge - pos)
  let u := s.setChan c { ch with area := area, written := max ch.written (s.firstIndex k + pos + bytes.length) }
  let u1 := u.engineRange 8 (base + l.cornerOffset k i pos) head true
  u1.engineRange 8 (base + l.cornerOffset k i (pos + head)) (bytes.length - head) true

/-- R107: the piece is written unless a slot of it has arrived before; then the visit may close. -/
def State.writePiece (s : State) (p : Piece) : State :=
  let v := s.visit p.channel p.visit
  let pos := p.index - s.firstIndex p.visit
  let per := s.dwell / 256
  let grans := (List.range ((pos + p.nt - 1) / 256 - pos / 256 + 1)).map (pos / 256 + ·)
  if p.rows.any (fun r => grans.any fun g => kvGet 0 v.slots (r.1 * per + g) &&& slotMask pos p.nt g ≠ 0) then
    s.countIn p.port fun q => { q with duplicate := q.duplicate + 1 }
  else
    let share := (s.chan p.channel).share p.visit
    let s1 := p.rows.foldl (fun u r =>
      let (bytes, sat) := s.storeRow p r.1 r.2
      let w := u.visit p.channel p.visit
      let slots := grans.foldl (fun m g =>
        kvSet 0 m (r.1 * per + g) (kvGet 0 m (r.1 * per + g) ||| slotMask pos p.nt g)) w.slots
      let inval := if p.invalid then grans.foldl (fun m g => kvSet 0 m (r.1 * per + g) 1) w.inval else w.inval
      let x := u.inputCount r.1
      let u0 := (u.setVisit p.channel p.visit { w with slots := slots, inval := inval }).storeSamples p.channel p.visit r.1 pos
        (bytes.map (BitVec.ofNat 8 ·))
      let u1 := u0.setInputCount r.1
        { x with samples := x.samples + (if share then p.nt else 0), saturated := x.saturated + (if share then sat else 0),
                 last := max x.last (p.index + p.nt) }
      u1.flintWrite r.1 p.channel p.index bytes p.invalid) s
    if s1.allArrived p.channel p.visit then s1.closeVisit p.channel p.visit else s1

def HeldItem.bytes : HeldItem → Nat
  | .part p => p.nt * p.chans * p.inputs
  | .piece p => p.nt * p.rows.length

/-- R110: bytes of the ingest buffer in use, one per sample. -/
def State.heldBytes (s : State) : Nat := (s.ing.held.map (·.bytes)).sum

def State.hold (s : State) (h : HeldItem) : State := s.mapIng fun g => { g with held := g.held ++ [h] }

/-- R106 step 4: a piece is judged for its own channel. One for a visit that is released, yet two or more beyond the current
visit, meets two lines of the rule; it is early (DESIGN CHOICE, log entry 104). -/
def State.judgePiece (s : State) (p : Piece) : State :=
  let ch := s.chan p.channel
  if ch.closed p.visit then s.countIn p.port fun q => { q with late := q.late + 1 }
  else if ch.after ch.current < p.visit then s.countIn p.port fun q => { q with early := q.early + 1 }
  else
    let s1 := s.accepted p.channel p.visit
    if ch.released p.visit then s1.writePiece p else s1.hold (.piece p)

/-- The pieces that a part's samples make, by device channel, under the maps in force for its visit. -/
def State.piecesOf (s : State) (p : Part) (k : Nat) : List Piece :=
  let size := if p.wide then 2 else 1
  (List.range s.layout.channels).filterMap fun c =>
    let es := (s.mapAt c (s.firstIndex k)).filter fun e =>
      e.source = p.source && e.devChan ≤ c && c < e.devChan + e.chans && p.firstChan ≤ e.srcChan + (c - e.devChan) &&
      e.srcChan + (c - e.devChan) < p.firstChan + p.chans
    let rows := (es.map fun e =>
      let sc := e.srcChan + (c - e.devChan) - p.firstChan
      (List.range p.inputs).filterMap fun ii =>
        let i := p.firstInput + ii
        if e.firstInput ≤ i && i < e.firstInput + e.count then
          some (e.firstLogical + (i - e.firstInput), ((List.range p.nt).map fun t =>
            slice p.samples (((t * p.chans + sc) * p.inputs + ii) * size) size).flatten)
        else none).flatten
    if rows = [] then none
    else some { port := p.port, channel := c, visit := k, wide := p.wide, invalid := p.invalid, index := p.index, nt := p.nt,
                rows := rows }

/-- A part is mapped; samples that no entry covers are counted. -/
def State.mapPart (s : State) (p : Part) (k : Nat) : State :=
  let ps := s.piecesOf p k
  let mapped := (ps.map fun x => x.nt * x.rows.length).sum
  ps.foldl (fun u x => u.judgePiece x)
    (s.countIn p.port fun q => { q with unmapped := q.unmapped + (p.nt * p.chans * p.inputs - mapped) })

/-- The visit of the running schedule that an index lies in. -/
def State.visitOf (s : State) (idx : Nat) : Nat := (idx - s.tile.start) / s.dwell

/-- R106 step 1: there is no visit to take the part. -/
def State.noVisit (s : State) (idx : Nat) : Bool :=
  !s.schedLive || idx < s.tile.start || s.stopped (s.firstIndex (s.visitOf idx))

def State.releasedSomewhere (s : State) (k : Nat) : Bool :=
  (List.range s.layout.channels).any fun c => (s.chan c).released k

/-- R335: the samples of a part that the time split leaves to other devices. -/
def State.notMine (s : State) (p : Part) : State :=
  s.countIn p.port fun q => { q with unmapped := q.unmapped + p.nt * p.chans * p.inputs }

/-- R335: the first sample of a visit that the part of the array writes. -/
def State.firstWritten (s : State) (k : Nat) : Nat :=
  if (s.chan 0).share k then s.firstIndex k
  else if (s.chan 0).history k then s.firstIndex (k + 1) - dCap s.layout.n s.dwell
  else s.firstIndex (k + 1)

/-- R106: a part is judged. -/
def State.judgeWhole (s : State) (p : Part) : State :=
  if s.noVisit p.index then s.countIn p.port fun q => { q with late := q.late + 1 }
  else
    let k := s.visitOf p.index
    if p.index < s.firstWritten k then s.notMine p
    else if s.releasedSomewhere k then s.mapPart p k
    else if (List.range s.layout.channels).any (fun c => k ≤ (s.chan c).after (s.chan c).current) then
      -- accepted for the channels to which the map now in force for its visit sends it (R133)
      (s.piecesOf p k).foldl (fun u x => u.accepted x.channel k) (s.hold (.part p))
    else s.countIn p.port fun q => { q with early := q.early + 1 }

/-- A part of a history visit is cut where its tail begins (R335). -/
def State.judgePart (s : State) (p : Part) : State :=
  let x := s.firstWritten (s.visitOf p.index)
  if !s.noVisit p.index && p.index < x && x < p.index + p.nt then
    let n1 := x - p.index
    let row := p.chans * p.inputs * (if p.wide then 2 else 1)
    (s.judgeWhole { p with nt := n1, samples := p.samples.take (n1 * row) }).judgeWhole
      { p with index := x, nt := p.nt - n1, samples := p.samples.drop (n1 * row) }
  else s.judgeWhole p

/-- R106: the parts of a packet, one for each visit its samples fall in. A packet that lies wholly before the schedule's start,
where no visits are laid out, is one part (DESIGN CHOICE, log entry 104). -/
def State.splitPart (s : State) (p : Part) : List Part :=
  if !s.schedLive || p.index < s.tile.start then [p]
  else
    let stop := s.firstIndex (s.visitOf p.index + 1)
    if p.index + p.nt ≤ stop then [p]
    else
      let n1 := stop - p.index
      let row := p.chans * p.inputs * (if p.wide then 2 else 1)
      -- a packet of at most 2,048 samples may reach over several visits of a short dwell
      let rec go : Nat → Part → List Part
        | 0, q => [q]
        | fuel + 1, q => if q.nt ≤ s.dwell then [q]
          else { q with nt := s.dwell, samples := q.samples.take (s.dwell * row) } ::
            go fuel { q with index := q.index + s.dwell, nt := q.nt - s.dwell, samples := q.samples.drop (s.dwell * row) }
      { p with nt := n1, samples := p.samples.take (n1 * row) } ::
        go 8 { p with index := stop, nt := p.nt - n1, samples := p.samples.drop (n1 * row) }

/-- A part whose first samples lie before the schedule is cut at its start. -/
def State.cutAtStart (s : State) (p : Part) : List Part :=
  if s.schedLive && p.index < s.tile.start && s.tile.start < p.index + p.nt then
    let n1 := s.tile.start - p.index
    let row := p.chans * p.inputs * (if p.wide then 2 else 1)
    { p with nt := n1, samples := p.samples.take (n1 * row) } ::
      s.splitPart { p with index := s.tile.start, nt := p.nt - n1, samples := p.samples.drop (n1 * row) }
  else s.splitPart p

/-! ## KLP packets (R92 to R97) -/

/-- What a header gives: the part as sent, KLP-1's 48-bit index among it. -/
structure Klp where
  v2 : Bool
  part : Part

def klpParse (port : Nat) (b : List Byte) : Option Klp :=
  let ver := fld b 1 1 / 16
  if b.length < 16 || fld b 0 1 ≠ 0x4B then none
  else if ver = 1 then
    let p : Part := { port := port, source := 0, firstChan := fld b 2 2, chans := 1, firstInput := fld b 4 2,
                      inputs := fld b 6 1 + 1, wide := bit (fld b 1 1) 3, invalid := bit (fld b 1 1) 2, index := fld b 10 6,
                      nt := 2 ^ fld b 7 1, samples := b.drop 16 }
    if fld b 7 1 < 4 || 11 < fld b 7 1 || p.index % p.nt ≠ 0 ||
        b.length ≠ 16 + p.nt * p.inputs * (if p.wide then 2 else 1) then none
    else some ⟨false, p⟩
  else if ver = 2 && 32 ≤ b.length then
    let p : Part := { port := port, source := fld b 2 2, firstChan := fld b 4 2, chans := fld b 6 2, firstInput := fld b 8 2,
                      inputs := fld b 10 2, wide := fld b 12 1 = 1, invalid := bit (fld b 14 2) 0, index := fld b 16 8,
                      nt := 2 ^ fld b 13 1, samples := b.drop 32 }
    if fld b 13 1 < 4 || 11 < fld b 13 1 || p.index % p.nt ≠ 0 || p.index = noIndex || fld b 28 4 ≠ crc32c (b.take 28) ||
        1 < fld b 12 1 || p.source = 0xFFFF || p.chans = 0 || 4096 < p.chans || p.inputs = 0 || 4096 < p.inputs ||
        b.length ≠ 32 + p.nt * p.chans * p.inputs * (if p.wide then 2 else 1) then none
    else some ⟨true, p⟩
  else none

def SourceEntry.init : SourceEntry := {}

/-- R95: the source of a KLP-1 packet; `from_`: IP version, source address and UDP source port, none on a KLP port. -/
def State.klp1Source (s : State) (port : Nat) (from_ : Option (Nat × List Byte × Nat)) : Option Nat :=
  ((List.range 256).find? fun i =>
    let e := kvGet SourceEntry.init s.ing.sources i
    e.valid && e.port = port &&
    (match from_ with
     | none => e.family = 0
     | some (fam, addr, udp) => e.family = fam && e.addr.take addr.length = addr && e.udp = udp)).map fun i =>
      (kvGet SourceEntry.init s.ing.sources i).source

/-- R96: the value congruent to the 48-bit index that lies nearest to the reference, the lower of two. -/
def State.extendIndex (s : State) (idx48 : Nat) : Int :=
  let low := (List.range s.layout.channels).foldl (fun (m : Option Nat) c =>
    let k := (s.chan c).current
    match m with | none => some k | some x => some (min x k)) none
  let base : Int := (s.firstIndex (low.getD 0) : Int) - 2 ^ 47
  base + ((idx48 : Int) - base) % 2 ^ 48

/-- R92: a packet is parsed, mapped, and written or held. A KLP-1 index whose nearest value is negative lies before every
schedule, and the packet is late: an index is unsigned, and the manual does not say what a negative value is (DESIGN CHOICE,
log entry 104). R110: room is asked for all of a packet's samples, those that no entry maps too, and before the packet is judged
by its visit (DESIGN CHOICE, log entry 104). -/
def State.klpPacket (s : State) (port : Nat) (from_ : Option (Nat × List Byte × Nat)) (b : List Byte) : State :=
  match klpParse port b with
  | none => s.countIn port fun q => { q with malformed := q.malformed + 1 }
  | some k =>
    let s1 := s.countIn port fun q => if k.v2 then { q with klp2 := q.klp2 + 1 } else { q with klp1 := q.klp1 + 1 }
    let src := if k.v2 then some k.part.source else s.klp1Source port from_
    match src with
    | none => s1.countIn port fun q => { q with unknown := q.unknown + 1 }
    | some source =>
      let p : Part := { k.part with source := source }
      if 16777216 < s1.heldBytes + p.nt * p.chans * p.inputs then
        s1.countIn port fun q => { q with overflow := q.overflow + 1 }
      else if !s1.schedLive then s1.countIn port fun q => { q with late := q.late + 1 }
      else
        let idx : Int := if k.v2 then (p.index : Int) else s1.extendIndex p.index
        if idx < 0 then s1.countIn port fun q => { q with late := q.late + 1 }
        else (s1.cutAtStart { p with index := idx.toNat }).foldl (fun u x => u.judgePart x) s1

def State.countPort (s : State) (p : Nat) (f : Port → Port) : State := s.setPort p (f (s.portAt p))

/-- A whole packet, one that `klpReceived` finds in a lane's blocks, has arrived on a KLP lane port that is UP (R60 to R62). -/
def evKlpPacketReceive (port : Fin 80) (bytes : List Byte) (s : State) : State :=
  match s.portCfg port.val with
  | none => s
  | some c =>
    if !c.klp || (s.portAt port.val).state < 2 || !klpLength bytes.length then s
    else (s.countPort port.val fun q => { q with rxPackets := q.rxPackets + 1 }).klpPacket port.val none bytes

def execKlpPacketReceive (port : Fin 80) (bytes : List Byte) (s : State) : Host.Outcome State Fault Refusal :=
  guarded (.klpPacketReceive port bytes) s (evKlpPacketReceive port bytes s)

/-- R106: what a release, or a stop, lets go of the ingest buffer: the oldest such item. -/
def evHeldPartRelease (s : State) : State :=
  let ready (h : HeldItem) : Bool := match h with
    | .part p => s.noVisit p.index || s.releasedSomewhere (s.visitOf p.index)
    | .piece p => s.noVisit p.index || (s.chan p.channel).released p.visit
  match s.ing.held.find? ready with
  | none => s
  | some h =>
    let s1 := s.mapIng fun g => { g with held := g.held.erase h }
    match h with
    | .part p => s1.judgePart p
    | .piece p => if s.noVisit p.index then s1.countIn p.port fun q => { q with late := q.late + 1 } else s1.judgePiece p

def execHeldPartRelease (s : State) : Host.Outcome State Fault Refusal := guarded (.heldPartRelease) s (evHeldPartRelease s)

/-- R105 step 2, or its fallback. -/
def State.holdExpired (s : State) (c k : Nat) : Bool :=
  if s.timed then
    match s.instantOfIndex (s.firstIndex (k + 1)) with
    | some t => t + s.holdUnits ≤ s.now
    | none => false
  else
    (s.chan c).visits.any fun e => k < e.1 && (match e.2.accepted with
      | some a => a * 65536 + s.holdUnits ≤ s.ns * 65536
      | none => false)

def evVisitHoldExpiry (channel visit : Nat) (s : State) : State :=
  let ch := s.chan channel
  if s.visitExists channel visit && ch.released visit && !ch.closed visit && s.holdExpired channel visit then
    s.closeVisit channel visit
  else s

def execVisitHoldExpiry (channel visit : Nat) (s : State) : Host.Outcome State Fault Refusal :=
  guarded (.visitHoldExpiry channel visit) s (evVisitHoldExpiry channel visit s)

/-! ## Ethernet frames (R54, R58, R88 to R91) -/

/-- The addresses a serial port answers for (R112). -/
def InPort.addresses (v : InPort) : Addresses :=
  { mac := v.mac, vlan := v.vlan, ipv4 := v.ipv4, ipv6 := if v.ipv6 = 0 then [] else [beBytes 16 v.ipv6] }

/-- The source addresses that a query names from offset `o` on. -/
def querySources (b : List Byte) (o size count : Nat) : List (List Byte) :=
  (List.range count).map fun i => slice b (o + size * i) size

/-- R91: a query of IGMPv3 or MLDv2 whose checksum is right and whose sources are all there. An MLD query comes from a
link-local address with hop limit 1 and a Router Alert, or it is dropped, as RFC 3810 has it (log entry 104). -/
def queryOf (ip : Ip) : Option McastQuery :=
  let b := ip.body
  if !ip.v6 && ip.proto = 2 && fld b 0 1 = 0x11 && 12 ≤ b.length then
    if foldSum (wordSum b) ≠ 65535 || b.length < 12 + 4 * fld b 10 2 then none
    else some ⟨4, if fld b 4 4 = 0 then none else some (slice b 4 4), querySources b 12 4 (fld b 10 2)⟩
  else if ip.v6 && ip.proto = 58 && fld b 0 1 = 130 && 28 ≤ b.length then
    if fld ip.src 0 2 / 64 ≠ 0x3FA || ip.hops ≠ 1 || !ip.alert then none
    else if foldSum (pseudoSum ip.src ip.dst 58 b.length + wordSum b) ≠ 65535 || b.length < 28 + 16 * fld b 26 2 then none
    else some ⟨6, if (slice b 8 16).all (· == 0) then none else some (slice b 8 16), querySources b 28 16 (fld b 26 2)⟩
  else none

/-- R90, R91: ICMP messages without an answer, and queries of other versions, are discarded without count. -/
def unheeded (ip : Ip) : Bool := ip.proto = 1 || ip.proto = 58 || (ip.proto = 2 && fld ip.body 0 1 = 0x11)

/-- A message of IPv6 neighbour discovery. -/
def neighbourMessage (ip : Ip) : Bool := ip.v6 && ip.proto = 58 && 133 ≤ fld ip.body 0 1 && fld ip.body 0 1 ≤ 137

/-- R112, R285, R313: a frame of the PTP of a port: by its transport, to its addresses or to those of the standard; the message
in it is an event of its own. -/
def ptpTo (c : PtpPortCfg) (a : Addresses) (f : Frame) : Bool :=
  let udp (own groups : List (List Byte)) (ip : Ip) : Bool :=
    own ≠ [] && (own.contains ip.dst && f.dst = a.mac || groups.contains ip.dst && f.dst = groupMac ip.dst) &&
    (match parseUdp ip with | some u => u.dst = 319 || u.dst = 320 | none => false)
  c.role ≠ 0 &&
  if c.transport = 2 then f.etherType = 0x88F7 && (f.dst = a.mac || f.dst = 0x011B19000000 || f.dst = 0x0180C200000E)
  else match parseIp f.etherType f.payload with
    | some ip =>
      if c.transport = 0 then
        !ip.v6 && udp (if a.ipv4 = 0 then [] else [beBytes 4 a.ipv4]) [[224, 0, 1, 129], [224, 0, 0, 107]] ip
      else
        ip.v6 && udp a.ipv6
          [beBytes 8 0xFF0E000000000000 ++ beBytes 8 0x181, beBytes 8 0xFF02000000000000 ++ beBytes 8 0x6B] ip
    | none => false

def State.filtered (s : State) (p : Nat) : State := s.countIn p fun q => { q with filtered := q.filtered + 1 }
def State.badFrame (s : State) (p : Nat) : State := s.countIn p fun q => { q with malformed := q.malformed + 1 }

/-- R88, R89: an IP frame of an ingest port whose MAC address and tag the port accepts. The manual orders no check of R88
against one of R89; a frame that fails both is counted `filtered` for its address, port or IPv4 protocol, and otherwise
`malformed` (DESIGN CHOICE, log entry 104). -/
def State.ingestIp (s : State) (p : Nat) (f : Frame) : State :=
  let v := s.inPort p
  match parseIp f.etherType f.payload with
  | none => s.badFrame p
  | some ip =>
    let fam := if ip.v6 then 6 else 4
    let mine := if ip.v6 then v.ipv6 ≠ 0 && ip.dst = beBytes 16 v.ipv6 else v.ipv4 ≠ 0 && ip.dst = beBytes 4 v.ipv4
    let joined := v.groups.any fun g => g.family = fam && g.group = ip.dst
    if !(mine || joined) then s.filtered p
    else if if ip.v6 then fld f.payload 6 1 ≠ 17 else ip.fragment then s.badFrame p
    else if ip.proto ≠ 17 then s.filtered p
    else
      match parseUdp ip with
      | none => s.badFrame p
      | some u =>
        if u.dst ≠ v.klpUdp then s.filtered p
        else if !(u.sumOk || (u.sumZero && !ip.v6)) then s.badFrame p
        else s.klpPacket p (some (fam, ip.src, u.src)) u.body

/-- An Ethernet frame arrives on a serial port that is UP. A PTP frame on an egress port whose PTP is disabled, which R54 names
and no rule treats, is discarded and counted (DESIGN CHOICE, log entry 104). -/
def evEthFrameReceive (port : Fin 80) (f : Frame) (s : State) : State :=
  let p := port.val
  match s.portCfg p with
  | none => s
  | some c =>
    if c.klp || (s.portAt p).state < 2 then s
    else if f.etherType = 0x8808 then s.countPort p fun q => { q with rxDiscard := q.rxDiscard + 1 }
    else
      let v := s.inPort p
      let good := s.countPort p fun q => { q with rxPackets := q.rxPackets + 1 }
      let lost := if c.role = 0 then good.filtered p else s.countPort p fun q => { q with rxDiscard := q.rxDiscard + 1 }
      let unicast := v.mac ≠ 0 && f.dst = v.mac
      let multicast := f.dst / 2 ^ 40 % 2 = 1
      if !vlanOk v.vlan f || !(unicast || multicast) then lost
      else if ptpTo (kvGet {} s.qz.ptp.ports p) v.addresses f then good
      else
        match (if v.mac = 0 then none else arpReply v.addresses f) with
        | some r => if unicast || f.dst = 0xFFFFFFFFFFFF then good.sendOwn p r else lost
        | none =>
          let ip := parseIp f.etherType f.payload
          match (if v.mac = 0 then none else ip.bind fun x => neighbourReply v.addresses f x) with
          | some r => good.sendOwn p r
          | none =>
            if c.role ≠ 0 then (if f.etherType = 0x0806 || ip.any neighbourMessage then good else lost)
            else
              match ip.bind queryOf with
              | some q => good.setInPort p { v with queries := v.queries ++ [q] }
              | none =>
                if ip.any unheeded then good
                else if !(unicast || v.groups.any fun g => groupMac g.group = f.dst) then lost
                else if f.etherType ≠ 0x0800 && f.etherType ≠ 0x86DD then lost
                else good.ingestIp p f

def execEthFrameReceive (port : Fin 80) (f : Frame) (s : State) : Host.Outcome State Fault Refusal :=
  guarded (.ethFrameReceive port f) s (evEthFrameReceive port f s)

/-! ## Commands (R112 to R119) -/

def doIngestSetPort (c : Cmd) (s : State) : Res :=
  let p := c.params
  let port := fld p 0 1
  let eth := port ≤ 79 && (match s.portCfg port with | some k => !k.klp | none => false)
  match firstBad [(eth, 0), (fld p 2 2 ≤ 4094, 2)] with
  | some off => .bad off s
  | none =>
    let v := s.inPort port
    .ok (s.setInPort port { v with vlan := fld p 2 2, klpUdp := fld p 4 2, mac := fld p 6 6, ipv4 := fld p 12 4,
                                   ipv6 := fld p 16 16 })

def specIngestSetPort : OpSpec := { row := rowIngestSetPort, body := doIngestSetPort, records := ownRecord 0x0501 }
def execIngestSetPort (c : Cmd) (s : State) : Host.Outcome State Fault Refusal := s.submit specIngestSetPort c

/-- The membership that the parameters spell. -/
def groupAt (p : List Byte) : Membership :=
  let size := if fld p 2 1 = 4 then 4 else 16
  { family := fld p 2 1, group := slice p 4 size, sources := (List.range (fld p 3 1)).map fun i => slice p (20 + 16 * i) size }

/-- Both are memberships of one group. -/
def Membership.isFor (a b : Membership) : Bool := a.family = b.family && a.group = b.group

def doIngestMcast (c : Cmd) (s : State) : Res :=
  let p := c.params
  let port := fld p 0 1
  let fam := fld p 2 1
  let n := fld p 3 1
  let ingest := port ≤ 79 && (match s.portCfg port with | some k => k.role = 0 | none => false)
  match firstBad [(ingest, 0), (fld p 1 1 ≤ 1, 1), (fam = 4 || fam = 6, 2), (n ≤ 4, 3)] with
  | some off => .bad off s
  | none =>
    let v := s.inPort port
    let m := groupAt p
    match v.groups.find? (·.isFor m) with
    | some old =>
      if fld p 1 1 = 0 then .ok ((s.setInPort port { v with groups := v.groups.filter fun g => !g.isFor m }).reportChange port old true)
      else
        .ok ((s.setInPort port { v with groups := v.groups.map fun g => if g.isFor m then m else g }).reportChange port m false)
    | none =>
      if fld p 1 1 = 0 then .bad 4 s
      else if 64 ≤ v.groups.length then .fail stResource s
      else .ok ((s.setInPort port { v with groups := v.groups ++ [m] }).reportChange port m false)

def specIngestMcast : OpSpec := { row := rowIngestMcast, body := doIngestMcast, records := ownRecord 0x0502 }
def execIngestMcast (c : Cmd) (s : State) : Host.Outcome State Fault Refusal := s.submit specIngestMcast c

def doIngestSetSource (c : Cmd) (s : State) : Res :=
  let p := c.params
  let fam := fld p 3 1
  match firstBad [(fld p 1 1 ≤ 1, 1), (fld p 2 1 ≤ 79, 2), (fam = 0 || fam = 4 || fam = 6, 3), (fld p 4 2 ≠ 0xFFFF, 4)] with
  | some off => .bad off s
  | none =>
    let e : SourceEntry := { valid := fld p 1 1 = 1, port := fld p 2 1, family := fam, source := fld p 4 2, udp := fld p 6 2,
                             addr := slice p 8 16 }
    .ok (s.mapIng fun g => { g with sources := kvSet SourceEntry.init g.sources (fld p 0 1) e })

def specIngestSetSource : OpSpec := { row := rowIngestSetSource, body := doIngestSetSource, records := ownRecord 0x0503 }
def execIngestSetSource (c : Cmd) (s : State) : Host.Outcome State Fault Refusal := s.submit specIngestSetSource c

def mapEntryAt (p : List Byte) (e : Nat) : MapEntry :=
  let o := 4 + 16 * e
  { source := fld p o 2, firstInput := fld p (o + 2) 2, count := fld p (o + 4) 2, firstLogical := fld p (o + 6) 2,
    srcChan := fld p (o + 8) 2, chans := fld p (o + 10) 2, devChan := fld p (o + 12) 2 }

def doIngestLoadMap (c : Cmd) (s : State) : Res :=
  let p := c.params
  let first := fld p 0 2
  let n := fld p 2 2
  let checks := ((List.range n).map fun e =>
    [(decide (1 ≤ fld p (8 + 16 * e) 2 ∧ fld p (8 + 16 * e) 2 ≤ 4096), 8 + 16 * e),
     (decide (1 ≤ fld p (14 + 16 * e) 2 ∧ fld p (14 + 16 * e) 2 ≤ 4096), 14 + 16 * e)]).flatten
  match firstBad ([(decide (first ≤ 4095), 0), (decide (1 ≤ n ∧ n ≤ 64), 2), (decide (first + n ≤ 4096), 0)] ++ checks) with
  | some off => .bad off s
  | none =>
    let t := (List.range n).foldl (fun t e => kvSet MapEntry.init t (first + e) (mapEntryAt p e)) s.ing.loadMap
    .ok (s.mapIng fun g => { g with loadMap := t })

def specIngestLoadMap : OpSpec := { row := rowIngestLoadMap, body := doIngestLoadMap }
def execIngestLoadMap (c : Cmd) (s : State) : Host.Outcome State Fault Refusal := s.submit specIngestLoadMap c

/-- The latest visit that has been released in a channel, plus one. -/
def Chan.opened (ch : Chan) : Nat :=
  -- releases follow departures two visits before
  ((List.range ((ch.visits.length + 3) * ch.reach)).map (ch.floor + ·)).foldl (fun m k => if ch.released k then max m (k + 1) else m) 0

/-- R116: the boundary that an index names has been opened in some channel. -/
def State.mapPassed (s : State) (idx : Nat) : Bool :=
  s.schedLive && (List.range s.layout.channels).any fun c => decide (s.boundary idx < (s.chan c).opened)

/-- When an accepted apply acts: at its index, or per channel from the given start. -/
def State.applyAt (s : State) (idx : Nat) (start : Nat → Nat) : When :=
  if idx = noIndex then .chans ((List.range s.layout.channels).map start) 0 else .idx idx

/-- An apply that has not taken effect in any channel is cancelled by the next. -/
def dropPending {α : Type} (x : Sched α) (effective : When → Bool) : Sched α :=
  { x with later := x.later.filter fun e => effective e.1 }

/-- R116: a boundary at or beyond the start of an entry has been opened in some channel. -/
def State.mapOpened (s : State) (w : When) : Bool :=
  (List.range s.layout.channels).any fun c => decide (s.boundary (whenStart w c) < (s.chan c).opened)

def State.mapWhenPassed (s : State) (w : When) : Bool := s.schedLive && s.mapOpened w

def State.loadMapEntries (s : State) (n : Nat) : List MapEntry :=
  (List.range n).map fun i => kvGet MapEntry.init s.ing.loadMap i

/-- R100, R116. An apply at the reserved index acts in each channel at its first visit not yet opened. Pieces that were mapped
already, for a channel where their visit is still to open, keep the mapping they were given (DESIGN CHOICE, log entry 104). -/
def doIngestApplyMap (c : Cmd) (s : State) : Res :=
  let p := c.params
  let n := fld p 0 2
  let idx := fld p 8 8
  if 4096 < n then .bad 0 s
  else
    let es := s.loadMapEntries n
    if !mapOk s.loadedN s.loadedChannels es then .bad 0 s
    else if !s.schedLive then .ok (s.mapIng fun g => { g with map := ⟨es, []⟩ })
    else if idx ≠ noIndex && !s.own.accepted && s.mapPassed idx then .fail stPast s
    else
      let w := s.applyAt idx fun c => s.firstIndex (s.chan c).opened
      .ok (s.mapIng fun g => { g with map := (dropPending g.map s.mapWhenPassed).push w es })

/-- R501: an applied map is journalled as its loads and its apply. -/
def mapRecords (c : Cmd) (s : State) : List (Nat × List Byte) :=
  mapLoads (s.loadMapEntries (fld c.params 0 2)) ++ [(0x0511, c.params)]

def specIngestApplyMap : OpSpec := { row := rowIngestApplyMap, body := doIngestApplyMap, records := mapRecords }
def execIngestApplyMap (c : Cmd) (s : State) : Host.Outcome State Fault Refusal := s.submit specIngestApplyMap c

/-- The next sample that can be written in a channel. -/
def State.nextSample (s : State) (c : Nat) : Nat :=
  max (s.chan c).written (s.firstIndex (s.chan c).floor)

/-- R103: the sample of an index has been written in some channel. -/
def State.gainReached (s : State) (w : When) : Bool :=
  (List.range s.layout.channels).any fun c => decide (whenStart w c < (s.chan c).written)

def State.gainWhenPassed (s : State) (w : When) : Bool := s.schedLive && s.gainReached w

/-- R117: an apply waits for its index, also one that its schedule ended without reaching. -/
def State.gainPending (s : State) : Bool := s.ing.gain.later.any fun e => !s.gainReached e.1

def doIngestLoadGain (c : Cmd) (s : State) : Res :=
  let p := c.params
  let input := fld p 0 2
  let first := fld p 2 2
  let n := fld p 4 2
  match firstBad [(input < 4096, 0), (first < 4096, 2), (1 ≤ n && n ≤ 256, 4), (first + n ≤ 4096, 2)] with
  | some off => .bad off s
  | none =>
    if s.gainPending then .fail stBusy s
    else
      let t := (List.range n).foldl (fun t e => kvSet 4096 t (input * 4096 + first + e) (fld p (8 + 2 * e) 2)) s.ing.gainLoad
      .ok (s.mapIng fun g => { g with gainLoad := t })

def specIngestLoadGain : OpSpec := { row := rowIngestLoadGain, body := doIngestLoadGain }
def execIngestLoadGain (c : Cmd) (s : State) : Host.Outcome State Fault Refusal := s.submit specIngestLoadGain c

def doIngestApplyGain (c : Cmd) (s : State) : Res :=
  let idx := fld c.params 0 8
  if !s.schedLive then .ok (s.mapIng fun g => { g with gain := ⟨g.gainLoad, []⟩ })
  else if idx ≠ noIndex && s.gainWhenPassed (.idx idx) then .fail stPast s
  else
    let w := s.applyAt idx s.nextSample
    .ok (s.mapIng fun g => { g with gain := (dropPending g.gain s.gainWhenPassed).push w g.gainLoad })

def specIngestApplyGain : OpSpec := { row := rowIngestApplyGain, body := doIngestApplyGain }
def execIngestApplyGain (c : Cmd) (s : State) : Host.Outcome State Fault Refusal := s.submit specIngestApplyGain c

def doIngestSetTiming (c : Cmd) (s : State) : Res :=
  let us := fld c.params 0 4
  if us < 10 || 10000 < us then .bad 0 s else .ok (s.mapIng fun g => { g with holdUs := us })

def specIngestSetTiming : OpSpec := { row := rowIngestSetTiming, body := doIngestSetTiming, records := ownRecord 0x0530 }
def execIngestSetTiming (c : Cmd) (s : State) : Host.Outcome State Fault Refusal := s.submit specIngestSetTiming c

def doIngestGetPort (c : Cmd) (s : State) : Res :=
  let p := fld c.params 0 1
  if 79 < p then .bad 0 s
  else
    let v := s.inPort p
    .okWith (beCount 8 v.klp1 ++ beCount 8 v.klp2 ++ beCount 8 v.filtered ++ beCount 8 v.malformed ++ beCount 8 v.unknown ++
      beCount 8 v.unmapped ++ beCount 8 v.late ++ beCount 8 v.early ++ beCount 8 v.duplicate ++ beCount 8 v.overflow ++
      beBytes 4 v.groups.length ++ zeros 4) s

def specIngestGetPort : OpSpec := { row := rowIngestGetPort, body := doIngestGetPort }
def execIngestGetPort (c : Cmd) (s : State) : Host.Outcome State Fault Refusal := s.submit specIngestGetPort c

def doIngestGetInput (c : Cmd) (s : State) : Res :=
  let i := fld c.params 0 2
  if 4096 ≤ i then .bad 0 s
  else
    let x := s.inputCount i
    .okWith (beCount 8 x.samples ++ beCount 8 x.valid ++ beCount 8 x.invalid ++ beCount 8 x.saturated ++
      beBytes 8 (if x.last = 0 then noIndex else x.last - 1)) s

def specIngestGetInput : OpSpec := { row := rowIngestGetInput, body := doIngestGetInput }
def execIngestGetInput (c : Cmd) (s : State) : Host.Outcome State Fault Refusal := s.submit specIngestGetInput c

end Sys2Proof.Machine
end

