-- ==== Sys2Proof/Machine/Phase.lean ====
section
/-! DEFINITION. Phases and their ROM, visit rotation, and the weights that a beam slot's tile loads for a visit
(R182 to R184, R234 to R239, R301). -/

namespace Sys2Proof.Machine

/-! ## The ROM of R184 -/

/-- floor(pi * 2^96). -/
abbrev pi96 : Nat := 0x3243F6A8885A308D313198A2E

/-- Terms of a Taylor series in units of 2^-96: `t` is the next term, `n` the order of its divisor's first factor. -/
def series (x2 : Int) : Nat → Nat → Int → Int → Int
  | 0, _, _, acc => acc
  | fuel + 1, n, t, acc => series x2 fuel (n + 2) (-(t * x2) / (2 ^ 96 * ((n * (n + 1) : Nat) : Int))) (acc + t)

/-- cos and sin of 2 pi r / 65536 for r up to an eighth of a turn, units of 2^-96. -/
def octant (r : Nat) : Int × Int :=
  let x : Int := (pi96 * r / 32768 : Nat)
  let x2 := x * x / 2 ^ 96
  (series x2 14 1 (2 ^ 96) 0, series x2 14 2 x 0)

/-- COS[m] and SIN[m], units of 2^-16. -/
def phasor (m : Nat) : Int × Int :=
  let q := m % 65536 / 16384
  let r := m % 16384
  let (c, s) := if r ≤ 8192 then octant r else let (a, b) := octant (16384 - r); (b, a)
  let c := roundHalfEven c (2 ^ 80)
  let s := roundHalfEven s (2 ^ 80)
  if q = 0 then (c, s) else if q = 1 then (-s, c) else if q = 2 then (-c, -s) else (s, -c)

/-- The 16-bit phase of R184 and R239. -/
def phaseIndex (delta : Nat) : Nat := (delta + 0x8000) / 65536 % 65536

/-! ## θ of R183 -/

/-- φ_i at the visit's midpoint; 0 without a model. -/
def State.fringeOf (s : State) (c k i : Nat) : Nat :=
  let first := s.firstIndex k
  let m := kvGet DelayModel.init (schedAt s.qz.delay c first) i
  let nu := kvGet 0 (schedAt s.bas.fringe c first).sky c
  let (num, den) := s.phaseRate
  if !m.valid then 0
  else match m.tau (first + s.dwell / 2) with
    | some t => fringePhase nu (tauRaw t) num den
    | none => 0

def State.theta (s : State) (c k i : Nat) : Nat :=
  (s.fringeOf c k i + kvGet 0 (schedAt s.bas.fringe c (s.firstIndex k)).phase i) % 2 ^ 32

/-- R184: a short-term sum turned by the phase difference of its inputs, units of 1/16. -/
def rotateSum (thetaI thetaJ : Nat) (x : Int × Int) : Int × Int :=
  let (c, s) := phasor (phaseIndex ((thetaI + 2 ^ 32 - thetaJ) % 2 ^ 32))
  (roundHalfEven (x.1 * c + x.2 * s) 4096, roundHalfEven (x.2 * c - x.1 * s) 4096)

/-! ## Weights of a visit (R236, R237, R239) -/

def clip127 (v : Int) : Int := max (-127) (min 127 v)

/-- A weight turned by the phase of its input; true when a part was clipped. -/
def rotateWeight (theta : Nat) (w : Int × Int) : (Int × Int) × Bool :=
  let (c, s) := phasor (phaseIndex theta)
  let re := roundHalfEven (w.1 * c + w.2 * s) 65536
  let im := roundHalfEven (w.2 * c - w.1 * s) 65536
  ((clip127 re, clip127 im), clip127 re ≠ re || clip127 im ≠ im)

/-- The places of an entry that may hold a weight other than zero. -/
def WeightBank.places (b : WeightBank) (entry inputs : Nat) : List Nat :=
  match b.free with
  | some _ => ((List.range 64).map fun r => (List.range inputs).map fun i => r * 4096 + i).flatten
  | none => b.w.filterMap fun e =>
      if e.1 / 0x40000 = entry && e.1 % 4096 < inputs then some (e.1 % 0x40000) else none

/-- One entry of a bank as the tiles take it for visit `k` of channel `c`, and whether a weight was clipped. -/
def State.entryOf (s : State) (set : BeamSet) (b : WeightBank) (c k : Nat) : BeamWeights × Bool :=
  let entry := if set.shared then 0 else c - set.chan0
  let one (p : Nat) : Nat × (Int × Int) × Bool :=
    let v := b.weight (entry * 0x40000 + p)
    let w : Int × Int := (toSigned 8 (v / 256), toSigned 8 v)
    if set.track then
      let (r, clipped) := rotateWeight (s.theta c k (64 * set.firstGroup + p % 4096)) w
      (p, r, clipped)
    else (p, w, false)
  let ws := (b.places entry (64 * set.groups)).map one
  let scale := (List.range 64).foldl (fun m r => kvSet 1048576 m r (b.scaleOf (scaleKey entry r))) []
  ({ w := ws.foldl (fun m e => kvSet (0, 0) m e.1 e.2.1) [], scale := scale }, ws.any fun e => e.2.2)

/-- A set that forms beams of channel `c`. -/
def BeamSet.covers (b : BeamSet) (c : Nat) : Bool := b.enable && b.chan0 ≤ c && c < b.chan0 + b.chanCount

/-- What the beam slots load for a visit while Mica loads its staging bank; a clipped weight counts once per set and visit. -/
def State.loadBeams (s : State) (c k : Nat) : State × List BeamLoad :=
  let first := s.firstIndex k
  (List.range 16).foldl (fun (u, l) n =>
    let b := u.beamSet n
    if !b.covers c then (u, l)
    else
      let start := b.swap.map fun w => whenStart w c
      let (old, clip1) := u.entryOf b (match start with | some x => if x ≤ first then b.load else b.active | none => b.active) c k
      let (new, clip2) := match start with
        | some x => if first < x && x < first + u.dwell then
            let (e, q) := u.entryOf b b.load c k
            (some (x, e), q)
          else (none, false)
        | none => (none, false)
      (u.setBeamSet n { b with clipped := b.clipped + b2n (clip1 || clip2) }, l ++ [{ set := n, old := old, swap := new }]))
    (s, [])

end Sys2Proof.Machine
end

