-- ==== Sys2Proof/Machine/Settle.lean ====
section
/-! DEFINITION. When an action with a sample index has taken effect, and what a schedule leaves behind when it has ended
(R19, R103, R116, R140, R198, R238, R267, R556). -/

namespace Sys2Proof.Machine

/-! ## Actions at visits (R140) -/

/-- R140, R168: Mica has taken up, in some channel of the schedule, a visit at or beyond the start of an entry. -/
def State.taken (s : State) (w : When) : Bool :=
  (List.range s.layout.channels).any fun c => s.takenFrom c (s.boundary (whenStart w c))

/-- R140, R556: the same of the schedule that is RUNNING or STOPPING. -/
def State.takenPast (s : State) (w : When) : Bool := s.schedLive && s.taken w

/-- R140: the test of an apply index, at acceptance. -/
def State.indexPast (s : State) (idx : Nat) : Bool := idx ≠ noIndex && !s.own.accepted && s.takenPast (.idx idx)

/-- R139, R194: an apply waits for its index, also one that its schedule ended without reaching (R556 frees only the applies
accepted while none runs). -/
def State.schedPending {α : Type} (s : State) (x : Sched α) : Bool := x.later.any fun e => !s.taken e.1

/-- The value that the last apply to take effect made active. -/
def State.schedActive {α : Type} (s : State) (x : Sched α) : α :=
  schedAt { x with later := x.later.filter fun e => s.taken e.1 } 0 noIndex

/-! ## Swaps of beam weights and of filter coefficients (R236, R238, R267) -/

/-- R335: the first visit of the device's share at or after visit `k`. -/
def Chan.shareFrom (ch : Chan) (k : Nat) : Nat := ((List.range ch.stride).find? fun i => ch.share (k + i)).elim k (k + ·)

/-- R238: the visit of channel `c` that contains the index of a swap, or its first visit after it, has left Mica. -/
def State.swapPassed (s : State) (w : When) (c : Nat) : Bool :=
  (s.chan c).gone ((s.chan c).shareFrom (s.visitOfIndex (whenStart w c)))

/-- R140 for an action on samples. -/
def State.sampleTaken (s : State) (w : When) (c : Nat) : Bool := s.schedLive && s.sampleReached w c

def BeamSet.channels (b : BeamSet) : List Nat := (List.range b.chanCount).map (b.chan0 + ·)

/-- "beam swap done" is raised, and the input of the set is free. -/
def State.swapDone (s : State) (n : Nat) : State :=
  let s1 := s.setBeamSet n { s.beamSet n with owed := false }
  { s1 with er := { s1.er with busy := s1.er.busy.filter (· ≠ 78 + n) } }.raise 183 n

/-- The new active bank is copied into the load bank, and "beam swap done" is raised, at least 1 us after an event that asked
for the swap (R379); a swap that waited for this one is now the set's swap. -/
def State.finishSwap (s : State) (n : Nat) : State :=
  let b := s.beamSet n
  let s1 := s.setBeamSet n { b with active := b.load, swap := b.nextSwap, nextSwap := none, owed := true }
  if b.doneAt ≤ s.ns then s1.swapDone n else s1

/-- The chain is enabled, or an enable of it is scheduled. -/
def State.chainEnabled (s : State) (c : Chain) : Bool :=
  s.chainOn c ||
  if s.schedLive then c.enable.later.any fun e => e.2 && s.chainFront c ≤ whenStart e.1 c.channel
  else (s.settledEnable c).later.any (·.2)

/-- The configured chains that count as enabled. -/
def State.liveChains (s : State) : KV Chain := s.filt.chains.filter fun e => e.2.configured && s.chainEnabled e.2

/-- The chain will be enabled before index `x`, by an enable that is scheduled. -/
def State.enabledBefore (s : State) (c : Chain) (x : Nat) : Bool :=
  let comes (from_ : Nat) (l : List (When × Bool)) : Bool :=
    l.any fun e => e.2 && from_ ≤ whenStart e.1 c.channel && whenStart e.1 c.channel < x
  if s.schedLive then comes (s.chainFront c) c.enable.later else comes 0 (s.settledEnable c).later

/-- R267: the chain has passed the index of its swap; or it is disabled, and takes in no value before that index. -/
def State.chainSwapped (s : State) (c : Chain) : Bool :=
  match c.swap with
  | none => true
  | some w => (!s.chainOn c && !s.enabledBefore c (whenStart w c.channel)) || whenStart w c.channel < c.taken

/-- The new active bank is copied into the load bank. -/
def Chain.finishSwap (c : Chain) : Chain := { c with active := c.load, swap := none }

/-- "filter swap done" is raised, and the input is free. -/
def State.filtersDone (s : State) (mask : Nat) : State :=
  { s with er := { s.er with busy := s.er.busy.filter (· ≠ 94) } }.raise 185 mask

/-- The chains of a mask complete their swap, and "filter swap done" is raised, at least 1 us after an event that asked for a
swap (R379). -/
def State.finishFilters (s : State) (mask : Nat) : State :=
  let s1 := (bitsOf 32 mask).foldl (fun u n => u.setChain n (u.chain n).finishSwap) s
  if s.filt.doneAt ≤ s.ns then s1.filtersDone mask else s1.mapFilt fun f => { f with owed := f.owed ++ [mask] }

/-! ## The end of a schedule -/

/-- Swaps that every channel of a set, or every chain of a mask, has passed are complete. -/
def State.settleSwaps (s : State) : State :=
  let s1 := (List.range 32).foldl (fun u i =>
    let n := i % 16
    let b := u.beamSet n
    match b.swap with
    | some w => if b.channels.all fun c => u.swapPassed w c then u.finishSwap n else u
    | none => u) s
  s1.filt.applies.foldl (fun u m =>
    if (bitsOf 32 m).all fun n => u.chainSwapped (u.chain n) then
      (u.mapFilt fun f => { f with applies := f.applies.erase m }).finishFilters m
    else u) s1

/-- R19, R556: settings that have taken effect are in force in every later schedule, the others keep their index; a boundary
before the next visit of a channel coincides with the final dump (R199). -/
def State.settleSettings (s : State) : State :=
  let s1 := s.mapIng fun g => { g with map := schedSettle s.mapOpened 0 g.map, gain := schedSettle s.gainReached 0 g.gain }
  let s2 := { s1 with stg := { s1.stg with coarse := schedSettle s.taken 0 s1.stg.coarse } }
  let s3 := { s2 with qz := { s2.qz with delay := schedSettle s.taken 0 s2.qz.delay } }
  let s4 := s3.mapBas fun b => { b with
    fringe := schedSettle s.taken 0 b.fringe, rotate := schedSettle s.taken 0 b.rotate,
    preload := b.preload.map fun e => (e.1, schedSettle s.taken e.1 e.2) }
  let s5 := s4.mapDump fun d => { d with
    set := schedSettle s.taken 0 d.set,
    scheduled := d.scheduled.filter fun a => match a.at_ with | .idx _ => true | .chans _ _ => false }
  s5.mapFilt fun f => { f with chains := f.chains.map fun e =>
    (e.1, { e.2 with enable := s.settledEnable e.2 }) }

/-- What an ended schedule still owes is done (R168, R187), and what took effect in it stays. -/
def State.endSchedule (s : State) : State := s.finishDumps.settleSwaps.settleSettings

end Sys2Proof.Machine
end

