-- ==== Sys2Proof/Machine/Staging.lean ====
section
/-! DEFINITION. Mica (R120 to R141): loads, starts, deadlines, sheds, the stop of a schedule, coarse delays. -/

namespace Sys2Proof.Machine

def State.mapStg (s : State) (f : StagingState → StagingState) : State := { s with stg := f s.stg }
def State.mapTile (s : State) (f : TileState → TileState) : State := { s with tile := f s.tile }

def State.bank (s : State) (b : Nat) : Bank := if b = 0 then s.stg.bank0 else s.stg.bank1
def State.setBank (s : State) (b : Nat) (v : Bank) : State :=
  s.mapStg fun g => if b = 0 then { g with bank0 := v } else { g with bank1 := v }

/-- R129: a bank that holds nothing and is not being loaded. -/
def State.bankFree (s : State) (b : Nat) : Bool :=
  !(s.bank b).full && !(s.bank b).inUse && (match s.stg.loading with | some l => l.bank ≠ b | none => true)

def State.freeBank (s : State) : Option Nat := if s.bankFree 0 then some 0 else if s.bankFree 1 then some 1 else none

/-- R131: the eligible visit with the smallest index, then channel, sheds and taken visits aside: (channel, visit). -/
def State.candidate (s : State) : Option (Nat × Nat) :=
  (List.range s.layout.channels).foldl (fun (best : Option (Nat × Nat)) c =>
    let k := (s.chan c).next
    let taken := (match s.stg.loading with | some l => l.channel = c && l.visit = k | none => false)
    if !(s.chan c).eligible k || taken || (s.load.round k).plan.contains c then best
    else match best with
      | none => some (c, k)
      | some b => if k < b.2 then some (c, k) else some b) none

/-! ## The end of a schedule (R168) -/

/-- Every visit before the stop has completed or was dropped, in every channel. -/
def State.drained (s : State) : Bool :=
  (List.range s.layout.channels).all (fun c => s.stopped (s.firstIndex (s.chan c).next)) &&
  s.stg.loading.isNone && s.stg.working.isNone && s.stg.inbox.isNone && !s.stg.bank0.full && !s.stg.bank1.full

/-- R168: STOPPING ends. -/
def State.settleSched (s : State) : State :=
  if s.tile.sched = .stopping && s.drained then
    (s.settleDumps.mapTile fun t => { t with sched := .loaded }).mapCap (·.scheduleOver)
  else s

/-- R168: visit `k` lies at or beyond a stop that is pending. -/
def State.stopsAt (s : State) (k : Nat) : Bool :=
  s.tile.sched = .running && (match s.tile.stop with | some x => x ≤ s.firstIndex k | none => false)

/-- R168: a pending stop takes effect, in place of the taking up of a visit at or beyond it. -/
def State.stopSched (s : State) : State := (s.mapTile fun t => { t with sched := .stopping }).settleSched

/-- R168: a pending stop takes effect when Mica, free to load, would take up a visit at or beyond it. -/
def State.tryStop (s : State) : State :=
  match s.candidate with
  | some (_, k) => if s.stg.loading.isNone && s.freeBank.isSome && s.stopsAt k then s.stopSched else s.settleSched
  | none => s.settleSched

/-- R42: the rounds up to the one whose first visit Mica would take up start, so that each is planned whole. -/
def State.beginRounds : Nat → State → State
  | 0, s => s
  | fuel + 1, s =>
    match s.candidate with
    | some (_, k) => if s.load.toBegin ≤ k then State.beginRounds fuel (s.startRound s.load.toBegin) else s
    | none => s

/-- Mica is about to load: a stop that is due takes effect, and the rounds that are due start. -/
def State.readyLoad (s0 : State) : State :=
  let s := s0.tryStop
  match s.candidate with
  | some (c, k) =>
    if s.stg.loading.isNone && s.freeBank.isSome && s.visitExists c k then s.beginRounds (k + s.layout.channels + 1) else s
  | none => s

/-! ## Coarse delay (R123 to R126, R301, R302, R310) -/

/-- τ rounded to whole samples. -/
def wholeSamples (tau : Int) : Int := roundHalfEven tau (2 ^ 128)

/-- d_i(k); none where a loaded model is out of range at the visit's start or midpoint. -/
def State.delayOf (s : State) (c k i : Nat) : Option Int :=
  let first := s.firstIndex k
  let static := kvGet 0 (schedAt s.stg.coarse c first) i
  let m := kvGet DelayModel.init (schedAt s.qz.delay c first) i
  if !m.valid then some (static : Int)
  else
    match m.tau first, m.tau (first + s.dwell / 2) with
    | some t, some _ => some (static + wholeSamples t)
    | _, _ => none

/-- R125: an input's delay lets its samples be staged. -/
def delayUsable (cap : Nat) (d : Option Int) : Bool := match d with | some x => 0 ≤ x && x ≤ cap | none => false

/-! ## Taking up a visit (R128, R131) -/

/-- The visits of a channel as a new schedule finds them: none, over what its area and its records hold. -/
def Chan.fresh (ch : Chan) : Chan := { area := ch.area, lastDelay := ch.lastDelay }

/-- A bank that holds nothing any more; its bytes stay until a load overwrites them. -/
def Bank.emptied (b : Bank) : Bank := { b with full := false, inUse := false }

def evMicaLoadStart (s0 : State) : State :=
  let s := s0.readyLoad
  match s.candidate, s.freeBank with
  | some (c, k), some b =>
    if s.stg.loading.isSome || !s.visitExists c k || !s.stagingOn b then s
    else
      let n := s.layout.n
      let cap := dCap n s.dwell
      let fails := s.qz.voteFail.filter (· < n)
      let raw := (List.range n).map fun i => s.delayOf c k i
      let delays := (List.range n).map fun i => if fails.contains i then none else raw.getD i none
      let out := (List.range n).filter fun i => match delays.getD i none with | some d => !delayUsable cap (some d) | none => false
      let modelOut := (raw.filter (·.isNone)).length
      let s1 := s.mapQz fun q => { q with voteFail := q.voteFail.filter (n ≤ ·), modelRange := q.modelRange + modelOut,
                                          delayVoteFail := q.delayVoteFail + fails.eraseDups.length }
      s1.mapStg fun g => { g with
        loading := some { bank := b, channel := c, visit := k, since := s.ns, delays := delays }, loads := g.loads + 1,
        delayRange := out.foldl (fun t i => kvBump t i 1) g.delayRange }
  | _, _ => s

def execMicaLoadStart (s : State) : Host.Outcome State Fault Refusal := guarded (.micaLoadStart) s (evMicaLoadStart s)

/-- R126: the stored granules that a staged granule draws on are valid. -/
def State.stagedValid (s : State) (c k i g : Nat) (d : Nat) : Bool :=
  let per := s.dwell / 256
  let v := s.visit c k
  let h := s.visit c (k - 1)
  let lo : Int := (g * 256 : Nat) - (d : Int)
  let hi : Int := lo + 255
  let ok (p : Int) : Bool :=
    if 0 ≤ p then v.granuleValid (i * per + p.toNat / 256)
    else k ≠ 0 && h.granuleValid (i * per + (s.dwell + p).toNat / 256)
  ok lo && ok hi

/-- The visit and position of the stored sample that is staged at position `t` (R123); none before the schedule. -/
def storedAt (dwell k t d : Nat) : Option (Nat × Nat) :=
  if d ≤ t then some (k, t - d) else if k = 0 then none else some (k - 1, dwell + t - d)

/-- The sample that is staged at position `t` of input `i`. What Mica makes of a unit that cannot be read, and what the
data-path CSRs do (R424), is open. -/
def State.stagedSample (s : State) (c k i t : Nat) (d : Nat) : Nat :=
  match storedAt s.dwell k t d with
  | none => 0
  | some (v, p) =>
    let l := s.layout
    let lost := s.unitLost (s.channelOffset c + l.cornerOffset v i p)
    match s.stg.touched with
    | some n => Config.freeNat n (t * l.n + i) % 256
    | none => if lost then Config.freeNat s.draws (t * l.n + i) % 256
              else kvGet 0 (kvGet {} s.stg.chans c).area (cornerKey l.n l.dwell v i p)

/-- R137: what a load reads: N x D bytes, of each input the samples its delay selects, in the body and the tails, and the
records. An input that has no usable delay is read as one without a delay, and a first visit's history from the tail that
would hold it (DESIGN CHOICE, log entry 104). -/
def State.loadTraffic (s : State) (c k : Nat) (delays : List (Option Nat)) : State :=
  let l := s.layout
  let cap := dCap l.n l.dwell
  let base := s.channelOffset c
  let u := delays.zipIdx.foldl (fun (u : State) (e : Option Nat × Nat) =>
    let d := e.1.getD 0
    let u1 := u.engineRange 9 (base + l.cornerOffset (if k = 0 then 5 else k - 1) e.2 (l.dwell - d)) d false
    let body := l.dwell - max cap d
    let u2 := u1.engineRange 9 (base + l.cornerOffset k e.2 0) body false
    u2.engineRange 9 (base + l.cornerOffset k e.2 body) (l.dwell - d - body) false) s
  u.engineRecords 9

/-- R125: the delays with which inputs are staged. -/
def Loading.usable (l : Loading) (cap : Nat) : List (Option Nat) :=
  l.delays.map fun x => match x with
    | some d => if delayUsable cap (some d) then some d.toNat else none
    | none => none

/-- R128: the bank as the load leaves it. -/
def State.stage (s : State) (l : Loading) : Bank :=
  let n := s.layout.n
  let per := s.dwell / 256
  let cap := dCap n s.dwell
  let delay (i : Nat) : Option Nat := (l.usable cap).getD i none
  let valid : KV Nat := ((List.range n).map fun i => (List.range per).filterMap fun g =>
    match delay i with
    | some d => if s.stagedValid l.channel l.visit i g d then some (i * per + g, 1) else none
    | none => none).flatten
  let data : KV Nat := ((List.range s.dwell).map fun t => (List.range n).filterMap fun i =>
    if kvGet 0 valid (i * per + t / 256) = 0 then none
    else
      let x := s.stagedSample l.channel l.visit i t ((delay i).getD 0)
      if x = 0 then none else some (t * n + i, x)).flatten
  { full := true, inUse := false, seq := s.stg.loads, fullAt := s.ns, visit := (l.channel, l.visit), data := data, valid := valid,
    delays := l.delays }

/-- Mica has loaded, dropped or shed a visit: its half is released. -/
def State.leave (s : State) (c k : Nat) : State :=
  let s1 := s.setVisit c k { s.visit c k with gone := true }
  s1.setChan c (s1.chan c).settle

def evMicaLoadComplete (s : State) : State :=
  match s.stg.loading with
  | none => s
  | some l =>
    let (s0, beams) := s.loadBeams l.channel l.visit
    let bank := { s.stage l with beams := beams }
    let record (m : KV Int) : KV Int := (List.range s.layout.n).foldl (fun t i =>
      kvSet 0 t i ((l.delays.getD i none).getD (-(2 ^ 31)))) m
    let s1 := (s0.setBank l.bank bank).mapStg fun g =>
      { g with loading := none, loadLast := s.ns - l.since, loadMax := max g.loadMax (s.ns - l.since),
               lastDelay := record g.lastDelay }
    let ch := s1.chan l.channel
    let s2 := (s1.setChan l.channel { ch with lastDelay := record ch.lastDelay }).loadTraffic l.channel l.visit
      (l.usable (dCap s.layout.n s.dwell))
    s2.leave l.channel l.visit

def execMicaLoadComplete (s : State) : Host.Outcome State Fault Refusal :=
  guarded (.micaLoadComplete) s (evMicaLoadComplete s)

/-- R132: a visit that the planner has shed leaves when it becomes eligible, unless Mica loads it already; one at or beyond a
pending stop lets the stop take effect instead (R168). -/
def evShedVisitSkip (channel visit : Nat) (s : State) : State :=
  let loading := match s.stg.loading with | some l => l.channel = channel && l.visit = visit | none => false
  if s.visitExists channel visit && (s.chan channel).eligible visit && (s.load.round visit).plan.contains channel && !loading then
    if s.stopsAt visit then s.stopSched
    else (((s.leave channel visit).countShed channel visit).loseVisit channel visit 2).tryStop
  else s

def execShedVisitSkip (channel visit : Nat) (s : State) : Host.Outcome State Fault Refusal :=
  guarded (.shedVisitSkip channel visit) s (evShedVisitSkip channel visit s)

/-! ## Starting a visit (R130, R44) -/

/-- The full bank that was loaded first. -/
def State.nextBank (s : State) : Option Nat :=
  let a := s.stg.bank0
  let b := s.stg.bank1
  if a.full && !a.inUse then (if b.full && !b.inUse && b.seq < a.seq then some 1 else some 0)
  else if b.full && !b.inUse then some 1 else none

/-- The round sees its visit start: the slack is known now, or at the fallback deadline. -/
def State.roundStart (s : State) (c k : Nat) : State :=
  if s.timed then
    let slack := (s.slackLeft c k).toNat
    s.mapRound k fun r => { r with started := r.started + 1, running := r.running + 1,
                                   slackMin := some (match r.slackMin with | some x => min x slack | none => slack) }
  else
    let s1 := s.mapRound k fun r => { r with started := r.started + 1, running := r.running + 1,
                                             awaiting := r.awaiting ++ [(c, s.ns)] }
    if (s.visit c (k + (s.chan c).reach)).accepted.isSome then s1.slackKnown c k else s1

/-- R135: at one moment with its deadline, the order of the two events decides. -/
def evVisitStart (s : State) : State :=
  match s.stg.working, s.nextBank with
  | none, some b =>
    let v := s.bank b
    let (c, k) := v.visit
    if s.deadlinePassed c k true || !s.liveSlots.all s.slotOn then s
    else
      let work : TileWork := { channel := c, visit := k, data := v.data, valid := v.valid, delays := v.delays, beams := v.beams, tiles := [],
                               since := s.ns }
      let s1 := (s.setBank b { v with inUse := true }).mapStg fun g =>
        { g with working := some (b, work), loaded := g.loaded + 1 }
      (s1.mapTile fun t => { t with slots := t.slots.map fun x => { x with done := false } }).roundStart c k
  | _, _ => s

def execVisitStart (s : State) : Host.Outcome State Fault Refusal := guarded (.visitStart) s (evVisitStart s)

/-! ## Deadlines (R133, R134) -/

/-- Where a visit that has not started stands, by the table of R134. -/
inductive DropState where
  | waiting | loading | loaded (bank : Nat) | started
  deriving DecidableEq, Repr

def State.dropState (s : State) (c k : Nat) : DropState :=
  let inBank (b : Nat) : Bool := (s.bank b).full && (s.bank b).visit = (c, k)
  if inBank 0 then (if s.stg.bank0.inUse then .started else .loaded 0)
  else if inBank 1 then (if s.stg.bank1.inUse then .started else .loaded 1)
  else
    match s.stg.loading with
    | some l => if l.channel = c && l.visit = k then .loading else if (s.chan c).gone k then .started else .waiting
    | none => if (s.chan c).gone k then .started else .waiting

/-- The visit is dropped whole. A load that is abandoned adds nothing to Mica's traffic, though it may have read some of the
visit (DESIGN CHOICE, log entry 104). -/
def State.dropVisit (s : State) (c k : Nat) (how : DropState) : State :=
  let s1 := match how with
    | .loaded b => (s.setBank b (s.bank b).emptied).mapStg fun g => { g with dropLoaded := g.dropLoaded + 1 }
    | .loading =>
      let b := match s.stg.loading with | some l => l.bank | none => 0
      (s.draw.setBank b { undef := some s.draws }).mapStg fun g => { g with loading := none, dropLoading := g.dropLoading + 1 }
    | _ => s.mapStg fun g => { g with dropWaiting := g.dropWaiting + 1 }
  ((((s1.closeVisit c k).leave c k).countDrop c k).loseVisit c k 1).tryStop

/-- R133, R134; a visit at or beyond a pending stop lets the stop take effect instead (R168). -/
def evVisitDeadline (channel visit : Nat) (s : State) : State :=
  match s.dropState channel visit with
  | .started => s
  | how =>
    if s.visitExists channel visit && s.deadlinePassed channel visit false then
      if s.stopsAt visit then s.stopSched else s.dropVisit channel visit how
    else s

def execVisitDeadline (channel visit : Nat) (s : State) : Host.Outcome State Fault Refusal :=
  guarded (.visitDeadline channel visit) s (evVisitDeadline channel visit s)

/-! ## Commands (R139 to R141, R167, R168) -/

def doCorrLoadCoarse (c : Cmd) (s : State) : Res :=
  let p := c.params
  let first := fld p 0 2
  let n := fld p 2 2
  let total := s.loadedN
  let cap := match s.tile.layout with | some l => dCap l.n l.dwell | none => 4096
  match firstBad ([(decide (first < total), 0), (decide (1 ≤ n ∧ n ≤ 256), 2), (decide (first + n ≤ total), 0)] ++
      (List.range n).map fun e => (decide (fld p (8 + 2 * e) 2 ≤ cap), 8 + 2 * e)) with
  | some off => .bad off s
  | none =>
    if s.schedPending s.stg.coarse then .fail stBusy s
    else
      let t := (List.range n).foldl (fun t e => kvSet 0 t (first + e) (fld p (8 + 2 * e) 2)) s.stg.coarseLoad
      .ok (s.mapStg fun g => { g with coarseLoad := t })

def specCorrLoadCoarse : OpSpec := { row := rowCorrLoadCoarse, body := doCorrLoadCoarse }
def execCorrLoadCoarse (c : Cmd) (s : State) : Host.Outcome State Fault Refusal := s.submit specCorrLoadCoarse c

/-- R139: every static delay of the load table is within the corner turn of the loaded layout. -/
def State.coarseOk (s : State) : Bool :=
  match s.tile.layout with
  | some l => s.stg.coarseLoad.all fun e => l.n ≤ e.1 || decide (e.2 ≤ dCap l.n l.dwell)
  | none => true

def doCorrApplyCoarse (c : Cmd) (s : State) : Res :=
  let idx := fld c.params 0 8
  if !s.coarseOk then .bad 0 s
  else if !s.schedLive then .ok (s.mapStg fun g => { g with coarse := ⟨g.coarseLoad, []⟩ })
  else if s.indexPast idx then .fail stPast s
  else
    let w := s.applyAt idx s.nextTaken
    .ok (s.mapStg fun g => { g with coarse := (dropPending g.coarse s.takenPast).push w g.coarseLoad })

/-- The applied static delays, journalled as loads and the apply. -/
def coarseRecords (c : Cmd) (s : State) : List (Nat × List Byte) :=
  coarseLoads (topKey (schedLast s.stg.coarse)) s.stg.coarseLoad ++ [(0x0621, c.params)]

def specCorrApplyCoarse : OpSpec := { row := rowCorrApplyCoarse, body := doCorrApplyCoarse, records := coarseRecords }
def execCorrApplyCoarse (c : Cmd) (s : State) : Host.Outcome State Fault Refusal := s.submit specCorrApplyCoarse c

/-- R141. With no layout loaded, d_cap is shown as the 4,096 that R139 takes then (DESIGN CHOICE, log entry 104). -/
def doCorrGetStaging (c : Cmd) (s : State) : Res :=
  let i := fld c.params 0 2
  if 4096 ≤ i then .bad 0 s
  else
    let g := s.stg
    let cap := match s.tile.layout with | some l => dCap l.n l.dwell | none => 4096
    let banks := b2n g.bank0.full + 2 * b2n g.bank1.full + 4 * b2n g.bank0.inUse + 8 * b2n g.bank1.inUse
    let active := kvGet 0 (s.schedActive g.coarse) i
    .okWith (beCount 8 g.loaded ++ beCount 8 g.dropWaiting ++ beCount 8 g.dropLoading ++ beCount 8 g.dropLoaded ++
      beBytes 4 (min g.loadMax 0xFFFFFFFF) ++ beBytes 4 (min g.loadLast 0xFFFFFFFF) ++ beBytes 2 cap ++ beBytes 1 banks ++
      [0] ++ beBytes 2 active ++ zeros 2 ++ beBytes 4 (ofSigned 32 (kvGet 0 g.lastDelay i)) ++ zeros 4 ++
      beCount 8 (kvGet 0 g.delayRange i)) s

def specCorrGetStaging : OpSpec := { row := rowCorrGetStaging, body := doCorrGetStaging }
def execCorrGetStaging (c : Cmd) (s : State) : Host.Outcome State Fault Refusal := s.submit specCorrGetStaging c

/-- A chain meets a new schedule as it meets the end of a gap, but counts nothing; its grid starts afresh (log entry 24). -/
def Chain.newSchedule (c : Chain) : Chain :=
  { c.restart with anchor := none, runs := c.stages.map (fun _ => {}), input := [], taken := 0 }

/-- The first visit of a schedule that the device's share holds (R335). -/
def State.firstShare (s : State) : Nat := ((List.range (s.chan 0).stride).find? (s.chan 0).share).getD 0

/-- The start of a schedule: visits, rounds, integrations and the overload policy begin afresh (R167). -/
def State.startSchedule (s0 : State) (start : Nat) : State :=
  let s := s0.endSchedule
  let s1 := s.mapTile fun t => { t with sched := .running, start := start, stop := none }
  let s2 := (s1.mapStg fun g => { g with chans := g.chans.map fun e => (e.1, e.2.fresh),
                                         bank0 := g.bank0.emptied, bank1 := g.bank1.emptied, loading := none, working := none,
                                         inbox := none }).mapIng fun g => { g with held := [] }
  let s3 := (if s2.load.shed then s2.enterNormal else s2).mapLoad fun l =>
    { l with s := 0, totals := [], window := [], quiet := 0, rounds := [], owed := [], toBegin := s2.firstShare, ready := true }
  let s4 := s3.mapBas fun b => { b with integs := b.integs.map fun e => (e.1, e.2.fresh) }
  let s5 := s4.mapBas fun b => { b with lost := [], closes := [], collects := [], early := [] }
  let s6 := s5.mapFilt fun f => { f with chains := f.chains.map fun e => (e.1, e.2.newSchedule) }
  let sets : KV BeamSet := s6.beam.sets.map fun e => (e.1, { e.2 with lossSeen := [] })
  let s7 := { s6 with beam := { s6.beam with sets := sets } }
  (s7.mapQz fun q => { q with nextEpoch := 0 }).mapCap (·.newSchedule start)

def doCorrStart (c : Cmd) (s : State) : Res :=
  let idx := fld c.params 0 8
  if s.tile.layout.isNone then .fail stBadParam s
  else if idx % 256 ≠ 0 || idx = noIndex then .bad 0 s
  else if s.schedLive then .fail stBusy s
  else
    match s.instantOfIndex idx with
    | some t => if t ≤ s.now then .fail stPast s else .ok (s.startSchedule idx)
    | none => if s.qz.mapping.isSome then .fail stPast s else .ok (s.startSchedule idx)

def specCorrStart : OpSpec := { row := rowCorrStart, body := doCorrStart }
def execCorrStart (c : Cmd) (s : State) : Host.Outcome State Fault Refusal := s.submit specCorrStart c

/-- R168: the index that the reserved value stands for: the first index of the lowest next visit of any channel, so that
each channel stops at its own next visit. -/
def State.stopIndex (s : State) (idx : Nat) : Nat :=
  if idx = noIndex then (List.range s.layout.channels).foldl (fun m c => min m (s.nextTaken c)) noIndex else idx

def doCorrStop (c : Cmd) (s : State) : Res :=
  let idx := fld c.params 0 8
  if s.tile.sched ≠ .running then .fail stBadParam s
  else if idx ≠ noIndex && s.takenPast (.idx idx) then .fail stPast s
  else .ok (s.mapTile fun t => { t with stop := some (s.stopIndex idx) }).tryStop

def specCorrStop : OpSpec := { row := rowCorrStop, body := doCorrStop }
def execCorrStop (c : Cmd) (s : State) : Host.Outcome State Fault Refusal := s.submit specCorrStop c

end Sys2Proof.Machine
end

