-- ==== Sys2Proof/Machine/Beams.lean ====
section
/-! DEFINITION. Beams: their values, their products and frames, and the loading and swapping of weights (R229 to R257). -/

namespace Sys2Proof.Machine

/-! ## Beam values (R229 to R232, R241) -/

/-- A staged sample as its two parts. -/
def sampleOf (x : Nat) : Int × Int := (toSigned 4 (x / 16), toSigned 4 x)

/-- y_b at one staged position: every product of weight and sample, added exactly. -/
def beamSum (w : BeamWeights) (set : BeamSet) (data : KV Nat) (n t b : Nat) : Int × Int :=
  (w.w.filter fun e => e.1 / 4096 = b).foldl (fun acc e =>
    let i := 64 * set.firstGroup + e.1 % 4096
    if n ≤ i then acc
    else
      let x := sampleOf (kvGet 0 data (t * n + i))
      (acc.1 + e.2.1 * x.1 - e.2.2 * x.2, acc.2 + e.2.1 * x.2 + e.2.2 * x.1)) (0, 0)

/-- R241: one component scaled and requantised, and whether it was clipped. -/
def requantBeam (y : Int) (g : Nat) : Int × Bool :=
  let q := roundHalfEven (y * g) 1048576
  (clip127 q, clip127 q ≠ q)

/-- A beam sample after the requantisation, and whether either component was clipped. -/
structure BeamSample where
  re : Int
  im : Int
  sat : Bool
  deriving DecidableEq, Repr

/-- The 64 samples of a set at one staged position of a visit. -/
def beamSamples (load : BeamLoad) (set : BeamSet) (w : TileWork) (n first t : Nat) : List BeamSample :=
  let bank := match load.swap with
    | some (x, new) => if x ≤ first + t then new else load.old
    | none => load.old
  (List.range 64).map fun b =>
    let y := beamSum bank set w.data n t b
    let g := kvGet 1048576 bank.scale b
    let (re, c1) := requantBeam y.1 g
    let (im, c2) := requantBeam y.2 g
    ⟨re, im, c1 || c2⟩

/-- R232: valid_inputs of a staged granule. -/
def validInputs (set : BeamSet) (w : TileWork) (n per g : Nat) : Nat :=
  ((List.range (64 * set.groups)).filter fun o =>
    let i := 64 * set.firstGroup + o
    i < n && kvGet 0 w.valid (i * per + g) = 1).length

/-! ## Detection (R243 to R245) -/

/-- The detected values of one sample: one power per beam, or I, Q, U and V per pair. -/
def detectOne (detect : Nat) (q : List BeamSample) : List Int :=
  let at_ (i : Nat) : BeamSample := q.getD i ⟨0, 0, false⟩
  let p (x : BeamSample) : Int := x.re * x.re + x.im * x.im
  if detect = 1 then q.map p
  else ((List.range 32).map fun k =>
    let x := at_ (2 * k)
    let y := at_ (2 * k + 1)
    [p x + p y, p x - p y, x.re * y.re + x.im * y.im, x.im * y.re - x.re * y.im]).flatten

/-- One interval: its weight, its values as signed sums, and whether a sample of it saturated. -/
structure Interval where
  weight : Nat
  values : List Int
  sat : Bool
  deriving DecidableEq, Repr

def addLists (a b : List Int) : List Int := List.zipWith (· + ·) a b

def intervalOf (detect : Nat) (weights : List Nat) (samples : List (List BeamSample)) : Interval :=
  let vals := samples.map (detectOne detect)
  let zero := List.replicate (if detect = 1 then 64 else 128) (0 : Int)
  { weight := weights.sum, values := vals.foldl addLists zero, sat := samples.any fun q => q.any (·.sat) }

/-- The exported form of a detected value: Q, U and V carry an offset of 2^31 (R244). -/
def Interval.bytes (x : Interval) (detect : Nat) : List Byte :=
  beBytes 4 x.weight ++ (x.values.zipIdx.map fun e =>
    beBytes 4 (if detect = 2 && e.2 % 4 ≠ 0 then (e.1 + 2 ^ 31).toNat else e.1.toNat)).flatten

/-! ## KBF frames (R247 to R250) -/

/-- R247: a KBF frame; chains use the same header (R273). -/
def State.kbfFrame (s : State) (kind flags channel stream set count valid nInt idx records seq : Nat) (body : List Byte) :
    List Byte :=
  withCrc ([0x42, 1] ++ beBytes 1 kind ++ beBytes 1 (flags + 2 * b2n s.suspect + 4 * b2n s.qz.mapping.isNone) ++
    beBytes 2 channel ++ beBytes 2 stream ++ beBytes 1 set ++ beBytes 1 count ++ beBytes 2 valid ++ beBytes 4 nInt ++
    beBytes 8 idx ++ s.timeField idx ++ beBytes 2 records ++ beBytes 2 body.length ++ beBytes 4 seq) body

def State.beamDest (s : State) (d : Nat) : Option Dest :=
  if d = 0xFF then none else
    let x := kvGet Dest.init s.beam.dests d
    if x.usable s then some x else none

abbrev beamBuffer : Nat := 8388608

/-- A frame of a set finds room in the beam output buffer, or is discarded; the number it used is gone either way.
`make` builds it from its gap flag and its number. -/
def State.offerBeam (s : State) (n c kind : Nat) (d : Dest) (make : Nat → Nat → List Byte) : State × Bool :=
  let b := s.beamSet n
  let key := c * 4 + kind
  let f := make (kvGet 0 b.gaps key) (kvGet 0 b.seqs key % 2 ^ 32)
  let b1 := { b with seqs := kvBump b.seqs key 1 }
  if s.beamBufferUsed + f.length ≤ beamBuffer then
    ((s.setBeamSet n { b1 with gaps := kvSet 0 b1.gaps key 0 }).handFrame (.beam n f.length) d f, false)
  else (s.setBeamSet n { b1 with discarded := b1.discarded + 1 }, true)

/-- R250: "beam loss" of a set and a visit, raised once. -/
def State.beamLoss (s : State) (n c k : Nat) : State :=
  let b := s.beamSet n
  if b.lossSeen.contains (c, k) then s
  else (s.setBeamSet n { b with lossSeen := (b.lossSeen.filter fun e => e.1 ≠ c || k ≤ e.2 + 8) ++ [(c, k)] }).raiseEvent 184
    (s.firstIndex k) n

/-- R249: samples per voltage frame. -/
def voltageRecords (maxBody : Nat) : Nat := 2 ^ Nat.log2 (min 256 (maxBody / 128))

/-- R246, R249: the beams of one set for one visit: formed, detected, sent, and handed to the set's chains by the caller. -/
def State.formBeams (s : State) (w : TileWork) (load : BeamLoad) : State × List (List BeamSample) × List Interval × List Nat :=
  let n := s.layout.n
  let d := s.dwell
  let per := d / 256
  let set := s.beamSet load.set
  let first := s.firstIndex w.visit
  let samples := (List.range d).map fun t => beamSamples load set w n first t
  let valid := (List.range per).map fun g => validInputs set w n per g
  let nInt := if set.detect = 0 then d else max set.nInt 1
  let intervals := if set.detect = 0 then []
    else (List.range (d / nInt)).map fun v =>
      intervalOf set.detect ((List.range nInt).map fun t => valid.getD ((v * nInt + t) / 256) 0) (slice samples (v * nInt) nInt)
  let sat := samples.foldl (fun m q => q.zipIdx.foldl (fun m e => if e.1.sat then kvBump m e.2 1 else m) m) set.sat
  let s1 := s.setBeamSet load.set { set with formed := set.formed + 1, sat := sat }
  let (s2, l1) := match s1.beamDest set.vDest with
    | none => (s1, false)
    | some dst =>
      let r := voltageRecords dst.maxBody
      ((chunks r samples).zipIdx).foldl (fun (u, l) (e : List (List BeamSample) × Nat) =>
        let body := (e.1.map fun (q : List BeamSample) => (q.map fun (x : BeamSample) => beBytes 1 (ofSigned 8 x.re) ++ beBytes 1 (ofSigned 8 x.im)).flatten).flatten
        let bad := e.1.any fun (q : List BeamSample) => q.any (·.sat)
        let (v, x) := u.offerBeam load.set w.channel 1 dst fun gap seq =>
          u.kbfFrame 1 (gap + 8 * b2n bad) w.channel dst.stream load.set 64 (valid.getD (e.2 * r / 256) 0) 1 (first + e.2 * r)
            e.1.length seq body
        (v, l || x)) (s1, false)
  let (s3, l2) := match s2.beamDest set.dDest with
    | none => (s2, false)
    | some dst =>
      let kind := if set.detect = 1 then 2 else 3
      let r := dst.maxBody / (if set.detect = 1 then 260 else 516)
      ((chunks r intervals).zipIdx).foldl (fun (u, l) (e : List Interval × Nat) =>
        let (v, x) := u.offerBeam load.set w.channel kind dst fun gap seq =>
          u.kbfFrame kind (gap + 8 * b2n (e.1.any (·.sat))) w.channel dst.stream load.set (if set.detect = 1 then 64 else 32) 0
            nInt (first + e.2 * r * nInt) e.1.length seq (e.1.map fun (y : Interval) => y.bytes set.detect).flatten
        (v, l || x)) (s2, false)
  let s4 := if l1 || l2 then s3.beamLoss load.set w.channel w.visit else s3
  (s4, samples, intervals, valid)

/-! ## Swaps (R236, R238) -/

/-- R238: every channel of the set has passed the swap; R379: the swap that an event asked for has taken its time. -/
def evBeamSwapDone (set : Fin 16) (s : State) : State :=
  let b := s.beamSet set.val
  if s.ns < b.doneAt then s
  else if b.owed then s.swapDone set.val
  else match b.swap with
  | none => s
  | some w => if b.channels.all fun c => s.swapPassed w c then s.finishSwap set.val else s

def execBeamSwapDone (set : Fin 16) (s : State) : Host.Outcome State Fault Refusal :=
  guarded (.beamSwapDone set) s (evBeamSwapDone set s)

/-- R238: a swap of one set is scheduled. One that has not taken effect is cancelled; one that has taken effect in some channel
goes on to its end, and the new one follows it (log entry 25). -/
def State.swapBeam (s : State) (n idx : Nat) : State :=
  let b := s.beamSet n
  let at_ := s.applyAt idx s.nextTaken
  if !s.schedLive then (s.setBeamSet n { b with nextSwap := none }).finishSwap n
  else
    match b.swap with
    | some w => if b.channels.any fun c => s.sampleTaken w c then s.setBeamSet n { b with nextSwap := some at_ }
                else s.setBeamSet n { b with swap := some at_ }
    | none => s.setBeamSet n { b with swap := some at_ }

def doBeamApply (c : Cmd) (s : State) : Res :=
  let mask := fld c.params 0 2
  let idx := fld c.params 8 8
  let sets := bitsOf 16 mask
  if !sets.all fun n => (s.beamSet n).enable then .bad 0 s
  else if idx ≠ noIndex && sets.any fun n => (s.beamSet n).channels.any fun ch => s.sampleTaken (.idx idx) ch then .fail stPast s
  else .ok (sets.foldl (fun u n => u.swapBeam n idx) s)

def specBeamApply : OpSpec := { row := rowBeamApply, body := doBeamApply }
def execBeamApply (c : Cmd) (s : State) : Host.Outcome State Fault Refusal := s.submit specBeamApply c

/-! ## Load banks (R254) -/

/-- The entry of the bank that a command's channel names; none: outside the set. -/
def BeamSet.entryFor (b : BeamSet) (c : Nat) : Option Nat :=
  if b.shared then some 0 else if b.chan0 ≤ c && c < b.chan0 + b.chanCount then some (c - b.chan0) else none

def doBeamLoadWeights (c : Cmd) (s : State) : Res :=
  let p := c.params
  let n := fld p 0 1
  let beam := fld p 1 1
  let first := fld p 4 2
  let count := fld p 6 2
  let b := s.beamSet n
  let lo := 64 * b.firstGroup
  let hi := lo + 64 * b.groups
  match firstBad [(n ≤ 15, 0), (beam ≤ 63, 1), ((b.entryFor (fld p 2 2)).isSome, 2), (lo ≤ first && first < hi, 4),
      (1 ≤ count && count ≤ 512, 6), (first + count ≤ hi, 4)] with
  | some off => .bad off s
  | none =>
    if b.swap.isSome || b.owed then .fail stBusy s
    else
      let e := (b.entryFor (fld p 2 2)).getD 0
      let w := (List.range count).foldl (fun m i =>
        kvSet 0 m (weightKey e beam (first + i - lo)) (fld p (8 + 2 * i) 2 + 1)) b.load.w
      .ok (s.setBeamSet n { b with load := { b.load with w := w } })

def specBeamLoadWeights : OpSpec := { row := rowBeamLoadWeights, body := doBeamLoadWeights }
def execBeamLoadWeights (c : Cmd) (s : State) : Host.Outcome State Fault Refusal := s.submit specBeamLoadWeights c

def doBeamLoadScale (c : Cmd) (s : State) : Res :=
  let p := c.params
  let n := fld p 0 1
  let first := fld p 1 1
  let count := fld p 4 2
  let b := s.beamSet n
  match firstBad [(n ≤ 15, 0), (first ≤ 63, 1), ((b.entryFor (fld p 2 2)).isSome, 2),
      (1 ≤ count && count ≤ 64, 4), (first + count ≤ 64, 1)] with
  | some off => .bad off s
  | none =>
    if b.swap.isSome || b.owed then .fail stBusy s
    else
      let e := (b.entryFor (fld p 2 2)).getD 0
      let m := (List.range count).foldl (fun m i => kvSet 0 m (scaleKey e (first + i)) (fld p (8 + 4 * i) 4 + 1)) b.load.scale
      .ok (s.setBeamSet n { b with load := { b.load with scale := m } })

def specBeamLoadScale : OpSpec := { row := rowBeamLoadScale, body := doBeamLoadScale }
def execBeamLoadScale (c : Cmd) (s : State) : Host.Outcome State Fault Refusal := s.submit specBeamLoadScale c

/-! ## BEAM_GET_SET (R257) -/

/-- The single index that reports a pending swap: that of the set's first channel. -/
def whenIndex (w : Option When) (c : Nat) : Nat := match w with | some x => whenStart x c | none => noIndex

def doBeamGetSet (c : Cmd) (s : State) : Res :=
  let n := fld c.params 0 1
  let beam := fld c.params 1 1
  match firstBad [(n ≤ 15, 0), (beam ≤ 63, 1)] with
  | some off => .bad off s
  | none =>
    let b := s.beamSet n
    let slot := if b.enable then s.beamSlots.getD (s.firstLeaf n) 0xFFFF else 0xFFFF
    .okWith (beBytes 1 (b2n b.enable) ++ beBytes 1 (ceilDiv b.groups b.slots) ++ beBytes 2 slot ++ beBytes 4 b.entryBytes ++
      beBytes 8 (0x1000000000 + s.bankBase n) ++ beBytes 8 (whenIndex b.swap b.chan0) ++ beCount 8 b.formed ++
      beCount 8 b.lost ++ beCount 8 b.sent ++ beCount 8 b.discarded ++ beCount 8 b.portLost ++ beCount 8 b.clipped ++
      beCount 8 (kvGet 0 b.sat beam)) s

def specBeamGetSet : OpSpec := { row := rowBeamGetSet, body := doBeamGetSet }
def execBeamGetSet (c : Cmd) (s : State) : Host.Outcome State Fault Refusal := s.submit specBeamGetSet c

end Sys2Proof.Machine
end

