-- ==== Sys2Proof/Machine/Capture.lean ====
section
/-! DEFINITION. Transient capture (R350 to R369): detectors, triggers, freezes, segments and their export. -/

namespace Sys2Proof.Machine

/-! ## Triggers (R353 to R355, R358 to R360) -/

/-- R353: the rank of a trigger among those with one index. -/
def Trigger.rank (t : Trigger) : Nat := if t.source = 0 then t.detector else 63 + t.source

/-- The trigger that a window or a hold prefers. -/
def Trigger.before (a b : Trigger) : Bool := a.index < b.index || (a.index = b.index && a.rank < b.rank)

/-- R359: a trigger below A. -/
def CaptureState.suppress (c : CaptureState) (t : Trigger) : CaptureState :=
  let extra := match c.backoffFrom with
    | some x => decide (x ≤ t.index)
    | none => false
  { c with suppressed := c.suppressed + 1, sinceFreeze := c.sinceFreeze + 1,
           suppressedBackoff := c.suppressedBackoff + b2n extra }

/-- R358: a real trigger in [A, A + auto_len) keeps the forced trigger away. -/
def CaptureState.noteAuto (c : CaptureState) (t : Trigger) : CaptureState :=
  { c with autoSpent := c.autoSpent || (t.source ≠ 3 && decide (t.index < c.rearm + c.autoLen)) }

/-- A trigger that capture may accept arrives at moment `ns`. Below A it is suppressed whatever a pending disarm refuses (R355,
R359). -/
def CaptureState.trigger (c : CaptureState) (t : Trigger) (ns : Nat) : CaptureState :=
  let refused := match c.disarmAt with
    | some x => decide (x ≤ t.index)
    | none => false
  if c.mode = .disarmed then c
  else if t.index < c.rearm then c.suppress t
  else if refused then c
  else
    match c.mode with
    | .armed => { c.noteAuto t with mode := .deciding, openedAt := ns, window := [t] }
    | .deciding => { c.noteAuto t with window := c.window ++ [t] }
    | .capturing =>
      match c.held with
      | none => { c.noteAuto t with held := some t }
      | some h => if t.before h then { c.noteAuto t with held := some t, merged := c.merged + 1 } else c.noteAuto t
    | .disarmed => c

/-- R354: an arm at an index, while a schedule is live or not; without one, after the highest index that ingest has written. -/
def CaptureState.arm (c : CaptureState) (idx : Nat) (live : Bool) : CaptureState :=
  if c.mode = .disarmed then
    { c with mode := .armed, armGen := if live then c.gen else c.gen + 1, rearm := if idx = Sys2Proof.noIndex then c.top else idx, disarmAt := none, held := none, autoSpent := false }
  else c

def CaptureState.disarm (c : CaptureState) (idx : Nat) : CaptureState :=
  let x := if idx = Sys2Proof.noIndex then c.top else idx
  match c.mode with
  | .disarmed => c
  | .armed => { c with mode := .disarmed, held := none }
  | _ => { c with disarmAt := some (match c.disarmAt with | some y => min x y | none => x) }

/-- Capture leaves DECIDING without a segment, or CAPTURING: a disarm received meanwhile takes hold. -/
def CaptureState.rest (c : CaptureState) : CaptureState :=
  if c.disarmAt.isSome then { c with mode := .disarmed, disarmAt := none, held := none, window := [] }
  else { c with mode := .armed, window := [] }

/-! ## The freeze (R356, R357, R360) -/

/-- R349: res. -/
def State.ringReserve (s : State) : Nat := 2 * s.dwell / 256 + 2

/-- Places of a span whose granule lies before the schedule, or whose block has been reused. -/
def State.missingOf (s : State) (first : Int) (count : Nat) : List Nat :=
  (List.range count).filter fun i =>
    let g := first + i
    g * 256 < s.tile.start || s.cap.reused.contains g.toNat

/-- Blocks that held segments pin, with those that the span of a segment still capturing awaits. -/
def CaptureState.pinnedCount (c : CaptureState) : Nat :=
  let counts (x : Segment) (i : Nat) : Bool := !x.lost.contains i &&
    (x.mode = .capturing || c.blocks.any fun b => b.gen = x.gen && (b.granule : Int) = x.first + i)
  ((c.segs.map fun x => ((List.range x.count).filter (counts x)).map fun (i : Nat) =>
    (x.gen, (x.first + i).toNat)).flatten).eraseDups.length

/-- λ becomes another value. -/
def State.setLevel (s : State) (l : Nat) : State :=
  if s.cap.level = l then s else (s.mapCap fun c => { c with level := l }).raise 191 l

/-- R360: h_eff. -/
def CaptureState.effectiveHoldoff (c : CaptureState) : Nat := (c.pre + c.post + c.holdoff) * 2 ^ c.level - c.pre - c.post

/-- The schedule that a freeze at this trigger belongs to, where it has reached LOADED: the one that its window opened in; or,
with none live, the last one, unless CAP_ARM or CAP_TRIGGER has its action wait for data of a later schedule (R358, R556). -/
def State.frozenAfter (s : State) (t : Trigger) : Option Nat :=
  let c := s.cap
  if c.cutGen.isSome then c.cutGen
  else if s.schedLive || c.gen = 0 || t.source = 2 || c.gen < c.armGen then none else some c.gen

/-- The freeze at a chosen trigger; `merged`: the others of its window. With no schedule live the segment waits for the data of
a later one (R556), unless it belongs to one that has stopped (R358). -/
def State.freeze (s : State) (t : Trigger) (merged : Nat) : State :=
  let c := s.cap
  let over_ := s.frozenAfter t
  let first : Int := ((t.index : Int) - c.pre) / 256
  let last : Int := ((t.index : Int) + c.post - 1) / 256
  let count := (last - first + 1).toNat
  let lost := if over_.getD (if s.schedLive then c.gen else c.gen + 1) = c.gen then s.missingOf first count else []
  let x : Segment :=
    { mode := .capturing, seq := c.segments, trig := t, first := first, count := count, pre := c.pre, post := c.post,
      merged := merged, suppressed := c.sinceFreeze, level := c.level, lost := lost, gen := over_.getD c.gen,
      stopped := over_.isSome }
  let trial := { c with segs := c.segs ++ [x] }
  if c.sel.blocks < trial.pinnedCount + s.ringReserve || 65536 ≤ c.segs.length then
    s.mapCap fun c => ({ c with ringFull := c.ringFull + 1, cutGen := none }).rest
  else
    let s1 := if c.segs = [] then s else s.setLevel (min 16 (c.level + 1))
    s1.mapCap fun d => { d with
      mode := .capturing, window := [], segs := d.segs ++ [{ x with level := d.level }], segments := d.segments + 1,
      lostGranules := d.lostGranules + lost.length, sinceFreeze := 0, backoffFrom := some (t.index + d.post + d.holdoff),
      rearm := t.index + d.post + d.effectiveHoldoff, autoSpent := false, held := none, cutGen := none }

/-- R358: in mode auto, nothing has been accepted in [A, A + auto_len) by the set moment. -/
def evAutoForcedTrigger (s : State) : State :=
  let c := s.cap
  let idx := c.rearm + c.autoLen
  let due := match s.qz.mapping with
    | some _ => (match s.instantOfIndex idx with
      | some t => decide (t + c.mergeUs * 1000 * 65536 ≤ s.now)
      | none => false)
    | none => decide (c.armGen ≤ c.gen ∧ idx < c.top)
  if c.segMode ≠ 2 || c.autoSpent || !due || (c.mode ≠ .armed && c.mode ≠ .deciding) then s
  else s.mapCap fun c => { c.trigger ⟨idx, 3, 0xFF, 0⟩ s.ns with autoSpent := true }

def execAutoForcedTrigger (s : State) : Host.Outcome State Fault Refusal :=
  guarded .autoForcedTrigger s (evAutoForcedTrigger s)

/-! ## KSF frames (R362, R363) -/

/-- A KSF frame. -/
def State.ksfFrame (s : State) (d : Dest) (x : Segment) (kind flags channel index count firstInput inCount idx mask : Nat)
    (body : List Byte) : List Byte :=
  let head := [0x53, 1] ++ beBytes 1 kind ++ beBytes 1 (b2n s.suspect + 2 * b2n s.qz.mapping.isNone + flags) ++
    beBytes 2 d.stream ++ beBytes 2 channel ++ beBytes 4 x.seq ++ beBytes 4 index ++ beBytes 4 count ++
    beBytes 2 firstInput ++ beBytes 1 inCount ++ [0] ++ beBytes 8 idx ++ beBytes 4 mask ++ beBytes 2 body.length ++ zeros 6
  withCrc head body

/-- Inputs of a full DATA frame. -/
def ksfInputs (maxBody : Nat) : Nat := min 32 (maxBody / 256)

/-- A granule's block, where the ring still holds it for the segment. -/
def State.blockFor (s : State) (x : Segment) (i : Nat) : Option RingBlock :=
  if x.lost.contains i then none else s.cap.blocks.find? fun b => b.gen = x.gen && (b.granule : Int) = x.first + i

/-- The DATA frames of one segment without their headers: granule place, channel, first input, inputs, mask, body. -/
def State.segmentData (s : State) (d : Dest) (x : Segment) : List (Nat × Nat × Nat × Nat × Nat × List Byte) :=
  let r := s.cap.sel
  let per := ksfInputs d.maxBody
  ((List.range x.count).map fun g =>
    ((List.range r.nCh).map fun c =>
      (List.range (ceilDiv r.nIn per)).map fun b =>
        let n := min per (r.nIn - b * per)
        let places := (List.range n).map fun m => c * r.nIn + b * per + m
        let blk := s.blockFor x g
        let ok (p : Nat) : Bool := match blk with | some k => kvGet 0 k.valid p = 1 | none => false
        let mask := (places.zipIdx.map fun (e : Nat × Nat) => if ok e.1 then 2 ^ e.2 else 0).sum
        let body := (places.map fun p => (List.range 256).map fun t =>
          match blk with
          | some k => if ok p then BitVec.ofNat 8 (kvGet 0 k.data (p * 256 + t)) else 0
          | none => 0).flatten
        (g, r.firstChannel + c, r.firstInput + b * per, n, mask, body)).flatten).flatten

def State.dataFrames (s : State) (d : Dest) (x : Segment) : Nat :=
  x.count * s.cap.sel.nCh * ceilDiv s.cap.sel.nIn (ksfInputs d.maxBody)

/-- The body of SEG_HEADER. -/
def State.segHeader (s : State) (x : Segment) : List Byte :=
  let r := s.cap.sel
  beBytes 8 x.trig.index ++ beBytes 8 (ofSigned 64 (x.first * 256)) ++ beBytes 4 x.count ++ beBytes 4 x.pre ++
  beBytes 4 x.post ++ beBytes 1 x.trig.source ++ beBytes 1 x.trig.detector ++ beCount 2 x.merged ++
  s.timeField x.trig.index ++ beBytes 8 (ofSigned 64 x.trig.value) ++ beBytes 4 x.lost.length ++ beBytes 2 r.firstInput ++
  beBytes 2 r.nIn ++ beBytes 2 r.firstChannel ++ beBytes 2 r.nCh ++ beCount 4 x.suppressed ++ beBytes 1 x.level ++ zeros 3

/-- Every frame of a segment but SEG_END, in order. -/
def State.segmentFrames (s : State) (d : Dest) (x : Segment) : List (List Byte) :=
  let count := s.dataFrames d x + 2
  s.ksfFrame d x 1 0 0 0 count 0 0 x.trig.index 0 (s.segHeader x) ::
  ((s.segmentData d x).zipIdx.map fun (e : (Nat × Nat × Nat × Nat × Nat × List Byte) × Nat) =>
    let (g, c, i, n, mask, body) := e.1
    s.ksfFrame d x 2 0 c (e.2 + 1) count i n (ofSigned 64 ((x.first + g) * 256)) mask body)

/-- Some granule of the segment is invalid or missing. -/
def State.segmentSpoilt (s : State) (x : Segment) : Bool :=
  (List.range x.count).any fun g => match s.blockFor x g with
    | none => true
    | some b => (List.range (s.cap.sel.nIn * s.cap.sel.nCh)).any fun p => kvGet 0 b.valid p ≠ 1

def State.segmentEndFrame (s : State) (d : Dest) (x : Segment) : List Byte :=
  let n := s.dataFrames d x
  s.ksfFrame d x 3 (4 * b2n (s.segmentSpoilt x)) 0 (n + 1) (n + 2) 0 0 x.trig.index 0 (beBytes 4 n ++ zeros 12)

/-! ## Ends and export (R358, R360, R362) -/

def State.mapSegment (s : State) (seq : Nat) (f : Segment → Segment) : State :=
  s.mapCap fun c => { c with segs := c.segs.map fun x => if x.seq = seq then f x else x }

/-- The segment frozen first starts its export when it has ended and the destination is enabled. -/
def State.pumpSegments (s : State) : State :=
  match s.cap.segs with
  | x :: _ =>
    if x.mode = .waiting && s.cap.dest.usable s then
      let d := s.cap.dest
      let frames := s.segmentFrames d x
      let s1 := s.mapSegment x.seq fun y => { y with mode := .exporting, inFlight := frames.length, dest := d }
      frames.foldl (fun u f => u.handFrame (.segment x.seq) d f) s1
    else s
  | [] => s

/-- Every selected channel has closed the visit that holds the last index of a segment, or its schedule has reached LOADED; one
that was frozen while no schedule was live waits for the next (R556). -/
def State.segmentEnded (s : State) (x : Segment) : Bool :=
  let r := s.cap.sel
  let k := s.visitOfIndex (x.trig.index + x.post - 1)
  x.stopped || (s.schedLive && x.gen = s.cap.gen && (decide (x.trig.index + x.post ≤ s.tile.start) ||
    (List.range r.nCh).all fun c => (s.chan (r.firstChannel + c)).closed k))

/-- The visits that cover a segment have closed: capture leaves CAPTURING. -/
def evSegmentEnd (s : State) : State :=
  match s.cap.segs.find? (·.mode = .capturing) with
  | none => s
  | some x =>
    if s.cap.mode ≠ .capturing || !s.segmentEnded x then s
    else
      -- what a stop has left unwritten is missing
      let unwritten := if x.stopped then (List.range x.count).filter fun i => !x.lost.contains i && (s.blockFor x i).isNone
        else []
      let s1 := (s.mapSegment x.seq fun y => { y with mode := .waiting, lost := y.lost ++ unwritten }).mapCap fun c =>
        { c with lostGranules := c.lostGranules + unwritten.length }
      let s2 := s1.mapCap fun c =>
        if c.segMode = 0 then { c with mode := .disarmed, disarmAt := none, held := none }
        else
          let d := c.rest
          match d.mode, d.held with
          | .armed, some t => { d with held := none }.trigger t s.ns
          | _, _ => d
      s2.pumpSegments

def execSegmentEnd (s : State) : Host.Outcome State Fault Refusal := guarded .segmentEnd s (evSegmentEnd s)

/-- The segment leaves the table; λ falls when no other segment is capturing or waiting. -/
def State.releaseSegment (s : State) (x : Segment) : State :=
  let s1 := s.mapCap fun c => { c with segs := c.segs.filter (·.seq ≠ x.seq) }
  let busy := s1.cap.segs.any fun y => y.mode = .capturing || y.mode = .waiting
  let s2 := if busy || s1.cap.level = 0 then s1 else s1.setLevel (s1.cap.level - 1)
  (s2.raiseEvent 192 x.trig.index x.seq).pumpSegments

/-- The frames of the exporting segment have left: SEG_END follows, and the segment is done. -/
def evSegmentDone (s : State) : State :=
  match s.cap.segs with
  | [] => s
  | x :: _ =>
    if x.mode ≠ .exporting || x.inFlight ≠ 0 then s.pumpSegments
    else
      let d := x.dest
      let bytes := s.segmentEndFrame d x
      if d.kind = 1 then
        let v := s.portAt d.port
        if s.portTransmits d.port then
          (((s.setPort d.port { v with txPackets := v.txPackets + 1 }).emit (.frame d.port (d.frame bytes))).frameGone
            (.segment x.seq) false).releaseSegment x
        else
          ((s.setPort d.port { v with txDiscard := v.txDiscard + 1 }).frameGone (.segment x.seq) true).releaseSegment x
      else
        match s.push d.queue 4 bytes with
        | (u, .done lost) => (u.frameGone (.segment x.seq) lost).releaseSegment x
        | (_, .full) => s
        | (u, .absent) => (u.frameGone (.segment x.seq) true).releaseSegment x

def execSegmentDone (s : State) : Host.Outcome State Fault Refusal := guarded .segmentDone s (evSegmentDone s)

/-! ## The close of a window (R355, R364) -/

/-- An export that is only to be completed lowers λ before a freeze at the same moment (R364). -/
def State.exportFirst (s : State) : State :=
  match s.cap.segs with
  | x :: _ => if x.mode = .exporting && x.inFlight = 0 then evSegmentDone s else s
  | [] => s

/-- R355: the window closes, and the smallest index is frozen. -/
def evCaptureWindowClose (s0 : State) : State :=
  let s := if s0.cap.mode ≠ .deciding || s0.ns < s0.cap.openedAt + s0.cap.mergeUs * 1000 then s0 else s0.exportFirst
  let c := s.cap
  if c.mode ≠ .deciding || s.ns < c.openedAt + c.mergeUs * 1000 then s
  else
    -- a real trigger at the index of a forced one wins, and the forced one does not count
    let window := c.window.filter fun t => !(t.source = 3 && c.window.any fun r => r.source ≠ 3 && r.index = t.index)
    match window with
    | [] => s.mapCap (·.rest)
    | t :: rest =>
      let best := rest.foldl (fun b x => if x.before b then x else b) t
      let forced := (window.filter (·.source = 3)).length
      (s.mapCap fun c => { c with merged := c.merged + rest.length, forced := c.forced + forced }).freeze best rest.length

def execCaptureWindowClose (s : State) : Host.Outcome State Fault Refusal :=
  guarded .captureWindowClose s (evCaptureWindowClose s)

/-! ## Detectors (R350 to R352) -/

def Detector.init : Detector := {}
def State.det (s : State) (n : Nat) : Detector := kvGet Detector.init s.cap.dets n
def State.setDet (s : State) (n : Nat) (v : Detector) : State :=
  s.mapCap fun c => { c with dets := kvSet Detector.init c.dets n v }

/-- Detector `n` fires: "trigger n" is raised, and a detector of trig_mask triggers capture. -/
def State.fireDetector (s : State) (n idx : Nat) (value : Int) : State :=
  let d := s.det n
  let s1 := (s.setDet n { d with fires := d.fires + 1 }).raiseEvent (41 + n) idx (ofSigned 32 value)
  if bit s.cap.trigMask n then s1.mapCap fun c => c.trigger ⟨idx, 0, n, value⟩ s.ns else s1

/-- R351: an output of a chain series reaches the detectors that watch it. -/
def State.offerOutput (s : State) (chain series label : Nat) (x : Int) (weight : Nat) (gap : Bool) : State :=
  (List.range 64).foldl (fun u n =>
    let d := u.det n
    if d.source ≠ 1 || d.chain ≠ chain || d.series ≠ series then u
    else
      let primed := d.primed && !gap
      let u1 := u.setDet n { d with primed := primed }
      if weight < d.minWeight then u1
      else if x < d.low then u1.setDet n { d with primed := true }
      else if primed && d.high ≤ x then
        let v := u1.fireDetector n label x
        v.setDet n { v.det n with primed := false }
      else u1) s

/-- R352: a detected edge reaches the detectors that watch its pin; `idx`: S(T), where it exists. -/
def State.offerEdge (s : State) (pin : Nat) (rising : Bool) (idx : Nat) : State :=
  (List.range 64).foldl (fun u n =>
    let d := u.det n
    if d.source ≠ 2 || d.pin ≠ pin then u
    else
      let active := rising = !d.falling
      if !active then (if d.level then u.setDet n { d with primed := true } else u)
      else if d.level && !d.primed then u
      else
        if idx = noIndex then u.mapCap fun c => { c with noIndex := c.noIndex + 1 }
        else (if d.level then u.setDet n { d with primed := false } else u).fireDetector n idx 0) s

/-! ## Commands (R366 to R369) -/

/-- R349: K suffices for res and one span; nothing is asked of an absent ring. -/
def RingSel.fits (r : RingSel) (reserve pre post : Nat) : Bool := r.mib = 0 || reserve + ceilDiv (pre + post) 256 + 1 ≤ r.blocks

def doCapSetSegment (c : Cmd) (s : State) : Res :=
  let p := c.params
  let mode := fld p 0 1
  let pre := fld p 4 4
  let post := fld p 8 4
  let hold := fld p 12 4
  match firstBad [(mode ≤ 2, 0), (fld p 2 2 ≤ 1000, 2), (pre ≤ 2 ^ 24 && pre % 256 = 0, 4),
      (256 ≤ post && post ≤ 2 ^ 24 && post % 256 = 0, 8), (hold ≤ 2 ^ 24 && hold % 256 = 0, 12),
      (mode ≠ 2 || 256 ≤ fld p 16 4, 16)] with
  | some off => .bad off s
  | none =>
    if s.cap.mode ≠ .disarmed then .fail stBusy s
    else if !s.replaying && s.tile.layout.isSome && !s.cap.sel.fits s.ringReserve pre post then .fail stResource s
    else .ok (s.mapCap fun d => { d with segMode := mode, mergeUs := fld p 2 2, pre := pre, post := post, holdoff := hold,
                                         autoLen := fld p 16 4, trigMask := fld p 24 8 })

def specCapSetSegment : OpSpec := { row := rowCapSetSegment, body := doCapSetSegment, records := ownRecord 0x0902 }
def execCapSetSegment (c : Cmd) (s : State) : Host.Outcome State Fault Refusal := s.submit specCapSetSegment c

/-- A field is held to its stated range whatever the source; that it names something that exists, and that high lies above
low, is asked of the fields of the source chosen (DESIGN CHOICE, log entry 104). -/
def doCapSetDetector (c : Cmd) (s : State) : Res :=
  let p := c.params
  let n := fld p 0 1
  let src := fld p 1 1
  let chain := s.chain (fld p 2 1)
  let pin := s.evtPin (fld p 4 1)
  let level := fld p 5 1 = 1
  let falling := fld p 6 1 = 1
  let low := sfld p 8 8
  let high := sfld p 16 8
  let edges := pin.edges
  let edgesOk := if level then edges = 3 else if falling then bit edges 1 else bit edges 0
  match firstBad [(n ≤ 63, 0), (src ≤ 2, 1),
      (fld p 2 1 ≤ 31 && (src ≠ 1 || s.replaying || (chain.configured && chain.detected && chain.toFlint)), 2),
      (src ≠ 1 || s.replaying || fld p 3 1 < chain.series, 3),
      (fld p 4 1 ≤ 15 && (src ≠ 2 || s.replaying || !pin.output), 4),
      (fld p 5 1 ≤ 1 && (src ≠ 2 || s.replaying || edgesOk), 5), (fld p 6 1 ≤ 1, 6),
      (src ≠ 1 || low < high, 16)] with
  | some off => .bad off s
  | none =>
    -- a line whose level no edge has shown yet is either way (log entry 31)
    let inactive := (pin.level.getD (Config.freeBool s.draws n)) = falling
    .ok (s.draw.setDet n {
                      source := src, chain := fld p 2 1, series := fld p 3 1, pin := fld p 4 1, level := level,
                      falling := falling, low := low, high := high, minWeight := fld p 24 4,
                      primed := src = 2 && level && inactive, fires := (s.det n).fires })

def specCapSetDetector : OpSpec := { row := rowCapSetDetector, body := doCapSetDetector, records := ownRecord 0x0910 }
def execCapSetDetector (c : Cmd) (s : State) : Host.Outcome State Fault Refusal := s.submit specCapSetDetector c

def doCapArm (c : Cmd) (s : State) : Res :=
  let act := fld c.params 0 1
  let idx := fld c.params 8 8
  if 1 < act then .bad 0 s
  else .ok (s.mapCap fun d => if act = 1 then d.arm idx s.schedLive else d.disarm idx)

def specCapArm : OpSpec := { row := rowCapArm, body := doCapArm }
def execCapArm (c : Cmd) (s : State) : Host.Outcome State Fault Refusal := s.submit specCapArm c

/-- A trigger needs an index: the reserved value of R6 is refused (log entry 26). -/
def doCapTrigger (c : Cmd) (s : State) : Res :=
  let idx := fld c.params 8 8
  match firstBad [(fld c.params 0 1 = 0, 0), (idx ≠ noIndex, 8)] with
  | some off => .bad off s
  | none => .ok (s.mapCap fun d => d.trigger ⟨idx, 2, 0xFF, 0⟩ s.ns)

def specCapTrigger : OpSpec := { row := rowCapTrigger, body := doCapTrigger }
def execCapTrigger (c : Cmd) (s : State) : Host.Outcome State Fault Refusal := s.submit specCapTrigger c

def CapMode.code : CapMode → Nat
  | .disarmed => 0 | .armed => 1 | .deciding => 2 | .capturing => 3

def doCapGetStatus (c : Cmd) (s : State) : Res :=
  let n := fld c.params 0 1
  if 63 < n then .bad 0 s
  else
    let d := s.cap
    let x := s.det n
    .okWith (beBytes 1 d.mode.code ++ beBytes 1 d.level ++ beCount 2 d.segs.length ++ beBytes 4 d.sel.blocks ++
      beBytes 4 (d.blocks.filter fun b => d.pinned b).length ++ zeros 4 ++ beBytes 8 d.rearm ++ beCount 8 d.segments ++
      beCount 8 d.forced ++ beCount 8 d.merged ++ beCount 8 d.suppressed ++ beCount 8 d.suppressedBackoff ++
      beCount 8 d.ringFull ++ beCount 8 d.noIndex ++ beCount 8 d.lostGranules ++ beCount 8 d.overflow ++
      beCount 8 d.framesSent ++ beCount 8 d.portLost ++ beCount 8 x.fires ++ beBytes 1 (b2n x.primed) ++ zeros 7) s

def specCapGetStatus : OpSpec := { row := rowCapGetStatus, body := doCapGetStatus }
def execCapGetStatus (c : Cmd) (s : State) : Host.Outcome State Fault Refusal := s.submit specCapGetStatus c

end Sys2Proof.Machine
end

