-- ==== Sys2Proof/Machine/Rates.lean ====
section
/-! DEFINITION. Output rates and volumes against what destinations and buffers carry (R220, R251, R271, R273), and the
parameters of a destination (R223, R250, R362). -/

namespace Sys2Proof.Machine

/-! ## Capacity of a destination (R220) -/

/-- Line rate of an Ethernet mode, bits per second. -/
def lineRate (mode : Nat) : Nat := ([10, 25, 25, 50, 100, 100, 200, 400] : List Nat).getD mode 0 * 1000000000

/-- Capacity in bits per second; none: no such egress port, or no link. -/
def State.destCapacity (s : State) (d : Dest) : Option Nat :=
  if d.kind = 1 then
    match s.portCfg d.port with
    | some c => if c.role = 1 && !c.klp then some (lineRate c.mode) else none
    | none => none
  else if d.kind = 2 then
    some (8 * 1000000000 * (if s.pwr.pcieGen = 5 then 24 else if s.pwr.pcieGen = 4 then 12 else if s.pwr.pcieGen = 3 then 6 else 24))
  else none

/-- o of R220. -/
def Dest.overhead (d : Dest) : Nat :=
  if d.kind = 2 then 0 else (if d.family = 4 then 66 else 86) + (if d.vlan = 0 then 0 else 4)

/-- A rate of `num / den` bytes per second exceeds 95 % of a capacity. -/
def overCapacity (num den : Nat) (cap : Option Nat) : Bool :=
  match cap with
  | some bits => decide (bits * 95 * den < num * 8 * 100)
  | none => false

/-! ## Dumps (R220) -/

/-- VIS frames of a dump and their body bytes. -/
def visVolume (l : CorrLayout) (coding maxBody : Nat) : Nat × Nat :=
  (ceilDiv l.baselines (visPerFrame coding maxBody), ceilDiv l.baselines (itemBaselines coding) * itemBytes coding)

/-- W of R220. The entries of a log follow the data: how many are counted is open (log entry 27). `part`: a partial image is
sent, whose HEADER has 112 bytes and whose END has none (R338). -/
def dumpWire (l : CorrLayout) (d : DumpSet) (dst : Dest) (part : Bool) : Nat :=
  let (nv, vb) := visVolume l d.coding dst.maxBody
  let e := entryBytes l.dwell
  let n := Config.logEntries l.dwell % (logCapacity l.dwell + 1)
  let (nw, wb) := if d.weightMode = 0 then (ceilDiv l.baselines (dst.maxBody / 4), 4 * l.baselines)
    else (ceilDiv n (dst.maxBody / e), n * e)
  vb + wb + (if part then 112 else 128 + 32) + (nv + nw + 2) * (40 + dst.overhead)

/-- R220: settings and a channel map that outputs and the buffer sustain under a layout. -/
def State.dumpsFit (s : State) (set : DumpSet) (mib : Nat) (map : KV Nat) (dests : KV Dest) : Bool :=
  s.replaying || match s.tile.layout with
  | none => true
  | some l =>
    -- R219: a part sends lossless block order whatever is set
    let part := s.bas.combine.role = 1
    let d := if part then { set with coding := 0, order := 0, weightMode := 0 } else set
    if d.period = 0 then true
    else
      let dest (c : Nat) : Dest := kvGet Dest.init dests (kvGet 0 map c)
      let ok (n : Nat) : Bool :=
        let dst := kvGet Dest.init dests n
        let chans := ((List.range l.channels).filter fun c => kvGet 0 map c = n).length
        dst.kind = 0 || !overCapacity (chans * dumpWire l d dst part * l.rate) (d.period * l.dwell) (s.destCapacity dst)
      let volume (c : Nat) : Nat :=
        if (dest c).kind = 0 then 0
        else let (nv, vb) := visVolume l d.coding (dest c).maxBody; vb + 40 * nv
      let offset (c : Nat) : Nat := if d.stagger then c * d.period / l.channels else 0
      let perRound := (List.range l.channels).foldl (fun m c => kvBump m (offset c) (volume c)) []
      (List.range 16).all ok && perRound.all fun e => 2 * e.2 ≤ mib * 1048576

/-! ## Beams and chains (R251, R271, R273) -/

/-- A producer of beam output: its destination, the frames and body bytes of `span` visits, and those of its largest visit. -/
structure VisitOutput where
  dest : Nat
  span : Nat
  frames : Nat
  bytes : Nat
  topFrames : Nat
  topBytes : Nat

/-- The same in every visit. -/
def VisitOutput.even (dest frames bytes : Nat) : VisitOutput := ⟨dest, 1, frames, bytes, frames, bytes⟩

def BeamSet.outputs (b : BeamSet) (dwell : Nat) (dests : KV Dest) : List VisitOutput :=
  let dst (d : Nat) : Dest := kvGet Dest.init dests d
  let v := if b.vDest = 0xFF || (dst b.vDest).kind = 0 then []
    else [VisitOutput.even b.vDest (dwell / voltageRecords (dst b.vDest).maxBody) (dwell * 128)]
  let size := if b.detect = 1 then 260 else 516
  let n := dwell / max b.nInt 1
  let d := if b.dDest = 0xFF || b.detect = 0 || (dst b.dDest).kind = 0 then []
    else [VisitOutput.even b.dDest (ceilDiv n ((dst b.dDest).maxBody / size)) (n * size)]
  v ++ d

def Chain.mTot (c : Chain) : Nat := (c.stages.map (·.decim)).foldl (· * ·) 1

/-- Bytes of one chain record (R273). -/
def Chain.recordBytes (c : Chain) : Nat := 4 + c.series * (if c.detected then 6 else if c.wide then 4 else 2)

def State.stepOf (s : State) (c : Chain) : Nat := if c.detected then max (s.beamSet c.set).nInt 1 else 1

/-- R273: outputs fall every `gap` samples, so of any `gap` visits, D mod `gap` hold one output more than the others. -/
def State.chainOutputs (s : State) (c : Chain) (dwell : Nat) (dests : KV Dest) : List VisitOutput :=
  let dst := kvGet Dest.init dests c.dest
  if c.dest = 0xFF || dst.kind = 0 then []
  else
    let gap := s.stepOf c * max c.mTot 1
    let frames (n : Nat) : Nat := ceilDiv n (dst.maxBody / c.recordBytes)
    let few := dwell / gap
    let most := ceilDiv dwell gap
    [{ dest := c.dest, span := gap, frames := (dwell % gap) * frames (few + 1) + (gap - dwell % gap) * frames few,
       bytes := dwell * c.recordBytes, topFrames := frames most, topBytes := most * c.recordBytes }]

/-- The sum of fractions, as numerator and denominator. -/
def addFractions (l : List (Nat × Nat)) : Nat × Nat :=
  l.foldl (fun a e => if a.2 = e.2 then (a.1 + e.1, a.2) else (a.1 * e.2 + e.1 * a.2, a.2 * e.2)) (0, 1)

/-- R251: beam sets, chains and destinations that outputs sustain. `sets` and `chains` are those to be counted; every
destination carries egress, a DMA one without the overhead o. -/
def State.beamsFit (s : State) (sets : KV BeamSet) (chains : KV Chain) (dests : KV Dest) : Bool :=
  s.replaying || match s.tile.layout with
  | none => true
  | some l =>
    let live := sets.filter (·.2.enable)
    let ofChannel (c : Nat) : List VisitOutput :=
      (live.map fun e => if e.2.covers c then e.2.outputs l.dwell dests else []).flatten ++
      (chains.map fun e => if e.2.channel = c then s.chainOutputs e.2 l.dwell dests else []).flatten
    let all := ((List.range l.channels).map ofChannel)
    let head (d : Nat) : Nat := 48 + (kvGet Dest.init dests d).overhead
    let rateOk (d : Nat) : Bool :=
      let dst := kvGet Dest.init dests d
      let (num, den) := addFractions ((all.flatten.filter fun x => x.dest = d).map fun x => (x.bytes + x.frames * head d, x.span))
      dst.kind = 0 || !overCapacity (num * l.rate) (den * l.dwell) (s.destCapacity dst)
    (List.range 16).all rateOk &&
    all.all fun v => (v.map fun x => x.topBytes + x.topFrames * head x.dest).sum ≤ 4194304

/-- R305: the delay and phase terms of a layout's visits are within the rate that Quartz evaluates. -/
def CorrLayout.phasesFit (l : CorrLayout) : Bool := decide (l.n * l.channels * l.rate ≤ 400000000 * l.dwell)

/-- R271: the demand of a chain, over 65,536 steps of `16 s_min`, as numerator and denominator of multiply-accumulates. -/
def State.chainDemand (s : State) (c : Chain) : Nat × Nat :=
  let comps := if c.detected then 1 else 2
  let f := s.layout.rate
  -- f_j / M_j over the common denominator step * M_tot
  let m := c.mTot
  let (sum, _) := c.stages.foldl (fun (acc : Nat × Nat) st =>
    let d := acc.2 * max st.decim 1
    (acc.1 + st.taps * (m / d), d)) (0, 1)
  (c.series * comps * sum * f, s.stepOf c * max m 1)

/-- The demand over 16 s_min in units of 1/65,536, rounded up. -/
def State.chainLoad (s : State) (c : Chain) : Nat :=
  let (num, den) := s.chainDemand c
  if s.tile.layout.isNone then 0 else ceilDiv (num * 65536) (den * 16 * stepRate s.load.op)

/-! ## Destinations as parameters (R223, R250, R362) -/

/-- The destination that a parameter block spells. -/
def destAt (p : List Byte) : Dest :=
  { kind := fld p 1 1, port := fld p 2 1, family := fld p 3 1, vlan := fld p 4 2, udpSrc := fld p 6 2, udpDst := fld p 8 2,
    stream := fld p 10 2, maxBody := fld p 12 2, queue := fld p 14 2, dstMac := fld p 16 6, dstAddr := slice p 24 16,
    srcMac := fld p 40 6, srcAddr := slice p 48 16 }

/-- The first field of a destination that breaks its rule; `low`: the least max_body, `last`: the highest number. R458: an
element holds the header of the frames, 40 bytes for KVF and 48 for KBF and KSF, and max_body; that queue is named at its field. -/
def State.badDest (s : State) (p : List Byte) (low last : Nat) : Option Nat :=
  let d := destAt p
  let room := decide ((if low = 256 then 40 else 48) + d.maxBody ≤ 2 ^ (s.queue d.queue).esize) || s.replaying
  let egress := match s.portCfg d.port with | some c => c.role = 1 && !c.klp | none => false
  firstBad [(fld p 0 1 ≤ last, 0), (d.kind ≤ 2, 1), (d.kind ≠ 1 || (d.port ≤ 79 && egress), 2),
    (d.kind ≠ 1 || d.family = 4 || d.family = 6, 3), (d.kind ≠ 1 || d.vlan ≤ 4094, 4),
    (low ≤ d.maxBody && d.maxBody ≤ 8192, 12), (d.kind ≠ 2 || (d.queue ≠ 0xFFFF && s.queueOk d.queue 4 && room), 14)]

end Sys2Proof.Machine
end

