-- ==== Sys2Proof/Machine/Filters.lean ====
section
/-! DEFINITION. Filter and decimation chains (R258 to R278). -/

namespace Sys2Proof.Machine

/-! ## Stage arithmetic, labels (R260, R263, R266, R268) -/

def Chain.comps (c : Chain) : Nat := if c.detected then 1 else 2

/-- M_1 × … × M_(j-1) for each stage. -/
def stageScales : Nat → List StageCfg → List Nat
  | _, [] => []
  | m, st :: t => m :: stageScales (m * st.decim) t

/-- GD2 of the chain. -/
def Chain.gd2 (c : Chain) : Nat := (List.zipWith (fun (st : StageCfg) m => (st.taps - 1) * m) c.stages (stageScales 1 c.stages)).sum

/-- L_sup. -/
def Chain.support (c : Chain) : Nat := 1 + c.gd2

/-- The limit of a stage's output. -/
def Chain.limit (c : Chain) (stage : Nat) : Int :=
  if !c.detected && stage + 1 = c.stages.length then (if c.wide then 32767 else 127) else 2 ^ 33 - 1

def clipTo (lim v : Int) : Int := max (-lim) (min lim v)

/-- One component of a stage output, before its saturation. -/
def firOutput (coef : Nat → Int) (shift : Nat) (xs : List Int) : Int :=
  roundHalfEven ((xs.zipIdx.map fun (e : Int × Nat) => coef e.2 * e.1).sum) (2 ^ shift)

/-- A stage takes one input at position `u`: its history, its output when one falls here, and whether a component clipped. -/
def stageStep (coef : Nat → Int) (lim : Int) (st : StageCfg) (r : StageRun) (u : Nat) (x : List Int) :
    StageRun × Option (List Int) × Bool :=
  let hist := (x :: r.hist).take st.taps
  let r1 : StageRun := { hist := hist }
  if u % max st.decim 1 ≠ 0 || hist.length < st.taps then (r1, none, false)
  else
    let raw := (List.range x.length).map fun i => firOutput coef st.shift (hist.map fun h => h.getD i 0)
    (r1, some (raw.map (clipTo lim)), raw.any fun v => clipTo lim v ≠ v)

/-- All stages take in one chain input value: new histories, the chain output, and how many stage outputs clipped. -/
def Chain.stepStages (c : Chain) (bank : KV Int) : Nat → List StageCfg → List StageRun → Nat → List Int →
    List StageRun × Option (List Int) × Nat
  | _, [], rs, _, x => (rs, some x, 0)
  | _, _, [], _, _ => ([], none, 0)
  | j, st :: sts, r :: rs, u, x =>
    let (r1, out, clip) := stageStep (fun k => kvGet 0 bank (j * 256 + k)) (c.limit j) st r u x
    match out with
    | none => (r1 :: rs, none, 0)
    | some y =>
      let (rest, z, n) := c.stepStages bank (j + 1) sts rs (u / max st.decim 1) y
      (r1 :: rest, z, n + b2n clip)

/-- One output of a chain. -/
structure ChainOut where
  label : Nat
  half : Bool
  weight : Nat
  values : List Int
  gap : Bool
  sat : Bool
  deriving DecidableEq, Repr

/-- Twice the centre of the output at position `u` (R266). -/
def Chain.centre2 (c : Chain) (u step : Nat) : Int := 2 * (c.anchor.getD 0 : Nat) + (2 * (u : Int) - c.gd2) * step

/-! ## Values taken in (R263 to R270) -/

/-- Histories and support begin afresh, without a gap (R264). -/
def Chain.clear (c : Chain) : Chain := { c with runs := c.stages.map (fun _ => {}), weights := [], warm := false, clip := false }

/-- The chain meets a value: its enable (R263: also one that followed a disable with no value met in between), its decimator
resets, its first value of a schedule. -/
def Chain.meet (c : Chain) (syncs : List Nat) (idx : Nat) : Chain :=
  let c1 := if c.onUntil idx then c else { c.restart.clear with on := true, anchor := some idx }
  let c2 := if syncs.any (fun x => c.taken ≤ x && x ≤ idx) then { c1.clear with anchor := some idx } else c1
  if c2.anchor.isNone then { c2.clear with anchor := some idx } else c2

/-- The chain takes in one value: its index, components and weight. -/
def Chain.feed (c : Chain) (syncs : List Nat) (step : Nat) (v : Nat × List Int × Nat) : Chain × Option ChainOut :=
  let (idx, x, w) := v
  if !schedAt c.enable c.channel idx then ({ c with on := false }, none)
  else
    let c1 := c.meet syncs idx
    let u := (idx - c1.anchor.getD 0) / max step 1
    let bank := match c1.swap with
      | some wh => if whenStart wh c1.channel ≤ idx then c1.load else c1.active
      | none => c1.active
    let weights := (w :: c1.weights).take c1.support
    let (runs, out, clips) := c1.stepStages bank 0 c1.stages c1.runs u x
    let c2 := { c1 with runs := runs, weights := weights, taken := idx + 1, satOutputs := c1.satOutputs + clips,
                        clip := c1.clip || clips ≠ 0 }
    match out with
    | none => (c2, none)
    | some y =>
      let m := c2.centre2 u step
      let o : ChainOut := { label := (m / 2).toNat, half := m % 2 = 1, weight := weights.foldl min w, values := y,
                            gap := c2.gap, sat := c1.clip || clips ≠ 0 }
      ({ c2 with gap := false, clip := false, warm := true, outputs := c2.outputs + 1 }, some o)

/-- Every value of a visit. -/
def Chain.feedAll (syncs : List Nat) (step : Nat) : List (Nat × List Int × Nat) → Chain → Chain × List ChainOut
  | [], c => (c, [])
  | v :: t, c =>
    let (c1, o) := c.feed syncs step v
    let (c2, l) := Chain.feedAll syncs step t c1
    (c2, o.toList ++ l)

/-! ## Frames (R273) -/

/-- One record of a chain frame. -/
def Chain.record (c : Chain) (o : ChainOut) : List Byte :=
  let size := if c.detected then 6 else if c.wide then 2 else 1
  beBytes 4 o.weight ++ (o.values.map fun v => beBytes size (ofSigned (8 * size) v)).flatten

def Chain.kind (c : Chain) : Nat := if c.detected then 6 else if c.wide then 5 else 4

/-- One frame of chain `n` finds room in the beam output buffer, or is discarded; the number it used is gone either way. -/
def State.offerChain (s : State) (n step : Nat) (d : Dest) (l : List ChainOut) : State × Bool :=
  let c := s.chain n
  let first := l.headD ⟨0, false, 0, [], false, false⟩
  let flags := b2n (l.any (·.gap)) + 8 * b2n (l.any (·.sat)) + 16 * b2n first.half
  let f := s.kbfFrame c.kind flags c.channel d.stream n c.series (step - 1) c.mTot first.label l.length
    (kvGet 0 c.seqs (c.channel * 8 + c.kind) % 2 ^ 32) (l.map c.record).flatten
  let s1 := s.setChain n { c with seqs := kvBump c.seqs (c.channel * 8 + c.kind) 1 }
  if s.beamBufferUsed + f.length ≤ beamBuffer then (s1.handFrame (.chain n f.length) d f, false)
  else
    let b := s1.beamSet c.set
    (s1.setBeamSet c.set { b with discarded := b.discarded + 1 }, true)

/-- The outputs of one visit leave: to the detectors, and to the chain's destination. -/
def State.emitOutputs (s : State) (n visit step : Nat) (outs : List ChainOut) : State :=
  let c := s.chain n
  let s1 := if c.detected && c.toFlint then
      outs.foldl (fun u o => o.values.zipIdx.foldl (fun v (e : Int × Nat) =>
        v.offerOutput n e.2 o.label e.1 o.weight o.gap) u) s
    else s
  match s1.beamDest c.dest with
  | none => s1
  | some d =>
    let (s2, lost) := (chunks (d.maxBody / c.recordBytes) outs).foldl (fun (acc : State × Bool) l =>
      let (u, x) := acc.1.offerChain n step d l
      (u, acc.2 || x)) (s1, false)
    if lost then s2.beamLoss c.set c.channel visit else s2

/-! ## Visits (R259, R272) -/

/-- A sync stays pending while an enabled chain or a channel of the schedule has not passed it. -/
def State.settleSyncs (s : State) : State :=
  let waits (x : Nat) : Bool :=
    !s.schedLive || s.filt.chains.any (fun e => s.chainEnabled e.2 && e.2.taken ≤ x) ||
      (List.range s.layout.channels).any fun c => s.firstIndex (s.integ c).next ≤ x
  s.mapFilt fun f => { f with syncs := f.syncs.filter waits }

/-- The series of a chain from what its set has formed: voltage samples, or detected intervals. -/
def State.chainInput (s : State) (c : Chain) (visit : Nat) (samples : List (List BeamSample)) (intervals : List Interval)
    (valid : List Nat) : ChainInput :=
  let first := s.firstIndex visit
  let set := s.beamSet c.set
  let pick := (List.range c.series).map (c.first + ·)
  let values := if c.detected then
      intervals.zipIdx.map fun (e : Interval × Nat) =>
        (first + e.2 * max set.nInt 1, pick.map (fun j => e.1.values.getD (if set.detect = 2 then 4 * j + c.param else j) 0),
         e.1.weight)
    else
      samples.zipIdx.map fun (e : List BeamSample × Nat) =>
        (first + e.2, (pick.map fun j => let q := e.1.getD j ⟨0, 0, false⟩; [q.re, q.im]).flatten, valid.getD (e.2 / 256) 0)
  { visit := visit, values := values }

/-- R272: the chains of a set are handed one visit; a chain with no room left discards it and restarts. -/
def State.handChains (s : State) (n channel visit : Nat) (samples : List (List BeamSample)) (intervals : List Interval)
    (valid : List Nat) : State :=
  (List.range 32).foldl (fun u h =>
    let c := u.chain h
    let inp := u.chainInput c visit samples intervals valid
    if !c.configured || c.set ≠ n || c.channel ≠ channel || !(inp.values.any fun v => schedAt c.enable channel v.1) then u
    else if 2 ≤ (c.input.filter fun e => !e.gap).length then
      u.setChain h { c with overruns := c.overruns + 1, input := c.input ++ [{ visit := visit, gap := true, values := [] }] }
    else u.setChain h { c with input := c.input ++ [inp] }) s

/-- R273: a lower chain of the same set and channel, whose frames of the visit go first, has not processed it yet. -/
def State.chainWaits (s : State) (n visit : Nat) : Bool :=
  let c := s.chain n
  s.filt.chains.any fun e => decide (e.1 < n) && e.2.set = c.set && e.2.channel = c.channel && e.2.input.any fun x => decide (x.visit ≤ visit)

/-- R272: a chain takes in the oldest visit it holds, or the gap in its place. -/
def evChainVisitProcess (chain : Fin 32) (s : State) : State :=
  let n := chain.val
  let c := s.chain n
  match c.input with
  | [] => s
  | inp :: rest =>
    if s.chainWaits n inp.visit || !s.domainOn (91 + n / 16) then s
    else if inp.gap then
      let s1 := s.setChain n { c with input := rest }
      if c.onUntil (s.firstIndex inp.visit) then s1.chainGap n else s1
    else
    let step := s.stepOf c
    let (c1, outs) := Chain.feedAll s.filt.syncs step inp.values { c with input := rest }
    (((s.setChain n c1).emitOutputs n inp.visit step outs).settleSyncs)

def execChainVisitProcess (chain : Fin 32) (s : State) : Host.Outcome State Fault Refusal :=
  guarded (.chainVisitProcess chain) s (evChainVisitProcess chain s)

/-! ## DEC_SYNC (R264, R265) -/

/-- R265: the smallest visit index that Mica has not yet taken up in any channel. -/
def State.freshVisit (s : State) : Nat :=
  (List.range s.layout.channels).foldl (fun m c => max m (s.visitOfIndex (s.nextTaken c))) 0

/-- A decimator reset reaches the chains. What an ended schedule's chains have taken in makes no index late (R556). -/
def State.decSync (s : State) (idx : Nat) : State :=
  if idx = noIndex || (s.schedLive && s.filt.chains.any fun e => idx < e.2.taken) then
    -- with no schedule the next one begins a grid of its own in any case
    let at_ := if s.schedLive then s.firstIndex s.freshVisit else noIndex
    s.mapFilt fun f => { f with lateSyncs := f.lateSyncs + 1, lastSync := at_,
                                syncs := if at_ = noIndex then f.syncs else f.syncs ++ [at_] }
  else s.mapFilt fun f => { f with lastSync := idx, syncs := f.syncs ++ [idx] }

/-! ## Swaps (R267) -/

def evFilterSwapDone (s : State) : State :=
  if s.ns < s.filt.doneAt then s
  else match s.filt.owed with
  | m :: rest => (s.mapFilt fun f => { f with owed := rest }).filtersDone m
  | [] =>
  match s.filt.applies.find? fun m => (bitsOf 32 m).all fun n => s.chainSwapped (s.chain n) with
  | none => s
  | some m => (s.mapFilt fun f => { f with applies := f.applies.erase m }).finishFilters m

def execFilterSwapDone (s : State) : Host.Outcome State Fault Refusal := guarded .filterSwapDone s (evFilterSwapDone s)

/-- A swap of the chains of a mask is scheduled; a chain that has passed an earlier swap keeps it (log entry 25). -/
def State.swapFilters (s : State) (mask idx : Nat) : State :=
  if !s.schedLive then
    (s.mapFilt fun f => { f with applies := (f.applies.map fun m => m - (m &&& mask)).filter (· ≠ 0) }).finishFilters mask
  else
    let w := s.applyAt idx s.nextTaken
    let free := (bitsOf 32 mask).filter fun n => (s.chain n).swap.isNone || !s.chainSwapped (s.chain n)
    let newMask := (free.map fun n => 2 ^ n).sum
    let s1 := free.foldl (fun u n => u.setChain n { u.chain n with swap := some w }) s
    s1.mapFilt fun f => { f with applies := (f.applies.map fun m => m - (m &&& newMask)).filter (· ≠ 0) ++ [newMask] }

/-! ## Commands (R274 to R278) -/

/-- The stage entries that a parameter block spells. -/
def stagesAt (p : List Byte) (n : Nat) : List StageCfg :=
  (List.range n).map fun j => { taps := fld p (12 + 4 * j) 2, decim := fld p (14 + 4 * j) 1, shift := fld p (15 + 4 * j) 1 }

def chainAt (p : List Byte) : Chain :=
  { configured := true, detected := fld p 1 1 = 1, set := fld p 2 1, param := fld p 3 1, channel := fld p 4 2,
    first := fld p 6 1, series := fld p 7 1, wide := fld p 9 1 = 1, dest := fld p 10 1, toFlint := fld p 11 1 = 1,
    stages := stagesAt p (fld p 8 1) }

/-- H of R262. -/
def Chain.history (c : Chain) : Nat := c.series * c.comps * (c.stages.map fun st => st.taps - 1).sum

/-- R258 to R262 and the ranges of R274. -/
def State.chainChecks (s : State) (p : List Byte) : List (Bool × Nat) :=
  let n := fld p 0 1
  let x := chainAt p
  let set := s.beamSet x.set
  let stokes := x.detected && set.detect = 2
  let top := if stokes then 32 else 64
  let stages := fld p 8 1
  let stageChecks := (List.range stages).map fun j =>
    [(decide (1 ≤ fld p (12 + 4 * j) 2 ∧ fld p (12 + 4 * j) 2 ≤ 256), 12 + 4 * j),
     (decide (1 ≤ fld p (14 + 4 * j) 1 ∧ fld p (14 + 4 * j) 1 ≤ 64), 14 + 4 * j),
     (decide (fld p (15 + 4 * j) 1 ≤ 40), 15 + 4 * j)]
  [(decide (n ≤ 31), 0), (fld p 1 1 ≤ 1 && (!x.detected || set.detect ≠ 0), 1), (x.set ≤ 15 && set.enable, 2),
   (decide (if stokes then x.param ≤ 3 else x.param = 0), 3), (set.chan0 ≤ x.channel && x.channel < set.chan0 + set.chanCount, 4),
   (x.first < top, 6), (1 ≤ x.series && x.series ≤ top, 7),
   (x.first + x.series ≤ top, 6), (1 ≤ stages && stages ≤ 3, 8),
   (decide (if x.detected then fld p 9 1 = 0 else fld p 9 1 ≤ 1), 9), (x.dest ≤ 15 || x.dest = 0xFF, 10),
   (decide (if x.detected then fld p 11 1 ≤ 1 else fld p 11 1 = 0), 11)] ++
  (if stages ≤ 3 then stageChecks.flatten else []) ++ [(decide (x.history ≤ 49152), 12)]

/-- The chain as the parameters configure it; coefficients and counters stay, and so does an enable that is scheduled. -/
def Chain.configuredAs (old x : Chain) : Chain :=
  { x with active := old.active, load := old.load, swap := old.swap, enable := old.enable, runs := x.stages.map (fun _ => {}),
           seqs := old.seqs, outputs := old.outputs, gaps := old.gaps, overruns := old.overruns,
           satOutputs := old.satOutputs, taken := old.taken }

def doFiltSetChain (c : Cmd) (s : State) : Res :=
  let p := c.params
  let n := fld p 0 1
  let x := chainAt p
  match firstBad (s.chainChecks p) with
  | some off => .bad off s
  | none =>
    let old := s.chain n
    let (num, den) := s.chainDemand x
    let counted := kvSet Chain.init s.liveChains n x
    if s.chainOn old then .fail stBusy s
    else if !s.replaying && s.tile.layout.isSome && 16 * stepRate s.load.op * den < num then .fail stResource s
    else if !s.beamsFit s.beam.sets counted s.beam.dests then .fail stResource s
    else
      .ok (s.setChain n (old.configuredAs x))

def specFiltSetChain : OpSpec := { row := rowFiltSetChain, body := doFiltSetChain, records := ownRecord 0x0801 }
def execFiltSetChain (c : Cmd) (s : State) : Host.Outcome State Fault Refusal := s.submit specFiltSetChain c

/-- R140 on samples, for the channels of the chains of a mask. -/
def State.chainsTaken (s : State) (mask idx : Nat) : Bool :=
  idx ≠ noIndex && (bitsOf 32 mask).any fun n => s.sampleTaken (.idx idx) (s.chain n).channel

/-- The manual puts no condition on the chains that the mask names; one that has never been configured has no input, and takes
in nothing (DESIGN CHOICE, log entry 25). -/
def doFiltEnable (c : Cmd) (s : State) : Res :=
  let mask := fld c.params 0 4
  let on := fld c.params 4 1 = 1
  let idx := fld c.params 8 8
  let chains := bitsOf 32 mask
  let counted := s.filt.chains.filter fun e => e.2.configured && (s.chainEnabled e.2 || chains.contains e.1)
  match firstBad [(fld c.params 4 1 ≤ 1, 4)] with
  | some off => .bad off s
  | none =>
    if on && !s.beamsFit s.beam.sets counted s.beam.dests then .fail stResource s
    else if s.chainsTaken mask idx then .fail stPast s
    else if !s.schedLive then
      .ok (chains.foldl (fun u n =>
        let h := u.chain n
        u.setChain n { h with enable := ⟨on, []⟩, on := h.on && on }) s)
    else
      let w := s.applyAt idx s.nextTaken
      .ok (chains.foldl (fun u n => let h := u.chain n; u.setChain n { h with enable := h.enable.push w on }) s)

def specFiltEnable : OpSpec := { row := rowFiltEnable, body := doFiltEnable }
def execFiltEnable (c : Cmd) (s : State) : Host.Outcome State Fault Refusal := s.submit specFiltEnable c

def doFiltSync (c : Cmd) (s : State) : Res :=
  let idx := fld c.params 0 8
  let waiting := s.filt.syncs.length + (s.er.raised.filter (·.producer = 187)).length
  if 16 ≤ waiting then .fail stResource s else .ok (s.raiseEvent 187 idx 0)

def specFiltSync : OpSpec := { row := rowFiltSync, body := doFiltSync }
def execFiltSync (c : Cmd) (s : State) : Host.Outcome State Fault Refusal := s.submit specFiltSync c

def doFiltLoadCoef (c : Cmd) (s : State) : Res :=
  let p := c.params
  let n := fld p 0 1
  let st := fld p 1 1
  let first := fld p 2 2
  let count := fld p 4 2
  let coef (i : Nat) : Int := sfld p (8 + 4 * i) 4
  match firstBad ([(decide (n ≤ 31), 0), (decide (st ≤ 2), 1), (decide (first ≤ 255), 2),
      (decide (1 ≤ count ∧ count ≤ 256), 4), (decide (first + count ≤ 256), 2)] ++
      (List.range count).map fun i => (decide (-131072 ≤ coef i ∧ coef i ≤ 131071), 8 + 4 * i)) with
  | some off => .bad off s
  | none =>
    let h := s.chain n
    if h.swap.isSome || s.filt.owed.any (bit · n) then .fail stBusy s
    else
      let bank := (List.range count).foldl (fun m i => kvSet 0 m (st * 256 + first + i) (coef i)) h.load
      .ok (s.setChain n { h with load := bank })

def specFiltLoadCoef : OpSpec := { row := rowFiltLoadCoef, body := doFiltLoadCoef }
def execFiltLoadCoef (c : Cmd) (s : State) : Host.Outcome State Fault Refusal := s.submit specFiltLoadCoef c

def doFiltApply (c : Cmd) (s : State) : Res :=
  let mask := fld c.params 0 4
  let idx := fld c.params 8 8
  if !s.own.accepted && s.chainsTaken mask idx then .fail stPast s else .ok (s.swapFilters mask idx)

/-- The coefficients that an apply makes active, as loads, and the apply (R501). -/
def coefRecords (c : Cmd) (s : State) : List (Nat × List Byte) :=
  ((bitsOf 32 (fld c.params 0 4)).map fun n => coefLoads n (s.chain n).load).flatten ++ [(0x0811, c.params)]

def specFiltApply : OpSpec := { row := rowFiltApply, body := doFiltApply, records := coefRecords }
def execFiltApply (c : Cmd) (s : State) : Host.Outcome State Fault Refusal := s.submit specFiltApply c

def doFiltGetChain (c : Cmd) (s : State) : Res :=
  let n := fld c.params 0 1
  if 31 < n then .bad 0 s
  else
    let h := s.chain n
    let scales := stageScales 1 h.stages
    let stage (j : Nat) : Nat := match h.stages[j]?, scales[j]? with | some st, some _ => st.taps - 1 | _, _ => 0
    let state := if !s.chainOn h then 0 else if h.warm && h.onUntil (s.chainFront h) then 2 else 1
    .okWith (beBytes 1 state ++ beBytes 1 h.stages.length ++ beBytes 1 h.series ++ [0] ++
      beCount 4 (s.chainLoad h) ++ beBytes 8 (h.anchor.getD noIndex) ++ beBytes 8 s.filt.lastSync ++ beBytes 4 h.gd2 ++
      beBytes 4 h.support ++ beBytes 2 (stage 0) ++ beBytes 2 (stage 1) ++ beBytes 2 (stage 2) ++ zeros 2 ++
      beCount 8 h.outputs ++ beCount 8 h.gaps ++ beCount 8 h.overruns ++ beCount 8 h.satOutputs ++
      beCount 8 s.filt.lateSyncs ++ beBytes 8 (whenIndex h.swap h.channel)) s

def specFiltGetChain : OpSpec := { row := rowFiltGetChain, body := doFiltGetChain }
def execFiltGetChain (c : Cmd) (s : State) : Host.Outcome State Fault Refusal := s.submit specFiltGetChain c

end Sys2Proof.Machine
end

