-- ==== Sys2Proof/Machine/Basalt.lean ====
section
/-! DEFINITION. The tiles and Basalt (R151 to R162, R171 to R181): what a slot's visit leaves, the checks, the weight log,
the sums, and what follows a visit. -/

namespace Sys2Proof.Machine

/-! ## Sums and counts of a visit (R153, R154, R158) -/

/-- The sum of x_i × conj(x_j) over a visit's staged positions. -/
def correlate (data : KV Nat) (n d i j : Nat) : Int × Int :=
  if n ≤ i || n ≤ j then (0, 0)
  else
    (List.range d).foldl (fun acc t =>
      let x := sampleOf (kvGet 0 data (t * n + i))
      let y := sampleOf (kvGet 0 data (t * n + j))
      (acc.1 + (x.1 * y.1 + x.2 * y.2), acc.2 + (x.2 * y.1 - x.1 * y.2))) (0, 0)

/-- The upsets of one cell of a block, summed: accumulator parts, and presence count. -/
def cellUpset (ups : List Upset) (k r c : Nat) : Int × Int × Int :=
  ups.foldl (fun acc e => match e with
    | .cell b x y re im => if b = k && x = r && y = c then (acc.1 + re, acc.2.1 + im, acc.2.2) else acc
    | .presence b x y by_ => if b = k && x = r && y = c then (acc.1, acc.2.1, acc.2.2 + by_) else acc) (0, 0, 0)

/-- A 32-bit accumulator. -/
def wrap32 (v : Int) : Int := toSigned 32 (ofSigned 32 v)

/-- The invalid-granule map of an input in a visit. -/
def invalidOf (valid : KV Nat) (per i : Nat) : Nat :=
  (List.range per).foldl (fun m g => if kvGet 0 valid (i * per + g) = 0 then m + 2 ^ g else m) 0

/-! ## What a tile's block passes leave (R151, R156, R158) -/

/-- The two inputs of a cell. -/
def CorrLayout.cell (l : CorrLayout) (k r c : Nat) : Nat × Nat := let (i, j) := l.blockBase k; (i + r, j + c)

/-- c(i, j) of R158: the staged granules in which both inputs are valid. -/
def coincidences (valid : KV Nat) (per n i j : Nat) : Nat :=
  if n ≤ i || n ≤ j then 0
  else ((List.range per).filter fun g => kvGet 0 valid (i * per + g) = 1 && kvGet 0 valid (j * per + g) = 1).length

/-- One cell's accumulator after the pass of block `k`. -/
def TileWork.cellSum (w : TileWork) (l : CorrLayout) (ups : List Upset) (k r c : Nat) : Int × Int :=
  let (i, j) := l.cell k r c
  let x := correlate w.data l.n l.dwell i j
  let u := cellUpset ups k r c
  (wrap32 (x.1 + u.1), wrap32 (x.2 + u.2.1))

/-- Its presence count, 9 bits wide. -/
def TileWork.cellCount (w : TileWork) (l : CorrLayout) (ups : List Upset) (k r c : Nat) : Nat :=
  let (i, j) := l.cell k r c
  (((coincidences w.valid (l.dwell / 256) l.n i j : Int) + (cellUpset ups k r c).2.2) % 512).toNat

/-- The cells of every block of a slot with their index in the SRAM and the presence array, ascending: position, row, column. -/
def slotCells (l : CorrLayout) (blocks : List Nat) : List (Nat × Nat × Nat × Nat) :=
  let (rs, cs, _) := shapeSides l.shape
  (blocks.zipIdx.map fun e => ((List.range rs).map fun r => (List.range cs).map fun c =>
    (e.2 * 4096 + r * cs + c, e.1, r, c)).flatten).flatten

/-- R156: accumulator slots and presence counts of the positions that a visit's passes wrote; the others keep what they held. -/
def TileInfo.afterVisit (t : TileInfo) (w : TileWork) (l : CorrLayout) (blocks : List Nat) (ups : List Upset) : TileInfo :=
  let cells := slotCells l blocks
  let sums : KV (Int × Int) := cells.filterMap fun e =>
    let v := w.cellSum l ups e.2.1 e.2.2.1 e.2.2.2
    if v = (0, 0) then none else some (e.1, v)
  let counts : KV Nat := cells.filterMap fun e =>
    let v := w.cellCount l ups e.2.1 e.2.2.1 e.2.2.2
    if v = 0 then none else some (e.1, v)
  let past := 4096 * blocks.length
  { t with acc := sums ++ t.acc.filter (past ≤ ·.1), presence := counts ++ t.presence.filter (past ≤ ·.1) }

/-- The accumulator and the presence count of a cell of the block at position `p`. -/
def TileInfo.sum (t : TileInfo) (l : CorrLayout) (p r c : Nat) : Int × Int :=
  kvGet (0, 0) t.acc (p * 4096 + r * (shapeSides l.shape).2.1 + c)
def TileInfo.count (t : TileInfo) (l : CorrLayout) (p r c : Nat) : Nat :=
  kvGet 0 t.presence (p * 4096 + r * (shapeSides l.shape).2.1 + c)

/-! ## The checks (R161, R162, R177) -/

/-- R161: an accumulator differs from the conjugate of its mirror, or a count from its mirror's. -/
def TileInfo.diagonalFails (t : TileInfo) (l : CorrLayout) (p : Nat) : Bool :=
  (List.range 64).any fun r => (List.range (r + 1)).any fun c =>
    let a := t.sum l p r c
    let b := t.sum l p c r
    a ≠ (b.1, -b.2) || t.count l p r c ≠ t.count l p c r

/-- R177: a presence count differs from the granule maps. -/
def TileInfo.presenceFails (t : TileInfo) (w : TileWork) (l : CorrLayout) (k p : Nat) : Bool :=
  let (rs, cs, _) := shapeSides l.shape
  (List.range rs).any fun r => (List.range cs).any fun c =>
    let (i, j) := l.cell k r c
    t.count l p r c ≠ coincidences w.valid (l.dwell / 256) l.n i j

/-- R496: a tile is reported; a second report within 24 h of Quartz time dooms it. -/
def TileInfo.report (t : TileInfo) (now ns : Nat) : TileInfo :=
  let again := match t.reportTime with
    | some x => decide (now ≤ x + 86400 * secUnits)
    | none => false
  { t with reported := true, reportNs := ns, reportTime := some now, doom := if again then 2 else t.doom }

def State.setTileInfo (s : State) (t : Nat) (v : TileInfo) : State :=
  { s with spare := { s.spare with tiles := kvSet TileInfo.init s.spare.tiles t v } }

def State.slotAt (s : State) (i : Nat) : Slot := s.tile.slots.getD i { tile := none }
def State.setSlot (s : State) (i : Nat) (v : Slot) : State := s.mapTile fun t => { t with slots := t.slots.set i v }

/-- One slot whose check failed: it is counted, and the tile that worked for it is reported. -/
def State.discardSlot (s : State) (slot tile : Nat) (diag pres : Bool) : State :=
  let v := s.slotAt slot
  let s1 := (s.setSlot slot { v with discards := v.discards + 1 }).mapTile fun t =>
    { t with tileDiscards := t.tileDiscards + 1, diagMismatch := t.diagMismatch + b2n diag }
  let s2 := s1.mapBas fun b => { b with presenceMismatch := b.presenceMismatch + b2n pres }
  (s2.setTileInfo tile ((s2.tileInfo tile).report s2.now s.ns)).raise 179 (slot * 65536 + tile)

/-- The tile that holds the sums of a slot. -/
def TileWork.tileOf (w : TileWork) (slot : Nat) : Nat := ((w.tiles.find? (·.1 = slot)).map (·.2)).getD 0xFFFF

/-- Every correlation slot is checked; the blocks of those that fail are answered. -/
def State.checkSlots (s : State) (w : TileWork) : State × List Nat :=
  let l := s.layout
  let slots := s.corrSlots
  slots.zipIdx.foldl (fun (acc : State × List Nat) (e : Nat × Nat) =>
    let blocks := slotBlocks l.blocks slots.length e.2
    let diags := blocks.filter l.diagonal
    let tile := w.tileOf e.1
    let info := s.tileInfo tile
    let d := blocks.zipIdx.any fun b => l.diagonal b.1 && info.diagonalFails l b.2
    let p := blocks.zipIdx.any fun b => info.presenceFails w l b.1 b.2
    let s1 := acc.1.mapTile fun t => { t with diagChecks := t.diagChecks + diags.length }
    if d || p then (s1.discardSlot e.1 tile d p, acc.2 ++ blocks) else (s1, acc.2)) (s, [])

/-! ## The weight log (R179, R180) -/

/-- The newest entry of an input, where it is a DEAD_RUN that ends at `v - 1`. -/
def runEnding (entries : List LogEntry) (i v : Nat) : Bool :=
  match (entries.filter fun e => e.kind ≠ 3 && e.id = i).getLast? with
  | some e => e.kind = 2 && e.visit + e.body = v
  | none => false

/-- The run of an input becomes one visit longer. -/
def extendRun (entries : List LogEntry) (i v : Nat) : List LogEntry :=
  entries.map fun e => if e.kind = 2 && e.id = i && e.visit + e.body = v then { e with body := e.body + 1 } else e

/-- The log after processed visit `v`. -/
def logVisit (entries : List LogEntry) (valid : KV Nat) (n d v : Nat) (discarded : List Nat) : List LogEntry :=
  let per := d / 256
  let runs := (List.range n).foldl (fun l i =>
    let m := invalidOf valid per i
    if m = 0 then l
    else if m = allOnes d then
      (if runEnding l i v then extendRun l i v else l ++ [{ kind := 2, id := i, visit := v, body := 1 }])
    else l ++ [{ kind := 1, id := i, visit := v, body := m }]) entries
  runs ++ discarded.map fun k => { kind := 3, id := k, visit := v, body := 0 }

/-! ## A visit enters the sums (R172 to R174, R164, R184) -/

/-- The value that a block's cell adds to its baseline: the accumulator that Basalt reads, rotated or not (R157, R184). -/
def State.visitSum (s : State) (w : TileWork) (rotation : Bool) (thetas : List Nat) (k r c i j : Nat) : Int × Int :=
  let slots := s.corrSlots
  let info := s.tileInfo (w.tileOf (slots.getD (k % max slots.length 1) 0xFFFF))
  let y := info.sum s.layout (k / max slots.length 1) r c
  if rotation then rotateSum (thetas.getD i 0) (thetas.getD j 0) y else y

/-- One baseline: its long-term value, and whether it has saturated now. -/
def State.addBaseline (s : State) (w : TileWork) (g : Integ) (thetas : List Nat) (q k i j : Nat) : Option (Int × Int) × Bool :=
  let (i0, j0) := s.layout.blockBase k
  let old := (kvGet none g.acc q).getD (s.preloadValue (s.accPreload g.preload) q)
  let new := satAdd2 (if s.unitLost (s.channelOffset w.channel + 12 * q) then freeValue s.draws q else old) (s.visitSum w g.rotation thetas k (i - i0) (j - j0) i j)
  (some new, saturatedPair new && !saturatedPair old)

/-- The integration after one processed visit whose log has been written. -/
def State.addVisit (s : State) (w : TileWork) (g : Integ) (discarded : List Nat) : Integ :=
  let l := s.layout
  let limit := min l.blocks (8 * s.corrSlots.length)
  let thetas := (List.range l.n).map fun i => s.theta w.channel w.visit i
  let (acc, sat) := l.blockList.zipIdx.foldl (fun (a : KV (Option (Int × Int)) × Nat) (e : (Nat × Nat) × Nat) =>
    let k := l.blockOf e.1.1 e.1.2
    if limit ≤ k || discarded.contains k then a
    else
      let (v, now) := s.addBaseline w g thetas e.2 k e.1.1 e.1.2
      (kvSet none a.1 e.2 v, a.2 + b2n now)) (g.acc, 0)
  let limits := if ((g.limits.getLast?.map (·.2)).getD l.blocks) = limit then g.limits else g.limits ++ [(g.processed, limit)]
  { g with acc := acc, satBaselines := g.satBaselines + sat, saturated := g.saturated || sat ≠ 0, limits := limits,
           theta := (List.range l.n).foldl (fun m i => kvSet 0 m i (thetas.getD i 0)) [], lastDone := some s.ns }

/-- R173, R175: what a processed visit reads and writes in HBM: the long-term values, or the residual image in their place,
the log's new entries, the header and the input records. -/
def State.accTraffic (s : State) (c : Nat) (g : Integ) : State :=
  let l := s.layout
  let len := 12 * l.baselines
  let p := s.accPreload g.preload
  let s1 := if g.processed ≠ 0 then s.engineRange 5 (s.channelOffset c) len false
            else if p.mode = 2 then s.engineRange 5 (p.residual - 0x1000000000) len false else s
  (s1.engineRange 5 (s.channelOffset c) len true).engineRecords 5

/-- R173: one completed visit enters its integration, or is excluded. -/
def State.accumulate (s : State) (w : TileWork) : State :=
  let (s1, discarded) := s.checkSlots w
  let c := w.channel
  let g := s1.withClose c w.visit (s1.openInteg c w.visit)
  let log := logVisit g.entries w.valid s.layout.n s.dwell g.processed discarded
  if logCapacity s.dwell < log.length || (g.processed = 0 && s1.halfHeld c g.half) then
    (s1.setInteg c { g with next := w.visit + 1, excludedLog := g.excludedLog + 1, excluded := true }).mapBas fun b =>
      { b with excludedTotal := b.excludedTotal + 1 }
  else
    let g1 := s1.addVisit w (s1.readPreload g) discarded
    (s1.setInteg c { g1 with entries := log, processed := g.processed + 1, next := w.visit + 1 }).accTraffic c g

/-! ## What follows (R42, R46, R229, R272) -/

/-- The beams of a visit, set by set, each handed to its chains. -/
def State.visitBeams (s : State) (w : TileWork) : State :=
  w.beams.foldl (fun u load =>
    let (v, samples, intervals, valid) := u.formBeams w load
    v.handChains load.set w.channel w.visit samples intervals valid) s

/-- R44: the round sees its visit end. The manual does not say when a visit's duration ends; here it does when the last tile
has completed the visit (R129; DESIGN CHOICE, log entry 104). -/
def State.roundVisitDone (s : State) (w : TileWork) : State :=
  (s.mapRound w.visit fun r =>
    { r with running := r.running - 1, durMax := max r.durMax (s.ns - w.since) }).showRound

/-- R517: the Basalt lanes are ON, and the output groups of the sets that a visit forms beams for. -/
def State.basaltOn (s : State) (w : TileWork) : Bool :=
  s.domainOn 89 && s.domainOn 90 && w.beams.all fun x => s.domainOn (91 + x.set / 8)

/-- Basalt takes up the visit that the tiles have completed. -/
def evBasaltVisitProcess (s : State) : State :=
  match s.stg.inbox with
  | none => s
  | some w =>
    if !s.basaltOn w then s else
    let c := w.channel
    let s1 := (s.mapStg fun g => { g with inbox := none }).catchUp c w.visit
    let s3 := (((s1.accumulate w).visitBeams w).forgetVisit c w.visit).skipOthers c
    -- R533: the final dump of a quiesce is a pass of its own
    let final := s3.pwr.phase = 6 && s3.pastStop c (s3.integ c).next
    let s4 := if s3.integEnds c && !final then s3.endInteg c else s3
    (((s4.settleLost c).settleDumps).settleSyncs).settleSched

def execBasaltVisitProcess (s : State) : Host.Outcome State Fault Refusal := guarded .basaltVisitProcess s (evBasaltVisitProcess s)

/-! ## Tiles (R151, R157, R163, R170) -/

/-- The position of a slot among the correlation slots. -/
def State.corrPosition (s : State) (slot : Nat) : Option Nat :=
  let l := s.corrSlots
  if l.contains slot then some (l.idxOf slot) else none

/-- The set that a beam slot works for. -/
def State.beamSetOf (s : State) (slot : Nat) : Option Nat :=
  let p := s.beamSlots.idxOf slot
  if s.beamSlots.contains slot then
    (s.beam.sets.find? fun e => e.2.enable && s.firstLeaf e.1 ≤ p && p < s.firstLeaf e.1 + e.2.slots).map (·.1)
  else none

/-- The blocks that a slot carries. -/
def State.blocksOf (s : State) (slot : Nat) : List Nat :=
  match s.corrPosition slot with
  | some i => slotBlocks s.layout.blocks s.corrSlots.length i
  | none => []

/-- The slot performs at least one pass in a visit of channel `c`. -/
def State.slotWorks (s : State) (slot c : Nat) : Bool :=
  s.blocksOf slot ≠ [] || (match s.beamSetOf slot with | some n => (s.beamSet n).covers c | none => false)

/-- An upset that lies in a block the slot carries. -/
def upsetBlock : Upset → Nat
  | .cell b _ _ _ _ => b
  | .presence b _ _ _ => b

/-- One slot completes the visit that the tiles work on; with the last, Basalt is handed the visit and the bank is free. -/
def evTileVisitComplete (slot : Nat) (upsets : List Upset) (s : State) : State :=
  match s.stg.working with
  | none => s
  | some (b, w) =>
    let v := s.slotAt slot
    match v.tile with
    | none => s
    | some tile =>
      if v.done || s.stg.inbox.isSome || !s.slotOn slot then s
      else
        let works := s.slotWorks slot w.channel
        let blocks := s.blocksOf slot
        let s1 := (s.setSlot slot { v with done := true, visits := v.visits + b2n works }).mapTile fun t =>
          { t with tileVisits := t.tileVisits + b2n works }
        let s2 := if blocks = [] then s1
          else s1.setTileInfo tile ((s1.tileInfo tile).afterVisit w s.layout blocks (upsets.filter fun u => blocks.contains (upsetBlock u)))
        let w1 := { w with tiles := w.tiles ++ [(slot, tile)] }
        if s2.liveSlots.all fun i => (s2.slotAt i).done then
          (((s2.setBank b (s2.bank b).emptied).mapStg fun g =>
            { g with working := none, idleAt := s.ns, inbox := some w1 }).roundVisitDone w).tryStop
        else s2.mapStg fun g => { g with working := some (b, w1) }

def execTileVisitComplete (slot : Nat) (upsets : List Upset) (s : State) : Host.Outcome State Fault Refusal :=
  guarded (.tileVisitComplete slot upsets) s (evTileVisitComplete slot upsets s)

end Sys2Proof.Machine
end

