-- ==== Sys2Proof/Machine/DumpCmds.lean ====
section
/-! DEFINITION. Commands of Basalt, of the dumps and of the destinations (R193 to R197, R221 to R225, R256, R368). -/

namespace Sys2Proof.Machine

/-! ## Preload (R193) -/

/-- Baselines of the loaded layout; with none, of the largest triangular one (log entry 28). -/
def State.loadedBaselines (s : State) : Nat := match s.tile.layout with | some l => l.baselines | none => 4096 * 4097 / 2

/-- R447: the host region as addresses. -/
def State.inHost (s : State) (addr len : Nat) : Bool := s.hostBase ≤ addr && addr + len ≤ 0x2800000000

/-- The stride of residual images. -/
def imageStride (baselines : Nat) : Nat := ceilDiv (12 * baselines) 4096 * 4096

/-- A successor of a setting: at once while no schedule is live (R556), otherwise in place of one that waits. -/
def State.applySetting {α : Type} (s : State) (x : Sched α) (idx : Nat) (v : α) : Sched α :=
  if s.schedLive then (dropPending x s.takenPast).push (s.applyAt idx s.nextTaken) v else ⟨v, []⟩

/-- A successor of a setting whose commands do not replace one another: each takes effect at its own index (R19). -/
def State.queueSetting {α : Type} (s : State) (x : Sched α) (idx : Nat) (v : α) : Sched α :=
  if s.schedLive then x.push (s.applyAt idx s.nextTaken) v else ⟨v, []⟩

def Preload.init : Sched Preload := ⟨{}, []⟩

/-- A bias is checked in mode 1 only, and residual_base in mode 2 only: the manual does not say what the other modes make of
them (DESIGN CHOICE, log entry 71). -/
def doCorrSetPreload (c : Cmd) (s : State) : Res :=
  let p := c.params
  let first := fld p 0 2
  let n := fld p 2 2
  let mode := fld p 4 1
  let re := toSigned 48 (fld p 8 6)
  let im := toSigned 48 (fld p 14 6)
  let base := fld p 24 8
  let idx := fld p 32 8
  let size := 12 * s.loadedBaselines
  let stride := imageStride s.loadedBaselines
  match firstBad [(first ≤ 4095, 0), (1 ≤ n && n ≤ 4096, 2), (first + n ≤ 4096, 0), (mode ≤ 2, 4),
      (mode ≠ 1 || re.natAbs ≤ 2 ^ 46, 8), (mode ≠ 1 || im.natAbs ≤ 2 ^ 46, 14),
      (mode ≠ 2 || (base % 4096 = 0 && s.inHost base ((n - 1) * stride + size)), 24)] with
  | some off => .bad off s
  | none =>
    if s.indexPast idx then .fail stPast s
    else
      let value (i : Nat) : Preload :=
        if mode = 0 then {} else if mode = 1 then { mode := 1, biasRe := re, biasIm := im }
        else { mode := 2, residual := base + i * stride, length := size }
      .ok (s.mapBas fun b => { b with preload := (List.range n).foldl (fun m i =>
        kvSet Preload.init m (first + i) (s.queueSetting (kvGet Preload.init m (first + i)) idx (value i))) b.preload })

def specCorrSetPreload : OpSpec := { row := rowCorrSetPreload, body := doCorrSetPreload, records := ownRecord 0x0650 }
def execCorrSetPreload (c : Cmd) (s : State) : Host.Outcome State Fault Refusal := s.submit specCorrSetPreload c

/-! ## Fringe tables and rotation (R194, R195) -/

def doCorrLoadFringe (c : Cmd) (s : State) : Res :=
  let p := c.params
  let table := fld p 0 1
  let first := fld p 2 2
  let n := fld p 4 2
  match firstBad [(table ≤ 1, 0), (first ≤ 4095, 2), (1 ≤ n && n ≤ (if table = 0 then 64 else 256), 4),
      (first + n ≤ 4096, 2)] with
  | some off => .bad off s
  | none =>
    if s.schedPending s.bas.fringe then .fail stBusy s
    else
      .ok (s.mapBas fun b =>
        let f := b.fringeLoad
        let f1 : Fringe := if table = 0 then
            { f with sky := (List.range n).foldl (fun m i => kvSet 0 m (first + i) (fld p (8 + 8 * i) 8)) f.sky }
          else { f with phase := (List.range n).foldl (fun m i => kvSet 0 m (first + i) (fld p (8 + 4 * i) 4)) f.phase }
        { b with fringeLoad := f1 })

def specCorrLoadFringe : OpSpec := { row := rowCorrLoadFringe, body := doCorrLoadFringe }
def execCorrLoadFringe (c : Cmd) (s : State) : Host.Outcome State Fault Refusal := s.submit specCorrLoadFringe c

def doCorrSetRotation (c : Cmd) (s : State) : Res :=
  let on := fld c.params 0 1
  let idx := fld c.params 8 8
  if 1 < on then .bad 0 s
  else if on = 1 && !s.replaying && !(match s.tile.layout with | some l => l.phasesFit | none => true) then .fail stResource s
  else if s.indexPast idx then .fail stPast s
  else .ok (s.mapBas fun b => { b with rotate := s.applySetting b.rotate idx (on = 1),
                                       fringe := s.applySetting b.fringe idx b.fringeLoad })

/-- The tables that the command makes active, as loads, and the command (R501). -/
def rotationRecords (c : Cmd) (s : State) : List (Nat × List Byte) :=
  let last := schedLast s.bas.fringe
  fringeLoads 0 8 64 (topKey last.sky) s.bas.fringeLoad.sky ++
  fringeLoads 1 4 256 (topKey last.phase) s.bas.fringeLoad.phase ++ [(0x0651, c.params)]

def specCorrSetRotation : OpSpec := { row := rowCorrSetRotation, body := doCorrSetRotation, records := rotationRecords }
def execCorrSetRotation (c : Cmd) (s : State) : Host.Outcome State Fault Refusal := s.submit specCorrSetRotation c

/-! ## Combining (R196, R197) -/

def doCorrSetCombine (c : Cmd) (s : State) : Res :=
  let p := c.params
  let role := fld p 0 1
  let parts := fld p 1 1
  let part := fld p 2 1
  let leaf := fld p 3 1
  let us := fld p 4 4
  match firstBad [(role ≤ 2, 0), (1 ≤ parts && parts ≤ 8, 1), (role ≠ 1 || part < parts, 2),
      (role ≠ 2 || leaf < parts || leaf = 0xFF, 3), (role ≠ 2 || (100 ≤ us && us ≤ 1000000), 4)] with
  | some off => .bad off s
  | none =>
    if s.schedLive then .fail stBusy s
    else .ok (s.mapBas fun b => { b with combine := { role := role, parts := parts, part := part, localLeaf := leaf,
                                                      timeoutUs := us } })

def specCorrSetCombine : OpSpec := { row := rowCorrSetCombine, body := doCorrSetCombine, records := ownRecord 0x0653 }
def execCorrSetCombine (c : Cmd) (s : State) : Host.Outcome State Fault Refusal := s.submit specCorrSetCombine c

/-- With no layout loaded, log_capacity is that of the smallest dwell (DESIGN CHOICE, log entry 71). -/
def doCorrGetAccum (c : Cmd) (s : State) : Res :=
  let ch := fld c.params 0 2
  if 4095 < ch then .bad 0 s
  else
    let g := s.integ ch
    let b := s.bas
    .okWith (beBytes 1 (s.integState ch) ++ beBytes 1 (s.shownPreload g).mode ++ beBytes 1 (b2n g.rotation) ++
      beBytes 1 (b2n g.saturated + 2 * b2n g.excluded + 4 * kvGet 0 b.lastMissing ch) ++ beBytes 4 g.processed ++
      beBytes 8 g.headerStart ++ beBytes 4 g.entries.length ++ beBytes 4 (logCapacity s.dwell) ++
      beBytes 4 g.excludedLog ++ beBytes 4 g.satBaselines ++ beCount 8 b.presenceMismatch ++ beCount 8 b.excludedTotal ++
      beCount 8 b.partialsCombined ++ beCount 8 b.partialsMissing ++ beCount 8 b.partialsLate ++
      beCount 8 b.partialsDuplicate ++ beCount 8 b.partialsRejected) s

def specCorrGetAccum : OpSpec := { row := rowCorrGetAccum, body := doCorrGetAccum }
def execCorrGetAccum (c : Cmd) (s : State) : Host.Outcome State Fault Refusal := s.submit specCorrGetAccum c

/-! ## Dumps (R221, R222, R224, R225) -/

/-- The dump settings accepted last. -/
def State.lastDumpSet (s : State) : DumpSet := (s.dump.set.later.getLast?.map (·.2)).getD s.dump.set.base

def doCorrSetDump (c : Cmd) (s : State) : Res :=
  let p := c.params
  let d : DumpSet := { period := fld p 0 4, stagger := fld p 4 1 = 1, coding := fld p 5 1, order := fld p 6 1,
                       weightMode := fld p 7 1 }
  let mib := fld p 8 2
  let idx := fld p 16 8
  match firstBad [(d.period ≤ 16777215, 0), (fld p 4 1 ≤ 1, 4), (d.coding ≤ 2, 5), (d.order ≤ 1, 6), (d.weightMode ≤ 1, 7),
      (16 ≤ mib && mib ≤ 512, 8)] with
  | some off => .bad off s
  | none =>
    if s.schedLive && mib ≠ s.dump.bufferMib then .fail stBusy s
    else if !s.dumpsFit d mib s.dump.map s.dump.dests then .fail stResource s
    else if s.indexPast idx then .fail stPast s
    else .ok (s.mapDump fun q => { q with
      set := s.queueSetting q.set idx d, bufferMib := mib,
      prior := if s.tile.sched = .loaded && q.prior.isNone then some q.set else q.prior })

def specCorrSetDump : OpSpec := { row := rowCorrSetDump, body := doCorrSetDump, records := ownRecord 0x0660 }
def execCorrSetDump (c : Cmd) (s : State) : Host.Outcome State Fault Refusal := s.submit specCorrSetDump c

/-- R222, R372: the scheduled dumps of which at most 64 may be pending: those of the command, and those of events with an
index. -/
def DumpAt.counted (a : DumpAt) : Bool := a.command || (match a.at_ with | .idx _ => true | .chans _ _ => false)

/-- A boundary is scheduled in a range of channels. -/
def State.scheduleDump (s : State) (first count : Nat) (at_ : When) (command : Bool) (due : Nat := 0) : State :=
  s.mapDump fun q => { q with scheduled := q.scheduled ++ [⟨first, count, at_, command, due⟩] }

def doCorrDumpAt (c : Cmd) (s : State) : Res :=
  let first := fld c.params 0 2
  let n := fld c.params 2 2
  let idx := fld c.params 8 8
  match firstBad [(first ≤ 4095, 0), (1 ≤ n && n ≤ 4096, 2), (first + n ≤ 4096, 0)] with
  | some off => .bad off s
  | none =>
    if 64 ≤ (s.dump.scheduled.filter (·.counted)).length then .fail stResource s
    else if s.indexPast idx then .fail stPast s
    else .ok (s.scheduleDump first n (s.applyAt idx s.nextTaken) true)

def specCorrDumpAt : OpSpec := { row := rowCorrDumpAt, body := doCorrDumpAt, records := ownRecord 0x0661 }
def execCorrDumpAt (c : Cmd) (s : State) : Host.Outcome State Fault Refusal := s.submit specCorrDumpAt c

def doCorrMapDest (c : Cmd) (s : State) : Res :=
  let first := fld c.params 0 2
  let n := fld c.params 2 2
  let d := fld c.params 4 1
  match firstBad [(first ≤ 4095, 0), (1 ≤ n && n ≤ 4096, 2), (first + n ≤ 4096, 0), (d ≤ 15, 4)] with
  | some off => .bad off s
  | none =>
    let map := (List.range n).foldl (fun m i => kvSet 0 m (first + i) d) s.dump.map
    if !s.dumpsFit s.lastDumpSet s.dump.bufferMib map s.dump.dests then .fail stResource s
    else
      -- R224: it acts from the next boundary; a dump that is due already goes where it would have gone
      let due := (List.range n).foldl (fun m i =>
        let c := first + i
        if ((s.settleLost c).integEnds c) && kvGet 0 m c = 0 then kvSet 0 m c (kvGet 0 s.dump.map c + 1) else m) s.dump.mapDue
      .ok (s.mapDump fun q => { q with map := map, mapDue := due })

def specCorrMapDest : OpSpec := { row := rowCorrMapDest, body := doCorrMapDest, records := ownRecord 0x0663 }
def execCorrMapDest (c : Cmd) (s : State) : Host.Outcome State Fault Refusal := s.submit specCorrMapDest c

/-- A kept record as its 128 bytes, network byte order. -/
def DumpRec.wire (r : DumpRec) : List Byte :=
  r.bytes ++ beBytes 4 r.visDiscarded ++ beBytes 4 r.portLost ++ beBytes 1 (b2n r.complete) ++ zeros 7

def doCorrGetDump (c : Cmd) (s : State) : Res :=
  let ch := fld c.params 0 2
  if 4095 < ch then .bad 0 s
  else
    let q := s.dump
    let rec_ := match kvGet [] q.kept ch with | r :: _ => r.wire | [] => zeros 128
    .okWith (rec_ ++ beCount 8 q.total ++ beCount 8 q.visDiscarded ++ beCount 8 q.portLost ++ beCount 8 q.unrouted ++
      beBytes 4 (ceilDiv q.usedBytes 1024) ++ beBytes 4 (ceilDiv q.peakBytes 1024)) s

def specCorrGetDump : OpSpec := { row := rowCorrGetDump, body := doCorrGetDump }
def execCorrGetDump (c : Cmd) (s : State) : Host.Outcome State Fault Refusal := s.submit specCorrGetDump c

/-! ## Destinations (R223, R256, R368) -/

def doCorrSetDest (c : Cmd) (s : State) : Res :=
  match s.badDest c.params 256 15 with
  | some off => .bad off s
  | none => .ok (s.mapDump fun q => { q with dests := kvSet Dest.init q.dests (fld c.params 0 1) (destAt c.params) })

def specCorrSetDest : OpSpec := { row := rowCorrSetDest, body := doCorrSetDest, records := ownRecord 0x0662 }
def execCorrSetDest (c : Cmd) (s : State) : Host.Outcome State Fault Refusal := s.submit specCorrSetDest c

def doBeamSetDest (c : Cmd) (s : State) : Res :=
  match s.badDest c.params 1024 15 with
  | some off => .bad off s
  | none =>
    let dests := kvSet Dest.init s.beam.dests (fld c.params 0 1) (destAt c.params)
    if !s.beamsFit s.beam.sets s.liveChains dests then .fail stResource s
    else .ok { s with beam := { s.beam with dests := dests } }

def specBeamSetDest : OpSpec := { row := rowBeamSetDest, body := doBeamSetDest, records := ownRecord 0x0720 }
def execBeamSetDest (c : Cmd) (s : State) : Host.Outcome State Fault Refusal := s.submit specBeamSetDest c

/-- There is one capture destination; the parameter dest selects nothing (log entry 29). -/
def doCapSetDest (c : Cmd) (s : State) : Res :=
  match s.badDest c.params 1024 15 with
  | some off => .bad off s
  | none => .ok (s.mapCap fun d => { d with dest := destAt c.params }).pumpSegments

def specCapSetDest : OpSpec := { row := rowCapSetDest, body := doCapSetDest, records := ownRecord 0x0930 }
def execCapSetDest (c : Cmd) (s : State) : Host.Outcome State Fault Refusal := s.submit specCapSetDest c

end Sys2Proof.Machine
end

