-- ==== Sys2Proof/Machine/Admission.lean ====
section
/-! DEFINITION. Admission of a schedule (R33 to R39, R150, R233, R235, R271, R305, R336, R339, R349) and the commands that
it judges: operating point, layout, beam sets, split, ring and host region; and the reports of load, layout and tiles. -/

namespace Sys2Proof.Machine

/-! ## What a schedule asks for -/

abbrev mibBytes : Nat := 1048576

/-- R233: β_max, over the enabled sets. -/
def State.betaMax (s : State) : Nat :=
  s.beam.sets.foldl (fun m e => if e.2.enable then max m (ceilDiv e.2.groups (max e.2.slots 1)) else m) 0

/-- R149: B_max of the loaded layout. -/
def State.bMaxNow (s : State) : Nat := bMax s.layout.blocks s.corrSlots.length

/-- R233: Λ. -/
def State.visitLoad (s : State) : Nat := max s.bMaxNow (2 * s.betaMax)

/-- R196, R339: remote leaves of a combiner. -/
def State.remoteLeaves (s : State) : Nat :=
  let k := s.bas.combine
  if k.role = 2 then k.parts - b2n (k.localLeaf ≠ 0xFF) else 0

/-- R339: the largest number of dumps that the periodic boundaries place in one round. -/
def State.dumpsPerRound (s : State) (l : CorrLayout) : Nat :=
  let d := s.lastDumpSet
  if d.period = 0 then 0
  else if !d.stagger then l.channels
  else ((List.range l.channels).foldl (fun m c => kvBump m (c * d.period / l.channels) 1) []).foldl (fun b e => max b e.2) 0

/-- R35, R235, R336, R339: T_corr of a layout under the settings, bytes per second, as numerator and denominator. -/
def State.traffic (s : State) (l : CorrLayout) : Nat × Nat :=
  let r := l.channels * l.rate
  let parts := s.split.parts
  let len := max s.lastDumpSet.period 1
  let history := if 1 < parts then 2 * l.n * dCap l.n l.dwell * r else 0
  let weights := (s.beam.sets.map fun e => if e.2.enable then e.2.entryBytes * e.2.chanCount * l.rate else 0).sum
  let leaves := if s.lastDumpSet.period = 0 then 0 else 32 * l.baselines * s.remoteLeaves * r * parts
  ((2 * l.n * r * l.dwell + 24 * l.baselines * r + history + weights) * len + leaves, l.dwell * parts * len)

/-- R349: w_cap. -/
def State.captureRate (s : State) (l : CorrLayout) : Nat :=
  if s.cap.sel.mib = 0 then 0 else s.cap.sel.nIn * s.cap.sel.nCh * l.rate

/-- R37: F, MiB. -/
def CorrLayout.footprint (l : CorrLayout) : Nat :=
  ceilDiv (12 * l.baselines) mibBytes + 2 * ceilDiv (l.n * l.dwell) mibBytes + 4

/-- R37, R235, R339, R447: the channels fit the memory that the ring, the banks, the host region and the partial area leave. -/
def State.memoryFits (s : State) : Bool :=
  match s.tile.layout with
  | none => true
  | some l => l.channels * l.footprint + s.cap.sel.mib + s.bankMib + s.mem.hostMib + s.split.mib ≤ 96256

/-- R33, R336, R39: the tile load is at most 1 (P - 1 in a time split), or over-commit is admitted. -/
def State.tilesFit (s : State) (l : CorrLayout) : Bool :=
  s.load.policy.overcommit ||
  decide (l.channels * l.rate * s.visitLoad ≤ stepRate s.load.op * (if s.split.parts ≤ 1 then 1 else s.split.parts - 1))

/-- R34: the ingest write limit. -/
def State.ingestFits (s : State) (l : CorrLayout) : Bool := l.n * (l.channels * l.rate) ≤ 742400000000 * s.split.parts

/-- R35, R36, R349: HBM traffic and the capture allowance; with D a whole number of granules this is D ≥ D_min. -/
def State.trafficFits (s : State) (l : CorrLayout) : Bool :=
  let (num, den) := s.traffic l
  let w := s.captureRate l
  decide (w ≤ 1000000000000) && decide (num + w * den ≤ 3920000000000 * den)

/-- R305: delay and phase evaluations per second, while rotation, in force or still to come, or tracking is on. -/
def State.phasesFit (s : State) (l : CorrLayout) : Bool :=
  let r := s.settleSettings.bas.rotate
  let on := r.base || (r.later.any fun e => e.2) || s.beam.sets.any fun e => e.2.enable && e.2.track
  !on || l.phasesFit

/-- R271: every configured chain. -/
def State.chainsFit (s : State) : Bool :=
  s.filt.chains.all fun e =>
    let (num, den) := s.chainDemand e.2
    !e.2.configured || decide (num ≤ 16 * stepRate s.load.op * den)

/-- R339: the partial area. -/
def State.partialFits (s : State) (l : CorrLayout) : Bool :=
  s.remoteLeaves * 16 * l.baselines * s.dumpsPerRound l ≤ s.split.mib * mibBytes

/-- R150: no correlation slot carries more than 8 blocks. -/
def State.slotsSuffice (s : State) : Bool := s.replaying || s.tile.layout.isNone || decide (s.bMaxNow ≤ 8)

/-- R39: the schedule that a state holds is within every limit at its declared point. -/
def State.admitted (s : State) : Bool :=
  match s.tile.layout with
  | none => true
  | some l =>
    s.tilesFit l && s.ingestFits l && s.trafficFits l && s.memoryFits && s.phasesFit l &&
    s.chainsFit && s.partialFits l && s.cap.sel.fits s.ringReserve s.cap.pre s.cap.post

/-- R517: no HBM can be allocated while a stack is off, or on its way off. -/
def State.hbmAway (s : State) : Bool :=
  [76, 77, 78, 79].any fun d => (s.domain d).state = .off || (s.domain d).state = .draining

/-- A change is applied when the schedule it leaves is admitted (R39); a setting restored from the journal has been (R503). -/
def State.whenAdmitted (s changed : State) : Res := if s.replaying || changed.admitted then .ok changed else .fail stResource s

/-! ## The operating point (R48, R49) -/

def doPwrSetOp (c : Cmd) (s : State) : Res :=
  let op := fld c.params 0 1
  if op < 1 || 5 < op then .bad 0 s
  else s.whenAdmitted (s.mapLoad fun l => { l with op := op, source := if s.replaying then 1 else 2 })

def specPwrSetOp : OpSpec := { row := rowPwrSetOp, body := doPwrSetOp, records := ownRecord 0x0C10 }
def execPwrSetOp (c : Cmd) (s : State) : Host.Outcome State Fault Refusal := s.submit specPwrSetOp c

/-- R27: nominal VDD_CORE and the edges of its window, mV. -/
def supplyWindow (op : Nat) : Nat × Nat × Nat :=
  if op = 1 then (800, 784, 816) else if op = 2 then (900, 882, 918) else if op = 3 then (1000, 980, 1020)
  else if op = 4 then (1100, 1078, 1122) else (1200, 1176, 1224)

def doPwrGetOp (_c : Cmd) (s : State) : Res :=
  let (nom, low, high) := supplyWindow s.load.op
  .okWith (beBytes 1 s.load.op ++ beBytes 1 s.load.source ++ beBytes 2 nom ++ beBytes 2 low ++ beBytes 2 high ++
    beBytes 4 (stepRate s.load.op / 1000) ++ zeros 4) s

def specPwrGetOp : OpSpec := { row := rowPwrGetOp, body := doPwrGetOp }
def execPwrGetOp (c : Cmd) (s : State) : Host.Outcome State Fault Refusal := s.submit specPwrGetOp c

/-! ## Overload policy and load (R50, R51) -/

def doCorrSetShed (c : Cmd) (s : State) : Res :=
  let p := c.params
  let commit := fld p 1 1
  match firstBad [(decide (fld p 0 1 ≤ 1), 0), (decide (commit ≤ 1), 1), (decide (1 ≤ fld p 2 1), 2), (decide (1 ≤ fld p 3 1), 3),
      (decide (16 ≤ fld p 4 2 ∧ fld p 4 2 ≤ 4096), 4), (decide (1 ≤ fld p 6 1 ∧ fld p 6 1 ≤ 8), 6)] with
  | some off => .bad off s
  | none =>
    let q : ShedPolicy := { auto := fld p 0 1 = 1, overcommit := commit = 1, entryDrops := fld p 2 1, entryWindow := fld p 3 1,
                            relaxRounds := fld p 4 2, slackFactor := fld p 6 1 }
    .ok (s.mapLoad fun l => { l with policy := { l.policy with overcommit := commit = 1 }, nextPolicy := some q })

def specCorrSetShed : OpSpec := { row := rowCorrSetShed, body := doCorrSetShed }
def execCorrSetShed (c : Cmd) (s : State) : Host.Outcome State Fault Refusal := s.submit specCorrSetShed c

/-- ρ at the declared point, units of 1/65,536, rounded up. -/
def State.tileLoad (s : State) (l : CorrLayout) : Nat :=
  ceilDiv (l.channels * l.rate * s.visitLoad * 65536) (stepRate s.load.op)

/-- With no layout loaded, load, hbm_corr_gbs, cap_allow_gbs and channels are 0 (DESIGN CHOICE, log entry 104). -/
def doCorrGetLoad (_c : Cmd) (s : State) : Res :=
  let l := s.resolveSlacks.load
  let (rho, gbs, allow, chans) := match s.tile.layout with
    | some y => (s.tileLoad y, ceilDiv (s.traffic y).1 ((s.traffic y).2 * 1000000000), ceilDiv (s.captureRate y) 1000000000,
                 y.channels)
    | none => (0, 0, 0, 0)
  .okWith (beBytes 1 (b2n l.shed) ++ beBytes 1 l.op ++ zeros 2 ++ beBytes 4 l.s ++ beBytes 4 l.shedMax ++
    beCount 4 l.shedEntries ++ beCount 8 l.unplanned ++ beCount 8 l.planned ++ beCount 8 l.shedRounds ++ beCount 4 rho ++
    beCount 4 gbs ++ beCount 4 allow ++ beBytes 4 chans ++ beCount 4 l.visitMaxNs ++ beCount 4 l.slackMinNs) s

def specCorrGetLoad : OpSpec := { row := rowCorrGetLoad, body := doCorrGetLoad }
def execCorrGetLoad (c : Cmd) (s : State) : Host.Outcome State Fault Refusal := s.submit specCorrGetLoad c

/-! ## The layout (R165, R169, R170) -/

def layoutAt (p : List Byte) : CorrLayout :=
  { rect := fld p 0 1 = 1, shape := fld p 1 1, n := fld p 2 2, row0 := fld p 4 2, rows := fld p 6 2, col0 := fld p 8 2,
    cols := fld p 10 2, dwell := fld p 12 4, channels := fld p 16 2, rate := fld p 20 4 }

/-- R145, R146, R36: the layout by itself. -/
def layoutChecks (mode : Nat) (l : CorrLayout) : List (Bool × Nat) :=
  let (rs, cs, _) := shapeSides l.shape
  [(decide (mode ≤ 1), 0), (decide (l.shape ≤ 2) && (l.rect || l.shape = 0), 1), (decide (1 ≤ l.n ∧ l.n ≤ 4096), 2),
   (if l.rect then decide (l.row0 % rs = 0 ∧ l.row0 + l.rows ≤ l.n) else l.row0 = 0, 4),
   ((if l.rect then decide (1 ≤ l.rows ∧ l.rows % rs = 0) else l.rows = 0) && decide (l.blocks ≤ 2080), 6),
   (if l.rect then decide (l.col0 % cs = 0 ∧ l.col0 + l.cols ≤ l.n) else l.col0 = 0, 8),
   (if l.rect then decide (1 ≤ l.cols ∧ l.cols % cs = 0) else l.cols = 0, 10),
   (decide (256 ≤ l.dwell ∧ l.dwell ≤ 65536 ∧ l.dwell % 256 = 0 ∧ l.n * l.dwell ≤ 67108864), 12),
   (decide (1 ≤ l.channels ∧ l.channels ≤ 4096), 16), (decide (1 ≤ l.rate ∧ l.rate ≤ 1450000000), 20)]

/-- R139, R165: the layout against the settings in force and those still to come into force, each at the field it depends
on; a static delay counts whatever input it belongs to. -/
def State.settingChecks (s0 : State) (l : CorrLayout) : List (Bool × Nat) :=
  let s := s0.settleSettings
  let tables := s.stg.coarse.base :: s.stg.coarse.later.map (·.2)
  let longest := tables.foldl (fun m t => t.foldl (fun b e => max b e.2) m) 0
  let delayOk := decide (longest ≤ dCap l.n l.dwell)
  let atDwell := decide (l.dwell / 2 ≤ min (256 * (4096 / max l.n 1)) 4096)
  let maps := (if s.ing.map.base = [] then [] else [s.ing.map.base]) ++ s.ing.map.later.map (·.2)
  let sel := s.cap.sel
  let sets := s.beam.sets.filter (·.2.enable)
  [(delayOk || atDwell, 2), (maps.all fun m => m.all fun e => e.firstLogical + e.count ≤ l.n, 2),
   (sets.all fun e => decide (e.2.firstGroup + e.2.groups ≤ ceilDiv l.n 64), 2),
   (sel.mib = 0 || decide (sel.firstInput + sel.nIn ≤ l.n), 2), (delayOk || !atDwell, 12),
   (epochLenOk s.qz.epochLen (some l.dwell), 12), (maps.all fun m => m.all fun e => e.devChan + e.chans ≤ l.channels, 16),
   (sets.all fun e => decide (e.2.chan0 + e.2.chanCount ≤ l.channels), 16),
   (sel.mib = 0 || decide (sel.firstChannel + sel.nCh ≤ l.channels), 16),
   (s.filt.chains.all fun e => !e.2.configured || decide (e.2.channel < l.channels), 16),
   (sets.all fun e => e.2.detect = 0 || decide (l.dwell % max e.2.nInt 1 = 0), 12)]

/-- R165: the channels of a scheduled dump that a layout holds. -/
def DumpAt.trim (a : DumpAt) (channels : Nat) : Option DumpAt :=
  if a.first < channels then some { a with count := min a.count (channels - a.first) } else none

def State.loadLayout (s : State) (l : CorrLayout) : State :=
  (((s.endSchedule).mapTile fun t => { t with layout := some l, sched := .loaded, stop := none }).mapStg fun g =>
    { g with chans := g.chans.map fun e => (e.1, e.2.fresh) }).mapDump fun d => { d with scheduled := d.scheduled.filterMap (·.trim l.channels) }

def doCorrSetLayout (c : Cmd) (s : State) : Res :=
  let l := layoutAt c.params
  match firstBad (layoutChecks (fld c.params 0 1) l) with
  | some off => .bad off s
  | none =>
    match firstBad (s.settingChecks l) with
    | some off => .bad off s
    | none =>
      if s.schedLive || s.hbmAway then .fail stBusy s
      else if !(s.loadLayout l).slotsSuffice then .fail stResource s
      else s.whenAdmitted (s.loadLayout l)

def specCorrSetLayout : OpSpec := { row := rowCorrSetLayout, body := doCorrSetLayout, records := ownRecord 0x0601 }
def execCorrSetLayout (c : Cmd) (s : State) : Host.Outcome State Fault Refusal := s.submit specCorrSetLayout c

def SchedMode.code : SchedMode → Nat
  | .none => 0 | .loaded => 1 | .running => 2 | .stopping => 3

/-- R169: slots_at_max. -/
def slotsAtMax (blocks tc : Nat) : Nat :=
  if blocks = 0 || tc = 0 then 0 else if 8 < bMax blocks tc then tc else if blocks % tc = 0 then tc else blocks % tc

def doCorrGetLayout (_c : Cmd) (s : State) : Res :=
  let t := s.tile
  let tc := s.corrSlots.length
  let tail : List Byte := (if s.schedLive then beBytes 8 t.start else beBytes 8 noIndex) ++
    beBytes 8 (match t.stop with | some x => if s.schedLive then x else noIndex | none => noIndex)
  let gone := t.slots.length - s.liveSlots.length
  match t.layout with
  | none =>
    .okWith (zeros 22 ++ beBytes 2 tc ++ beBytes 2 s.beamSlots.length ++ beBytes 2 gone ++ zeros 12 ++ tail) s
  | some l =>
    let b := l.blocks
    .okWith (beBytes 1 t.sched.code ++ beBytes 1 (b2n l.rect) ++ beBytes 1 l.shape ++ beCount 1 (bMax b tc) ++ beBytes 2 l.n ++
      beBytes 2 l.row0 ++ beBytes 2 l.rows ++ beBytes 2 l.col0 ++ beBytes 2 l.cols ++ beBytes 2 l.channels ++
      beBytes 4 l.dwell ++ beBytes 2 b ++ beBytes 2 tc ++ beBytes 2 s.beamSlots.length ++ beBytes 2 gone ++
      beBytes 2 (slotsAtMax b tc) ++ beBytes 2 s.uncorrelated ++ beBytes 4 l.rate ++ zeros 4 ++ tail) s

def specCorrGetLayout : OpSpec := { row := rowCorrGetLayout, body := doCorrGetLayout }
def execCorrGetLayout (c : Cmd) (s : State) : Host.Outcome State Fault Refusal := s.submit specCorrGetLayout c

def doCorrGetTiles (c : Cmd) (s : State) : Res :=
  let n := fld c.params 0 2
  match s.tile.slots[n]? with
  | none => .bad 0 s
  | some v =>
    let corr := s.corrSlots
    let mine := if corr.contains n then slotBlocks s.layout.blocks corr.length (corr.idxOf n) else []
    let blocks := if s.tile.layout.isSome then mine else []
    let mode := if v.tile.isNone then 3 else if s.beamSlots.contains n then 2 else if blocks = [] then 0 else 1
    .okWith (beBytes 2 (v.tile.getD 0xFFFF) ++ beBytes 1 mode ++ beBytes 1 blocks.length ++
      beBytes 2 (blocks.head?.getD 0xFFFF) ++ zeros 2 ++ beCount 8 v.visits ++ beCount 4 v.discards ++ beCount 4 v.moves ++
      beCount 8 s.tile.diagChecks ++ beCount 8 s.tile.diagMismatch ++ beCount 8 s.tile.tileDiscards ++
      beCount 8 s.tile.tileVisits) s

def specCorrGetTiles : OpSpec := { row := rowCorrGetTiles, body := doCorrGetTiles }
def execCorrGetTiles (c : Cmd) (s : State) : Host.Outcome State Fault Refusal := s.submit specCorrGetTiles c

/-! ## Beam sets (R253) -/

/-- The set as the parameters configure it; banks and counters stay. -/
def BeamSet.configured (b : BeamSet) (p : List Byte) : BeamSet :=
  { b with enable := fld p 1 1 = 1, slots := fld p 2 1, groups := fld p 3 1, firstGroup := fld p 4 1, detect := fld p 5 1,
           track := fld p 6 1 = 1, shared := fld p 7 1 = 1, chan0 := fld p 8 2, chanCount := fld p 10 2, nInt := fld p 12 4,
           vDest := fld p 16 1, dDest := fld p 17 1 }

/-- R226, R227, R243 and the ranges of R253. -/
def State.beamChecks (s : State) (p : List Byte) : List (Bool × Nat) :=
  let b := BeamSet.init.configured p
  let groups := ceilDiv s.loadedN 64
  let others := (s.beam.sets.map fun e => if e.1 ≠ fld p 0 1 && e.2.enable then e.2.slots else 0).sum
  let dwellOk := match s.tile.layout with | some l => l.dwell % max b.nInt 1 = 0 | none => true
  [(decide (fld p 0 1 ≤ 15), 0), (decide (fld p 1 1 ≤ 1), 1),
   (decide (1 ≤ b.slots ∧ b.slots ≤ b.groups ∧ b.groups ≤ 8 * b.slots), 2),
   (!b.enable || decide (others + b.slots < s.liveSlots.length), 2),
   (decide (1 ≤ b.groups ∧ b.groups ≤ 64), 3), (!b.enable || decide (b.firstGroup + b.groups ≤ groups), 4),
   (decide (b.detect ≤ 2), 5), (decide (fld p 6 1 ≤ 1), 6), (decide (fld p 7 1 ≤ 1), 7),
   (!b.enable || decide (b.chan0 < s.loadedChannels), 8),
   (decide (1 ≤ b.chanCount ∧ b.chanCount ≤ 4096), 10),
   (!b.enable || decide (b.chan0 + b.chanCount ≤ s.loadedChannels), 8),
   (b.detect = 0 || (decide (1 ≤ b.nInt ∧ b.nInt ≤ 65536) && dwellOk), 12), (decide (b.vDest ≤ 15) || b.vDest = 0xFF, 16),
   (decide (b.dDest ≤ 15) || b.dDest = 0xFF, 17)]

def doBeamSetConfig (c : Cmd) (s : State) : Res :=
  let p := c.params
  let n := fld p 0 1
  match firstBad (s.beamChecks p) with
  | some off => .bad off s
  | none =>
    let b := (s.beamSet n).configured p
    let t := s.setBeamSet n b
    if s.schedLive || (b.enable && s.hbmAway) then .fail stBusy s
    else if !t.slotsSuffice && s.bMaxNow < t.bMaxNow then .fail stResource s
    else if !t.beamsFit t.beam.sets t.liveChains t.beam.dests then .fail stResource s
    else s.whenAdmitted t

def specBeamSetConfig : OpSpec := { row := rowBeamSetConfig, body := doBeamSetConfig, records := ownRecord 0x0701 }
def execBeamSetConfig (c : Cmd) (s : State) : Host.Outcome State Fault Refusal := s.submit specBeamSetConfig c

/-! ## The split (R344) -/

def doCorrSetSplit (c : Cmd) (s : State) : Res :=
  let p := c.params
  let parts := fld p 0 1
  let index := fld p 1 1
  let mib := fld p 8 4
  let k := s.bas.combine
  let leaf := if k.role = 1 then some k.part else if k.role = 2 && k.localLeaf ≠ 0xFF then some k.localLeaf else none
  match firstBad [(parts = 1 || parts = 2 || parts = 4 || parts = 8, 0), (k.role = 0 || parts = k.parts, 0),
      (decide (index < parts), 1), (match leaf with | some x => decide (index = x) | none => true, 1),
      (decide (mib ≤ 16384), 8)] with
  | some off => .bad off s
  | none =>
    if s.schedLive || (mib ≠ 0 && s.hbmAway) then .fail stBusy s
    else s.whenAdmitted { s with split := { parts := parts, index := index, group := fld p 2 2, psxUdp := fld p 4 2, mib := mib } }

def specCorrSetSplit : OpSpec := { row := rowCorrSetSplit, body := doCorrSetSplit, records := ownRecord 0x0654 }
def execCorrSetSplit (c : Cmd) (s : State) : Host.Outcome State Fault Refusal := s.submit specCorrSetSplit c

/-! ## The transient ring (R365) -/

def doCapSetRing (c : Cmd) (s : State) : Res :=
  let p := c.params
  let r : RingSel := { mib := fld p 0 2, firstInput := fld p 2 2, nIn := fld p 4 2, firstChannel := fld p 6 2, nCh := fld p 8 2 }
  match firstBad [(decide (r.mib ≤ 8192), 0), (decide (r.firstInput < s.loadedN), 2),
      (decide (1 ≤ r.nIn ∧ r.nIn ≤ 4096), 4), (decide (r.firstInput + r.nIn ≤ s.loadedN), 2), (decide (r.firstChannel < s.loadedChannels), 6),
      (decide (1 ≤ r.nCh ∧ r.nCh ≤ 4096), 8), (decide (r.firstChannel + r.nCh ≤ s.loadedChannels), 6)] with
  | some off => .bad off s
  | none =>
    if s.schedLive || s.cap.segs ≠ [] || (r.mib ≠ 0 && s.hbmAway) then .fail stBusy s
    else s.whenAdmitted (s.mapCap fun d => { d with sel := r, blocks := [], reused := [] })

def specCapSetRing : OpSpec := { row := rowCapSetRing, body := doCapSetRing, records := ownRecord 0x0901 }
def execCapSetRing (c : Cmd) (s : State) : Host.Outcome State Fault Refusal := s.submit specCapSetRing c

/-! ## The host region (R447, R449) -/

/-- Every residual preload lies in a host region of `mib` MiB: those of the integrations in progress and of the next ones, and
those that wait for their index. One that another has replaced does not count. -/
def State.residualsIn (s : State) (mib : Nat) : Bool :=
  let base := 0x2800000000 - mib * mibBytes
  let ok (p : Preload) : Bool := p.mode ≠ 2 || decide (base ≤ p.residual)
  let next (c : Nat) : Nat := if s.schedLive then s.firstIndex (s.integ c).next else 0
  ((if s.schedLive then s else s.settleSettings).bas.preload.all fun e =>
    ok (if s.schedLive then schedAt e.2 e.1 (next e.1) else e.2.base) &&
    e.2.later.all fun x => (s.schedLive && decide (whenStart x.1 e.1 ≤ next e.1)) || ok x.2) &&
  (s.bas.integs.all fun e => !e.2.begun || ok e.2.preload) &&
  s.bas.collects.all fun x => ok (s.preloadAt x.channel x.integStart)

def doMemSetHost (c : Cmd) (s : State) : Res :=
  let mib := fld c.params 0 4
  let q := fld c.params 4 2
  match firstBad [(decide (mib % 64 = 0 ∧ mib ≤ 65536) && s.residualsIn mib, 0), (s.queueOk q 5, 4)] with
  | some off => .bad off s
  | none =>
    let t := s.mapMem fun m => { m with hostMib := mib, logQueue := q }
    if mib ≠ s.mem.hostMib && (s.schedLive || (mib ≠ 0 && s.hbmAway)) then .fail stBusy s
    else if !s.replaying && !t.memoryFits then .fail stResource s
    else .ok t

def specMemSetHost : OpSpec := { row := rowMemSetHost, body := doMemSetHost, records := ownRecord 0x0B30 }
def execMemSetHost (c : Cmd) (s : State) : Host.Outcome State Fault Refusal := s.submit specMemSetHost c

end Sys2Proof.Machine
end

