-- ==== Sys2Proof/Machine/Journal.lean ====
section
/-! DEFINITION. The journal in flash: halves, records, commits, compaction, recovery, and its commands
(R500 to R507, R511, R512). -/

namespace Sys2Proof.Machine

def State.mapJrnl (s : State) (f : JrnlState → JrnlState) : State := { s with jrnl := f s.jrnl }

/-! ## Geometry (R500) -/

abbrev blockBytes : Nat := 65536
abbrev halfBytes : Nat := 4194304

def halfBase (h : Nat) : Nat := 0x800000 + h * halfBytes
def blockBase (h b : Nat) : Nat := halfBase h + b * blockBytes

/-- Blocks 1 to 63 that are not bad. -/
def goodBlocks (bad : Nat) : List Nat := (List.range 63).filterMap fun i => if bit bad (i + 1) then none else some (i + 1)

def nextBlock (bad b : Nat) : Option Nat := (goodBlocks bad).find? (b < ·)

/-- R504: capacity in bytes, and what makes a half unusable. -/
def halfCapacity (bad : Nat) : Nat := blockBytes * min 60 (goodBlocks bad).length
def halfUsable (bad : Nat) : Bool := !bit bad 0 && 32 ≤ (goodBlocks bad).length

/-- R505: the fill of a half whose tail lies at `(block, off)`. -/
def fillOf (bad block off : Nat) : Nat := ((goodBlocks bad).filter (· < block)).length * blockBytes + off

def JrnlState.fill (j : JrnlState) : Nat := fillOf j.badMap j.tailBlock j.tailOff
def JrnlState.capacity (j : JrnlState) : Nat := halfCapacity j.badMap

def erased (fl : Mem) (addr len : Nat) : Bool := fl.all fun e => e.1 < addr || addr + len ≤ e.1

/-! ## Records (R501, R502) -/

def recordBytes (seq type_ : Nat) (last : Bool) (payload : List Byte) : List Byte :=
  let head := leBytes 8 seq ++ leBytes 2 type_ ++ leBytes 1 (b2n last) ++ [0] ++ leBytes 2 payload.length ++ [0, 0]
  let body := head ++ leBytes 4 (crc32c (head ++ payload)) ++ payload
  body ++ zeros (recordSize payload.length - body.length)

/-- Records that another record of their group follows: the loads of a table. -/
def isLoad (type_ : Nat) : Bool := type_ = 0x0510 || type_ = 0x0620 || type_ = 0x0652 || type_ = 0x0810

structure JParsed where
  type_ : Nat
  last : Bool
  payload : List Byte
  deriving DecidableEq, Repr

/-- R502: the valid record of sequence number `seq` at a position, if there is one. -/
def parseRecord (fl : Mem) (h block off seq : Nat) : Option JParsed :=
  let a := blockBase h block + off
  let head := memRead 0xFF fl a 20
  let n := lfld head 12 2
  let r := recordSize n
  if blockBytes < off + 24 || 4072 < n || blockBytes < off + r then none
  else
    let p := memRead 0xFF fl (a + 20) n
    if lfld head 0 8 = seq && lfld head 16 4 = crc32c (head.take 16 ++ p) &&
      memRead 0xFF fl (a + r - 4) 4 = zeros 4 then some ⟨lfld head 8 2, bit (lfld head 10 1) 0, p⟩
    else none

/-! ## Appending (R501, R504) -/

/-- Where the engine stands in a half. `full`: nothing more fits. -/
structure JCursor where
  flash : Mem
  half : Nat
  bad : Nat
  block : Nat
  off : Nat
  /-- seq of the last record -/
  seq : Nat
  full : Bool
  /-- blocks that fail in this operation -/
  failing : List Nat
  deriving DecidableEq, Repr

/-- A block is made wholly erased before its first record; one that fails to erase is bad (R504). -/
def JCursor.enter (c : JCursor) (b : Nat) : JCursor :=
  { c with flash := memErase c.flash (blockBase c.half b) blockBytes, block := b, off := 0 }

/-- The place of the next `r` bytes. -/
def JCursor.seek : Nat → JCursor → Nat → JCursor
  | 0, c, _ => { c with full := true }
  | fuel + 1, c, r =>
    if c.off + r ≤ blockBytes && erased c.flash (blockBase c.half c.block + c.off) (blockBytes - c.off) then c
    else
      match nextBlock c.bad c.block with
      | none => { c with full := true }
      | some b =>
        if !erased c.flash (blockBase c.half b) blockBytes && c.failing.contains b then
          JCursor.seek fuel { c with bad := withBit c.bad b true } r
        else c.enter b

def JCursor.write (c : JCursor) (bs : List Byte) : JCursor :=
  { c with flash := memWrite 0xFF c.flash (blockBase c.half c.block + c.off) bs, off := c.off + bs.length, seq := c.seq + 1 }

/-- One record. A block that fails is filled with zeros to its end, and a BLOCK_SKIP names it in the next one; it closes a
group of its own unless a group is open. -/
def JCursor.append (opened : Bool) : Nat → JCursor → Nat → Bool → List Byte → JCursor
  | 0, c, _, _, _ => { c with full := true }
  | fuel + 1, c0, type_, last, payload =>
    let r := recordSize payload.length
    let c := JCursor.seek 64 c0 r
    if c.full || halfCapacity c.bad < fillOf c.bad c.block c.off + r then { c0 with full := true }
    else if c.failing.contains c.block then
      let b := c.block
      let z := memWrite 0xFF c.flash (blockBase c.half b + c.off) (zeros (blockBytes - c.off))
      let c1 : JCursor := { c with flash := z, off := blockBytes, failing := c.failing.filter (· ≠ b) }
      match nextBlock c.bad b with
      | none => { c0 with full := true }
      | some _ =>
        let c2 := JCursor.append opened fuel c1 0xF005 (!opened) (leBytes 1 b)
        JCursor.append opened fuel { c2 with bad := withBit c2.bad b true } type_ last payload
    else c.write (recordBytes (c.seq + 1) type_ last payload)

/-- Records in order; each closes its group unless it is a load. -/
def JCursor.appendAll (c : JCursor) (rs : List JRecord) : JCursor :=
  (rs.foldl (fun (a : JCursor × Bool) (r : JRecord) =>
    if a.1.full then a else (JCursor.append a.2 64 a.1 r.1 (!isLoad r.1) r.2, isLoad r.1)) (c, false)).1

def State.cursor (s : State) (failing : List Nat) : JCursor :=
  let j := s.jrnl
  { flash := s.flash, half := j.half, bad := j.badMap, block := j.tailBlock, off := j.tailOff, seq := j.lastSeq, full := false,
    failing := failing }

/-! ## Commits (R502, R503, R506) -/

/-- R505: a commit that brings the fill to 75 % starts a compaction. -/
def State.maybeCompact (s : State) : State :=
  let j := s.jrnl
  if j.step = 0 && !j.degraded && 3 * j.capacity ≤ 4 * j.fill then s.mapJrnl fun j => { j with step := 1 } else s

/-- Records are appended to the active half; false: the journal is FULL and nothing of them stands. -/
def State.appendRecords (s : State) (rs : List JRecord) (failing : List Nat) : State × Bool :=
  let c := (s.cursor failing).appendAll rs
  if c.full then (s.mapJrnl fun j => { j with full := true }, false)
  else
    ((({ s.pieces 7 with flash := c.flash }).mapJrnl fun j =>
      { j with badMap := c.bad, tailBlock := c.block, tailOff := c.off, lastSeq := c.seq }).maybeCompact, true)

/-- R535: the engine is powered. R505: appends pause in steps 2 to 4. -/
def State.mayCommit (s : State) : Bool :=
  s.jrnl.groups ≠ [] && s.domainOn 95 && !(2 ≤ s.jrnl.step && s.jrnl.step ≤ 4) && s.pwr.phase ≠ 7

/-- The oldest group goes into flash, or is lost; whether it stands there. -/
def State.commitOldest (s : State) (failing : List Nat) : State × Bool :=
  match s.jrnl.groups with
  | [] => (s, false)
  | g :: rest =>
    let us := (s.ns - s.jrnl.groupFrom) / 1000
    let s1 := s.mapJrnl fun j => { j with groups := rest, groupFrom := s.ns, commitMaxUs := max j.commitMaxUs us }
    let (s2, ok) := if s1.jrnl.full && g.records ≠ [] then (s1, false) else s1.appendRecords g.records failing
    if ok || g.forCommand then (s2, ok)
    else (s2.mapJrnl fun j => { j with recordsLost := j.recordsLost + g.records.length }, false)

/-- R164, R497: a withdrawal is due from the moment at which its tile's record no longer waits. -/
def State.noteRecorded (s : State) : State :=
  let held (t : Nat) : Bool := s.jrnl.groups.any fun g => g.records.any fun r => r.1 = 0xF002 && lfld r.2 0 2 = t
  let leaving := s.tile.leaving.map fun x => if x.due.isNone && !held x.tile then { x with due := some s.ns } else x
  { s with tile := { s.tile with leaving := leaving } }

/-! ## Compaction (R505, R506) -/

def headerBytes (generation baseSeq bad : Nat) (committed : Bool) : List Byte :=
  let h : List Byte := [0x53, 0x48, 0x4C, 0x4A, 1] ++ zeros 3 ++ leBytes 4 generation ++ zeros 4 ++ leBytes 8 baseSeq ++ leBytes 8 bad
  h ++ leBytes 4 (crc32c h) ++ zeros 24 ++ (if committed then zeros 4 else List.replicate 4 0xFF)

/-- The half being prepared cannot be used: the journal runs on in the active one, DEGRADED. -/
def State.abandonHalf (s : State) : State := s.mapJrnl fun j => { j with step := 0, degraded := true }

/-- The blocks of a half that are not erased and fail to erase. -/
def badBlocks (fl : Mem) (h : Nat) (failing : List Nat) : Nat :=
  (List.range 64).foldl (fun (m : Nat) (b : Nat) =>
    if failing.contains b && !erased fl (blockBase h b) blockBytes then m + 2 ^ b else m) 0

/-- The blocks of a half are erased, but for those that fail. -/
def eraseHalf (fl : Mem) (h : Nat) (failing : List Nat) : Mem :=
  (List.range 64).foldl (fun (f : Mem) (b : Nat) =>
    if failing.contains b then f else memErase f (blockBase h b) blockBytes) fl

/-- Step 1: blocks that are not erased are erased; those that fail are bad. -/
def State.checkHalf (s : State) (failing : List Nat) : State :=
  let y := 1 - s.jrnl.half
  let bad := badBlocks s.flash y failing
  let s1 : State := { s with flash := eraseHalf s.flash y failing }
  let s2 := s1.mapJrnl fun j => { j with otherBad := bad, step := 2, pauseFrom := s.ns }
  if halfUsable bad then s2 else s2.abandonHalf

/-- Step 2: the header, its commit field left erased. -/
def State.writeHeader (s : State) (failing : List Nat) : State :=
  let j := s.jrnl
  let a := halfBase (1 - j.half)
  if failing.contains 0 then s.abandonHalf
  else
    ({ s with flash := memWrite 0xFF s.flash a (headerBytes ((j.generation + 1) % 2 ^ 32) (j.lastSeq + 1) j.otherBad false) }).mapJrnl
      fun j => { j with step := 3 }

/-- Step 3: the snapshot and SNAP_END. -/
def State.writeSnapshot (s : State) (failing : List Nat) : State :=
  let j := s.jrnl
  let rs := s.snapshot
  let first := ((goodBlocks j.otherBad).head?).getD 1
  let c0 : JCursor := { flash := s.flash, half := 1 - j.half, bad := j.otherBad, block := first, off := 0, seq := j.lastSeq,
                        full := false, failing := failing }
  let c := c0.appendAll (rs ++ [(0xF006, leBytes 4 rs.length)])
  let s1 : State := { s with flash := c.flash }
  if c.full || !halfUsable c.bad then s1.abandonHalf
  else s1.mapJrnl fun j => { j with step := 4, otherBad := c.bad, next := (c.block, c.off, c.seq), snapshotBytes := snapshotSize rs }

/-- Step 4: the commit makes Y the active half. -/
def State.switchHalves (s : State) (failing : List Nat) : State :=
  let j := s.jrnl
  let y := 1 - j.half
  if failing.contains 0 then s.abandonHalf
  else
    let us := (s.ns - j.pauseFrom) / 1000
    let s1 := ({ s with flash := memWrite 0xFF s.flash (halfBase y + 60) (zeros 4) }).mapJrnl fun j =>
      { j with half := y, generation := (j.generation + 1) % 2 ^ 32, baseSeq := j.lastSeq + 1, lastSeq := j.next.2.2 }
    s1.mapJrnl fun j =>
      { j with tailBlock := j.next.1, tailOff := j.next.2.1, badMap := j.otherBad, otherBad := 0, step := 5, full := false,
               degraded := false, compactions := j.compactions + 1, pauseMaxUs := max j.pauseMaxUs us }

/-- Step 5: the old half is erased, header block first; blocks that fail stay as they are. -/
def State.eraseOld (s : State) (failing : List Nat) : State :=
  ({ s with flash := eraseHalf s.flash (1 - s.jrnl.half) failing }).mapJrnl fun j => { j with step := 0 }

/-- The step in progress completes. -/
def evCompactionStepDone (failing : List Nat) (s : State) : State :=
  let snapshot := 2 ≤ s.jrnl.step && s.jrnl.step ≤ 4
  -- R482: a switchover gap interrupts the snapshot
  if !s.domainOn 95 || s.pwr.phase = 7 || (snapshot && s.mc.inGap) then s
  else
    match s.jrnl.step with
    | 1 => (s.pieces 7).checkHalf failing
    | 2 => (s.pieces 7).writeHeader failing
    | 3 => (s.pieces 7).writeSnapshot failing
    | 4 => (s.pieces 7).switchHalves failing
    | 5 => ((s.pieces 7).eraseOld failing).maybeCompact
    | _ => s

def execCompactionStepDone (failing : List Nat) (s : State) : Host.Outcome State Fault Refusal :=
  guarded (.compactionStepDone failing) s (evCompactionStepDone failing s)

/-! ## Recovery (R507) -/

/-- What a scan of one half finds. -/
structure JScan where
  half : Nat
  generation : Nat
  baseSeq : Nat
  bad : Nat
  block : Nat
  off : Nat
  lastSeq : Nat
  /-- the valid records, newest first -/
  records : List JParsed
  deriving DecidableEq, Repr

/-- Records from a position on. -/
def scanFrom (fl : Mem) (h bad : Nat) : Nat → Nat → Nat → Nat → List JParsed → Nat × Nat × Nat × List JParsed
  | 0, block, off, seq, acc => (block, off, seq, acc)
  | fuel + 1, block, off, seq, acc =>
    match parseRecord fl h block off (seq + 1) with
    | some p => scanFrom fl h bad fuel block (off + recordSize p.payload.length) (seq + 1) (p :: acc)
    | none =>
      match nextBlock bad block with
      | none => (block, off, seq, acc)
      | some b =>
        match parseRecord fl h b 0 (seq + 1) with
        | some p => scanFrom fl h bad fuel b (recordSize p.payload.length) (seq + 1) (p :: acc)
        | none => (block, off, seq, acc)

/-- Step 1 and step 3 for one half: a candidate, scanned. -/
def scanHalf (fl : Mem) (h : Nat) : Option JScan :=
  let b := memRead 0xFF fl (halfBase h) 64
  let base := lfld b 16 8
  let bad := lfld b 24 8
  if b.take 5 = [0x53, 0x48, 0x4C, 0x4A, 1] && lfld b 32 4 = crc32c (b.take 32) && b.drop 60 = zeros 4 then
    let first := ((goodBlocks bad).head?).getD 1
    let (block, off, seq, rs) := scanFrom fl h bad 200000 first 0 (base - 1) []
    some { half := h, generation := lfld b 8 4, baseSeq := base, bad := bad, block := block, off := off, lastSeq := seq, records := rs }
  else none

/-- Step 2. -/
def chooseHalf : Option JScan → Option JScan → Option JScan
  | none, b => b
  | a, none => a
  | some a, some b =>
    if serialAfter 32 b.generation a.generation then some b
    else if a.generation = b.generation && a.lastSeq < b.lastSeq then some b else some a

/-- Step 4: complete groups, in seq order; what follows the last LAST is discarded. -/
def completeGroups (newestFirst : List JParsed) : List JParsed := (newestFirst.dropWhile fun p => !p.last).reverse

/-- A record or a group was torn: bytes after the tail, or an open group. -/
def JScan.torn (x : JScan) (fl : Mem) : Bool :=
  !erased fl (blockBase x.half x.block + x.off) (blockBytes - x.off) ||
  (match nextBlock x.bad x.block with | some b => !erased fl (blockBase x.half b) blockBytes | none => false) ||
  (match x.records with | p :: _ => !p.last | [] => false)

/-- Blocks that BLOCK_SKIP records name. -/
def skippedBlocks (rs : List JParsed) (bad : Nat) : Nat :=
  rs.foldl (fun (m : Nat) (p : JParsed) => if p.type_ = 0xF005 then withBit m (lfld p.payload 0 1 % 64) true else m) bad

/-- Half A is formatted with generation 1. Blocks that fail to erase are bad; without a usable half the journal is FULL. -/
def State.formatJournal (s : State) (failing : List Nat) : State :=
  let bad := badBlocks s.flash 0 failing
  let fl := eraseHalf (eraseHalf s.flash 0 failing) 1 ((failing.filter (64 ≤ ·)).map (· - 64))
  let first := ((goodBlocks bad).head?).getD 1
  ({ s.pieces 7 with flash := if bit bad 0 then fl else memWrite 0xFF fl (halfBase 0) (headerBytes 1 1 bad true) }).mapJrnl fun j =>
    { j with half := 0, generation := 1, baseSeq := 1, lastSeq := 0, tailBlock := first, tailOff := 0, badMap := bad, recovered := 2,
             full := !halfUsable bad }

/-- The journal engine finds the journal, or formats half A; the records to apply, oldest first. The other half is erased, but for
the blocks that fail. -/
def State.recoverJournal (s : State) (failing : List Nat) : State × List JParsed :=
  match chooseHalf (scanHalf s.flash 0) (scanHalf s.flash 1) with
  | none => (s.formatJournal failing, [])
  | some x =>
    let s1 : State := { s.pieces 7 with flash := eraseHalf s.flash (1 - x.half) ((failing.filter (64 ≤ ·)).map (· - 64)) }
    ((s1.mapJrnl fun j =>
      { j with half := x.half, generation := x.generation, baseSeq := x.baseSeq, lastSeq := x.lastSeq, tailBlock := x.block,
               tailOff := x.off, badMap := skippedBlocks x.records x.bad, recovered := b2n (x.torn s.flash) }).maybeCompact,
     completeGroups x.records)

/-! ## JRNL_GET_STATUS, JRNL_COMPACT, JRNL_READ (R511, R512) -/

def JrnlState.code (j : JrnlState) : Nat := if j.full then 3 else if j.degraded then 2 else if j.step ≠ 0 then 1 else 0

def doJrnlGetStatus (_c : Cmd) (s : State) : Res :=
  let j := s.jrnl
  let bad := ((List.range 64).filter (bit j.badMap)).length
  .okWith (beBytes 1 j.code ++ beBytes 1 j.half ++ beBytes 1 j.recovered ++ beBytes 1 bad ++ beBytes 4 j.generation ++
    beBytes 8 j.baseSeq ++ beBytes 8 j.lastSeq ++ beBytes 4 (j.fill * 65536 / max j.capacity 1) ++ beBytes 4 j.snapshotBytes ++
    beCount 4 j.compactions ++ beCount 4 j.pauseMaxUs ++ beCount 4 j.commitMaxUs ++ beCount 4 j.recordsLost) s

def specJrnlGetStatus : OpSpec := { row := rowJrnlGetStatus, body := doJrnlGetStatus }
def execJrnlGetStatus (c : Cmd) (s : State) : Host.Outcome State Fault Refusal := s.submit specJrnlGetStatus c

def doJrnlCompact (_c : Cmd) (s : State) : Res :=
  if s.jrnl.step ≠ 0 || s.jrnl.degraded then .fail stBusy s else .accepted (s.mapJrnl fun j => { j with step := 1 })

def specJrnlCompact : OpSpec := { row := rowJrnlCompact, body := doJrnlCompact }
def execJrnlCompact (c : Cmd) (s : State) : Host.Outcome State Fault Refusal := s.submit specJrnlCompact c

def doJrnlRead (c : Cmd) (s : State) : Res :=
  let h := fld c.params 0 1
  let n := fld c.params 2 2
  let off := fld c.params 4 4
  match firstBad [(decide (h ≤ 1), 0), (decide (1 ≤ n && n ≤ 1024), 2), (decide (off + n ≤ halfBytes), 4)] with
  | some o => .bad o s
  | none => .okWith (memRead 0xFF s.flash (halfBase (if h = 0 then s.jrnl.half else 1 - s.jrnl.half) + off) n) s

def specJrnlRead : OpSpec := { row := rowJrnlRead, body := doJrnlRead }
def execJrnlRead (c : Cmd) (s : State) : Host.Outcome State Fault Refusal := s.submit specJrnlRead c

end Sys2Proof.Machine
end

