-- ==== Sys2Proof/Machine/Bus.lean ====
section
/-! DEFINITION. Reads and writes through the bus matrix: beats, pieces, the memories behind them, and what answers an
error (R425 to R438, R442, R444, R446). -/

namespace Sys2Proof.Machine

/-! ## The staging debug window (R425, R427) -/

/-- A byte, and a granule bit, of a bank; undefined after an abandoned load (R134). -/
def Bank.sample (b : Bank) (o : Nat) : Nat :=
  match b.undef, kvGet 0 b.data o with
  | none, x => x
  | some n, 0 => Config.freeNat n (2 * o) % 256
  | some _, x + 1 => x

def Bank.granule (b : Bank) (o : Nat) : Nat :=
  match b.undef, kvGet 0 b.valid o with
  | none, x => x
  | some n, 0 => Config.freeNat n (2 * o + 1) % 2
  | some _, x + 1 => x

/-- Byte `off` of the window. Bits of the granule map: input * (D / 256) + granule, least significant first. -/
def State.stagingByte (s : State) (off : Nat) : Byte :=
  if off < 0x8000000 then BitVec.ofNat 8 ((s.bank (off / 0x4000000)).sample (off % 0x4000000))
  else
    let o := off - 0x8000000
    BitVec.ofNat 8 (((List.range 8).map fun i => (s.bank (o / 0x8000)).granule (o % 0x8000 * 8 + i) % 2 * 2 ^ i).sum)

def State.setStagingByte (s : State) (off : Nat) (v : Byte) : State :=
  if off < 0x8000000 then
    let b := off / 0x4000000
    let k := s.bank b
    s.setBank b { k with data := kvSet 0 k.data (off % 0x4000000) (v.toNat + b2n k.undef.isSome) }
  else
    let o := off - 0x8000000
    let b := o / 0x8000
    let k := s.bank b
    let m := (List.range 8).foldl (fun m i =>
      kvSet 0 m (o % 0x8000 * 8 + i) (b2n (bit v.toNat i) + b2n k.undef.isSome)) k.valid
    s.setBank b { k with valid := m }

/-! ## Reads -/

/-- A read beat of working SRAM. -/
def State.sramBeat (s : State) (req addr off len : Nat) : State × Resp × List Byte :=
  let words := kvGet 0 s.mem.sramBad (off / 32 * 32)
  if words = 0 then (s, .ok, memRead 0 s.mem.sram off len)
  else ((s.sramError req off words false (addr / 32 * 32)).errResp, .err, zeros len)

/-- One read beat of at most 32 bytes within an aligned unit. `host`: what host memory returns for it; shorter than the
beat where no completion arrived (R429). -/
def State.readBeat (s : State) (req addr len : Nat) (host : List Byte) : State × Resp × List Byte :=
  let t := decodeAddr s.mem.remap addr
  let failed := (s.errResp, Resp.err, zeros len)
  if !connected req t then (s.decErr req addr false, .decerr, zeros len)
  else
    match t with
    | .none => (s.decErr req addr false, .decerr, zeros len)
    | .rom off => (s, .ok, (List.range len).map fun i => Config.romByte (off + i))
    | .sramLow off => s.sramBeat req addr off len
    | .sram off => s.sramBeat req addr off len
    | .csr _ => failed
    | .staging off =>
      if s.domainOn (stagingDomain off) then (s, .ok, (List.range len).map fun i => s.stagingByte (off + i)) else failed
    | .flash off => (s, .ok, memRead 0xFF s.flash off len)
    | .hbm off =>
      if !s.domainOn (76 + stackOf off) then failed
      else
        let (s1, ok) := s.readHbmUnit req (off / 32 * 32)
        if ok then (s1, .ok, s1.hbmLoad off len) else (s1.errResp, .err, zeros len)
    | .outbound _ => if s.linkUp && host.length = len then (s, .ok, host) else failed

/-- What a read of a range comes to: the bytes before the first beat that was not answered OK, and that beat's offset
and response. -/
structure ReadResult where
  st : State
  data : List Byte
  fail : Option (Nat × Resp)

/-- R433, R436: the beats of a range in ascending order, each with a response of its own. `host` as of the whole range.
After a beat that fails, the pieces already issued are answered: those that begin up to `ahead` pieces after its own. -/
def State.readRange (s : State) (req addr len : Nat) (host : List Byte := []) (ahead : Nat := 2 ^ 48) : ReadResult :=
  let rec go : State → List (Nat × Nat) → List Byte → Option (Nat × Resp) → ReadResult
    | u, [], acc, f => ⟨u, acc, f⟩
    | u, (a, n) :: t, acc, f =>
      let dropped := match f with | some (o, _) => decide ((addr + o) / 256 + ahead < a / 256) | none => false
      if dropped then ⟨u, acc, f⟩
      else
        let u1 := if a = addr || a % 256 = 0 then u.grant req else u
        let (u2, r, bs) := u1.readBeat req a n (slice host (a - addr) n)
        match f, r with
        | none, .ok => go u2 t (acc ++ bs) none
        | none, _ => go u2 t acc (some (a - addr, r))
        | some x, _ => go u2 t acc (some x)
  go s (cuts 32 addr len) [] none

/-! ## Writes -/

/-- R432: the management cores whose writes the matrix serves. -/
def State.coreMayWrite (s : State) (req : Nat) : Bool :=
  req ≥ 2 || (if s.mc.claimed then s.mc.token = some (if req = 0 then 0 else 1) else req = 0)

/-- R432: a write by a management core to its own half of the mailbox. -/
def ownMail (req len : Nat) : Target → Bool
  | .sram off | .sramLow off =>
    req ≤ 1 && decide (0x3FF000 + 0x40 * req ≤ off) && decide (off + len ≤ 0x3FF040 + 0x40 * req)
  | _ => false

/-- What a granted write piece does at its target. -/
def State.pieceWrite (s0 : State) (req addr : Nat) (bs : List Byte) : State × Resp :=
  let s := s0
  let t := decodeAddr s.mem.remap addr
  let failed := (s0.errResp, Resp.err)
  if !connected req t then (s0.decErr req addr true, .decerr)
  else if !s.coreMayWrite req && !ownMail req bs.length t then failed
  else
    match t with
    | .none => (s0.decErr req addr true, .decerr)
    | .rom _ => failed
    | .sramLow off => if s.imageLocked off then failed else (s0.sramStore off bs, .ok)
    | .sram off => if s.imageLocked off then failed else (s0.sramStore off bs, .ok)
    | .csr _ => failed
    | .staging off =>
      if s.domainOn (stagingDomain off) then
        ((List.range bs.length).foldl (fun u i => u.setStagingByte (off + i) (bs.getD i 0)) s0, .ok)
      else failed
    | .flash off => if req = 7 then ({ s0 with flash := memWrite 0xFF s0.flash off bs }, .ok) else failed
    | .hbm off =>
      if !s.domainOn (76 + stackOf off) then failed
      else
        let (s1, ok) := s0.storePiece req off bs
        (s1, if ok then .ok else .err)
    | .outbound off => if s.linkUp then (s0.emit (.hostWrite (s.hostAddr off) bs), .ok) else failed

/-- One write piece within an aligned 256-byte block (R433, R436). -/
def State.busPiece (s : State) (req addr : Nat) (bs : List Byte) : State × Resp := (s.grant req).pieceWrite req addr bs

/-- R433: the pieces of a range in ascending order, up to the first that fails: its offset and response. -/
def State.writeRange (s : State) (req addr : Nat) (bs : List Byte) : State × Option (Nat × Resp) :=
  let rec go : State → List (Nat × Nat) → State × Option (Nat × Resp)
    | u, [] => (u, none)
    | u, (a, n) :: t =>
      let (u1, r) := u.busPiece req a (slice bs (a - addr) n)
      if r = .ok then go u1 t else (u1, some (a - addr, r))
  go s (cuts 256 addr bs.length)

/-- R428: the HBM an inbound write may reach: the host region and the weight load banks. -/
def State.inboundMayStore (s : State) (addr len : Nat) : Bool :=
  (s.hostBase ≤ addr && addr + len ≤ 0x2800000000) ||
  s.beam.sets.any fun e => decide (0x1000000000 + s.bankBase e.1 ≤ addr) &&
    decide (addr + len ≤ 0x1000000000 + s.bankBase e.1 + e.2.entries * e.2.entryBytes)

/-- One piece of an inbound write. -/
def State.inboundPiece (s : State) (addr : Nat) (bs : List Byte) : State :=
  if 0x1000000000 ≤ addr && addr < 0x2800000000 && !s.inboundMayStore addr bs.length then (s.grant 2).errResp
  else (s.busPiece 2 addr bs).1

end Sys2Proof.Machine
end

