-- ==== Sys2Proof/Machine/Rings.lean ====
section
/-! DEFINITION. Queues and DMA channels (R451 to R474): doorbells, the configuration of queues, descriptors and their
completion records, stops and drains, and their commands. -/

namespace Sys2Proof.Machine

/-! ## Queues (R451 to R454) -/

def State.mapRing (s : State) (f : RingState → RingState) : State := { s with ring := f s.ring }

def hostProduced (kind : Nat) : Bool := kind = 0 || kind = 2

/-- R451: log2 element sizes of a kind. -/
def esizeOk (kind e : Nat) : Bool :=
  if kind ≤ 1 then 11 ≤ e && e ≤ 14 else if kind = 2 then e = 6 else if kind = 4 then 10 ≤ e && e ≤ 14 else e = 5

/-- R452: where element 0 may lie. -/
def State.baseOk (s : State) (b : Nat) : Bool :=
  b % 4096 = 0 && ((0x10000000000 ≤ b && b < 0x20000000000) || (s.hostBase ≤ b && b < 0x2800000000))

/-- R456: the pair of command queue `q`. -/
def State.pairOk (s : State) (q pair entries : Nat) : Bool :=
  pair < 4096 && (s.queue pair).enable && (s.queue pair).kind = 1 && (s.queue pair).entries = entries &&
  s.ring.queues.all fun e => e.1 = q || !(e.2.enable && e.2.kind = 0 && e.2.pair = pair)

/-- RQ_CFG. -/
def Queue.cfgWord (q : Queue) : Nat :=
  q.kind % 8 + b2n q.enable * 8 + q.esize % 16 * 16 + q.entries % 32 * 2 ^ 16 + q.pair % 4096 * 2 ^ 32 + q.vector % 65536 * 2 ^ 48

def Queue.errWord (q : Queue) : Nat := b2n q.dbBad + 2 * b2n q.accessErr

/-- An element is read by the DMA read requester; `host`: what host memory returns for it. -/
def State.readElement (s : State) (q : Queue) (i : Nat) (host : Option (List Byte)) : State × Option (List Byte) :=
  let r := s.readRange 3 (q.element i) (2 ^ q.esize) (host.getD [])
  (r.st, if r.fail.isNone then some r.data else none)

/-! ## Channels -/

def DmaChannel.init : DmaChannel := {}
def State.dma (s : State) (n : Nat) : DmaChannel := kvGet DmaChannel.init s.ring.channels n
def State.setDma (s : State) (n : Nat) (v : DmaChannel) : State :=
  s.mapRing fun r => { r with channels := kvSet DmaChannel.init r.channels n v }

def DmaMode.code : DmaMode → Nat
  | .off => 0 | .idle => 1 | .running => 2 | .stopping => 3 | .stopped => 4 | .waitEvent => 5

/-- A descriptor is posted and not started. -/
def State.descWaiting (s : State) (c : DmaChannel) : Bool :=
  (s.queue c.descQ).enable && (s.queue c.descQ).occupancy ≠ 0

/-- R459: free elements of a completion queue beyond those that running channels have reserved. -/
def State.complRoom (s : State) (q : Nat) : Bool :=
  (s.queue q).occupancy + (s.ring.channels.filter fun e => e.2.running.isSome && e.2.complQ = q).length < (s.queue q).size

/-- IDLE and WAIT_EVENT follow from what is posted. -/
def State.settleChannel (s : State) (n : Nat) : State :=
  let c := s.dma n
  if c.mode = .idle || c.mode = .waitEvent then
    s.setDma n { c with mode := if c.eventStart && s.descWaiting c && !c.started then .waitEvent else .idle }
  else s

/-- A completion record (R463 table). -/
structure DmaRecord where
  status : Nat
  /-- flag bits 4:1 -/
  flags : Nat := 0
  op : Nat := 0
  done : Nat := 0
  offset : Nat := 0xFFFFFFFF
  index : Nat
  tag : List Byte := zeros 8

def DmaRecord.bytes (r : DmaRecord) (n phase now : Nat) : List Byte :=
  leBytes 1 r.status ++ leBytes 1 (r.flags + phase) ++ leBytes 1 n ++ leBytes 1 r.op ++ leBytes 4 r.done ++
  leBytes 4 r.offset ++ leBytes 4 r.index ++ padTo 0 8 r.tag ++ leBytes 8 now

/-- R459, R467: a record is written, or lost with its queue; true: written. -/
def State.writeRecord (s : State) (n : Nat) (r : DmaRecord) : State × Bool :=
  let c := s.dma n
  let q := s.queue c.complQ
  let phase := 1 - q.prod / q.size % 2
  match s.push c.complQ 3 (r.bytes n phase s.now) with
  | (s1, .done _) =>
    (s1.setDma n { s1.dma n with descs := c.descs + 1, bytes := c.bytes + r.done, lastStatus := r.status,
                                 errs := c.errs + b2n (2 ≤ r.status && r.status ≤ 6) }, true)
  | (s1, _) => (s1.mapRing fun g => { g with recLost := g.recLost + 1 }, false)

/-- R466: the channel writes its STOPPED record and becomes STOPPED, once the completion queue has room. -/
def State.stopNow (s : State) (n : Nat) : State :=
  let c := s.dma n
  if (s.queue c.complQ).enable && (s.queue c.complQ).kind = 3 && !s.complRoom c.complQ then
    s.setDma n { c with mode := .stopping }
  else
    let s1 := (s.writeRecord n { status := 7, index := (s.queue c.descQ).cons }).1
    s1.setDma n { s1.dma n with mode := .stopped, started := false }

/-- What waits for queue `q` to move: channels that look for descriptors, and STOPPED records that look for room. -/
def State.settleQueue (s : State) (q : Nat) : State :=
  s.ring.channels.foldl (fun u e =>
    if e.2.descQ = q then u.settleChannel e.1
    else if e.2.complQ = q && (u.dma e.1).mode = .stopping && (u.dma e.1).running.isNone then u.stopNow e.1
    else u) s

/-- R372: the input "DMA start n" is no longer busy. -/
def State.freeStart (s : State) (n : Nat) : State :=
  if n < 64 then { s with er := { s.er with busy := s.er.busy.filter (· ≠ n) } } else s

/-- A descriptor waits behind the one that runs. -/
def State.descBehind (s : State) (c : DmaChannel) : Bool :=
  (s.queue c.descQ).enable && decide (b2n c.running.isSome < (s.queue c.descQ).occupancy)

/-- R460, R372: "DMA start n" activates. -/
def State.dmaStart (s : State) (n : Nat) : State :=
  let c := s.dma n
  if c.mode = .off || c.mode = .stopped || !s.descBehind c then s.setDma n { c with startIdle := c.startIdle + 1 }
  else if c.eventStart && !c.started && c.mode ≠ .stopping && c.running.isNone then
    let s1 := (s.setDma n { c with started := true, doneAt := s.ns + 100 }).settleChannel n
    { s1 with er := { s1.er with busy := s1.er.busy ++ [n] } }
  else s

/-! ## Doorbells and the queues of the CSRs (R453, R471) -/

/-- R453: the index the doorbell moves lies ahead, and the occupancy stays within the queue. -/
def Queue.doorbellOk (q : Queue) (v : Nat) : Bool :=
  let occ := if hostProduced q.kind then (v + 2 ^ 32 - q.cons) % 2 ^ 32 else (q.prod + 2 ^ 32 - v) % 2 ^ 32
  q.enable && (if hostProduced q.kind then q.occupancy ≤ occ && occ ≤ q.size else occ ≤ q.occupancy)

/-- The registers of the queues lie in the PCIe domain (R467, R437). -/
def evRqDb (qn value : Nat) (s : State) : State :=
  if !s.domainOn 85 then s.errResp else
  let q := s.queue qn
  let v := value % 2 ^ 32
  if q.doorbellOk v then
    (s.setQueue qn (if hostProduced q.kind then { q with prod := v } else { q with cons := v })).settleQueue qn
  else (s.setQueue qn { q with dbBad := true }).mapRing fun g => { g with dbBad := g.dbBad + 1 }

def execRqDb (q value : Nat) (s : State) : Host.Outcome State Fault Refusal := guarded (.rqDb q value) s (evRqDb q value s)

/-- R468: a queue 0 to 7 may be enabled as it is configured. -/
def State.enableOk (s : State) (qn : Nat) (q : Queue) : Bool :=
  q.kind ≤ 1 && esizeOk q.kind q.esize && 1 ≤ q.entries && q.entries ≤ 16 && s.baseOk q.base &&
  (q.kind = 1 || s.pairOk qn q.pair q.entries)

def State.writeRqCfg (s : State) (qn value : Nat) : State :=
  let q := s.queue qn
  let on := bit value 3
  if 8 ≤ qn then s
  else if q.enable then
    (if on then s else (s.setQueue qn { q with enable := false, prod := 0, cons := 0 }).settleQueue qn)
  else
    let q1 : Queue := { q with kind := value % 8, esize := value / 16 % 16, entries := value / 2 ^ 16 % 32,
                               pair := value / 2 ^ 32 % 4096, vector := value / 2 ^ 48 % 65536 }
    if !on then s.setQueue qn q1
    else if s.enableOk qn q1 then s.setQueue qn { q1 with enable := true, prod := 0, cons := 0 }
    else s.setQueue qn { q1 with accessErr := true }

def evRqCfgEnable (qn value : Nat) (s : State) : State :=
  if s.domainOn 85 then s.writeRqCfg qn value else s.errResp

def execRqCfgEnable (q value : Nat) (s : State) : Host.Outcome State Fault Refusal :=
  guarded (.rqCfgEnable q value) s (evRqCfgEnable q value s)

/-- R454: a coalescing interval ends, and a raise that it held back is made. -/
def evMsixCoalesceExpiry (qn : Nat) (s : State) : State :=
  let q := s.queue qn
  match q.raisedAt with
  | some t =>
    if q.owed && t + q.coal * 1000 ≤ s.ns then (s.setQueue qn { q with raisedAt := some s.ns, owed := false }).msix q.vector
    else s
  | none => s

def execMsixCoalesceExpiry (q : Nat) (s : State) : Host.Outcome State Fault Refusal :=
  guarded (.msixCoalesceExpiry q) s (evMsixCoalesceExpiry q s)

/-! ## Descriptors (R459 to R465) -/

/-- The fields of a descriptor. -/
structure Desc where
  op : Nat
  raise : Bool
  stopAfter : Bool
  length : Nat
  src : Nat
  dst : Nat
  pattern : List Byte
  tag : List Byte

def descOf (b : List Byte) : Desc :=
  { op := lfld b 0 1, raise := bit (lfld b 1 1) 0, stopAfter := bit (lfld b 1 1) 1, length := lfld b 4 4,
    src := lfld b 8 8, dst := lfld b 16 8, pattern := slice b 24 8, tag := slice b 32 8 }

/-- R462: nothing is transferred. -/
def Desc.bad (d : Desc) : Bool :=
  !(1 ≤ d.op && d.op ≤ 3) || d.length = 0 || (d.op ≠ 2 && 2 ^ 48 < d.src + d.length) || 2 ^ 48 < d.dst + d.length ||
  (d.op = 1 && d.src < d.dst + d.length && d.dst < d.src + d.length)

def evDmaDescriptorStart (n : Nat) (element : Option (List Byte)) (s : State) : State :=
  let c := s.dma n
  if !(n < 256) || !(c.mode = .idle || c.mode = .waitEvent) || c.running.isSome || !s.domainOn 94 || !s.descWaiting c ||
     (c.eventStart && !c.started) || !s.complRoom c.complQ then s
  else
    let q := s.queue c.descQ
    let (s1, b) := s.readElement q q.cons element
    let q1 := s1.queue c.descQ
    (s1.setQueue c.descQ { q1 with accessErr := q1.accessErr || b.isNone }).setDma n
      { s1.dma n with mode := .running, started := false, running := some ⟨q.cons, b⟩ }

def execDmaDescriptorStart (channel : Nat) (element : Option (List Byte)) (s : State) : Host.Outcome State Fault Refusal :=
  guarded (.dmaDescriptorStart channel element) s (evDmaDescriptorStart channel element s)

/-- Some units of one granted piece are written; the piece has a single response (R436). -/
def State.writeUnits (s : State) (units : List (Nat × Nat)) (dst : Nat) (bs : List Byte) : State :=
  (units.foldl (fun u c => (u.pieceWrite 4 c.1 (slice bs (c.1 - dst) c.2)).1) (s.grant 4)).mapMem fun m =>
    { m with errCount := min m.errCount (s.mem.errCount + 1), decerrCount := min m.decerrCount (s.mem.decerrCount + 1) }

/-- R464: each of these bytes from offset `from_` on is written or not, by units of 32 bytes, as far as the pieces that a
channel has in flight reach (R459). -/
def State.maybeWrite (s : State) (dst from_ : Nat) (bs : List Byte) : State :=
  let n := s.draws
  ((cuts 256 (dst + from_) (bs.length - from_)).take 63).foldl (fun u p =>
    let units := (cuts 32 p.1 p.2).filter fun c => Config.freeBool n (c.1 - dst)
    if units = [] then u else u.writeUnits units dst bs) s.draw

/-- The write side of a transfer: the offset and response of the piece that failed. -/
def State.dmaWrite (s : State) (dst : Nat) (bs : List Byte) (hostErr : Option Nat) : State × Option (Nat × Resp) :=
  match decodeAddr s.mem.remap dst, hostErr with
  | .outbound _, some o =>
    match (cuts 256 dst bs.length).find? fun c => c.1 ≤ dst + o && dst + o < c.1 + c.2 with
    | none => s.writeRange 4 dst bs
    | some (a, len) =>
      match s.writeRange 4 dst (bs.take (a - dst)) with
      | (s1, some e) => (s1, some e)
      | (s1, none) =>
        let (u, r) := s1.busPiece 4 a ((List.range len).map (Config.freeByte s1.draws))
        let s2 := if r = .ok then u.draw.errResp else u.draw
        (s2.maybeWrite dst (a + len - dst) bs, some (a - dst, .err))
  | _, _ =>
    match s.writeRange 4 dst bs with
    | (s1, none) => (s1, none)
    | (s1, some (o, r)) =>
      (s1.maybeWrite dst (((cuts 256 dst bs.length).find? fun c => c.1 = dst + o).elim bs.length fun c => o + c.2) bs,
       some (o, r))

/-- R459, R463: pieces of a range that had been issued when an earlier one failed: with it, at most 64. -/
def State.readAhead (s : State) : Nat := Config.freeNat s.draws 0 % 64

/-- R463: the failing beat was answered after the last read had been issued. -/
def tailFlag (ahead base length off : Nat) : Bool := (base + length - 1) / 256 - (base + off) / 256 ≤ ahead

/-- First index at which two runs of bytes differ. -/
def firstDiff (a b : List Byte) : Option Nat :=
  ((List.range (min a.length b.length)).find? fun i => a.getD i 0 ≠ b.getD i 0)

def readFault (d : Desc) (index o : Nat) (r : Resp) (tail : Bool) : DmaRecord :=
  { status := if r = .decerr then 4 else 2, flags := 2 * b2n tail, op := d.op, done := o, offset := o, index, tag := d.tag }

def writeFault (d : Desc) (index o : Nat) (r : Resp) : DmaRecord :=
  { status := if r = .decerr then 4 else 3, flags := if r = .decerr then 8 else 4, op := d.op, done := o, offset := o,
    index, tag := d.tag }

/-- R463, R464: COPY. -/
def State.dmaCopy (s : State) (d : Desc) (index : Nat) (x : DmaOutcome) : State × DmaRecord :=
  let ahead := s.readAhead
  let r := s.draw.readRange 3 d.src d.length x.src ahead
  let (s1, w) := r.st.dmaWrite d.dst r.data x.writeErr
  match w, r.fail with
  | some (o, e), _ => (s1, writeFault d index o e)
  | none, some (o, e) => (s1, readFault d index o e (tailFlag ahead d.src d.length o))
  | none, none => (s1, { status := 0, op := d.op, done := d.length, index, tag := d.tag })

/-- R461: FILL. -/
def State.dmaFill (s : State) (d : Desc) (index : Nat) (x : DmaOutcome) : State × DmaRecord :=
  let (s1, w) := s.dmaWrite d.dst ((List.range d.length).map fun i => d.pattern.getD (i % 8) 0) x.writeErr
  match w with
  | some (o, e) => (s1, writeFault d index o e)
  | none => (s1, { status := 0, op := d.op, done := d.length, index, tag := d.tag })

/-- R465: COMPARE; reading stops at what decides. -/
def State.dmaCompare (s : State) (d : Desc) (index : Nat) (x : DmaOutcome) : State × DmaRecord :=
  let ahead := s.readAhead
  let a := s.draw.readRange 3 d.src d.length x.src
  let b := a.st.readRange 3 d.dst d.length x.dst
  let stop := min (min a.data.length b.data.length) ((firstDiff a.data b.data).getD d.length)
  let len := min d.length (stop + 1)
  let a1 := s.draw.readRange 3 d.src len (x.src.take len)
  let s1 := (a1.st.readRange 3 d.dst len (x.dst.take len)).st
  if stop = d.length then (s1, { status := 0, op := d.op, done := d.length, index, tag := d.tag })
  else
    match a.fail, b.fail with
    | some (o, e), fb =>
      if o = stop then (s1, readFault d index o e (tailFlag ahead d.src d.length o))
      else match fb with
        | some (o2, e2) =>
          if o2 = stop then (s1, readFault d index o2 e2 (tailFlag ahead d.dst d.length o2))
          else (s1, { status := 1, op := d.op, done := stop, offset := stop, index, tag := d.tag })
        | none => (s1, { status := 1, op := d.op, done := stop, offset := stop, index, tag := d.tag })
    | none, some (o2, e2) =>
      if o2 = stop then (s1, readFault d index o2 e2 (tailFlag ahead d.dst d.length o2))
      else (s1, { status := 1, op := d.op, done := stop, offset := stop, index, tag := d.tag })
    | none, none => (s1, { status := 1, op := d.op, done := stop, offset := stop, index, tag := d.tag })

/-- What a running descriptor does, and its record. -/
def State.runDesc (s : State) (r : RunningDesc) (x : DmaOutcome) : State × DmaRecord :=
  match r.bytes with
  | none => (s, { status := 5, flags := 16, index := r.index })
  | some b =>
    let d := descOf b
    if d.bad then (s, { status := 5, op := d.op, index := r.index, tag := d.tag })
    else if d.op = 1 then s.dmaCopy d r.index x
    else if d.op = 2 then s.dmaFill d r.index x
    else s.dmaCompare d r.index x

/-- The record is written, CONS advances, and the channel goes on, stops (R466), or stops with its domain (R467). -/
def State.endDesc (s : State) (n : Nat) (r : RunningDesc) (rec_ : DmaRecord) : State :=
  let stopping := (s.dma n).mode = .stopping
  let draining := !s.domainOn 94
  let stopAfter := match r.bytes with | some b => (descOf b).stopAfter | none => false
  let raise := match r.bytes with | some b => (descOf b).raise | none => false
  let (s1, written) := s.writeRecord n rec_
  let c1 := s1.dma n
  let s2 := s1.setDma n { c1 with running := none, mode := if c1.mode = .off then .off else .idle }
  let q := s2.queue c1.descQ
  let s3 := if q.enable && q.kind = 2 then
      (s2.setQueue c1.descQ { q with cons := (r.index + 1) % 2 ^ 32 }).writeBack c1.descQ ((r.index + 1) % 2 ^ 32)
    else s2
  let s4 := s3.freeStart n
  let s5 := if written && raise && n < 64 then s4.raise (105 + n) rec_.status else s4
  if (s5.dma n).mode = .off then s5
  else if stopping || stopAfter then s5.stopNow n
  else if draining then s5.setDma n { s5.dma n with mode := .stopped }
  else s5.settleChannel n

def evDmaDescriptorComplete (n : Nat) (x : DmaOutcome) (s : State) : State :=
  match (s.dma n).running with
  | none => s
  | some r =>
    -- R379: at least 100 ns from "DMA start" to "DMA done"
    if s.ns < (s.dma n).doneAt then s
    else
      let (s1, rec_) := s.runDesc r x
      s1.endDesc n r rec_

def execDmaDescriptorComplete (channel : Nat) (outcome : DmaOutcome) (s : State) : Host.Outcome State Fault Refusal :=
  guarded (.dmaDescriptorComplete channel outcome) s (evDmaDescriptorComplete channel outcome s)

/-! ## Draining (R467) -/

/-- A descriptor is cut: some prefix of its pieces has been written or compared, and of the pieces issued beyond it, at most
64, each unit is old or new. No other piece is granted. -/
def State.cutDesc (s : State) (r : RunningDesc) : State × DmaRecord :=
  match r.bytes with
  | none => (s, { status := 5, flags := 16, index := r.index })
  | some b =>
    let d := descOf b
    if d.bad then (s, { status := 5, op := d.op, index := r.index, tag := d.tag })
    else
      let pieces := cuts 256 d.dst d.length
      let k := Config.freeNat s.draws 0 % pieces.length
      let done := ((pieces.take k).map (·.2)).sum
      let issued := min d.length (done + 256 * (Config.freeNat s.draws 1 % 65))
      let hostBytes := (List.range issued).map (Config.freeByte (s.draws + 1))
      let s0 := s.draw.draw
      let rd := s0.readRange 3 d.src issued hostBytes
      let src := if d.op = 2 then (List.range issued).map fun i => d.pattern.getD (i % 8) 0 else rd.data
      let s1 := if d.op = 2 then s0 else rd.st
      if d.op = 3 then
        let o := s1.readRange 3 d.dst issued hostBytes
        let eq := (firstDiff src o.data).getD (min src.length o.data.length)
        (o.st, { status := 6, op := 3, done := min done eq, index := r.index, tag := d.tag })
      else
        let got := min done src.length
        let (s2, e) := s1.writeRange 4 d.dst (src.take got)
        let ended := match e with | some (o, _) => o | none => got
        let rest := match e with
          | some (o, _) => ((cuts 256 d.dst src.length).find? fun c => c.1 = d.dst + o).elim got fun c => o + c.2
          | none => got
        (s2.maybeWrite d.dst rest src, { status := 6, op := d.op, done := ended, index := r.index, tag := d.tag })

/-- R467, R438: a channel is cut where it stands; its record is ABORTED, and it is STOPPED. -/
def State.abortChannel (s : State) (n : Nat) : State :=
  match (s.dma n).running with
  | none => if (s.dma n).mode = .off then s else s.setDma n { s.dma n with mode := .stopped, started := false }
  | some r =>
    let (s1, rec_) := s.cutDesc r
    let s2 := s1.endDesc n r rec_
    if (s2.dma n).mode = .off then s2 else s2.setDma n { s2.dma n with mode := .stopped, started := false }

def State.abortChannels (s : State) : State :=
  let s1 := s.ring.channels.foldl (fun u e => u.abortChannel e.1) s
  { s1 with er := { s1.er with busy := s1.er.busy.filter (64 ≤ ·) } }

/-- 90 µs after the DMA domain entered DRAINING. -/
def evDmaDrainTimeout (s : State) : State :=
  if (s.domain 94).state = .draining && (s.domain 94).since + 90000 ≤ s.ns then s.abortChannels else s

def execDmaDrainTimeout (s : State) : Host.Outcome State Fault Refusal := guarded .dmaDrainTimeout s (evDmaDrainTimeout s)

/-! ## RING_CREATE, RING_DELETE -/

/-- The doorbell register of a queue (R468). -/
def doorbellAddr (q : Nat) : Nat := 0x82000000 + 4096 * q

def doRingCreate (c : Cmd) (s : State) : Res :=
  let p := c.params
  let qn := fld p 0 2
  let kind := fld p 2 1
  let vec := fld p 8 2
  let wb := fld p 24 8
  match firstBad [(decide ((8 ≤ qn ∧ qn < 4096) ∨ qn = 0xFFFF), 0), (decide (kind ≤ 6), 2), (esizeOk kind (fld p 3 1), 3),
      (decide (1 ≤ fld p 4 1 ∧ fld p 4 1 ≤ 16), 4), (kind ≠ 0 || s.pairOk qn (fld p 6 2) (fld p 4 1), 6),
      (decide ((16 ≤ vec ∧ vec < 2048) ∨ vec = 0xFFFF), 8), (s.baseOk (fld p 16 8), 16),
      (decide (wb % 8 = 0 ∧ wb < 2 ^ 48), 24)] with
  | some off => .bad off s
  | none =>
    let place := if qn = 0xFFFF then (List.range 4096).find? fun i => 8 ≤ i && !(s.queue i).enable else some qn
    match place with
    | none => .fail stResource s
    | some n =>
      let old := s.queue n
      if old.enable then .fail stBusy s
      else
        let q : Queue := { old with enable := true, kind := kind, esize := fld p 3 1, entries := fld p 4 1,
                                    pair := if kind = 0 then fld p 6 2 else 0, vector := vec, coal := fld p 10 2,
                                    base := fld p 16 8, wb := wb, prod := 0, cons := 0, raisedAt := none, owed := false }
        .okWith (beBytes 2 n ++ zeros 6 ++ beBytes 8 (doorbellAddr n)) (s.setQueue n q)

def specRingCreate : OpSpec := { row := rowRingCreate, body := doRingCreate }
def execRingCreate (c : Cmd) (s : State) : Host.Outcome State Fault Refusal := s.submit specRingCreate c

/-- R470: something names the queue. -/
def State.queueNamed (s : State) (q : Nat) : Bool :=
  s.ring.channels.any (fun e => e.2.mode ≠ .off && (e.2.descQ = q || e.2.complQ = q)) ||
  s.ring.queues.any (fun e => e.2.enable && e.2.kind = 0 && e.2.pair = q) ||
  s.dump.dests.any (fun e => e.2.kind = 2 && e.2.queue = q) || s.beam.dests.any (fun e => e.2.kind = 2 && e.2.queue = q) ||
  (s.cap.dest.kind = 2 && s.cap.dest.queue = q) ||
  (List.range 256).any (fun p => kvGet 0xFFFF s.er.pqueue p = q) || s.qz.evt.any (fun e => e.2.queue = q) ||
  s.mem.logQueue = q

def doRingDelete (c : Cmd) (s : State) : Res :=
  let q := fld c.params 0 2
  if q < 8 || 4096 ≤ q || !(s.queue q).enable then .bad 0 s
  else if s.queueNamed q || (c.client.ep = 0 && c.client.port = q) ||
      (match s.own.owner with | some o => o.ep = 0 && o.port = q | none => false) then .fail stBusy s
  else .ok (s.setQueue q { s.queue q with enable := false, prod := 0, cons := 0 })

def specRingDelete : OpSpec := { row := rowRingDelete, body := doRingDelete }
def execRingDelete (c : Cmd) (s : State) : Host.Outcome State Fault Refusal := s.submit specRingDelete c

/-! ## DMA_SET_CHANNEL, DMA_STOP -/

/-- The queue exists and has the kind. -/
def State.isQueue (s : State) (q kind : Nat) : Bool := q < 4096 && (s.queue q).enable && (s.queue q).kind = kind

def doDmaSetChannel (c : Cmd) (s : State) : Res :=
  let p := c.params
  let n := fld p 0 1
  let on := fld p 1 1 = 1
  let ev := fld p 2 1 = 1
  let dq := fld p 4 2
  let cq := fld p 6 2
  let v := s.dma n
  match firstBad [(decide (fld p 1 1 ≤ 1), 1), (decide (fld p 2 1 ≤ 1 ∧ (fld p 2 1 = 0 ∨ n < 64)), 2),
      (s.isQueue dq 2 && s.ring.channels.all (fun e => e.1 = n || e.2.mode = .off || e.2.descQ ≠ dq), 4),
      (s.isQueue cq 3, 6)] with
  | some off => .bad off s
  | none =>
    let still := v.mode = .off || v.mode = .stopped
    if !still && (v.descQ ≠ dq || v.complQ ≠ cq || v.eventStart ≠ ev) then .fail stBusy s
    else if !on && !(still || v.mode = .idle) then .fail stBusy s
    else
      let mode : DmaMode := if !on then .off else if still then .idle else v.mode
      let s1 := s.setDma n { v with mode := mode, descQ := dq, complQ := cq, eventStart := ev,
                                    started := v.started && !still && on }
      .ok ((if on then s1 else s1.freeStart n).settleChannel n)

def specDmaSetChannel : OpSpec := { row := rowDmaSetChannel, body := doDmaSetChannel }
def execDmaSetChannel (c : Cmd) (s : State) : Host.Outcome State Fault Refusal := s.submit specDmaSetChannel c

def doDmaStop (c : Cmd) (s : State) : Res :=
  let n := fld c.params 0 1
  let v := s.dma n
  if v.mode = .off || v.mode = .stopped then .fail stBusy s
  else if v.mode = .stopping then .accepted s
  else if v.running.isSome then .accepted (s.setDma n { v with mode := .stopping })
  else
    .accepted ((s.stopNow n).freeStart n)

def specDmaStop : OpSpec := { row := rowDmaStop, body := doDmaStop }
def execDmaStop (c : Cmd) (s : State) : Host.Outcome State Fault Refusal := s.submit specDmaStop c

/-! ## RING_GET_STATUS, DMA_GET_STATUS -/

def doRingGetStatus (c : Cmd) (s : State) : Res :=
  let n := fld c.params 0 2
  let q := s.queue n
  if 4096 ≤ n then .bad 0 s
  else .okWith (beBytes 8 q.cfgWord ++ beBytes 8 q.base ++ beBytes 8 q.wb ++ beBytes 4 q.prod ++ beBytes 4 q.cons ++
    beCount 8 q.drops ++ beBytes 1 q.errWord ++ zeros 7) s

def specRingGetStatus : OpSpec := { row := rowRingGetStatus, body := doRingGetStatus }
def execRingGetStatus (c : Cmd) (s : State) : Host.Outcome State Fault Refusal := s.submit specRingGetStatus c

/-- DC_STATUS: how far a running descriptor has come is a matter of time (log entry 3). -/
def State.dcStatus (s : State) (n : Nat) : Nat :=
  let c := s.dma n
  let done := match c.running with
    | some ⟨_, some b⟩ => if (descOf b).bad then 0 else Config.freeNat s.draws n % ((descOf b).length + 1)
    | _ => 0
  c.mode.code + done * 2 ^ 32

def DmaChannel.cfgWord (c : DmaChannel) : Nat := c.descQ % 4096 + c.complQ % 4096 * 2 ^ 16 + b2n c.eventStart * 2 ^ 32

def doDmaGetStatus (p : Cmd) (s : State) : Res :=
  let n := fld p.params 0 1
  let c := s.dma n
  .okWith (beBytes 8 (s.dcStatus n) ++ beBytes 8 c.cfgWord ++ beCount 8 c.descs ++ beCount 8 c.bytes ++ beCount 8 c.errs ++
    beCount 8 c.startIdle ++ beBytes 1 c.lastStatus ++ zeros 7) s.draw

def specDmaGetStatus : OpSpec := { row := rowDmaGetStatus, body := doDmaGetStatus }
def execDmaGetStatus (c : Cmd) (s : State) : Host.Outcome State Fault Refusal := s.submit specDmaGetStatus c

end Sys2Proof.Machine
end

