-- ==== Sys2Proof/Machine/Cores.lean ====
section
/-! DEFINITION. Management cores: heartbeats, the token, stops, takeover, rehearsals (R475 to R490). -/

namespace Sys2Proof.Machine

/-! ## The mailbox (R477) -/

def McCore.mailBytes (c : McCore) (h : Fin 2) : List Byte :=
  leBytes 8 c.hbCount ++ leBytes 1 c.role ++ leBytes 1 h.val ++ leBytes 2 c.bootId ++ leBytes 4 c.commit ++
  leInstant c.mailTime ++ zeros 36

/-- A core writes its own half; the matrix serves that write whoever holds the token (R432). -/
def State.writeMail (s : State) (h : Fin 2) : State :=
  (s.grant h.val).sramStore (mailOffset h) ((s.core h).mailBytes h)

/-- One heartbeat on the paths named. -/
def State.beat (s : State) (h : Fin 2) (wire : Bool) : State :=
  let s1 := s.countMissed h wire false
  let c := s1.core h
  (s1.setCore h { c with hbCount := c.hbCount + 1, mailTime := s.nowInstant, mailAt := s.ns,
                         wireAt := if wire then s.ns else c.wireAt }).writeMail h

/-! ## Stopping (R478) -/

/-- Service ends; the gap of R481 began with the last heartbeat of core `h`. Whether the standby is ready decides on R484. -/
def State.enterGap (s : State) (h : Fin 2) : State :=
  let o := s.core (otherCore h)
  if s.mc.inGap then s
  else s.mapMc fun m => { m with inGap := true, gapFrom := (s.core h).wireAt, orphaned := !(o.mode = .standby && o.role = 1) }

/-- The active core stops. -/
def State.stopCore (s' : State) (h : Fin 2) : State :=
  let s := s'.countMissed (otherCore h) true true
  ((s.setCore h { s.core h with mode := .stopping, role := 3, run := 0 }).writeMail h).enterGap h

def State.activeCore (s : State) (h : Fin 2) : Bool := (s.core h).mode = .active

def evWatchdogExpiry (core : Fin 2) (s : State) : State := if s.activeCore core then s.stopCore core else s
def execWatchdogExpiry (core : Fin 2) (s : State) : Host.Outcome State Fault Refusal :=
  guarded (.watchdogExpiry core) s (evWatchdogExpiry core s)

/-- An error that the core meets in working SRAM is logged, whichever core meets it (R448); the words stay uncorrectable. That it
stops an active core as an error in the core does is a DESIGN CHOICE (log entry 99). -/
def evCoreFault (fault : CoreFault) (s : State) : State :=
  let h := fault.core
  let s1 := match fault.sram with
    | none => s
    | some (unit, words) =>
      if (s.core fault.core).mode = CoreMode.off then s
      else (s.mapMem fun m => { m with sramBad := kvSet 0 m.sramBad unit words }).sramError h.val unit words false (0x40000000 + unit)
  if s1.activeCore h then s1.stopCore h else s1
def execCoreFault (fault : CoreFault) (s : State) : Host.Outcome State Fault Refusal :=
  guarded (.coreFault fault) s (evCoreFault fault s)

/-! ## Heartbeats and the token (R476, R477) -/

/-- The lease of the token has run out. -/
def State.tokenLapsed (s : State) : Bool := s.mc.token.isSome && s.mc.tokenAt + 1000000 ≤ s.ns

/-- The token becomes unheld, and commands wait from now on. -/
def State.dropToken (s : State) : State :=
  match s.mc.token with
  | none => s
  | some h => (s.enterGap h).mapMc fun m => { m with token := none }

/-- R476: the cell judges expiry before any renewal or claim of the cycle. -/
def State.expireToken (s : State) : State := if s.tokenLapsed then s.dropToken else s

def evTokenExpiry (s : State) : State := s.expireToken
def execTokenExpiry (s : State) : Host.Outcome State Fault Refusal := guarded .tokenExpiry s (evTokenExpiry s)

/-- R476: a renewal, which charges the owner's lease (R395). -/
def State.renewToken (s : State) : State :=
  (s.chargeLease s.mc.tokenAt).mapMc fun m => { m with tokenAt := s.ns }

/-- R483: ten consecutive heartbeats make a booted standby ready. -/
def State.standbyBeat (s : State) (h : Fin 2) : State :=
  let c := s.core h
  let run := c.run + 1
  (s.setCore h { c with run := run, role := if 10 ≤ run then 1 else 0 }).beat h true

/-- The heartbeat of a booted core falls due 100 µs after its last. Expiry of the token is judged before its renewal. R487: a
rehearsing core falls silent as its mode says, and stops as any other does when it finds the token lost (R478). -/
def evHeartbeat (core : Fin 2) (s' : State) : State :=
  let s := s'.expireToken
  let c := s.core core
  if s.ns < max c.wireAt c.mailAt + 100000 then s'
  else
    match c.mode with
    | .standby => s.standbyBeat core
    | .active =>
      if s.mc.token ≠ some core then s.stopCore core
      else
        match s.mc.rehearsal with
        | none => (s.renewToken).beat core true
        | some 1 => (s.enterGap core).beat core false
        | some _ => s.enterGap core
    | _ => s'

def execHeartbeat (core : Fin 2) (s : State) : Host.Outcome State Fault Refusal :=
  guarded (.heartbeat core) s (evHeartbeat core s)

/-! ## Taking the token (R479, R480, R484, R485) -/

/-- R480 step 2, R438, R483: the outgoing core is reset and boots again. Pieces it had in flight complete. -/
def State.resetCore (s : State) (h : Fin 2) : State :=
  if (s.core h).mode = .off then s
  else
    let s1 := (s.countMissed (otherCore h) true true).resetRequester h.val
    s1.setCore h { s1.core h with mode := .booting, role := 0, run := 0, bootedAt := none }

/-- R480 step 4: the command that had begun without a commit. A group it handed over completes all the same (R482). -/
def State.timeOut (s : State) : State :=
  match s.own.executing with
  | none => s
  | some x =>
    let s1 : State := { s with
      own := { s.own with executing := none },
      jrnl := { s.jrnl with groups := s.jrnl.groups.map fun g => { g with forCommand := false } },
      mc := { s.mc with timeouts := s.mc.timeouts + 1 } }
    s1.finish x.what stTimeout (s1.errorDetail 0xFFFF)

/-- R490: a command that waits is answered TIMEOUT; one whose sequence number is not new stays out of the reply cache. -/
def State.timeOutWaiting (s : State) (w : Waiting) : State :=
  let s1 := (s.counted w).mapMc fun m => { m with timeouts := m.timeouts + 1 }
  match s1.entered w with
  | some (s2, .fresh) => (s2.advanced w).finish w stTimeout (s2.errorDetail 0xFFFF)
  | some (s2, _) => s2.sendReply w.cmd.client w.cmd.via (replyBytes w.cmd.v2 w.wireCode w.cmd.seq stTimeout (s2.errorDetail 0xFFFF))
  | none => s1.sendReply w.cmd.client w.cmd.via (replyBytes w.cmd.v2 w.wireCode w.cmd.seq stTimeout (s1.errorDetail 0xFFFF))

/-- R480 steps 3 and 4, R490: the commit area is read. An uncorrectable error there is logged, and every unanswered command is
answered TIMEOUT; the words are written anew (log entry 99). -/
def State.readCommits (s : State) (h : Fin 2) : State :=
  let bad := s.mem.sramBad.filter fun e => Config.commitArea e.1
  if bad = [] then s.timeOut
  else
    let s1 := (bad.foldl (fun u e => u.sramError h.val e.1 e.2 false (0x40000000 + e.1)) s).mapMem fun m =>
      { m with sramBad := m.sramBad.filter fun e => !Config.commitArea e.1 }
    let (commands, rest) := s1.own.order.partition fun w => w.verdict.isNone
    commands.foldl State.timeOutWaiting ((s1.mapOwn fun o => { o with order := rest }).timeOut)

/-- The claim itself: role 2, and the token from now on. -/
def State.claimToken (s : State) (h : Fin 2) : State :=
  let c := s.core h
  let o := s.core (otherCore h)
  (((s.setCore h { c with mode := .active, role := 2, bootedAt := none }).setCore (otherCore h)
    { o with bootedAt := none }).writeMail h).mapMc fun m => { m with token := some h, tokenAt := s.ns, claimed := true, lastActive := h }

/-- R482, R505, R507: a snapshot cut short leaves its half without a commit, and the compaction begins again. -/
def JrnlState.resumed (j : JrnlState) : JrnlState := if 2 ≤ j.step && j.step ≤ 4 then { j with step := 1 } else j

/-- R480 steps 1 to 5, of a claim that follows another core's service. -/
def State.takeOver (s : State) (h : Fin 2) (cause : Nat) : State :=
  let c := s.claimToken h
  let s1 := (if s.mc.lastActive = h then c else c.resetCore (otherCore h)).readCommits h
  let gap := (s.ns - s.mc.gapFrom) / 1000
  let s2 := s1.mapMc fun m => { m with
    switchovers := m.switchovers + 1, lastCause := cause, lastGapUs := gap, maxGapUs := max m.maxGapUs gap,
    lastSwitch := s.nowInstant, rehearsal := none, inGap := false, orphaned := false }
  ({ s2 with jrnl := s2.jrnl.resumed, own := { s2.own with chargeFrom := s.ns } }).raise 194 h.val

/-- The last sampling instant of a core at or before a moment. -/
def lastSample (h : Fin 2) (ns : Nat) : Nat := gridIndex h ns * 100000 - Config.samplePhase h.val % 100000

/-- R479: both conditions at one sampling instant of the standby; the intervals counted at the last one are those counted now.
R484: not where the standby was not ready when the active core failed. -/
def State.takeoverDue (s : State) (h : Fin 2) : Bool :=
  let o := s.core (otherCore h)
  let wire := missedSince h o.wireFrom s.ns
  let mail := missedSince h o.mailFrom s.ns
  s.mc.token = none && s.mc.claimed && (s.core h).mode = .standby && (s.core h).role = 1 && !s.mc.orphaned &&
  decide (s.mc.tokenAt + 1000000 ≤ lastSample h s.ns) && ((3 ≤ wire && 3 ≤ mail) || 12 ≤ wire || 12 ≤ mail)

/-- Takeover by the standby, up to the point where commands are served again. -/
def State.standbyTakes (s : State) (h : Fin 2) : State :=
  let o := otherCore h
  let c := s.core o
  let both := 3 ≤ missedSince h c.wireFrom s.ns && 3 ≤ missedSince h c.mailFrom s.ns
  let cause := match s.mc.rehearsal with
    | some m => 3 + m
    | none => if both then 1 else 2
  s.takeOver h cause

/-- R485: MC-B waits 10 ms more before the first claim after a reset of the device. -/
def State.claimDue (s : State) (h : Fin 2) : Bool :=
  s.mc.token = none && 2 ≤ s.pwr.phase && s.pwr.phase ≠ 5 && (s.core h).mode = .standby &&
  (match (s.core h).bootedAt with
   | none => false
   | some t => t + (if h = 1 && !s.mc.claimed then 10000000 else 0) ≤ s.ns)

/-- The core that claims after its boot; MC-A before MC-B. -/
def State.bootClaim (s : State) (core : Fin 2) : State :=
  let h := if core = 1 && s.claimDue 0 then 0 else core
  if !s.claimDue h then s
  else
    let o := s.core (otherCore h)
    let s1 := s.mapMc fun m => { m with standbyBoots := m.standbyBoots + b2n (o.mode = .standby && o.bootedAt.isSome) }
    if s.mc.claimed then s1.takeOver h 5
    else
      let s2 := s1.claimToken h
      { s2 with pwr := { s2.pwr with phase := if s2.pwr.phase = 2 then 3 else s2.pwr.phase } }

/-! ## MC_REHEARSE, MC_GET_STATUS (R487, R488) -/

def State.activeId (s : State) : Fin 2 := s.mc.token.getD s.mc.lastActive
def State.standbyId (s : State) : Fin 2 := otherCore s.activeId

/-- R483: ready, and heard on both paths within 12 intervals. -/
def State.standbyReady (s : State) : Bool :=
  let c := s.core s.standbyId
  let a := s.activeId
  c.mode = .standby && c.role = 1 && missedSince a c.wireFrom s.ns < 12 && missedSince a c.mailFrom s.ns < 12

/-- 0 ready; 1 booting; 2 not ready; 3 off. -/
def State.standbyCode (s : State) : Nat :=
  match (s.core s.standbyId).mode with
  | .off => 3
  | .booting | .stopping => 1
  | _ => if s.standbyReady then 0 else 2

def doMcRehearse (c : Cmd) (s : State) : Res :=
  let m := fld c.params 0 1
  if 1 < m then .bad 0 s
  else if !s.standbyReady || s.mc.rehearsal.isSome then .fail stBusy s
  else .accepted (s.mapMc fun x => { x with rehearsal := some m, rehearsals := x.rehearsals + 1 })

def specMcRehearse : OpSpec := { row := rowMcRehearse, body := doMcRehearse }
def execMcRehearse (c : Cmd) (s : State) : Host.Outcome State Fault Refusal := s.submit specMcRehearse c

def doMcGetStatus (_c : Cmd) (s' : State) : Res :=
  -- the intervals that have passed since each core's last heartbeat count already
  let m := ((s'.countMissed 0 true true).countMissed 1 true true).mc
  let s := s'
  .okWith (beBytes 1 s.activeId.val ++ beBytes 1 s.standbyCode ++ beBytes 1 m.lastCause ++ beBytes 1 (b2n m.rehearsal.isSome) ++
    beCount 4 m.lastGapUs ++ beCount 4 m.maxGapUs ++ beCount 4 m.switchovers ++ beCount 4 m.rehearsals ++
    beCount 4 m.timeouts ++ beInstant m.lastSwitch ++ zeros 4 ++ beCount 8 m.missedWire ++ beCount 8 m.missedMail ++
    beCount 4 m.standbyBoots ++ zeros 4) s

def specMcGetStatus : OpSpec := { row := rowMcGetStatus, body := doMcGetStatus }
def execMcGetStatus (c : Cmd) (s : State) : Host.Outcome State Fault Refusal := s.submit specMcGetStatus c

end Sys2Proof.Machine
end

