-- ==== Sys2Proof/Machine/Spares.lean ====
section
/-! DEFINITION. Spare tiles, audit rotation, fault moves, row repairs and their commands (R163, R164, R491 to R499, R508 to R510). -/

namespace Sys2Proof.Machine

def State.mapSpare (s : State) (f : SpareState → SpareState) : State := { s with spare := f s.spare }

/-! ## Rows (R498) -/

/-- The rows of one macro in turn. -/
def State.repairRows (s : State) (macro_ : Nat) (rows : List Nat) : State × Bool :=
  rows.foldl (fun (a : State × Bool) (row : Nat) => let (u, ok) := a.1.repairRow macro_ row; (u, a.2 && ok)) (s, true)

/-! ## Moves (R163, R495 to R497) -/

/-- Between two visits of the tiles. -/
def State.atBoundary (s : State) : Bool := s.stg.working.isNone && s.stg.inbox.isNone

/-- R163, R164: a visit start that became due no earlier than the move comes after it; one that became due at the same
moment as the move, or before it, comes first, and the move waits for the following boundary. -/
def State.moveFirst (s : State) (dueNs : Nat) : Bool :=
  match s.nextBank with
  | none => true
  | some b => decide (dueNs < max s.stg.idleAt (s.bank b).fullAt)

/-- A slot takes a READY tile; the tile it leaves is tested. -/
def State.moveSlot (s : State) (slot tile : Nat) : State :=
  let v := s.slotAt slot
  let s1 := s.setSlot slot { v with tile := some tile, visits := 0, discards := 0, moves := v.moves + 1 }
  let s2 := s1.setTileInfo tile { s1.tileInfo tile with mode := .backing }
  match v.tile with
  | none => s2
  | some old => s2.setTileInfo old { s2.tileInfo old with mode := .testing, fails := 0 }

/-- Retired, with its TILE record, which SPARE_RETIRE has journalled already (R503); a slot it still backs is withdrawn when no
other tile can come. -/
def State.retireTile (s : State) (t reason : Nat) : State :=
  let backs := s.liveSlots.find? fun i => (s.slotAt i).tile = some t
  let s0 := s.setTileInfo t { s.tileInfo t with mode := .retired, reason := reason, reported := false, doom := 0 }
  let s1 := if reason = 3 then s0 else s0.handGroup [tileRecord t reason] false
  let others := (List.range 272).any fun x => (s1.tileInfo x).mode = .ready || (s1.tileInfo x).mode = .testing
  match backs with
  | some i => if others then s1
    else s1.mapTile fun v => { v with leaving := v.leaving ++ [{ slot := i, tile := t, due := if reason = 3 then some s.ns else none }] }
  | none => s1

/-- R496: the reported tile of a slot leaves it, once a READY tile's group is ON. -/
def State.faultMoveNow (s : State) (slot : Nat) : State :=
  let t := (s.slotAt slot).tile.getD 0
  match s.readyTile with
  | some x =>
    if s.domainOn (x / 4) then
      ((s.moveSlot slot x).mapSpare fun p => { p with faultMoves := p.faultMoves + 1 })
    else s.powerUp (x / 4)
  | none =>
    let testing := (List.range 272).any fun x => (s.tileInfo x).mode = .testing
    let doom := (s.tileInfo t).doom
    if doom ≠ 0 && !testing then s.retireTile t doom else s

/-- R517: ns since which a tile may take a slot over: it is READY, and its group is ON. -/
def State.usableAt (s : State) (tile : Nat) : Nat := max (s.tileInfo tile).readyAt (s.domain (tile / 4)).since

/-- The reported tile of a slot, and the tile that takes over from it, are both there from this ns on. -/
def State.faultDue (s : State) (slot : Nat) : Nat :=
  let reported := (s.tileInfo ((s.slotAt slot).tile.getD 0xFFFF)).reportNs
  match s.readyTile with
  | some x => max reported (s.usableAt x)
  | none => reported

/-- R496, R497: the lowest slot moves first. With no tile READY none can move, and each tile that is to be retired is, in
whichever slot. -/
def State.faultTurn (s : State) (slot : Nat) : Bool :=
  if s.readyTile.isSome then s.faultySlot = some slot else s.liveSlots.contains slot && s.slotFaulty slot

def evFaultMove (slot : Nat) (s : State) : State :=
  if s.atBoundary && s.faultTurn slot && s.moveFirst (s.faultDue slot) then s.faultMoveNow slot else s

def execFaultMove (slot : Nat) (s : State) : Host.Outcome State Fault Refusal := guarded (.faultMove slot) s (evFaultMove slot s)

/-- The slot that the audit pointer stands at, past slots that have been withdrawn. -/
def State.auditSlot (s : State) : Option Nat :=
  let live := s.liveSlots
  match live.find? (s.spare.auditPtr ≤ ·) with
  | some i => some i
  | none => live.head?

/-- The next slot after `i` that is not withdrawn. -/
def State.slotAfter (s : State) (i : Nat) : Nat := ((s.liveSlots.find? (i < ·)).or s.liveSlots.head?).getD 0

/-- The step is due, and the tile that it takes is there, from this ns on. -/
def State.auditDue (s : State) : Nat :=
  match s.readyTile with
  | some x => max s.spare.dueNs (s.usableAt x)
  | none => s.spare.dueNs

/-- R494: a due step may be taken. -/
def State.auditReady (s : State) : Bool :=
  s.spare.due && s.atBoundary && s.moveFirst s.auditDue && !s.mc.inGap && (!s.schedLive || s.spare.passed) &&
  (s.faultySlot.isNone || s.readyTile.isNone)

/-- The step is over, taken or skipped. -/
def State.endAudit (s : State) (next : Nat) (taken : Bool) : State :=
  s.mapSpare fun p => { p with due := false, passed := false, lastStep := s.now, auditPtr := next,
                               auditSteps := p.auditSteps + b2n taken, auditSkipped := p.auditSkipped + b2n (!taken) }

/-- R494, R495: the slot at the pointer moves to the tile that has been READY longest. -/
def evAuditStep (s : State) : State :=
  if !s.auditReady then s
  else
    match s.auditSlot, s.readyTile with
    | some slot, some x =>
      if s.domainOn (x / 4) then ((s.moveSlot slot x).endAudit (s.slotAfter slot) true)
      else s.powerUp (x / 4)
    | _, _ => s.endAudit s.spare.auditPtr false

def execAuditStep (s : State) : Host.Outcome State Fault Refusal := guarded .auditStep s (evAuditStep s)

/-- R163: whichever move of this slot to this tile is due. -/
def evSlotMove (slot tile : Nat) (s : State) : State :=
  if s.readyTile ≠ some tile then s
  else if s.faultySlot.isSome then evFaultMove slot s
  else if s.auditSlot = some slot then evAuditStep s else s

def execSlotMove (slot tile : Nat) (s : State) : Host.Outcome State Fault Refusal :=
  guarded (.slotMove slot tile) s (evSlotMove slot tile s)

/-- R164, R497: a slot that no tile backs is withdrawn at a boundary, once its tile's record has committed. -/
def evSlotWithdraw (slot : Nat) (s : State) : State :=
  match s.tile.leaving.find? (·.slot = slot) with
  | some ⟨_, _, some due⟩ =>
    if s.atBoundary && s.moveFirst due then
      let s1 := s.setSlot slot { s.slotAt slot with tile := none }
      ((s1.mapTile fun t => { t with leaving := t.leaving.filter (·.slot ≠ slot) }).raise 180 slot)
    else s
  | _ => s

def execSlotWithdraw (slot : Nat) (s : State) : Host.Outcome State Fault Refusal :=
  guarded (.slotWithdraw slot) s (evSlotWithdraw slot s)

/-! ## The audit timer and BIST (R492, R494 to R496) -/

def evAuditStepDue (s : State) : State :=
  let p := s.spare
  if p.auditS ≠ 0 && !p.due && s.tile.slots ≠ [] && p.lastStep + p.auditS * secUnits ≤ s.now then
    (s.mapSpare fun p => { p with due := true, passed := false, dueNs := s.ns })
  else s

def execAuditStepDue (s : State) : Host.Outcome State Fault Refusal := guarded .auditStepDue s (evAuditStepDue s)

/-- A TESTING tile whose group is ON ends one run of BIST; `rows` are failing rows of its accumulator SRAM. -/
def evBistDone (tile : Nat) (pass : Bool) (rows : List Nat) (s : State) : State :=
  let v := s.tileInfo tile
  if 272 ≤ tile || v.mode ≠ .testing || !s.domainOn (tile / 4) then s
  else
    let (s1, repaired) := s.repairRows tile rows
    let s2 := s1.mapSpare fun p => { p with bistRuns := p.bistRuns + 1, bistFails := p.bistFails + b2n (!pass) }
    let done := if !repaired then s2.retireTile tile 4
      else if v.doom ≠ 0 then s2.retireTile tile v.doom
      else if pass then
        s2.setTileInfo tile { v with mode := .ready, readyAt := s.ns, fails := 0, reported := false,
                                     faults := v.faults + b2n v.reported }
      else if v.fails = 0 then s2.setTileInfo tile { v with fails := 1 }
      else s2.retireTile tile 1
    done

def execBistDone (tile : Nat) (pass : Bool) (rows : List Nat) (s : State) : Host.Outcome State Fault Refusal :=
  guarded (.bistDone tile pass rows) s (evBistDone tile pass rows s)

/-! ## Commands -/

def doSpareSetAudit (c : Cmd) (s : State) : Res :=
  let n := fld c.params 0 4
  if n ≠ 0 && (n < 10 || 86400 < n) then .bad 0 s else .ok (s.mapSpare fun p => { p with auditS := n })

def specSpareSetAudit : OpSpec := { row := rowSpareSetAudit, body := doSpareSetAudit, records := ownRecord 0x0D02 }
def execSpareSetAudit (c : Cmd) (s : State) : Host.Outcome State Fault Refusal := s.submit specSpareSetAudit c

def doSpareRetire (c : Cmd) (s : State) : Res :=
  let t := fld c.params 0 2
  let a := fld c.params 2 1
  let v := s.tileInfo t
  match firstBad [(decide (t ≤ 271), 0), (decide (a ≤ 1), 2)] with
  | some off => .bad off s
  | none =>
    if a = 1 then
      if v.mode = .retired && v.reason = 3 then .ok (s.setTileInfo t { v with mode := .testing, reason := 0, fails := 0 })
      else .bad 0 s
    else
      match v.mode with
      | .ready => .ok (s.setTileInfo t { v with mode := .retired, reason := 3 })
      | .testing => .ok (s.setTileInfo t { v with doom := 3, reportNs := s.ns })
      | .backing => if s.readyTile.isNone && !s.own.accepted then .fail stBusy s else .ok (s.setTileInfo t { v with doom := 3, reportNs := s.ns })
      | .retired => .ok s

/-- R497, R503: a retirement by the host is journalled before the command is answered, wherever the tile then stands. -/
def retireRecords (c : Cmd) (s : State) : List (Nat × List Byte) :=
  let t := fld c.params 0 2
  if fld c.params 2 1 = 0 && (s.tileInfo t).mode ≠ .retired then [tileRecord t 3] else []

def specSpareRetire : OpSpec := { row := rowSpareRetire, body := doSpareRetire, records := retireRecords }
def execSpareRetire (c : Cmd) (s : State) : Host.Outcome State Fault Refusal := s.submit specSpareRetire c

def TileMode.code : TileMode → Nat
  | .backing => 0 | .ready => 1 | .testing => 2 | .retired => 3

def doSpareGetStatus (c : Cmd) (s : State) : Res :=
  let t := fld c.params 0 2
  let p := s.spare
  let v := s.tileInfo t
  let count (f : TileInfo → Bool) : Nat := ((List.range 272).filter fun i => f (s.tileInfo i)).length
  let slot := s.liveSlots.find? fun i => (s.slotAt i).tile = some t
  let rows := ((List.range 1024).map fun i => Config.factoryRows i % 5).sum + p.sramRepairs.length
  if 271 < t then .bad 0 s
  else .okWith (beBytes 2 (count (·.mode = .ready)) ++ beBytes 2 (count (·.mode = .testing)) ++
    beBytes 2 (count fun x => x.mode = .retired && x.factory) ++ beBytes 2 (count fun x => x.mode = .retired && !x.factory) ++
    beBytes 2 (s.auditSlot.getD 0) ++ beBytes 2 rows ++ beBytes 1 (b2n p.sramExhausted) ++ zeros 1 ++
    beBytes 2 (p.hbmRepairs.filter (·.status = 0)).length ++ beBytes 4 p.auditS ++
    beCount 4 (p.hbmRepairs.filter (·.status = 1)).length ++ beCount 8 p.auditSteps ++ beCount 8 p.auditSkipped ++
    beCount 8 p.bistRuns ++ beCount 8 p.bistFails ++ beCount 8 p.faultMoves ++ beBytes 1 v.mode.code ++
    beBytes 1 (if v.mode = .retired then v.reason else 0) ++ beBytes 2 (slot.getD 0xFFFF) ++ beCount 4 v.faults) s

def specSpareGetStatus : OpSpec := { row := rowSpareGetStatus, body := doSpareGetStatus }
def execSpareGetStatus (c : Cmd) (s : State) : Host.Outcome State Fault Refusal := s.submit specSpareGetStatus c

end Sys2Proof.Machine
end

