-- ==== Sys2Proof/Machine/Reset.lean ====
section
/-! DEFINITION. Power domains going on and off, PCIe resets, resets of the device, and the commands of power
(R515 to R521, R539, R540). -/

namespace Sys2Proof.Machine

def State.mapPwr (s : State) (f : PowerState → PowerState) : State := { s with pwr := f s.pwr }

/-! ## Resets of the device (R518, R520) -/

/-- 10 ms after the reply to PWR_RESET scope 0. -/
def evPwrResetFire (s : State) : State :=
  match s.pwr.resetAt with
  | some t => if t ≤ s.ns then s.deviceReset 2 else s
  | none => s

def execPwrResetFire (s : State) : Host.Outcome State Fault Refusal := guarded .pwrResetFire s (evPwrResetFire s)

/-! ## PCIe (R521) -/

def inOutbound (a : Nat) : Bool := 0x10000000000 ≤ a && a < 0x20000000000

/-- Queues whose base or write-back address lies in host memory, those of the CSRs among them. -/
def hostQueue (n : Nat) (q : Queue) : Bool := (n < 8 || q.enable) && (inOutbound q.base || inOutbound q.wb)

/-- Some queues are disabled, the CSRs of queues 0 to 7 back at their reset values but for RQ_DROPS, which only a reset of the
device clears (R474, R520); the channels bound to them end what runs as ABORTED, whose record is lost, and are OFF. -/
def State.loseQueues (s : State) (lost : Nat → Queue → Bool) : State :=
  let gone := (s.ring.queues.filter fun e => lost e.1 e.2).map (·.1)
  let bound (c : DmaChannel) : Bool := c.mode ≠ .off && (gone.contains c.descQ || gone.contains c.complQ)
  let channels := (s.ring.channels.filter fun e => bound e.2).map (·.1)
  let s1 := gone.foldl (fun u n =>
    u.setQueue n (if n < 8 then { drops := (u.queue n).drops }
      else { u.queue n with enable := false, prod := 0, cons := 0, raisedAt := none, owed := false })) s
  channels.foldl (fun u n =>
    let v := u.abortChannel n
    (v.setDma n { v.dma n with mode := .off, running := none, started := false }).freeStart n) s1

/-- R438: what PCIe inbound had in flight completes: of a write cut short, exactly the delivered beats. -/
def State.finishInbound (s : State) (cut : InboundCut) : State :=
  let s1 := match cut.piece with | some (off, bs) => s.inboundPiece (Bar.address .hbm off) bs | none => s
  s1.mapMem fun x => { x with resetPieces := x.resetPieces + cut.others + cut.piece.toList.length }

/-- A function-level reset leaves the link as it is; the other kinds take it down. -/
def State.pcieReset (s : State) (link : Bool) : State :=
  let s1 := s.loseQueues hostQueue
  let s2 := match s1.own.owner with
    | some c => if c.ep = 0 then s1.loseOwner else s1
    | none => s1
  (if link then s2 else s2.mapPwr fun p => { p with pcieGen := 0, pcieWidth := 0 })

def evPcieReset (event : PcieResetEvent) (s : State) : State :=
  (if s.linkUp then s.finishInbound event.cut else s).pcieReset (event.kind = .function)
def execPcieReset (event : PcieResetEvent) (s : State) : Host.Outcome State Fault Refusal :=
  guarded (.pcieReset event) s (evPcieReset event s)

/-- Link training completes. -/
def evPcieLinkUp (gen width : Nat) (s : State) : State :=
  if s.domainOn 85 then s.mapPwr fun p => { p with pcieGen := gen, pcieWidth := width } else s

def execPcieLinkUp (gen width : Nat) (s : State) : Host.Outcome State Fault Refusal :=
  guarded (.pcieLinkUp gen width) s (evPcieLinkUp gen width s)

/-- R418: a management port's link, of a port that is not off. -/
def evMgmtLinkChange (port : Fin 2) (up : Bool) (s : State) : State :=
  let m := s.mgmt port.val
  if up && (m.mode = 0 || !s.domainOn 86) then s else s.setMgmt port.val { m with link := up }

def execMgmtLinkChange (port : Fin 2) (up : Bool) (s : State) : Host.Outcome State Fault Refusal :=
  guarded (.mgmtLinkChange port up) s (evMgmtLinkChange port up s)

/-! ## What a domain loses when it switches off (R515) -/

def State.stagingOff (s : State) (bank q : Nat) : State :=
  let k := s.bank bank
  let lo := q * 16777216
  let data := k.data.filter fun e => e.1 < lo || lo + 16777216 ≤ e.1
  s.setBank bank { k with data := data, valid := if q = 0 then [] else k.valid, undef := if data = [] then none else k.undef }

/-- An HBM stack's contents and the running state of its controller; its counters stay (R520). -/
def State.hbmOff (s : State) (h : Nat) : State :=
  let mine (o : Nat) : Bool := stackOf o = h
  (s.mapMem fun m => { m with hbm := m.hbm.filter fun e => !mine e.1, bad := m.bad.filter fun e => !mine e.1 }).bumpHc h fun c =>
    { c with trained := false, scrubPos := 0, injMode := 0, injAddr := 0, parity := [] }

def State.coreOff (s : State) (h : Fin 2) : State :=
  (s.resetRequester h.val).setCore h { s.core h with mode := .off, role := 0, run := 0, bootedAt := none }

/-- The four tiles of a group lose their sums and counts. -/
def State.tilesOff (s : State) (g : Nat) : State :=
  (List.range 4).foldl (fun u i =>
    u.setTileInfo (4 * g + i) { u.tileInfo (4 * g + i) with acc := [], presence := [] }) s

/-- A channel of a DMA domain that has been off: at reset, but for its counters (R515, R520). -/
def DmaChannel.off (c : DmaChannel) : DmaChannel :=
  { descs := c.descs, bytes := c.bytes, errs := c.errs, startIdle := c.startIdle }

def State.loseDomain (s : State) (d : Nat) : State :=
  if d < 68 then s.tilesOff d
  else if d < 76 then s.stagingOff ((d - 68) / 4) ((d - 68) % 4)
  else if 76 ≤ d && d < 80 then s.hbmOff (d - 76)
  else if d = 85 then
    let s1 := (s.resetRequester 2).loseQueues fun _ _ => true
    -- a queue's registers are at reset when the domain is on again; its counter of drops stays (R520)
    (s1.mapRing fun r => { r with queues := r.queues.map fun e => (e.1, { drops := e.2.drops }) }).mapPwr fun p =>
      { p with pcieGen := 0, pcieWidth := 0 }
  else if d = 86 then (s.setMgmt 0 { s.mgmt 0 with link := false }).setMgmt 1 { s.mgmt 1 with link := false }
  else if d = 87 then s.coreOff 0
  else if d = 88 then s.coreOff 1
  else if d = 94 then
    -- records still owed are lost (R467)
    let owed := (s.ring.channels.filter fun e => e.2.running.isSome || e.2.mode = .stopping).length
    let s1 := ((s.resetRequester 3).resetRequester 4).mapRing fun r => { r with recLost := r.recLost + owed }
    let s2 := s1.ring.channels.foldl (fun u e => u.setDma e.1 (u.dma e.1).off) s1
    { s2 with er := { s2.er with busy := s2.er.busy.filter (64 ≤ ·) } }
  else s

/-- R516, R436: a piece that the fence completes: a write piece leaves its bytes undefined, where the target is still there. Its
requester sees the error response as it sees those of a domain that is off. -/
def State.fencePiece (s : State) (p : FencePiece) : State :=
  let len := min p.len (256 - p.addr % 256)
  if !p.write then s.errResp
  else
    let free := (List.range len).map (Config.freeByte s.draws)
    match decodeAddr s.mem.remap p.addr with
    | .hbm off => (if s.domainOn (76 + stackOf off) then s.scramble off len else s).errResp
    | .sram off | .sramLow off => (if s.imageLocked off then s else s.draw.sramStore off free).errResp
    | .staging off => (if s.domainOn (stagingDomain off) then
        (List.range len).foldl (fun u i => u.setStagingByte (off + i) (free.getD i 0)) s.draw else s).errResp
    | _ => s.errResp

/-- R516: the fence acts 100 µs after DRAINING began; the pieces still outstanding to, from or within the domain are completed
with error responses. A domain that is wanted again powers up at once. -/
def evDomainFence (domain : Fin 96) (outstanding : List FencePiece) (s : State) : State :=
  let d := domain.val
  let v := s.domain d
  if v.state ≠ .draining || s.ns < v.since + 100000 then s
  else
    let s1 := s.setDomain d { v with state := .off, fences := v.fences + outstanding.length, since := s.ns }
    (outstanding.foldl State.fencePiece s1).loseDomain d

def execDomainFence (domain : Fin 96) (outstanding : List FencePiece) (s : State) : Host.Outcome State Fault Refusal :=
  guarded (.domainFence domain outstanding) s (evDomainFence domain outstanding s)

/-- R515: a domain in POWERING_UP enters ON. -/
def State.domainUp (s : State) (d : Nat) : State :=
  let v := s.domain d
  if v.state ≠ .poweringUp then s
  else
    let s1 := s.setDomain d { v with state := .on, since := s.ns }
    if 76 ≤ d && d < 80 then s1.bumpHc (d - 76) fun c => { c with trained := true }
    else if d = 87 then s1.setCore 0 { s1.core 0 with mode := .booting }
    else if d = 88 then s1.setCore 1 { s1.core 1 with mode := .booting }
    else s1

/-! ## PWR_SET_DOMAIN, PWR_RESET, PWR_GET_DOMAINS (R513, R517, R539, R540) -/

/-- The column "Accepts". -/
def modeAccepted (d mode : Nat) : Bool :=
  if d < 76 then mode ≤ 1
  else if d < 80 then mode = 1 || mode = 2
  else if d < 85 then mode ≤ 1
  else if d < 89 then mode = 1 || mode = 2
  else if d < 94 then mode ≤ 1
  else if d = 94 then mode ≤ 2
  else mode = 0

/-- R517: mode OFF is BUSY. -/
def State.offBusy (s : State) (d : Nat) : Bool :=
  let ep := match s.own.owner with | some c => c.ep.val | none => 4
  if 76 ≤ d && d < 80 then
    s.tile.layout.isSome || s.cap.sel.mib ≠ 0 || s.mem.hostMib ≠ 0 || (s.beam.sets.any fun e => e.2.enable) ||
    s.ring.queues.any fun e => e.2.enable && 0x1000000000 ≤ e.2.base && e.2.base < 0x2800000000
  else if d = 85 || d = 94 then ep = 0
  else if d = 86 then ep = 1 || ep = 2
  else if d = 87 || d = 88 then s.activeId.val = d - 87
  else false

def doPwrSetDomain (c : Cmd) (s : State) : Res :=
  let d := fld c.params 0 1
  let m := fld c.params 1 1
  match firstBad [(decide (d ≤ 95), 0), (modeAccepted d m, 1)] with
  | some off => .bad off s
  | none => if m = 2 && s.offBusy d then .fail stBusy s else .ok (s.setDomain d { s.domain d with mode := m })

def domainRecords (c : Cmd) (_s : State) : List (Nat × List Byte) :=
  let d := fld c.params 0 1
  if d = 87 || d = 88 then [] else [(0x0C01, c.params)]

def specPwrSetDomain : OpSpec := { row := rowPwrSetDomain, body := doPwrSetDomain, records := domainRecords }
def execPwrSetDomain (c : Cmd) (s : State) : Host.Outcome State Fault Refusal := s.submit specPwrSetDomain c

def doPwrReset (c : Cmd) (s : State) : Res :=
  let scope := fld c.params 0 1
  if 2 < scope then .bad 0 s
  else if scope = 0 then .ok (s.mapPwr fun p => { p with resetAsked := true })
  else if scope = 1 then .ok ((s.resetRequester 2).pcieReset true)
  else if (s.core s.standbyId).mode = .off then .fail stBusy s
  else .ok (s.resetCore s.standbyId)

def specPwrReset : OpSpec := { row := rowPwrReset, body := doPwrReset }
def execPwrReset (c : Cmd) (s : State) : Host.Outcome State Fault Refusal := s.submit specPwrReset c

def DomState.code : DomState → Nat
  | .off => 0 | .poweringUp => 1 | .on => 2 | .draining => 3

def doPwrGetDomains (_c : Cmd) (s : State) : Res :=
  let bytes := ((List.range 96).map fun d => beBytes 1 ((s.domain d).state.code + 4 * (s.domain d).mode)).flatten
  .okWith (bytes ++ beCount 8 ((s.pwr.domains.toList.map (·.fences)).sum) ++ beBytes 1 s.pwr.phase ++ beBytes 1 s.pwr.cause ++
    zeros 2) s

def specPwrGetDomains : OpSpec := { row := rowPwrGetDomains, body := doPwrGetDomains }
def execPwrGetDomains (c : Cmd) (s : State) : Host.Outcome State Fault Refusal := s.submit specPwrGetDomains c

end Sys2Proof.Machine
end

