-- ==== Sys2Proof/Machine/Boot.lean ====
section
/-! DEFINITION. Firmware images, the boot ROM, recovery, OTP keys, command keys and attestation (R522 to R532, R539, R540). -/

namespace Sys2Proof.Machine

/-! ## OTP (R528 to R530) -/

def PowerState.otp (p : PowerState) (n : Nat) : OtpSlot := if n = 0 then p.otp0 else if n = 1 then p.otp1 else p.otp2

def PowerState.setOtp (p : PowerState) (n : Nat) (v : OtpSlot) : PowerState :=
  if n = 0 then { p with otp0 := v } else if n = 1 then { p with otp1 := v } else { p with otp2 := v }

def OtpSlot.isActive (o : OtpSlot) : Bool := o.active && !o.revoked

/-- 0 EMPTY; 1 ACTIVE; 2 DAMAGED; 3 REVOKED. -/
def OtpSlot.code (o : OtpSlot) : Nat :=
  if o.revoked then 3 else if o.active then 1 else if o.hash = [] then 0 else 2

def PowerState.otpWord (p : PowerState) : Nat := p.otp0.code + 4 * p.otp1.code + 16 * p.otp2.code

def dieIdBytes : List Byte := (List.range 16).map Config.dieId

/-! ## Images (R522, R523) -/

/-- The image at a place of some memory: its header and its bytes. -/
structure Image where
  header : List Byte
  body : List Byte
  deriving DecidableEq, Repr

def Image.keySlot (i : Image) : Nat := lfld i.header 5 1
def Image.secVer (i : Image) : Nat := lfld i.header 8 4
def Image.beynanVer (i : Image) : Nat := lfld i.header 16 4

def imageLen (header : List Byte) : Nat := lfld header 12 4

/-- An image as bytes of `m` from `addr` on. -/
def imageAt (d : Byte) (m : Mem) (addr : Nat) : Image :=
  let h := memRead d m addr 256
  ⟨h, if imageLen h ≤ 3145728 then memRead d m (addr + 256) (imageLen h) else []⟩

/-- The measurement: SHA-384 of the header and the image. -/
def Image.measure (i : Image) : List Byte := sha384 (i.header ++ i.body)

/-- R523, by the codes of FAIL; 0: valid. A security_version beyond the 64 fuses of R530 is no valid header (DEDUCED, log
entry 110). -/
def PowerState.imageFail (p : PowerState) (i : Image) : Nat :=
  let n := imageLen i.header
  let key := slice i.header 32 97
  if i.header.take 5 ≠ [0x42, 0x59, 0x4E, 0x4E, 1] || 3145728 < n || n % 16 ≠ 0 || 64 < i.secVer then 2
  else if 2 < i.keySlot || !(p.otp i.keySlot).isActive then 3
  else if sha384 key ≠ (p.otp i.keySlot).hash then 4
  else if i.secVer < p.minVersion then 6
  else if ecdsaVerify key (fld i.header 160 48) (fld i.header 208 48) (i.header.take 160 ++ i.body) then 0 else 5

def slotBase (n : Nat) : Nat := n * 0x400000

def State.slotImage (s : State) (n : Nat) : Image := imageAt 0xFF s.flash (slotBase n + 0x1000)
def State.slotSeq (s : State) (n : Nat) : Nat := leNat (memRead 0xFF s.flash (slotBase n + 4) 4)
def State.slotCommitted (s : State) (n : Nat) : Bool :=
  memRead 0xFF s.flash (slotBase n) 4 = [0x53, 0x4C, 0x4F, 0x54] && memRead 0xFF s.flash (slotBase n + 60) 4 = zeros 4

/-- The committed slots in descending image_seq; slot 0 first on a tie. -/
def State.bootOrder (s : State) : List Nat :=
  let l := [0, 1].filter s.slotCommitted
  if l = [0, 1] && serialAfter 32 (s.slotSeq 1) (s.slotSeq 0) then [1, 0] else l

/-! ## The boot ROM (R524, R527) -/

/-- Steps 2 to 4 with a valid image: it stands in working SRAM, measured, and REMAP is set. -/
def State.loadImage (s : State) (slot : Nat) : State :=
  let i := s.slotImage slot
  ((s.sramStore 0 (i.header ++ i.body)).mapMem fun m => { m with remap := true }).mapPwr fun p =>
    { p with phase := 2, slot := slot, keySlot := i.keySlot, secVer := i.secVer, measure := i.measure, beynanVer := i.beynanVer,
             fail := 0 }

/-- R527: phase RECOVERY; FAIL tells of one of the slots that were tried. -/
def State.enterRecovery (s : State) (tried : List Nat) : State :=
  let fails := tried.map fun n => s.pwr.imageFail (s.slotImage n)
  let f := match fails with
    | [] => 1
    | a :: t => t.foldl (fun x y => if Config.freeBool s.draws 0 then x else y) a
  let v := s.domain 85
  ((s.draw.setDomain 85 { v with state := .on, since := s.ns })).mapPwr fun p => { p with phase := 5, fail := f }

/-- The first boot of the device: MC-A's ROM. -/
def State.romBoot (s : State) : State :=
  let on (u : State) (d : Nat) : State := u.setDomain d { u.domain d with state := .on, since := u.ns }
  let s1 := on (on s 87) 88
  match s1.bootOrder.find? fun n => s1.pwr.imageFail (s1.slotImage n) = 0 with
  | some n => s1.loadImage n
  | none => s1.enterRecovery s1.bootOrder

/-- R485: the core has completed its boot. It draws its boot identifier, beats from now on, and may claim an unheld token. -/
def State.coreBooted (s' : State) (h : Fin 2) : State :=
  let s1 := s'.expireToken
  let o := s1.core (otherCore h)
  -- it samples the other's paths from now on
  let s := s1.setCore (otherCore h) { o with wireFrom := s1.ns, mailFrom := s1.ns }
  let c := s.core h
  let v : McCore := { c with mode := .standby, hbCount := 0, role := 0, run := 0, commit := 0,
                             bootId := Config.freeNat s.draws 0 % 65536, wireAt := s.ns, mailAt := s.ns,
                             bootedAt := if s.mc.token.isNone then some s.ns else none }
  ((s.draw.setCore h v).writeMail h).mapMc fun m => { m with standbyBoots := m.standbyBoots + b2n m.token.isSome }

/-- R524: a core that boots alone checks the copy in SRAM against BT_MEASURE. -/
def State.copyIntact (s : State) : Bool := (imageAt 0 s.mem.sram 0).measure = s.pwr.measure

/-- One core's ROM runs: MC-A's at a reset of the device, MC-B's from LOADED on, and either alone later, when a core that has
stopped or was reset boots again. -/
def evBootRom (core : Fin 2) (s : State) : State :=
  let c := s.core core
  let idle := c.mode = .booting || (c.mode = .stopping && s.mc.token ≠ some core)
  if s.pwr.phase = 0 then
    if core = 0 then
      let s1 := s.romBoot
      if s1.pwr.phase = 2 then
        -- R324: the Freran boot identifier is drawn at each reset
        let s2 : State := { s1.draw with fr := { s1.fr with boot := Config.freeNat s1.draws 1 % 65536 } }
        (s2.coreBooted 0)
      else s1
    else s
  else if s.pwr.phase = 5 || !idle || !s.domainOn (87 + core.val) then s
  else if s.mc.claimed && !s.copyIntact then
    (s.setCore core { c with mode := .failed }).mapPwr fun p => { p with fail := 7 }
  else s.coreBooted core

def execBootRom (core : Fin 2) (s : State) : Host.Outcome State Fault Refusal := guarded (.bootRom core) s (evBootRom core s)

/-! ## Recovery (R527, R538) -/

/-- BT_REC_DATA: eight bytes of the image, and the address moves on. -/
def evBtRecData (value : Nat) (s : State) : State :=
  if s.pwr.phase ≠ 5 then s
  else
    (s.sramStore s.pwr.recAddr ((leBytes 8 value).take (0x400000 - s.pwr.recAddr))).mapPwr fun p =>
      { p with recAddr := (p.recAddr + 8) % 0x400000 }

def execBtRecData (value : Nat) (s : State) : Host.Outcome State Fault Refusal := guarded (.btRecData value) s (evBtRecData value s)

/-- The journal engine programs the checked image into slot 0, with its descriptor. -/
def State.programSlot0 (s : State) (i : Image) : State :=
  let bytes := i.header ++ i.body
  let fl := memErase s.flash 0 (roundUp (0x1000 + bytes.length) 65536)
  let fl1 := memWrite 0xFF fl 0x1000 bytes
  let desc : List Byte := [0x53, 0x4C, 0x4F, 0x54] ++ leBytes 4 1 ++ zeros 52
  { s with flash := memWrite 0xFF (memWrite 0xFF fl1 0 desc) 60 (zeros 4) }

/-- BT_REC_GO: the image in SRAM is checked; a valid one is programmed, and the device is reset with cause 4. -/
def evBtRecGo (value : Nat) (s : State) : State :=
  if s.pwr.phase ≠ 5 || !bit value 0 then s
  else
    let i := imageAt 0 s.mem.sram 0
    let f := s.pwr.imageFail i
    if f = 0 then (s.programSlot0 i).deviceReset 4 else s.mapPwr fun p => { p with fail := f }

def execBtRecGo (value : Nat) (s : State) : Host.Outcome State Fault Refusal := guarded (.btRecGo value) s (evBtRecGo value s)

/-! ## Command keys and the signing policy (R531) -/

def doSecSetCmdKey (c : Cmd) (s : State) : Res :=
  let n := fld c.params 0 1
  let a := fld c.params 1 1
  let key := slice c.params 4 97
  let old := kvGet [] s.pwr.cmdKeys n
  match firstBad [(decide (n ≤ 7), 0), (decide (a ≤ 1), 1), (a = 0 || (pointOf key).isSome, 4)] with
  | some off => .bad off s
  | none =>
    if a = 1 then
      if old ≠ [] then .fail stBusy s else .ok (s.mapPwr fun p => { p with cmdKeys := kvSet [] p.cmdKeys n key })
    else if old ≠ [] && s.pwr.cmdKeys.length = 1 && (s.pwr.signMask ≠ 0 || s.own.policy.claimAuth) then .fail stBusy s
    else .ok (s.mapPwr fun p => { p with cmdKeys := kvSet [] p.cmdKeys n [] })

def specSecSetCmdKey : OpSpec := { row := rowSecSetCmdKey, body := doSecSetCmdKey, records := ownRecord 0x0E10 }
def execSecSetCmdKey (c : Cmd) (s : State) : Host.Outcome State Fault Refusal := s.submit specSecSetCmdKey c

def doSecSetSignPolicy (c : Cmd) (s : State) : Res :=
  let m := fld c.params 0 2 / 2 * 2
  if m ≠ 0 && s.pwr.cmdKeys = [] then .bad 0 s else .ok (s.mapPwr fun p => { p with signMask := m })

def specSecSetSignPolicy : OpSpec := { row := rowSecSetSignPolicy, body := doSecSetSignPolicy, records := ownRecord 0x0E11 }
def execSecSetSignPolicy (c : Cmd) (s : State) : Host.Outcome State Fault Refusal := s.submit specSecSetSignPolicy c

/-! ## Rotation and revocation (R529, R539) -/

/-- The signer's slot is ACTIVE, holds the key's hash, and the key signed the message. -/
def State.authorised (s : State) (signer op target : Nat) (hash key sig : List Byte) : Bool :=
  let o := s.pwr.otp signer
  signer ≤ 2 && o.isActive && sha384 key = o.hash &&
  ecdsaVerify key (fld sig 0 48) (fld sig 48 48) (dieIdBytes ++ beBytes 1 op ++ beBytes 1 target ++ hash)

/-- A rotation that R529 authorises programs the hash first and the fuse last; `fuse`: how the fuse reads then (R528). -/
def rotate (p : List Byte) (fuse : Bool) (s : State) : Res :=
  let t := fld p 0 1
  let hash := slice p 4 48
  match firstBad [(decide (t ≤ 2), 0), (decide (fld p 1 1 ≤ 2), 1)] with
  | some off => .bad off s
  | none =>
    if !s.authorised (fld p 1 1) 1 t hash (slice p 52 97) (slice p 152 96) then .fail stNotAuth s
    else if (s.pwr.otp t).code ≠ 0 then .bad 0 s
    else .ok (s.mapPwr fun x => x.setOtp t { hash := hash, active := fuse })

def doSecOtpRotate (c : Cmd) (s : State) : Res := rotate c.params true s

def specSecOtpRotate : OpSpec := { row := rowSecOtpRotate, body := doSecOtpRotate }
def execSecOtpRotate (c : Cmd) (s : State) : Host.Outcome State Fault Refusal := s.submit specSecOtpRotate c

/-- R518. A rotation that the loss of power cuts short leaves its slot DAMAGED or ACTIVE (R528). -/
def evPowerOnReset (event : PowerOn) (s : State) : State :=
  let u := match event.rotation with
    | some (p, fuse) => (rotate p fuse s).st
    | none => s
  let t := u.deviceReset event.cause.val
  { t with pwr := { t.pwr with straps := event.straps.val } }
def execPowerOnReset (event : PowerOn) (s : State) : Host.Outcome State Fault Refusal :=
  guarded (.powerOnReset event) s (evPowerOnReset event s)

def doSecOtpRevoke (c : Cmd) (s : State) : Res :=
  let p := c.params
  let t := fld p 0 1
  match firstBad [(decide (t ≤ 2), 0), (decide (fld p 1 1 ≤ 2), 1)] with
  | some off => .bad off s
  | none =>
    if !s.authorised (fld p 1 1) 2 t (zeros 48) (slice p 4 97) (slice p 104 96) then .fail stNotAuth s
    else if (s.pwr.otp t).code ≠ 1 then .bad 0 s
    else if ((List.range 3).filter fun n => (s.pwr.otp n).isActive).length ≤ 1 then .fail stBusy s
    else .ok (s.mapPwr fun x => x.setOtp t { x.otp t with revoked := true })

def specSecOtpRevoke : OpSpec := { row := rowSecOtpRevoke, body := doSecOtpRevoke }
def execSecOtpRevoke (c : Cmd) (s : State) : Host.Outcome State Fault Refusal := s.submit specSecOtpRevoke c

/-! ## SEC_FW_STAGE -/

/-- The slot not booted. -/
def State.stageSlot (s : State) : Nat := 1 - s.pwr.slot

/-- A piece of the slot: blocks not yet written since offset 0 are erased first. The descriptor's 64 bytes stay erased. -/
def State.stageBytes (s : State) (off : Nat) (bs : List Byte) : State :=
  let base := slotBase s.stageSlot
  let done := if off = 0 then [] else s.pwr.stagedBlocks
  let touched := (cuts 65536 off bs.length).map fun c => c.1 / 65536
  let fresh := touched.filter fun b => !done.contains b
  let fl := fresh.foldl (fun (f : Mem) (b : Nat) => memErase f (base + 65536 * b) 65536) s.flash
  let skip := 64 - min 64 off
  let fl1 := memWrite 0xFF fl (base + off + min skip bs.length) (bs.drop skip)
  ({ s with flash := fl1 }).mapPwr fun p => { p with staged := some (off + bs.length), stagedBlocks := done ++ fresh }

def doSecFwStage (c : Cmd) (s : State) : Res :=
  let off := fld c.params 0 4
  let n := fld c.params 4 2
  let fits := off + n ≤ 0x400000
  let ascends := off = 0 || (match s.pwr.staged with | some e => decide (e ≤ off) | none => false)
  match firstBad [(ascends, 0), (1 ≤ n && n ≤ 1024, 4), (fits, 0)] with
  | some at_ => .bad at_ s
  | none => .ok (s.stageBytes off (slice c.params 8 n))

def specSecFwStage : OpSpec := { row := rowSecFwStage, body := doSecFwStage }
def execSecFwStage (c : Cmd) (s : State) : Host.Outcome State Fault Refusal := s.submit specSecFwStage c

/-- The descriptor of the staged slot, committed. -/
def State.commitSlot (s : State) : State :=
  let base := slotBase s.stageSlot
  let desc : List Byte := [0x53, 0x4C, 0x4F, 0x54] ++ leBytes 4 ((s.slotSeq s.pwr.slot + 1) % 2 ^ 32) ++ zeros 52
  { s with flash := memWrite 0xFF (memWrite 0xFF s.flash base desc) (base + 60) (zeros 4) }

/-! ## SEC_GET_IDENTITY, SEC_ATTEST (R532, R540) -/

def State.keyMask (s : State) : Nat := (s.pwr.cmdKeys.map fun e => 2 ^ e.1).sum

def doSecGetIdentity (_c : Cmd) (s : State) : Res :=
  .okWith (dieIdBytes ++ publicKey Config.identityScalar ++ zeros 3 ++ beBytes 4 Config.endorseId ++
    (List.range 96).map Config.endorsement ++ beBytes 1 s.keyMask ++ beBytes 1 s.pwr.otpWord ++ beBytes 2 s.pwr.signMask ++
    zeros 4) s

def specSecGetIdentity : OpSpec := { row := rowSecGetIdentity, body := doSecGetIdentity }
def execSecGetIdentity (c : Cmd) (s : State) : Host.Outcome State Fault Refusal := s.submit specSecGetIdentity c

/-- R532. -/
def State.configDigest (s : State) : List Byte :=
  sha384 ((s.snapshot.map fun r => leBytes 2 r.1 ++ leBytes 2 r.2.length ++ r.2).flatten)

def doSecAttest (c : Cmd) (s : State) : Res :=
  let p := s.pwr
  let report := beBytes 1 1 ++ beBytes 1 p.slot ++ beBytes 1 p.keySlot ++ beBytes 1 p.otpWord ++ beBytes 4 p.secVer ++ dieIdBytes ++
    beBytes 4 s.jrnl.bootCount ++ beBytes 4 p.minVersion ++ padTo 0 32 c.params ++ padTo 0 48 p.measure ++ s.configDigest ++
    beBytes 8 s.jrnl.lastSeq ++ beInstant s.nowInstant ++ zeros 4
  .okWith (report ++ ecdsaSign Config.identityScalar (Config.signNonce s.draws report) report) s

def specSecAttest : OpSpec := { row := rowSecAttest, body := doSecAttest }
def execSecAttest (c : Cmd) (s : State) : Host.Outcome State Fault Refusal := s.submit specSecAttest c

end Sys2Proof.Machine
end

