-- ==== Sys2Proof/Machine/Freran.lean ====
section
/-! DEFINITION. The Freran bus (R322 to R333, R340 to R343): links, forwarding, arming, collection windows, epochs. -/

namespace Sys2Proof.Machine

def State.mapFr (s : State) (f : FreranState → FreranState) : State := { s with fr := f s.fr }
def State.frPort (s : State) (p : Fin 2) : FreranPort := if p = 0 then s.fr.port0 else s.fr.port1
def State.setFrPort (s : State) (p : Fin 2) (v : FreranPort) : State :=
  s.mapFr fun f => if p = 0 then { f with port0 := v } else { f with port1 := v }

/-! ## Messages (R323) -/

structure FrMsg where
  kind : Nat
  origin : Nat
  hops : Nat
  seq : Nat
  a : Nat
  b : Nat
  c : Nat
  boot : Nat
  deriving DecidableEq, Repr

def FrMsg.bytes (m : FrMsg) : List Byte :=
  let head := beBytes 1 (16 + m.kind) ++ [0] ++ beBytes 1 m.origin ++ beBytes 1 m.hops ++ beBytes 4 m.seq ++ beBytes 4 m.a ++
    beBytes 8 m.b ++ beBytes 8 m.c ++ beBytes 2 m.boot ++ [0, 0]
  head ++ beBytes 4 (crc32c head)

def frParse (b : List Byte) : Option FrMsg :=
  if b.length ≠ 36 || fld b 0 1 / 16 ≠ 1 || fld b 32 4 ≠ crc32c (b.take 32) then none
  else some { kind := fld b 0 1 % 16, origin := fld b 2 1, hops := fld b 3 1, seq := fld b 4 4, a := fld b 8 4, b := fld b 12 8,
              c := fld b 20 8, boot := fld b 28 2 }

/-- The device's next message of its own. -/
def State.frOwn (s : State) (kind a b c : Nat) : FrMsg :=
  { kind := kind, origin := s.fr.node, hops := 255, seq := s.fr.seq, a := a, b := b % 2 ^ 64, c := c % 2 ^ 64, boot := s.fr.boot }

def State.frCounted (s : State) : State := s.mapFr fun f => { f with seq := (f.seq + 1) % 2 ^ 32 }

/-- A message of the device's own leaves by every port that is UP. -/
def State.frSend (s : State) (kind a b c : Nat) : State :=
  let bytes := (s.frOwn kind a b c).bytes
  let s1 := if s.fr.port0.up then s.emit (.freran 0 bytes) else s
  (if s.fr.port1.up then s1.emit (.freran 1 bytes) else s1).frCounted

def State.frMaster (s : State) : Bool := s.fr.mode ≠ 0 && s.fr.node = s.fr.master

/-! ## Arming and windows (R327 to R332) -/

/-- ARM(g), accepted or sent: at once, or after the commit of another generation's open window. In its own window the device
is armed, until it commits. -/
def State.frArm (s : State) (g : Nat) : State :=
  s.mapFr fun f => if f.windows.all (·.1 = g) then { f with gen := g, armed := true } else { f with armNext := some g }

def State.frDisarm (s : State) (g : Nat) : State :=
  s.mapFr fun f => { f with armed := f.armed && f.gen ≠ g, armNext := if f.armNext = some g then none else f.armNext }

/-- A FIRE enters the window of its generation, which it opens if it is the first. -/
def State.frCollect (s : State) (g : Nat) (x : Fire) : State :=
  s.mapFr fun f =>
    if f.windows.any (·.1 = g) then
      { f with windows := f.windows.map fun (w : Nat × Nat × List Fire) => if w.1 = g then (w.1, w.2.1, w.2.2 ++ [x]) else w }
    else { f with windows := f.windows ++ [(g, s.ns, [x])] }

/-- R328: the consumer "Freran fire". -/
def State.frFire (s : State) (idx : Nat) (at_ : Nat) : State :=
  if s.fr.mode = 0 || !s.fr.armed || idx = noIndex then s.mapFr fun f => { f with suppressed := f.suppressed + 1 }
  else
    let g := s.fr.gen
    let b := if s.fr.mode = 2 then idx else ofSigned 64 ((s.now : Int) - at_)
    ((s.frSend 5 g b 0).mapFr fun f => { f with armed := false }).frCollect g ⟨s.fr.node, idx, at_⟩

/-- R329: which of two FIREs is the earlier. -/
def Fire.before (mode : Nat) (a b : Fire) : Bool :=
  if mode = 1 then a.instant < b.instant || (a.instant = b.instant && a.origin < b.origin)
  else a.index < b.index || (a.index = b.index && a.origin < b.origin)

/-- The device commits generation `g`. -/
def State.frCommit (s : State) (g : Nat) (fires : List Fire) : State :=
  match fires with
  | [] => s
  | x :: rest =>
    let best := rest.foldl (fun m y => if y.before s.fr.mode m then y else m) x
    let s1 := s.mapFr fun f => { f with
      windows := f.windows.filter (·.1 ≠ g), merged := f.merged + rest.length, lastFreeze := best.index, committed := some g,
      armed := f.armed && f.gen ≠ g,
      rearmAt := if s.frMaster && f.rearm then f.rearmAt ++ [(s.ns + f.rearmUs * 1000, g + 1)] else f.rearmAt }
    let s2 := match s1.fr.armNext with
      | some h => if s1.fr.windows.all (·.1 = h) then s1.mapFr fun f => { f with gen := h, armed := true, armNext := none } else s1
      | none => s1
    s2.raiseEvent 189 best.index g

/-- 2 × max_latency after its first FIRE a window closes. -/
def evFreranWindowClose (s : State) : State :=
  match s.fr.windows.find? fun w => w.2.1 * 65536 + 2 * s.fr.maxLatency ≤ s.ns * 65536 with
  | some w => s.frCommit w.1 w.2.2
  | none => s

def execFreranWindowClose (s : State) : Host.Outcome State Fault Refusal := guarded .freranWindowClose s (evFreranWindowClose s)

/-- R327: rearm_us after each commit of its own the master sends ARM for the next generation. -/
def evFreranRearm (s : State) : State :=
  match s.fr.rearmAt with
  | (t, g) :: rest =>
    if s.ns < t then s
    else
      let s1 := s.mapFr fun f => { f with rearmAt := rest }
      if s.frMaster && s.fr.rearm then (s1.frSend 3 g 0 0).frArm (g % 2 ^ 32) else s1
  | [] => s

def execFreranRearm (s : State) : Host.Outcome State Fault Refusal := guarded .freranRearm s (evFreranRearm s)

/-! ## Links (R325, R326) -/

/-- The link delay in use, time units. -/
def FreranPort.delay (p : FreranPort) : Int := if p.means = [] then 0 else roundHalfEven p.means.sum p.means.length

def State.frLink (s : State) (p : Fin 2) (up : Bool) : State :=
  let v := s.frPort p
  if v.up = up then s else (s.setFrPort p { v with up := up }).raise 188 (p.val * 256 + b2n up)

/-- R325: a timestamp at the balls, `phase` time units after the tick, at a resolution of 0.8 ns: the last whole 0.8 ns
before it (log entry 104). -/
def State.ballStamp (s : State) (phase : Nat) : Nat := (s.now + phase) * 5 / 262144 * 262144 / 5

/-- Every 1 ms an enabled port asks; an exchange that was not answered ends the run of valid ones. -/
def evFreranEchoSend (ask : FreranAsk) (s : State) : State :=
  let v := s.frPort ask.port
  if !v.enable || s.ns < v.sentAt + 1000000 then s
  else
    let t1 := s.ballStamp ask.phase % 2 ^ 64
    (((s.emit (.freran ask.port.val (s.frOwn 1 0 t1 0).bytes)).frCounted).setFrPort ask.port
      { v with asked := some t1, sentAt := s.ns, run := if v.asked.isSome then 0 else v.run })

def execFreranEchoSend (ask : FreranAsk) (s : State) : Host.Outcome State Fault Refusal :=
  guarded (.freranEchoSend ask) s (evFreranEchoSend ask s)

/-- R326: no valid message for 10 ms. -/
def evFreranLinkTimeout (port : Fin 2) (s : State) : State :=
  let v := s.frPort port
  if v.heardAt + 10000000 ≤ s.ns then (s.frLink port false).setFrPort port { v with up := false, run := 0, means := [], asked := none }
  else s

def execFreranLinkTimeout (port : Fin 2) (s : State) : Host.Outcome State Fault Refusal :=
  guarded (.freranLinkTimeout port) s (evFreranLinkTimeout port s)

/-- The partner's answer, at `t4`: one exchange. -/
def State.frEcho (s : State) (p : Fin 2) (m : FrMsg) (t4 : Nat) : State :=
  let v := s.frPort p
  if v.asked ≠ some m.b then s
  else
    let mean := roundHalfEven (toSigned 64 (ofSigned 64 ((t4 : Int) - m.b)) - toSigned 64 m.c) 2
    let s1 := s.setFrPort p { v with asked := none, means := (mean :: v.means).take 16, run := v.run + 1 }
    if 3 ≤ v.run + 1 then s1.frLink p true else s1

/-! ## Forwarded types (R324, R327, R329, R333) -/

/-- R303: samples of an epoch. -/
def State.epochSpan (s : State) : Nat := if s.qz.epochLen = 0 then s.dwell else s.qz.epochLen
def State.epochIndex (s : State) (e : Nat) : Nat := s.tile.start + e * s.epochSpan

/-- R333: an EPOCH against the device's own epoch. -/
def State.frCompare (s : State) (e index t : Nat) : State :=
  let own := s.epochIndex e
  let differ := own ≠ index
  let mine := match s.instantOfIndex own with | some x => x % 2 ^ 64 | none => 0
  let mapDiffer := s.qz.mapping.isSome && t ≠ 0 && mine ≠ t
  let s1 := s.mapFr fun f => { f with epochMismatch := f.epochMismatch + b2n differ, mapMismatch := f.mapMismatch + b2n mapDiffer }
  if differ || mapDiffer then s1.raiseEvent 190 own e else s1

/-- The epoch whose number has these low 32 bits: the one nearest to the device's next epoch, the lower of two. -/
def State.frEpochNumber (s : State) (a : Nat) : Nat :=
  let w := 2 ^ 32
  let up := s.qz.nextEpoch + (a + w - s.qz.nextEpoch % w) % w
  if w ≤ up && w / 2 ≤ up - s.qz.nextEpoch then up - w else up

def State.frEpoch (s : State) (m : FrMsg) : State :=
  let e := s.frEpochNumber m.a
  if s.schedLive && e < s.qz.nextEpoch then s.frCompare e m.b m.c
  else if s.fr.epochs.length < 4 then s.mapFr fun f => { f with epochs := f.epochs ++ [(e, m.b, m.c)] }
  else s

/-- The device's epoch `e` has occurred: EPOCHs that waited for it are compared, and the master sends its own. -/
def State.frOwnEpoch (s : State) (e : Nat) : State :=
  let due := s.fr.epochs.filter fun (x : Nat × Nat × Nat) => x.1 ≤ e
  let s1 := s.mapFr fun f => { f with epochs := f.epochs.filter fun (x : Nat × Nat × Nat) => e < x.1 }
  let s2 := due.foldl (fun u (x : Nat × Nat × Nat) => u.frCompare x.1 x.2.1 x.2.2) s1
  let idx := s.epochIndex e
  let t := match s.instantOfIndex idx with | some x => x % 2 ^ 64 | none => 0
  if s.frMaster then s2.frSend 6 (e % 2 ^ 32) idx t else s2

/-- R329, R331: a FIRE received at the instant `t`; `c` includes delay_in. -/
def State.frReceived (s : State) (m : FrMsg) (c : Int) (t : Nat) : State :=
  let s1 := if (s.fr.maxLatency : Int) < c then s.mapFr fun f => { f with slow := f.slow + 1 } else s
  let at_ : Int := (t : Int) - c - toSigned 64 m.b
  let idx := if s.fr.mode = 2 then m.b else if at_ < 0 then noIndex else s.indexOfInstant at_.toNat
  let x : Fire := ⟨m.origin, idx, at_⟩
  let g := m.a
  if s.fr.windows.any (·.1 = g) then s1.frCollect g x
  else if g < s.fr.gen then s1.mapFr fun f => { f with stale := f.stale + 1 }
  else if s.fr.committed = some g then s1.mapFr fun f => { f with late := f.late + 1 }
  else (if s.fr.gen < g then s1.frArm g else s1).frCollect g x

/-- What a device in small or large mode does with an accepted message. -/
def State.frAct (s : State) (m : FrMsg) (c : Int) (t : Nat) : State :=
  if s.fr.mode = 0 then s
  else
    match m.kind with
    | 3 => s.frArm m.a
    | 4 => s.frDisarm m.a
    | 5 => s.frReceived m c t
    | 6 => s.frEpoch m
    | _ => s

/-- R324: the residence of the next forwarded FIRE, time units, within its bounds. -/
def residence (n : Nat) : Nat := 304 * 65536 + Config.residenceRaw n % (196 * 65536 + 1)

/-- A message of a forwarded type: own, duplicate, or accepted; an accepted one leaves by the other port. -/
def State.frForwarded (s : State) (p : Fin 2) (m : FrMsg) (t : Nat) : State :=
  let last := kvGet 0 s.fr.origins m.origin
  let fresh := last = 0 || (last - 1) / 2 ^ 32 ≠ m.boot || serialAfter 32 m.seq ((last - 1) % 2 ^ 32)
  if m.origin = s.fr.node then s.mapFr fun f => { f with idConflicts := f.idConflicts + 1 }
  else if !fresh then s.mapFr fun f => { f with duplicates := f.duplicates + 1 }
  -- R327: it is discarded, and so is not forwarded
  else if s.fr.mode ≠ 0 && (m.kind = 3 || m.kind = 4) && m.origin ≠ s.fr.master then
    s.mapFr fun f => { f with notMaster := f.notMaster + 1 }
  else
    let s1 := s.mapFr fun f => { f with origins := kvSet 0 f.origins m.origin (m.seq + m.boot * 2 ^ 32 + 1) }
    let other : Fin 2 := if p = 0 then 1 else 0
    let v := s.frPort p
    let c : Int := if m.kind = 5 then toSigned 64 m.c + v.delay + v.asym else toSigned 64 m.c
    let out := { m with hops := m.hops - 1, c := if m.kind = 5 then ofSigned 64 (c + residence s.draws) else m.c }
    let s2 := if 0 < m.hops && (s.frPort other).up then
        (s1.emit (.freran other.val out.bytes)).draw
      else s1
    s2.frAct m c t

/-- A message arrives on an enabled port. R326: a port that is not UP takes part in exchanges only. -/
def evFreranMessageReceive (port : Fin 2) (message : FreranArrival) (s : State) : State :=
  let v := s.frPort port
  if !v.enable then s
  else
    match frParse message.bytes with
    | none => s.mapFr fun f => { f with rxErrors := f.rxErrors + 1 }
    | some m =>
      let s1 := s.setFrPort port { v with heardAt := s.ns }
      match m.kind with
      | 1 => ((s1.emit (.freran port.val (s1.frOwn 2 0 m.b (Config.freeNat s.draws 0)).bytes)).frCounted).draw
      | 2 => s1.frEcho port m (s.ballStamp message.phase)
      | _ => if v.up && 3 ≤ m.kind && m.kind ≤ 6 then s1.frForwarded port m (s.ballStamp message.phase) else s1

def execFreranMessageReceive (port : Fin 2) (message : FreranArrival) (s : State) : Host.Outcome State Fault Refusal :=
  guarded (.freranMessageReceive port message) s (evFreranMessageReceive port message s)

/-! ## Commands (R340 to R343) -/

def doFreranSetNode (c : Cmd) (s : State) : Res :=
  let p := c.params
  let mode := fld p 0 1
  match firstBad [(mode ≤ 2, 0), (mode ≠ 1 || fld p 1 1 ≤ 7, 1), (fld p 3 1 ≤ 1, 3), (65536 ≤ fld p 4 4, 4),
      (1 ≤ fld p 8 4 && fld p 8 4 ≤ 10000000, 8)] with
  | some off => .bad off s
  | none => .ok (s.mapFr fun f => { f with mode := mode, node := fld p 1 1, master := fld p 2 1, rearm := fld p 3 1 = 1,
                                           maxLatency := fld p 4 4, rearmUs := fld p 8 4 })

def specFreranSetNode : OpSpec := { row := rowFreranSetNode, body := doFreranSetNode, records := ownRecord 0x0370 }
def execFreranSetNode (c : Cmd) (s : State) : Host.Outcome State Fault Refusal := s.submit specFreranSetNode c

def doFreranSetPort (c : Cmd) (s : State) : Res :=
  let p := c.params
  match firstBad [(fld p 0 1 ≤ 1, 0), (fld p 1 1 ≤ 1, 1)] with
  | some off => .bad off s
  | none =>
    let n : Fin 2 := if fld p 0 1 = 0 then 0 else 1
    let v := s.frPort n
    let on := fld p 1 1 = 1
    -- a port that is set off is DOWN
    let s1 := if on then s else s.frLink n false
    let w := s1.frPort n
    .ok (s1.setFrPort n (if on then { w with enable := true, asym := sfld p 4 4, heardAt := if v.enable then v.heardAt else s.ns }
      else { w with enable := false, asym := sfld p 4 4, up := false, run := 0, asked := none, means := [] }))

def specFreranSetPort : OpSpec := { row := rowFreranSetPort, body := doFreranSetPort, records := ownRecord 0x0371 }
def execFreranSetPort (c : Cmd) (s : State) : Host.Outcome State Fault Refusal := s.submit specFreranSetPort c

def doFreranArm (c : Cmd) (s : State) : Res :=
  let p := c.params
  let action := fld p 0 1
  let g := fld p 4 4
  if !s.frMaster then .fail stBadParam s
  else if 1 < action then .bad 0 s
  else if action = 1 then (if g ≤ s.fr.gen then .bad 4 s else .ok ((s.frSend 3 g 0 0).frArm g))
  else .ok ((s.frSend 4 g 0 0).frDisarm g)

def specFreranArm : OpSpec := { row := rowFreranArm, body := doFreranArm }
def execFreranArm (c : Cmd) (s : State) : Host.Outcome State Fault Refusal := s.submit specFreranArm c

def doFreranGetStatus (_c : Cmd) (s : State) : Res :=
  let f := s.fr
  let st := if f.windows ≠ [] then 2 else b2n f.armed
  .okWith (beBytes 1 st ++ beBytes 1 (b2n f.port0.up + 2 * b2n f.port1.up) ++ zeros 2 ++ beBytes 4 f.gen ++
    beBytes 8 (ofSigned 64 f.port0.delay) ++ beBytes 8 (ofSigned 64 f.port1.delay) ++ beBytes 8 f.lastFreeze ++
    beCount 8 f.merged ++ beCount 8 f.late ++ beCount 8 f.stale ++ beCount 8 f.slow ++ beCount 8 f.suppressed ++
    beCount 8 f.duplicates ++ beCount 8 f.rxErrors ++ beCount 4 f.idConflicts ++ beCount 4 f.notMaster ++
    beCount 4 f.epochMismatch ++ beCount 4 f.mapMismatch) s

def specFreranGetStatus : OpSpec := { row := rowFreranGetStatus, body := doFreranGetStatus }
def execFreranGetStatus (c : Cmd) (s : State) : Host.Outcome State Fault Refusal := s.submit specFreranGetStatus c

end Sys2Proof.Machine
end

