-- ==== Sys2Proof/Machine/Events.lean ====
section
/-! DEFINITION. The event router: routes, delivery, busy inputs and overrun, and its commands (R370 to R381). -/

namespace Sys2Proof.Machine

def State.mapEr (s : State) (f : Router → Router) : State := { s with er := f s.er }

/-! ## Routes (R373, R374) -/

/-- The fixed links of an input; 0: none. -/
def fixedLinks (c : Nat) : List Nat :=
  if c < 64 then [1 + c % 16, 105 + (c + 63) % 64, 17 + c % 16, 33 + c % 8]
  else if c < 72 then [1 + (c - 64), 17 + (c - 64), 25 + (c - 64), 169]
  else if c = 72 then [9, 169, 17, 0]
  else if c = 73 then [187, 18, 33, 169]
  else if c = 74 then [10, 19, 169, 192]
  else if c = 75 then [11, 20, 0, 0]
  else if c = 76 then [12, 189, 21, 41]
  else if c = 77 then [13, 41, 42, 22]
  else if c < 94 then [14, 169, 23, 0]
  else if c = 94 then [15, 169, 24, 0]
  else if c = 95 then [16, 25, 33, 34]
  else if c < 112 then [1 + (c - 96), 193, 194, 195]
  else []

/-- By how many paths an event of producer `p` reaches input `c`. -/
def Router.paths (r : Router) (p c : Nat) : Nat :=
  if p = 0 then 0
  else if r.mode = 1 then b2n (kvGet 0 r.sel c = p)
  else ((fixedLinks c).zipIdx.filter fun (e : Nat × Nat) => e.1 = p && bit (kvGet 0 r.fixEn c) e.2).length

/-! ## Activation (R372, R377, R378) -/

/-- The boundary of an event dump without an index: placed once each channel has taken up the visit that it stands before. -/
def State.placed (s : State) (a : DumpAt) : Bool :=
  !s.schedLive || (List.range s.layout.channels).all fun c => decide (whenStart a.at_ c < s.nextTaken c)

/-- The input is busy. -/
def State.inputBusy (s : State) (c : Nat) : Bool :=
  if c < 64 then s.er.busy.contains c
  else if c < 72 then (s.pulse (c - 64)).busy
  else if c = 72 then
    64 ≤ (s.dump.scheduled.filter (·.counted)).length || s.dump.scheduled.any fun a => !a.counted && !s.placed a
  else if c = 73 then 16 ≤ s.filt.syncs.length
  else if 78 ≤ c && c ≤ 94 then s.er.busy.contains c
  else false

/-- R151, R233: the duration of a visit, in ns, at the step rate that the device has. -/
def State.visitNs (s : State) : Nat :=
  ceilDiv (s.visitLoad * s.dwell * 1000000000) (stepRate s.load.op + Config.stepSurplus s.load.op)

/-- R198 cause 3: a boundary in every channel; without an index, before the visit that each takes up next. Its dumps are done one
visit duration from now at the earliest (R379). -/
def State.eventDump (s : State) (index : Nat) : State :=
  let due := s.ns + s.visitNs
  if index ≠ noIndex then s.scheduleDump 0 s.layout.channels (.idx index) false due
  else if s.schedLive then s.scheduleDump 0 s.layout.channels (s.applyAt noIndex s.nextTaken) false due
  else s

/-- R372: the chains that an event swaps. -/
def State.enabledChains (s : State) : Nat := (s.liveChains.map fun e => 2 ^ e.1).sum

/-- R379: an event asks for the swap of a set, or of every enabled chain: it is done 1 us from now at the earliest. -/
def State.eventSwap (s : State) (c idx : Nat) : State :=
  let s1 := s.mapEr fun r => { r with busy := r.busy ++ [c] }
  if c < 94 then (s1.setBeamSet (c - 78) { s1.beamSet (c - 78) with doneAt := s.ns + 1000 }).swapBeam (c - 78) idx
  else (s1.mapFilt fun f => { f with doneAt := s.ns + 1000 }).swapFilters s.enabledChains idx

/-- R372: what an activation of each input does. -/
def State.activate (s : State) (c : Nat) (e : EventRec) : State :=
  if c < 64 then s.dmaStart c
  else if c < 72 then s.startPulse (c - 64)
  else if c = 72 then s.eventDump e.index
  else if c = 73 then s.decSync e.index
  else if c = 74 then s.mapCap fun k => k.arm e.index s.schedLive
  else if c = 75 then s.mapCap fun k => k.disarm e.index
  else if c = 76 then
    s.mapCap fun k => if e.index = noIndex then { k with noIndex := k.noIndex + 1 } else k.trigger ⟨e.index, 1, 0xFF, 0⟩ s.ns
  else if c = 77 then s.frFire e.index e.time.units
  else if c < 94 then
    if (s.beamSet (c - 78)).enable then s.eventSwap c e.index else s
  else if c = 94 then s.eventSwap c e.index
  else if c = 95 then s.takeSnapshot
  else if c < 112 then s.msix (c - 96)
  else s

/-- R377, R378: one event arrives at an input. Within 2 ns of the input's activation it is simultaneous with it. -/
def State.deliverTo (s : State) (c : Nat) (e : EventRec) : State :=
  let s1 := s.mapEr fun r => { r with ccount := kvBump r.ccount c 1 }
  let last := kvGet 0 s.er.lastAct c
  if (last ≠ 0 && s.ns + 1 < last + 2) || s.inputBusy c then
    s1.mapEr fun r => { r with covr := withBit r.covr c true }
  else
    (s1.mapEr fun r => { r with cact := withBit r.cact c true, lastAct := kvSet 0 r.lastAct c (s.ns + 1) }).activate c e

/-- An event reaches every input that takes it. -/
def State.deliver (s : State) (e : EventRec) : State :=
  (List.range 128).foldl (fun u c => (List.range (s.er.paths e.producer c)).foldl (fun v _ => v.deliverTo c e) u) s

/-- R377: an event raised at least 8 ns ago is delivered. Where several are on their way, which comes first is open, as
far as the 40 ns of the oldest allow. -/
def evEventDelivery (s : State) : State :=
  match s.er.raised with
  | [] => s
  | first :: rest =>
    if s.ns < first.at_ + 8 then s
    else
      let ready := first :: rest.filter fun e => e.at_ + 8 ≤ s.ns && e.at_ < first.at_ + 32
      let e := ready.getD (Config.freeNat s.draws 0 % ready.length) first
      (s.draw.mapEr fun r => { r with raised := r.raised.erase e }).deliver e

def execEventDelivery (s : State) : Host.Outcome State Fault Refusal := guarded .eventDelivery s (evEventDelivery s)

/-! ## Registers (R370, R373, R375) -/

/-- ER_SW_FIRE: bit n raises software event n with ER_SW_INDEX. -/
def evErSwFire (value : Nat) (s : State) : State :=
  (bitsOf 16 value).foldl (fun u n => u.raiseEvent (1 + n) s.er.swIndex 0) s

def execErSwFire (value : Nat) (s : State) : Host.Outcome State Fault Refusal := guarded (.erSwFire value) s (evErSwFire value s)

/-- ER_CFIRE: with GO, an event of producer 0 without an index goes to one input. -/
def evErCfire (value : Nat) (s : State) : State :=
  if bit value 7 then
    s.deliverTo (value % 128) { producer := 0, index := noIndex, arg := 0, suspect := s.suspect, late := false,
                                time := s.nowInstant, seq := 0, at_ := s.ns }
  else s

def execErCfire (value : Nat) (s : State) : Host.Outcome State Fault Refusal := guarded (.erCfire value) s (evErCfire value s)

/-- ER_MODE, ER_SEL and ER_FIX_EN, by offset within the block. -/
def evErConfigWrite (offset value : Nat) (s : State) : State :=
  if offset = 0 then s.mapEr fun r => { r with mode := value % 2 }
  else if offset % 8 = 0 && 0x1000 ≤ offset && offset < 0x1400 then
    s.mapEr fun r => { r with sel := kvSet 0 r.sel ((offset - 0x1000) / 8) (value % 256) }
  else if offset % 8 = 0 && 0x1400 ≤ offset && offset < 0x1800 then
    s.mapEr fun r => { r with fixEn := kvSet 0 r.fixEn ((offset - 0x1400) / 8) (value % 16) }
  else s

def execErConfigWrite (offset value : Nat) (s : State) : Host.Outcome State Fault Refusal :=
  guarded (.erConfigWrite offset value) s (evErConfigWrite offset value s)

/-! ## Commands (R380, R381) -/

def doEventSetRoute (c : Cmd) (s : State) : Res :=
  let i := fld c.params 0 1
  let f := fld c.params 2 1
  match firstBad [(decide (i ≤ 127), 0), (decide (f ≤ 15), 2)] with
  | some off => .bad off s
  | none =>
    let p := fld c.params 1 1
    .ok (s.mapEr fun r => { r with sel := kvSet 0 r.sel i p, fixEn := kvSet 0 r.fixEn i f,
                                   jRoutes := kvSet 0 r.jRoutes i (1 + p + 256 * f) })

def specEventSetRoute : OpSpec := { row := rowEventSetRoute, body := doEventSetRoute, records := ownRecord 0x0A01 }
def execEventSetRoute (c : Cmd) (s : State) : Host.Outcome State Fault Refusal := s.submit specEventSetRoute c

def doEventSetMode (c : Cmd) (s : State) : Res :=
  let m := fld c.params 0 1
  if m ≤ 1 then .ok (s.mapEr fun r => { r with mode := m, jMode := some m }) else .bad 0 s

def specEventSetMode : OpSpec := { row := rowEventSetMode, body := doEventSetMode, records := ownRecord 0x0A02 }
def execEventSetMode (c : Cmd) (s : State) : Host.Outcome State Fault Refusal := s.submit specEventSetMode c

def doEventFire (c : Cmd) (s : State) : Res :=
  let n := fld c.params 0 1
  if n ≤ 15 then .ok (s.raiseEvent (1 + n) (fld c.params 8 8) 0) else .bad 0 s

def specEventFire : OpSpec := { row := rowEventFire, body := doEventFire }
def execEventFire (c : Cmd) (s : State) : Host.Outcome State Fault Refusal := s.submit specEventFire c

def doEventSetQueue (c : Cmd) (s : State) : Res :=
  let q := fld c.params 2 2
  if s.queueOk q 6 && (q < 4096 || q = 0xFFFF) then
    let p := fld c.params 0 1
    .ok (s.mapEr fun r => { r with pqueue := kvSet 0xFFFF r.pqueue p q, jQueues := kvSet 0xFFFF r.jQueues p q })
  else .bad 2 s

def specEventSetQueue : OpSpec := { row := rowEventSetQueue, body := doEventSetQueue, records := ownRecord 0x0A04 }
def execEventSetQueue (c : Cmd) (s : State) : Host.Outcome State Fault Refusal := s.submit specEventSetQueue c

/-- R381: the bytes whose CRC-32C stands for the live configuration. -/
def Router.configBytes (r : Router) : List Byte :=
  beBytes 1 r.mode ++ (List.range 128).map (fun c => BitVec.ofNat 8 (kvGet 0 r.sel c)) ++
  (List.range 128).map fun c => BitVec.ofNat 8 (kvGet 0 r.fixEn c)

def doEventGetStatus (c : Cmd) (s : State) : Res :=
  let p := fld c.params 0 1
  let i := fld c.params 1 1
  let r := s.er
  if 127 < i then .bad 1 s
  else .okWith (beBytes 1 r.mode ++ beBytes 1 (kvGet 0 r.sel i) ++ beBytes 1 (kvGet 0 r.fixEn i) ++
    beBytes 1 (b2n (bit r.pflag p) + 2 * b2n (bit r.cact i) + 4 * b2n (bit r.covr i)) ++
    beBytes 4 (crc32c r.configBytes) ++ beCount 8 (kvGet 0 r.pcount p) ++ beCount 8 (kvGet 0 r.ccount i) ++
    beCount 8 r.lost) s

def specEventGetStatus : OpSpec := { row := rowEventGetStatus, body := doEventGetStatus }
def execEventGetStatus (c : Cmd) (s : State) : Host.Outcome State Fault Refusal := s.submit specEventGetStatus c

end Sys2Proof.Machine
end

