-- ==== Sys2Proof/Machine/Memory.lean ====
section
/-! DEFINITION. The memory system's own events and read-only commands: error injection, the patrol scrubber, REMAP,
MEM_GET_ERRORS, MEM_GET_STATS (R426, R444, R445, R448 to R450, R499). -/

namespace Sys2Proof.Machine

/-! ## Error injection (HC_INJ_CTRL, HC_INJ_ADDR) -/

/-- One word of a unit takes one more wrong bit. -/
def flipOne (bad w : Nat) : Nat :=
  if bit bad (w + 4) then bad
  else if bit bad w then withBit (withBit bad w false) (w + 4) true
  else withBit bad w true

/-- R444: a write to HC_INJ_ADDR makes the error that HC_INJ_CTRL selects, once. Which word and bit is open. -/
def evHcInjAddr (stack : Fin 4) (value : Nat) (s : State) : State :=
  let h := stack.val
  let a := value % 2 ^ 48
  let mode := (s.mem.hc h).injMode
  let s1 := s.bumpHc h fun c => { c with injAddr := a, injMode := 0 }
  let inside := 0x1000000000 ≤ a && a < 0x2800000000
  let unit := (a - 0x1000000000) / 32 * 32
  if !inside || stackOf unit ≠ h || !s.domainOn (76 + h) then s1
  else
    let w := Config.freeNat s.draws 0 % 4
    let bad := kvGet 0 s.mem.bad unit
    if mode = 1 then s1.draw.mapMem fun m => { m with bad := kvSet 0 m.bad unit (flipOne bad w) }
    else if mode = 2 then
      s1.draw.mapMem fun m => { m with bad := kvSet 0 m.bad unit (withBit (withBit bad w false) (w + 4) true) }
    else if mode = 3 then s1.bumpHc h fun c => { c with parity := kvBump c.parity unit 1 }
    else s1

def execHcInjAddr (stack : Fin 4) (value : Nat) (s : State) : Host.Outcome State Fault Refusal :=
  guarded (.hcInjAddr stack value) s (evHcInjAddr stack value s)

/-! ## The patrol scrubber (R445) -/

/-- Units of a stack. -/
abbrev stackUnits : Nat := 805306368

/-- The offset of unit `i` of a stack's pass: local pieces in order, pseudo-channels within them, units within those. -/
def scrubUnit (h i : Nat) : Nat :=
  let lp := i / 256
  let pc := 32 * h + i % 256 / 8
  let low := (pc ^^^ lp ^^^ (lp / 128) ^^^ (lp / 2 ^ 14)) % 128
  (lp * 128 + low) * 256 + i % 8 * 32

/-- R499: a scrub-corrected error at a row; the second within 7 days makes it a repair candidate. -/
def State.noteScrub (s : State) (unit : Nat) : State :=
  let key (e : Nat × Nat × Nat × Nat × Nat) : Bool :=
    e.1 = stackOf unit && e.2.1 = hbmPc unit % 32 && e.2.2.1 = hbmBank unit && e.2.2.2.1 = hbmLoc unit
  let now := s.now
  match s.spare.scrubSeen.find? key with
  | some e =>
    if now ≤ e.2.2.2.2 + 604800 * secUnits then s.addCandidate unit
    else
      let rest := s.spare.scrubSeen.filter fun x => !key x
      let seen := rest ++ [(stackOf unit, hbmPc unit % 32, hbmBank unit, hbmLoc unit, now)]
      { s with spare := { s.spare with scrubSeen := seen } }
  | none =>
    let seen := s.spare.scrubSeen ++ [(stackOf unit, hbmPc unit % 32, hbmBank unit, hbmLoc unit, now)]
    { s with spare := { s.spare with scrubSeen := seen } }

/-- One unit is read; its errors are corrected and logged. -/
def evScrubRead (stack : Fin 4) (s : State) : State :=
  let h := stack.val
  if !s.domainOn (76 + h) then s
  else
    let pos := (s.mem.hc h).scrubPos
    let unit := scrubUnit h pos
    let wrap := pos + 1 = stackUnits
    let s1 := (s.grant 15).bumpHc h fun c =>
      { c with reads := c.reads + 1, scrubPos := if wrap then 0 else pos + 1, scrubPasses := c.scrubPasses + b2n wrap }
    let (s2, ok) := s1.meetParity 15 unit false
    let bad := kvGet 0 s2.mem.bad unit
    let single := bad % 16
    let double := bad / 16 % 16
    if !ok then s2.errResp
    else if double ≠ 0 then
      ((s2.bumpHc h fun c => { c with ueCount := c.ueCount + 1 }).logMemErr 5 h (hbmPc unit % 32) 15 double false
        (0x1000000000 + unit)).addCandidate unit
    else if single = 0 then s2
    else
      let t := (s2.bumpHc h fun c => { c with ceCount := c.ceCount + (bitsOf 4 single).length }).countWrite unit
      ((t.mapMem fun m => { m with bad := kvSet 0 m.bad unit 0 }).logMemErr 4 h (hbmPc unit % 32) 15 single
        false (0x1000000000 + unit)).noteScrub unit

def execScrubRead (stack : Fin 4) (s : State) : Host.Outcome State Fault Refusal :=
  guarded (.scrubRead stack) s (evScrubRead stack s)

/-! ## REMAP (R426) -/

/-- A write to MX_CTRL: bit 0 sets REMAP, and nothing but a reset clears it. -/
def evMxCtrlRemap (value master : Nat) (s : State) : State :=
  let s1 := s.grant master
  if !s.coreMayWrite master then s1.errResp else s1.mapMem fun m => { m with remap := m.remap || bit value 0 }

def execMxCtrlRemap (value master : Nat) (s : State) : Host.Outcome State Fault Refusal :=
  guarded (.mxCtrlRemap value master) s (evMxCtrlRemap value master s)

/-! ## MEM_GET_ERRORS, MEM_GET_STATS (R450) -/

/-- R448's record in command byte order. -/
def MemErr.wire (e : MemErr) : List Byte :=
  beBytes 1 e.kind ++ beBytes 1 e.stack ++ beBytes 1 e.pc ++ beBytes 1 e.requester ++ beBytes 1 e.words ++
  beBytes 1 (b2n e.write) ++ zeros 2 ++ beBytes 8 e.addr ++ beInstant e.time ++ beBytes 4 e.seq

def MemState.sumHc (m : MemState) (f : HbmCtl → Nat) : Nat := f m.hc0 + f m.hc1 + f m.hc2 + f m.hc3

def doMemGetErrors (_c : Cmd) (s : State) : Res :=
  let m := s.mem
  .okWith (beCount 8 (m.sumHc (·.ceCount)) ++ beCount 8 (m.sumHc (·.ueCount) + m.sramUe) ++ beCount 8 (m.sumHc (·.parRetry)) ++
    beCount 8 (m.sumHc (·.parFail)) ++ beCount 8 m.decerrCount ++ beCount 8 m.errCount ++ beCount 8 m.logLost ++
    beBytes 1 m.errors.length ++ zeros 7 ++ (m.errors.map MemErr.wire).flatten) s

def specMemGetErrors : OpSpec := { row := rowMemGetErrors, body := doMemGetErrors }
def execMemGetErrors (c : Cmd) (s : State) : Host.Outcome State Fault Refusal := s.submit specMemGetErrors c

/-- Pieces in flight at the moment, at most the largest number so far: a matter of time (log entry 3). -/
def State.inflightNow (s : State) : Nat := Config.freeNat s.draws 0 % (s.mem.peak + 1)
/-- The largest WR_PEAK of a stack. -/
def HbmCtl.queuePeak (c : HbmCtl) : Nat := (c.wrPeak.map (·.2)).foldl max 0

def doMemGetStats (c : Cmd) (s : State) : Res :=
  let h := fld c.params 0 1
  let m := s.mem
  let k := m.hc h
  if 3 < h then .bad 0 s
  else .okWith (beBytes 8 (if m.hostMib = 0 then 0 else s.hostBase) ++ beBytes 4 m.hostMib ++ beBytes 2 s.inflightNow ++
    beBytes 2 m.peak ++ beCount 8 k.reads ++ beCount 8 k.writes ++ beCount 8 k.rmw ++ beCount 4 k.scrubPasses ++
    beBytes 1 k.queuePeak ++ zeros 3 ++
    ((List.range 10).map fun q => beCount 8 (kvGet 0 m.grants q)).flatten) s.draw

def specMemGetStats : OpSpec := { row := rowMemGetStats, body := doMemGetStats }
def execMemGetStats (c : Cmd) (s : State) : Host.Outcome State Fault Refusal := s.submit specMemGetStats c

end Sys2Proof.Machine
end

