-- ==== Sys2Proof/Machine/Csr.lean ====
section
/-! DEFINITION. CSR space (R12 to R14, R281, R400, R430, R468, R538): every register a bus master can read or write, and
PCIe inbound accesses (R428). -/

namespace Sys2Proof.Machine

/-- R430: the blocks, with an offset from the block's base. -/
inductive CsrBlock where
  | matrix (off : Nat)
  | own (off : Nat)
  | boot (off : Nat)
  | quartz (off : Nat)
  | router (off : Nat)
  | hbm (stack off : Nat)
  | rings (off : Nat)
  | dataPath
  | none
  deriving DecidableEq, Repr

/-- The block of an offset from 0x8000_0000. -/
def csrBlock (o : Nat) : CsrBlock :=
  if o < 0x1000 then .matrix o
  else if o < 0x2000 then .own (o - 0x1000)
  else if o < 0x3000 then .boot (o - 0x2000)
  else if o < 0x4000 then .quartz (o - 0x3000)
  else if 0x10000 ≤ o && o < 0x20000 then .router (o - 0x10000)
  else if 0x20000 ≤ o && o < 0x60000 then .hbm ((o - 0x20000) / 0x10000) ((o - 0x20000) % 0x10000)
  else if 0x1000000 ≤ o && o < 0x3000000 then .rings (o - 0x1000000)
  else if 0x4000000 ≤ o && o < 0x8000000 then .dataPath
  else .none

/-- The block and offset of an address. -/
def csrAt (addr : Nat) : CsrBlock := if 0x80000000 ≤ addr && addr < 0x90000000 then csrBlock (addr - 0x80000000) else .none

/-- Element of an array of 64-bit registers at `base`. -/
def regIndex (base n off : Nat) : Option Nat := if base ≤ off && off < base + 8 * n then some ((off - base) / 8) else none

/-! ## Reads -/

/-- Pieces of one requester in flight at the moment, at most its limit and those it was granted (log entry 3). -/
def State.requesterInflight (s : State) (m : Nat) : Nat :=
  Config.freeNat s.draws (2 + m) % (min (requesterLimit m) (kvGet 0 s.mem.grants m) + 1)

def State.readMatrix (s : State) (off : Nat) : Nat :=
  let m := s.mem
  match regIndex 0x100 16 off, regIndex 0x200 16 off with
  | some i, _ => requesterLimit i + s.requesterInflight i * 2 ^ 16
  | none, some i => kvGet 0 m.grants i
  | none, none =>
    if off = 0 then b2n m.remap
    else if off = 8 then s.inflightNow + m.peak * 2 ^ 16
    else if off = 0x10 then m.hostHi
    else if off = 0x18 then m.decerrAddr + m.decerrReq * 2 ^ 48 + b2n m.decerrWrite * 2 ^ 52 + b2n m.decerrValid * 2 ^ 63
    else if off = 0x20 then m.decerrCount
    else if off = 0x28 then m.errCount
    else if off = 0x30 then m.resetPieces
    else 0

def State.readOwn (s : State) (off : Nat) : Nat :=
  let o := s.own
  if off = 0 then
    (match o.owner with | some c => c.ep.val * 4 + (if c.ep = 0 then c.port else 0) * 2 ^ 16 | none => 0) + o.mode.code +
    o.gen * 2 ^ 32
  else if off = 8 then o.leaseMs + (if o.mode = .unowned then 0 else o.leaseLeft / 1000) * 2 ^ 32
  else 0

def State.readBoot (s : State) (off : Nat) : Nat :=
  let p := s.pwr
  let q := p.quiesce
  match regIndex 8 6 off, regIndex 0x100 96 off with
  | some w, _ => lfld p.measure (8 * w) 8
  | none, some d => let v := s.domain d; v.state.code + v.mode * 4 + v.fences * 2 ^ 32
  | none, none =>
    if off = 0 then p.phase + p.slot * 2 ^ 4 + p.keySlot * 2 ^ 6 + p.cause * 2 ^ 8 + p.fail * 2 ^ 16 + p.secVer * 2 ^ 32
    else if off = 0x38 then p.otpWord + p.minVersion * 2 ^ 8
    else if off = 0x40 then p.recAddr
    else if off = 0x58 then b2n q.active + 2 * b2n (q.ack ≠ .released) + 4 * b2n q.timeout + 8 * b2n q.pinLow
    else 0

def State.readQuartz (s : State) (off : Nat) : Nat :=
  let n := s.qz.snap
  if off = 0 then 2 * b2n n.valid + 4 * b2n n.suspect + 8 * b2n n.noMap + n.seq * 2 ^ 16
  else if off = 8 then n.sec
  else if off = 0x10 then n.ns + n.frac * 2 ^ 32
  else if off = 0x18 then n.index
  else if off = 0x20 then s.qzStatus
  else if off = 0x28 then s.qz.sticky
  else 0

/-- The 64 bits of a long flag word. -/
def wordOf (n w : Nat) : Nat := n / 2 ^ (64 * w) % 2 ^ 64

def State.readRouter (s : State) (off : Nat) : Nat :=
  let r := s.er
  match regIndex 0x1000 128 off, regIndex 0x1400 128 off, regIndex 0x2000 256 off, regIndex 0x2800 128 off,
      regIndex 0x3000 256 off with
  | some c, _, _, _, _ => kvGet 0 r.sel c
  | none, some c, _, _, _ => kvGet 0 r.fixEn c
  | none, none, some p, _, _ => kvGet 0 r.pcount p
  | none, none, none, some c, _ => kvGet 0 r.ccount c
  | none, none, none, none, some p => kvGet 0xFFFF r.pqueue p
  | none, none, none, none, none =>
    if off = 0 then r.mode
    else if off = 0x10 then r.swIndex
    else if off = 0x20 then r.lost
    else match regIndex 0x100 4 off, regIndex 0x140 2 off, regIndex 0x160 2 off with
      | some w, _, _ => wordOf r.pflag w
      | none, some w, _ => wordOf r.cact w
      | none, none, some w => wordOf r.covr w
      | none, none, none => 0

def State.readHbmCtl (s : State) (h off : Nat) : Nat :=
  let c := s.mem.hc h
  let d := (s.domain (76 + h)).state
  match regIndex 0x100 32 off with
  | some n =>
    -- queue entries at the moment are a matter of time (log entry 3); empty where no access has been made
    (if c.reads = 0 then 0 else Config.freeNat s.draws (32 + 2 * n) % 65) +
    Config.freeNat s.draws (33 + 2 * n) % (kvGet 0 c.wrPeak n + 1) * 2 ^ 8 + kvGet 0 c.wrPeak n * 2 ^ 16
  | none =>
    if off = 0 then b2n c.trained + 2 * b2n (d = .draining) + 4 * b2n (d = .off)
    else if off = 8 then c.ceCount
    else if off = 0x10 then c.ueCount
    else if off = 0x18 then c.parRetry
    else if off = 0x20 then c.parFail
    else if off = 0x28 then c.scrubPos
    else if off = 0x38 then c.injAddr
    else 0

def State.readRings (s : State) (off : Nat) : Nat :=
  if off = 0 then 4096 + 256 * 2 ^ 16
  else if off = 8 then s.ring.dbBad
  else if off = 0x10 then s.ring.recLost
  else if 0x10000 ≤ off && off < 0x50000 then
    let q := s.queue ((off - 0x10000) / 64)
    match off % 64 with
    | 0 => q.base | 8 => q.cfgWord | 0x10 => q.wb | 0x18 => q.prod | 0x20 => q.cons | 0x28 => q.coal | 0x30 => q.errWord
    | 0x38 => q.drops | _ => 0
  else if 0x60000 ≤ off && off < 0x64000 then
    let n := (off - 0x60000) / 64
    let c := s.dma n
    match off % 64 with
    | 0 => c.cfgWord | 8 => s.dcStatus n | 0x10 => c.descs | 0x18 => c.bytes | 0x20 => c.errs | _ => 0
  else 0

/-- R437, R515: the domain whose registers these are, PCIe for queues and DMA for channels; none: always served. -/
def csrDomain : CsrBlock → Option Nat
  | .rings o =>
    if (0x10000 ≤ o && o < 0x50000) || 0x1000000 ≤ o then some 85
    else if 0x60000 ≤ o && o < 0x64000 then some 94 else none
  | _ => none

def State.csrServed (s : State) (addr : Nat) : Bool :=
  match csrDomain (csrAt addr) with | some d => s.domainOn d | none => true

/-- R14: a read has no effect but its grant; what depends on timing or is not specified is drawn afresh. -/
def State.csrRead (s : State) (req addr : Nat) : State × Resp × Nat :=
  let s0 := s.grant req
  if 2 < req then (s0.decErr req addr false, .decerr, 0)
  else if addr % 8 ≠ 0 || !s.csrServed addr then (s0.errResp, .err, 0)
  else
    match csrAt addr with
    | .none => (s0.decErr req addr false, .decerr, 0)
    | .matrix o => (s0.draw, .ok, s.readMatrix o % 2 ^ 64)
    | .own o => (s0, .ok, s.readOwn o % 2 ^ 64)
    | .boot o => (s0, .ok, s.readBoot o % 2 ^ 64)
    | .quartz o => (s0, .ok, s.readQuartz o % 2 ^ 64)
    | .router o => (s0, .ok, s.readRouter o % 2 ^ 64)
    | .hbm h o => (s0.draw, .ok, s.readHbmCtl h o % 2 ^ 64)
    | .rings o => (s0.draw, .ok, s.readRings o % 2 ^ 64)
    | .dataPath => (s0.draw, .ok, Config.freeNat s.draws 0 % 2 ^ 64)

/-! ## Writes -/

/-- W1C on a word of a long flag register. -/
def clearWord (n w value : Nat) : Nat := (bitsOf 64 value).foldl (fun m b => withBit m (64 * w + b) false) n

def State.writeMatrix (s : State) (off value : Nat) : State :=
  if off = 0 then s.mapMem fun m => { m with remap := m.remap || bit value 0 }
  else if off = 0x10 then s.mapMem fun m => { m with hostHi := value % 2 ^ 24 }
  else if off = 0x18 then s.mapMem fun m => { m with decerrValid := m.decerrValid && !bit value 63 }
  else s

def State.writeBoot (s : State) (off value : Nat) : State :=
  if off = 0x40 then (if s.pwr.phase = 5 then s.mapPwr fun p => { p with recAddr := value % 2 ^ 22 } else s)
  else if off = 0x48 then evBtRecData value s
  else if off = 0x50 then evBtRecGo value s
  else if off = 0x58 then
    s.mapPwr fun p => let q := { p.quiesce with timeout := p.quiesce.timeout && !bit value 2 }; { p with quiesce := q }
  else s

def State.writeQuartz (s : State) (off value : Nat) : State :=
  if off = 0 then evQzSnapTake value s
  else if off = 0x28 then
    -- a bit stands while its cause does
    s.mapQz fun q => { q with sticky := (bitsOf 5 value).foldl (fun m b => withBit m b (bit q.causes b)) q.sticky }
  else s

def State.writeRouter (s : State) (off value : Nat) : State :=
  if off = 8 then evErSwFire value s
  else if off = 0x10 then s.mapEr fun r => { r with swIndex := value % 2 ^ 64 }
  else if off = 0x18 then evErCfire value s
  else match regIndex 0x100 4 off, regIndex 0x140 2 off, regIndex 0x160 2 off, regIndex 0x3000 256 off with
    | some w, _, _, _ => s.mapEr fun r => { r with pflag := clearWord r.pflag w value }
    | none, some w, _, _ => s.mapEr fun r => { r with cact := clearWord r.cact w value }
    | none, none, some w, _ => s.mapEr fun r => { r with covr := clearWord r.covr w value }
    | none, none, none, some p => s.mapEr fun r => { r with pqueue := kvSet 0xFFFF r.pqueue p (value % 65536) }
    | none, none, none, none => evErConfigWrite off value s

def State.writeHbmCtl (s : State) (h off value : Nat) : State :=
  if off = 0x30 then (if value % 4 = 0 then s else s.bumpHc h fun c => { c with injMode := value % 4 })
  else if off = 0x38 then evHcInjAddr (if h = 0 then 0 else if h = 1 then 1 else if h = 2 then 2 else 3) value s
  else s

def State.writeRings (s : State) (off value : Nat) : State :=
  if 0x1000000 ≤ off then (if off % 4096 = 0 then evRqDb ((off - 0x1000000) / 4096) value s else s)
  else if 0x10000 ≤ off && off < 0x50000 then
    let n := (off - 0x10000) / 64
    let q := s.queue n
    let open_ := n < 8 && !q.enable
    match off % 64 with
    | 0 => if open_ then s.setQueue n { q with base := value % 2 ^ 48 } else s
    | 8 => evRqCfgEnable n value s
    | 0x10 => if open_ then s.setQueue n { q with wb := value % 2 ^ 48 } else s
    | 0x28 => if open_ then s.setQueue n { q with coal := value % 65536 } else s
    | 0x30 => s.setQueue n { q with dbBad := q.dbBad && !bit value 0, accessErr := q.accessErr && !bit value 1 }
    | _ => s
  else s

/-- The effect of a write that reaches its register. What a data-path CSR does to the products is open (R424). -/
def State.writeReg (s : State) (addr value : Nat) : State :=
  match csrAt addr with
  | .matrix off => s.writeMatrix off value
  | .boot off => s.writeBoot off value
  | .quartz off => s.writeQuartz off value
  | .router off => s.writeRouter off value
  | .hbm h off => s.writeHbmCtl h off value
  | .rings off => s.writeRings off value
  | .dataPath => { s.draw with stg := { s.stg with touched := some s.draws } }
  | .own _ | .none => s

/-- A write of 8 bytes by a bus master. -/
def State.csrStore (s : State) (req addr value : Nat) : State × Resp :=
  let s0 := s.grant req
  if 2 < req then (s0.decErr req addr true, .decerr)
  else if addr % 8 ≠ 0 || !s.coreMayWrite req then (s0.errResp, .err)
  else if csrAt addr = .none then (s0.decErr req addr true, .decerr)
  else if !s.csrServed addr then (s0.errResp, .err)
  else (s0.writeReg addr (value % 2 ^ 64), .ok)

def evCsrWrite (addr value master : Nat) (s : State) : State := (s.csrStore master addr value).1

def execCsrWrite (addr value master : Nat) (s : State) : Host.Outcome State Fault Refusal :=
  guarded (.csrWrite addr value master) s (evCsrWrite addr value master s)

/-! ## PCIe inbound (R428) -/

/-- R527: in RECOVERY only the boot status block is served. -/
def State.inboundBoot (s : State) (addr : Nat) : Bool :=
  s.pwr.phase ≠ 5 || (match csrAt addr with | .boot _ => true | _ => false)

/-- The reply to an inbound read: data, Unsupported Request or Completer Abort. -/
def State.completeRead (s : State) (r : Resp) (data : List Byte) : State :=
  match r with
  | .ok => s.emit (.readData data)
  | .err => s.emit .readAbort
  | .decerr => s.emit .readUnsupported

def evPcieInboundRead (place : BarPlace) (len : Nat) (s : State) : State :=
  let addr := place.bar.address place.off
  if !s.linkUp then s
  else
    match place.bar with
    | .csr =>
      if !s.inboundBoot addr || len ≠ 8 then ((s.grant 2).errResp).completeRead .err []
      else let (s1, r, v) := s.csrRead 2 addr; s1.completeRead r (leBytes 8 v)
    | .hbm =>
      if s.pwr.phase = 5 then ((s.grant 2).errResp).completeRead .err []
      else
        let x := s.readRange 2 addr len
        x.st.completeRead (match x.fail with | some (_, r) => r | none => .ok) x.data

def execPcieInboundRead (place : BarPlace) (len : Nat) (s : State) : Host.Outcome State Fault Refusal :=
  guarded (.pcieInboundRead place len) s (evPcieInboundRead place len s)

/-- A write error is dropped, and counted in MX_ERR_COUNT. -/
def evPcieInboundWrite (place : BarPlace) (data : List Byte) (s : State) : State :=
  let addr := place.bar.address place.off
  if !s.linkUp then s
  else
    match place.bar with
    | .csr =>
      if !s.inboundBoot addr || data.length ≠ 8 then (s.grant 2).errResp else (s.csrStore 2 addr (leNat data)).1
    | .hbm =>
      if s.pwr.phase = 5 then (s.grant 2).errResp
      else (cuts 256 addr data.length).foldl (fun u c => u.inboundPiece c.1 (slice data (c.1 - addr) c.2)) s

def execPcieInboundWrite (place : BarPlace) (data : List Byte) (s : State) : Host.Outcome State Fault Refusal :=
  guarded (.pcieInboundWrite place data) s (evPcieInboundWrite place data s)

end Sys2Proof.Machine
end

