-- ==== Sys2Proof/Machine/Device.lean ====
section
/-! DEFINITION. The device-wide commands and the diagnostics that access registers and memory (R413 to R423). -/

namespace Sys2Proof.Machine

/-! ## Identity and status (R413 to R415, R419) -/

/-- Tiles that neither back a slot nor are retired. -/
def State.spareTiles (s : State) : Nat :=
  ((List.range 272).filter fun t => (s.tileInfo t).mode = .ready || (s.tileInfo t).mode = .testing).length

/-- "KY-9600", zero-padded. -/
def partName : List Byte := [0x4B, 0x59, 0x2D, 0x39, 0x36, 0x30, 0x30] ++ zeros 9

def doDevGetInfo (_c : Cmd) (s : State) : Res :=
  .okWith (partName ++ beBytes 2 (Config.version 0) ++ beBytes 2 (Config.version 1) ++ dieIdBytes ++
    beBytes 4 s.pwr.beynanVer ++ beBytes 4 (Config.version 2) ++ beBytes 1 s.activeId.val ++ [3] ++ beBytes 2 1280 ++
    beBytes 2 272 ++ beBytes 2 s.spareTiles ++ [4, 80] ++ zeros 2 ++ beBytes 8 103079215104 ++ beBytes 1 s.pwr.pcieGen ++
    beBytes 1 s.pwr.pcieWidth ++ zeros 2 ++ beBytes 4 s.jrnl.bootCount ++ padTo 0 32 s.dev.label) s

def specDevGetInfo : OpSpec := { row := rowDevGetInfo, body := doDevGetInfo }
def execDevGetInfo (c : Cmd) (s : State) : Host.Outcome State Fault Refusal := s.submit specDevGetInfo c

/-- Configured ports in a state that satisfies `f`. -/
def State.portsIn (s : State) (f : Nat → Bool) : Nat :=
  ((List.range 80).filter fun p => (s.portCfg p).isSome && f (s.portAt p).state).length

def doDevGetStatus (_c : Cmd) (s : State) : Res :=
  let q := s.qz
  let fenced := q.r0.fenced || q.r1.fenced || q.r2.fenced
  let o := s.own
  let ep := match o.owner with | some c => c.ep.val | none => 0xFF
  let flags := b2n s.suspect + 2 * b2n q.mapping.isNone + 4 * b2n (!s.majority) + 8 * b2n fenced
  let gone := s.tile.slots.length - s.liveSlots.length
  let total := o.ep0.commands + o.ep1.commands + o.ep2.commands + o.ep3.commands
  .okWith (beBytes 1 s.tile.sched.code ++ beBytes 1 s.load.op ++ beBytes 1 (b2n s.load.shed) ++ beBytes 1 o.mode.code ++
    beBytes 1 ep ++ beBytes 1 q.disc ++ beBytes 1 flags ++ beBytes 1 s.activeId.val ++ beBytes 1 (b2n (!s.standbyReady)) ++
    beBytes 1 s.er.mode ++ beBytes 1 s.cap.mode.code ++ zeros 1 ++ beBytes 2 (s.portsIn (2 ≤ ·)) ++
    beBytes 2 (s.portsIn (· < 2)) ++ beBytes 2 gone ++ beBytes 2 s.spareTiles ++ beBytes 4 s.dev.sticky ++
    beInstant s.nowInstant ++ zeros 4 ++ beCount 8 s.load.unplanned ++ beCount 8 s.load.planned ++
    beCount 8 s.dump.visDiscarded ++ beCount 8 total) s

def specDevGetStatus : OpSpec := { row := rowDevGetStatus, body := doDevGetStatus }
def execDevGetStatus (c : Cmd) (s : State) : Host.Outcome State Fault Refusal := s.submit specDevGetStatus c

def Access.code : Access → Nat
  | .read => 0 | .owner => 1 | .claim => 2

def doDevQueryOpcode (c : Cmd) (s : State) : Res :=
  let op := fld c.params 0 2
  let v := fld c.params 2 1
  if v < 1 || 2 < v then .bad 2 s
  else
    match (if v = 1 then rowOfV1 (op % 256) else rowOf op) with
    | none => .okWith (zeros 16) s
    | some r =>
      let (lo, hi) := r.layout.lengths
      .okWith ([1] ++ beBytes 1 r.access.code ++ beBytes 1 r.v1 ++
        beBytes 1 (b2n r.tag.isSome + 2 * b2n (s.sigRequired r) + 4 * b2n r.accepted) ++ beBytes 2 r.code ++ beBytes 2 lo ++
        beBytes 2 hi ++ beBytes 2 r.replyMin ++ beBytes 2 r.replyMax ++ zeros 2) s

def specDevQueryOpcode : OpSpec := { row := rowDevQueryOpcode, body := doDevQueryOpcode }
def execDevQueryOpcode (c : Cmd) (s : State) : Host.Outcome State Fault Refusal := s.submit specDevQueryOpcode c

def doDevSetLabel (c : Cmd) (s : State) : Res :=
  let l := slice c.params 0 32
  .ok { s with dev := { s.dev with label := if l.all (· = 0) then [] else l } }

def specDevSetLabel : OpSpec := { row := rowDevSetLabel, body := doDevSetLabel, records := ownRecord 0x0120 }
def execDevSetLabel (c : Cmd) (s : State) : Host.Outcome State Fault Refusal := s.submit specDevSetLabel c

/-! ## Management ports (R417, R418) -/

/-- R417: a link-local or multicast address cannot be set. -/
def ipv6Settable (a : List Byte) : Bool := fld a 0 1 ≠ 0xFF && fld a 0 2 / 64 ≠ 0xFE80 / 64

def doDevSetMgmt (c : Cmd) (s : State) : Res :=
  let p := c.params
  let port := fld p 0 1
  let mode := fld p 1 1
  let mac := fld p 4 6
  match firstBad [(decide (port ≤ 1), 0), (decide (mode ≤ 2), 1), (decide (fld p 2 2 ≤ 4094), 2),
      (decide (mac / 2 ^ 40 % 2 = 0), 4), (ipv6Settable (slice p 16 16), 16)] with
  | some off => .bad off s
  | none =>
    let m := { s.mgmt port with mode := mode, vlan := fld p 2 2, mac := mac, ipv4 := fld p 12 4, ipv6 := fld p 16 16 }
    let t : State := { s with dev := { s.dev with next := some (port, m) } }
    .ok (if s.replaying then t.adoptMgmt else t)

def specDevSetMgmt : OpSpec := { row := rowDevSetMgmt, body := doDevSetMgmt, records := ownRecord 0x0110 }
def execDevSetMgmt (c : Cmd) (s : State) : Host.Outcome State Fault Refusal := s.submit specDevSetMgmt c

def doDevGetMgmt (c : Cmd) (s : State) : Res :=
  let p := fld c.params 0 1
  if 1 < p then .bad 0 s
  else
    let m := s.mgmt p
    let up := m.link && m.mode ≠ 0 && s.domainOn 86
    .okWith (beBytes 1 m.mode ++ beBytes 1 (b2n up) ++ beBytes 2 m.vlan ++ beBytes 6 (m.macInUse p) ++
      beBytes 6 (Config.factoryMac p) ++ beBytes 4 m.ipv4 ++ beBytes 16 m.ipv6 ++ linkLocal (m.macInUse p) ++ zeros 4 ++
      beCount 8 m.rxFrames ++ beCount 8 m.rxDiscard ++ beCount 8 m.txFrames ++ beCount 8 m.gapDrops) s

def specDevGetMgmt : OpSpec := { row := rowDevGetMgmt, body := doDevGetMgmt }
def execDevGetMgmt (c : Cmd) (s : State) : Host.Outcome State Fault Refusal := s.submit specDevGetMgmt c

/-! ## Diagnostics (R420, R422, R423) -/

def doDiagEcho (c : Cmd) (s : State) : Res := .okWith c.params s

def specDiagEcho : OpSpec := { row := rowDiagEcho, body := doDiagEcho }
def execDiagEcho (c : Cmd) (s : State) : Host.Outcome State Fault Refusal := s.submit specDiagEcho c

def Resp.code : Resp → Nat
  | .ok => 0 | .err => 1 | .decerr => 2

/-- The range rules of R422. -/
def badCsrRange (addr count : Nat) : Option Nat :=
  firstBad [(decide (addr % 8 = 0 ∧ 0x80000000 ≤ addr ∧ addr < 0x90000000), 0),
    (decide (1 ≤ count ∧ count ≤ 64), 8), (decide (addr + 8 * count ≤ 0x90000000), 0)]

/-- Consecutive registers, up to the first that is not answered OK. -/
def State.readRegs (s : State) (req addr : Nat) : Nat → State × Resp × List Nat
  | 0 => (s, .ok, [])
  | n + 1 =>
    let (s1, r, v) := s.csrRead req addr
    if r = .ok then
      let (s2, r2, vs) := s1.readRegs req (addr + 8) n
      (s2, r2, v :: vs)
    else (s1, r, [])

def doDiagReadCsr (c : Cmd) (s : State) : Res :=
  let addr := fld c.params 0 8
  let count := fld c.params 8 2
  match badCsrRange addr count with
  | some off => .bad off s
  | none =>
    let (t, r, vs) := s.readRegs s.activeId.val addr count
    .okWith (beBytes 1 r.code ++ beBytes 1 vs.length ++ zeros 6 ++ (vs.map (beBytes 8)).flatten) t

def specDiagReadCsr : OpSpec := { row := rowDiagReadCsr, body := doDiagReadCsr }
def execDiagReadCsr (c : Cmd) (s : State) : Host.Outcome State Fault Refusal := s.submit specDiagReadCsr c

/-- Consecutive registers are written, up to the first that is not answered OK; how many were. -/
def State.writeRegs (s : State) (req addr : Nat) : List Nat → State × Resp × Nat
  | [] => (s, .ok, 0)
  | v :: vs =>
    let (s1, r) := s.csrStore req addr v
    if r = .ok then
      let (s2, r2, n) := s1.writeRegs req (addr + 8) vs
      (s2, r2, n + 1)
    else (s1, r, 0)

def doDiagWriteCsr (c : Cmd) (s : State) : Res :=
  let addr := fld c.params 0 8
  let count := fld c.params 8 2
  match badCsrRange addr count with
  | some off => .bad off s
  | none =>
    let (t, r, n) := s.writeRegs s.activeId.val addr ((List.range count).map fun i => fld c.params (16 + 8 * i) 8)
    .okWith (beBytes 1 r.code ++ beBytes 1 n ++ zeros 6) t

def specDiagWriteCsr : OpSpec := { row := rowDiagWriteCsr, body := doDiagWriteCsr }
def execDiagWriteCsr (c : Cmd) (s : State) : Host.Outcome State Fault Refusal := s.submit specDiagWriteCsr c

/-- R423: a target of the address map, by number. -/
def targetKind (remap : Bool) (a : Nat) : Nat :=
  match decodeAddr remap a with
  | .rom _ => 1 | .sramLow _ => 2 | .sram _ => 3 | .csr _ => 4 | .staging _ => 5 | .flash _ => 6 | .hbm _ => 7 | .outbound _ => 8
  | .none => 0

def State.badMemRange (s : State) (addr len : Nat) : Option Nat :=
  let a := targetKind s.mem.remap addr
  let b := targetKind s.mem.remap (addr + max 1 (min len 1024) - 1)
  firstBad [(a ≠ 4 && a ≠ 8 && b ≠ 4 && b ≠ 8 && a = b, 0), (decide (1 ≤ len ∧ len ≤ 1024), 8)]

def doDiagReadMem (c : Cmd) (s : State) : Res :=
  let addr := fld c.params 0 8
  let len := fld c.params 8 2
  match s.badMemRange addr len with
  | some off => .bad off s
  | none =>
    let x := s.readRange s.activeId.val addr len
    let r := match x.fail with | some (_, r) => r | none => .ok
    .okWith (beBytes 1 r.code ++ zeros 1 ++ beBytes 2 x.data.length ++ zeros 4 ++ padTo 0 len x.data) x.st

def specDiagReadMem : OpSpec := { row := rowDiagReadMem, body := doDiagReadMem }
def execDiagReadMem (c : Cmd) (s : State) : Host.Outcome State Fault Refusal := s.submit specDiagReadMem c

def doDiagWriteMem (c : Cmd) (s : State) : Res :=
  let addr := fld c.params 0 8
  let len := fld c.params 8 2
  match s.badMemRange addr len with
  | some off => .bad off s
  | none =>
    let (t, f) := s.writeRange s.activeId.val addr (slice c.params 16 len)
    let (r, n) := match f with | some (o, r) => (r, o) | none => (.ok, len)
    .okWith (beBytes 1 r.code ++ zeros 1 ++ beBytes 2 n ++ zeros 4) t

def specDiagWriteMem : OpSpec := { row := rowDiagWriteMem, body := doDiagWriteMem }
def execDiagWriteMem (c : Cmd) (s : State) : Host.Outcome State Fault Refusal := s.submit specDiagWriteMem c

end Sys2Proof.Machine
end

