-- ==== Sys2Proof/Machine/Epochs.lean ====
section
/-! DEFINITION. EVT edges, epochs, the delay tables and the return of a majority (R293 to R295, R303, R304, R309, R319). -/

namespace Sys2Proof.Machine

/-! ## Delay tables (R304, R319) -/

/-- R319: entry `e` of the parameters. -/
def delayEntry (p : List Byte) (e : Nat) : DelayModel :=
  let o := 48 * e
  { valid := fld p (8 + o) 1 = 1, s0 := fld p (16 + o) 8, c0 := sfld p (24 + o) 8, c1 := sfld p (32 + o) 8,
    c2 := sfld p (40 + o) 8, c3 := sfld p (48 + o) 8 }

def doTimeLoadDelay (c : Cmd) (s : State) : Res :=
  let p := c.params
  let first := fld p 0 2
  let count := fld p 2 2
  match firstBad ([(decide (first < 4096), 0), (1 ≤ count && count ≤ 26, 2), (first + count ≤ 4096, 0)] ++
      (List.range count).map fun e => (decide (fld p (8 + 48 * e) 1 ≤ 1), 8 + 48 * e)) with
  | some off => .bad off s
  | none =>
    if s.schedPending s.qz.delay then .fail stBusy s
    else
      let table := (List.range count).foldl (fun t e => kvSet DelayModel.init t (first + e) (delayEntry p e)) s.qz.delayLoad
      .ok (s.mapQz fun q => { q with delayLoad := table })

def specTimeLoadDelay : OpSpec := { row := rowTimeLoadDelay, body := doTimeLoadDelay }
def execTimeLoadDelay (c : Cmd) (s : State) : Host.Outcome State Fault Refusal := s.submit specTimeLoadDelay c

/-- The first epoch at or after an index of the schedule. -/
def State.epochFrom (s : State) (idx : Nat) : Nat := s.epochIndex (ceilDiv (idx - s.tile.start) s.epochSpan)

def doTimeApplyDelay (c : Cmd) (s : State) : Res :=
  let idx := fld c.params 0 8
  let isEpoch := s.tile.start ≤ idx && (idx - s.tile.start) % s.epochSpan = 0
  if !s.schedLive then .ok (s.mapQz fun q => { q with delay := ⟨q.delayLoad, []⟩ })
  else if idx ≠ noIndex && !isEpoch then .bad 0 s
  else if s.indexPast idx then .fail stPast s
  else
    let w := s.applyAt idx fun ch => s.epochFrom (s.nextTaken ch)
    .ok (s.mapQz fun q => { q with delay := (dropPending q.delay s.takenPast).push w q.delayLoad })

def specTimeApplyDelay : OpSpec := { row := rowTimeApplyDelay, body := doTimeApplyDelay }
def execTimeApplyDelay (c : Cmd) (s : State) : Host.Outcome State Fault Refusal := s.submit specTimeApplyDelay c

/-! ## EVT edges (R294, R295) -/

/-- R295: the record of an edge, little-endian. -/
def State.evtRecord (s : State) (n : Nat) (rising : Bool) (v : EvtPin) (t : Nat) : List Byte :=
  let i := instantOf t
  leBytes 1 n ++ leBytes 1 (b2n rising + 2 * b2n s.suspect + 4 * b2n s.qz.mapping.isNone) ++
  leBytes 2 (min v.merged 0xFFFF) ++ leBytes 4 i.ns ++ leBytes 6 i.sec ++ leBytes 2 i.frac ++
  leBytes 8 (s.indexOfInstant t) ++ leBytes 4 v.seq ++ zeros 4

/-- A detected edge that is not merged: its record, where the pin has a queue, its event, and the detectors that watch the
pin. A record that a full queue drops has been produced: it is counted in seq and takes the merged edges with it (log
entry 104). -/
def State.evtDetected (s : State) (n : Nat) (rising : Bool) (t : Nat) : State :=
  let v := s.evtPin n
  let s2 := if v.queue = 0xFFFF then s.setEvtPin n { v with lastEdge := some t }
    else
      match (s.setEvtPin n { v with lastEdge := some t, merged := 0, seq := (v.seq + 1) % 2 ^ 32 }).pushOrDrop v.queue 6
          (s.evtRecord n rising v t) with
      | (u, true) => u
      | (u, false) => u.mapQz fun q => { q with lostRecords := q.lostRecords + 1 }
  (s2.raiseEvent (17 + n) (s.indexOfInstant t) v.merged (some (instantOf t))).offerEdge n rising (s.indexOfInstant t)

/-- The line of a pin changes. -/
def evEvtEdge (pin : Fin 16) (edge : LineEdge) (s : State) : State :=
  let n := pin.val
  let v := s.evtPin n
  if v.output || v.level = some edge.rising then s
  else
    let s1 := s.setEvtPin n { v with level := some edge.rising }
    if !bit v.edges (if edge.rising then 0 else 1) then s1
    else
      let t := s.stampAt edge.phase
      let near := match v.lastEdge with
        | some x => decide (x ≤ t ∧ t < x + 4 * 65536)
        | none => false
      if near then
        (s1.setEvtPin n { v with level := some edge.rising, lastEdge := some t, merged := v.merged + 1 }).mapQz fun q =>
          { q with lostEdges := q.lostEdges + 1 }
      else s1.evtDetected n edge.rising t

def execEvtEdge (pin : Fin 16) (edge : LineEdge) (s : State) : Host.Outcome State Fault Refusal :=
  guarded (.evtEdge pin edge) s (evEvtEdge pin edge s)

/-! ## Epochs (R303, R308, R309) -/

/-- The epoch of an index has been reached. -/
def State.epochReached (s : State) (idx : Nat) : Bool :=
  match s.qz.mapping with
  | some m => idx < noIndex && m.instant idx ≤ s.now
  | none => s.takenPast (.idx idx)

def evEpochEvent (s : State) : State :=
  let e := s.qz.nextEpoch
  let idx := s.epochIndex e
  if !s.schedLive || !s.majority || s.qz.held || !s.epochReached idx then s
  else ((s.mapQz fun q => { q with nextEpoch := e + 1 }).raiseEvent 169 idx e).frOwnEpoch e

def execEpochEvent (s : State) : Host.Outcome State Fault Refusal := guarded .epochEvent s (evEpochEvent s)

/-- The highest sample index that the present moment, or what Mica has taken up, lies at or beyond. -/
def State.reachedIndex (s : State) : Option Nat :=
  match s.qz.mapping with
  | some m =>
    match m.index s.now with
    | some i => if m.instant i = s.now then some i else if i = 0 then none else some (i - 1)
    | none => none
  | none =>
    (List.range s.layout.channels).foldl (fun (best : Option Nat) c =>
      let n := (s.chan c).stride
      let next := s.visitOfIndex (s.nextTaken c)
      if next < n then best
      else
        let x := s.firstIndex (next - n)
        some (match best with | some y => max x y | none => x)) none

/-- The epochs that passed while their events were held: one late event stands for them. -/
def State.lateEpoch (s : State) : State :=
  match s.reachedIndex with
  | none => s
  | some x =>
    if !s.schedLive || x < s.epochIndex s.qz.nextEpoch then s
    else
      let e := (x - s.tile.start) / s.epochSpan
      let missed := e - s.qz.nextEpoch
      let s1 := s.mapQz fun q => { q with nextEpoch := e + 1, lateEpochs := q.lateEpochs + missed }
      (s1.raiseEvent 169 (s.epochIndex e) missed none true).frOwnEpoch e

/-- R309: two in-vote replicas agree again, at the next advance of the seconds field, or through TIME_RESYNC. -/
def evMajorityReturn (s : State) : State :=
  if !s.qz.held || !s.majority || s.qz.heldSec = some (s.now / secUnits) then s
  else
    let s1 := s.mapQz fun q => { q with held := false, agreedAt := if q.agreedAt.isSome then q.agreedAt else some s.ns }
    (s1.skipPulses (s.now + 1)).lateEpoch

def execMajorityReturn (s : State) : Host.Outcome State Fault Refusal := guarded .majorityReturn s (evMajorityReturn s)

end Sys2Proof.Machine
end

