-- ==== Sys2Proof/Machine/Ptp.lean ====
section
/-! DEFINITION. IEEE 1588 (R285 to R289, R313): the ports, the selection of a slave, the exchanges that measure the offset,
and what master ports send. The manual names the standard and not its message layouts; these are the standard's (log entry 32). -/

namespace Sys2Proof.Machine

def PtpPortCfg.init : PtpPortCfg := {}
def State.ptpPort (s : State) (n : Nat) : PtpPortCfg := kvGet PtpPortCfg.init s.qz.ptp.ports n
def State.mapPtp (s : State) (f : PtpState → PtpState) : State := s.mapQz fun q => { q with ptp := f q.ptp }
def State.setPtpPort (s : State) (n : Nat) (v : PtpPortCfg) : State :=
  s.mapPtp fun p => { p with ports := kvSet PtpPortCfg.init p.ports n v }
def State.mapEx (s : State) (f : PtpExchange → PtpExchange) : State := s.mapPtp fun p => { p with ex := f p.ex }

/-- R313: the number of a port: its first lane, or 0x80, 0x81. -/
def portNumber : PtpPort → Nat
  | .lane p => p.val
  | .mgmt p => 128 + p.val

/-! ## Messages -/

/-- The clock identity: the EUI-64 of MGMT-A's factory address. -/
def clockIdentity : List Byte := beBytes 3 (Config.factoryMac 0 / 2 ^ 24) ++ [0xFF, 0xFE] ++ beBytes 3 (Config.factoryMac 0)

def portIdentity (n : Nat) : List Byte := clockIdentity ++ beBytes 2 (n + 1)

/-- A message as received. -/
structure PtpMsg where
  kind : Nat
  domain : Nat
  flags : Nat
  corr : Int
  source : List Byte
  seq : Nat
  body : List Byte
  deriving DecidableEq, Repr

def ptpParse (b : List Byte) : Option PtpMsg :=
  let len := fld b 2 2
  if b.length < 34 || len < 34 || b.length < len || fld b 1 1 % 16 ≠ 2 then none
  else some { kind := fld b 0 1 % 16, domain := fld b 4 1, flags := fld b 6 2, corr := sfld b 8 8, source := slice b 20 10,
              seq := fld b 30 2, body := slice b 34 (len - 34) }

/-- A timestamp of 10 bytes, in time units. -/
def ptpStamp (b : List Byte) (off : Nat) : Int := ((fld b off 6 * 1000000000 + fld b (off + 6) 4) * 65536 : Nat)

/-- The 10 bytes of an instant; its fraction goes into the correction field. -/
def ptpTime (units : Nat) : List Byte :=
  let t := instantOf units
  beBytes 6 t.sec ++ beBytes 4 t.ns

def controlField (kind : Nat) : Nat := if kind = 0 then 0 else if kind = 1 then 1 else if kind = 8 then 2 else if kind = 9 then 3 else 5

def State.ptpBytes (s : State) (n kind flags seq : Nat) (corr logInt : Int) (body : List Byte) : List Byte :=
  beBytes 1 kind ++ beBytes 1 (Config.ipField 5 % 16 * 16 + 2) ++ beBytes 2 (34 + body.length) ++ beBytes 1 s.qz.ptp.domain ++
  [0] ++ beBytes 2 flags ++ beBytes 8 (ofSigned 64 corr) ++ zeros 4 ++ portIdentity n ++ beBytes 2 seq ++
  beBytes 1 (controlField kind) ++ beBytes 1 (ofSigned 8 logInt) ++ body

/-- R285: what a port's messages leave with: its own MAC address, tag and IP addresses. -/
def State.ptpAddresses (s : State) (n : Nat) : Addresses :=
  if n < 80 then
    let v := s.inPort n
    { mac := v.mac, vlan := v.vlan, ipv4 := v.ipv4, ipv6 := if v.ipv6 = 0 then [] else [beBytes 16 v.ipv6] }
  else s.mgmtAddresses (n - 128)

/-- R288: the two bytes after an event message keep the checksum of the message without its timestamp correct. -/
def ptpTrailer (before after : List Byte) : List Byte :=
  beBytes 2 ((foldSum (wordSum before) + 65535 - foldSum (wordSum after)) % 65535)

/-- The frame of a message; `blank` is the message before its timestamp was inserted. -/
def State.ptpFrame (s : State) (n : Nat) (blank bytes : List Byte) : Frame :=
  let a := s.ptpAddresses n
  let kind := fld bytes 0 1 % 16
  let peer := kind = 2 || kind = 3 || kind = 10
  let event := kind < 4
  let udp := if event then 319 else 320
  let body := if event then bytes ++ ptpTrailer blank bytes else bytes
  let low := if peer then 0x6B else 0x81
  let tags := if a.vlan = 0 then [] else [a.vlan]
  match (s.ptpPort n).transport with
  | 0 =>
    let dst : List Byte := if peer then [224, 0, 0, 107] else [224, 0, 1, 129]
    udpFrame (groupMac dst) a.mac a.vlan (beBytes 4 a.ipv4) dst udp udp body
  | 1 =>
    let dst := if peer then beBytes 8 0xFF02000000000000 ++ beBytes 8 low else beBytes 8 0xFF0E000000000000 ++ beBytes 8 (0x100 + low)
    udpFrame (groupMac dst) a.mac a.vlan ((a.ipv6.getLast?).getD (linkLocal a.mac)) dst udp udp body
  | _ => { dst := if peer then 0x0180C200000E else 0x011B19000000, src := a.mac, tags := tags, etherType := 0x88F7, payload := bytes }

/-- R112: a serial port runs PTP only over a transport that it has an address for. -/
def State.ptpAddressed (s : State) (n : Nat) : Bool :=
  let v := s.inPort n
  let t := (s.ptpPort n).transport
  80 ≤ n || (t ≠ 0 || v.ipv4 ≠ 0) && (t ≠ 1 || v.ipv6 ≠ 0)

/-- The port can carry frames. -/
def State.ptpUp (s : State) (n : Nat) : Bool :=
  s.ptpAddressed n &&
  if n < 80 then (match s.portCfg n with | some c => !c.klp && 2 ≤ (s.portAt n).state | none => false)
  else (s.mgmt (n - 128)).link && (s.mgmt (n - 128)).mode ≠ 0

/-- R112: a serial port without a MAC address sends no PTP message. -/
def State.ptpMaySend (s : State) (n : Nat) : Bool := s.ptpUp n && (80 ≤ n || (s.inPort n).mac ≠ 0)

def State.sendPtp (s : State) (n : Nat) (blank bytes : List Byte) : State :=
  let f := s.ptpFrame n blank bytes
  if !s.ptpMaySend n then s else if n < 80 then s.sendOwn n f else s.sendMgmt (n - 128) f

/-- R287: latencies of a port in its present mode, with the host's trims. -/
def State.portMode (s : State) (n : Nat) : Nat :=
  if n < 80 then (match s.portCfg n with | some c => c.mode | none => 0) else (s.mgmt (n - 128)).mode
def State.latIn (s : State) (n : Nat) : Int := Config.ptpLatency (2 * n) (s.portMode n) + (s.ptpPort n).trimIn
def State.latOut (s : State) (n : Nat) : Int := Config.ptpLatency (2 * n + 1) (s.portMode n) + (s.ptpPort n).trimOut

/-! ## The best master -/

/-- An interval of 2^n seconds, ns. -/
def interval (n : Int) : Nat := if 0 ≤ n then 1000000000 * 2 ^ n.toNat else 1000000000 / 2 ^ (-n).toNat

/-- The comparison of two data sets: priority1, class, accuracy, variance, priority2, identity; of one grandmaster, by the
steps to it and then by who sends it. -/
def gmBetter (a b : ForeignMaster) : Bool :=
  let x := beNat a.data
  let y := beNat b.data
  if a.data.drop 6 = b.data.drop 6 then a.steps < b.steps || (a.steps = b.steps && beNat a.source < beNat b.source)
  else x < y

/-- IEEE 1588: at least two Announces within four intervals, and none overdue. -/
def ForeignMaster.qualified (f : ForeignMaster) (now step timeout : Nat) : Bool :=
  (match f.before with | some b => decide (f.at_ ≤ b + 4 * step) | none => false) && decide (now < f.at_ + timeout * step)

/-- The best qualified master that a candidate port hears. -/
def State.portBest (s : State) (n : Nat) : Option ForeignMaster :=
  let p := s.qz.ptp
  let v := s.ptpPort n
  if v.role ≠ 1 then none
  else
    (v.foreigners.filter fun f => f.qualified s.ns (interval p.logAnnounce) p.announceTimeout).foldl
      (fun (best : Option ForeignMaster) f => match best with
        | none => some f
        | some b => if gmBetter f b then some f else best) none

/-- R286: clockClass of the device's own data. -/
def State.ownClass (s : State) : Nat :=
  if s.suspect || s.qz.source.mode = 0 then 248
  else if s.qz.disc = 3 then 7
  else if s.qz.source.mode = 1 && s.qz.disc = 2 then 6 else 248

/-- The device's own data set, as a master would announce it. -/
def State.ownData (s : State) : ForeignMaster :=
  { source := clockIdentity ++ zeros 2, data := [128] ++ beBytes 1 s.ownClass ++ [0xFE, 0xFF, 0xFF, 128] ++ clockIdentity, steps := 0,
    at_ := 0 }

/-- The candidate whose master is best, if that is better than the device itself. A device of clockClass 127 or below is never a
slave: its candidates are PASSIVE where they hear a better master. -/
def State.bestPort (s : State) : Option (Nat × ForeignMaster) :=
  if s.ownClass < 128 then none
  else s.qz.ptp.ports.foldl (fun (best : Option (Nat × ForeignMaster)) (e : Nat × PtpPortCfg) =>
    match s.portBest e.1, best with
    | none, _ => best
    | some f, none => if gmBetter s.ownData f then none else some (e.1, f)
    | some f, some b => if gmBetter f b.2 then some (e.1, f) else best) none

/-- The slave port is selected anew, and the states of the candidates follow. -/
def State.selectSlave (s : State) : State :=
  let p := s.qz.ptp
  let best := s.bestPort
  let locked := s.qz.source.mode = 2 && s.qz.disc = 2
  let ports := p.ports.map fun (e : Nat × PtpPortCfg) =>
    let st := if e.2.role = 0 then 3 else if e.2.role = 2 then 6 else
      if some e.1 = best.map (·.1) then (if locked then 9 else 8) else if (s.portBest e.1).isSome then 7 else 4
    (e.1, { e.2 with portState := st })
  let same := best.map (·.1) = p.slave && (match best with | some x => x.2.data = p.gmData | none => p.gmData = [])
  s.mapPtp fun q => { q with
    slave := best.map (·.1), ports := ports, gmData := (best.map (·.2.data)).getD [], gmSteps := (best.map (·.2.steps)).getD 0,
    gmUtc := (best.map (·.2.utc)).getD 0, gmFlags := (best.map (·.2.flags)).getD 0, gmSource := (best.map (·.2.timeSource)).getD 0,
    grandmaster := (best.map fun x => x.2.data.drop 6).getD (zeros 8), ex := if same then q.ex else { syncAt := s.ns } }

/-- An Announce of the domain reaches a candidate port. -/
def State.announce (s : State) (n : Nat) (m : PtpMsg) : State :=
  let p := s.qz.ptp
  let v := s.ptpPort n
  let steps := fld m.body 27 2
  if m.body.length < 30 || 255 ≤ steps || bit m.flags 8 then s
  else
    let f : ForeignMaster :=
      { source := m.source, data := slice m.body 13 14, steps := steps, utc := fld m.body 10 2,
        flags := m.flags % 64, timeSource := fld m.body 29 1, at_ := s.ns,
        before := (v.foreigners.find? (·.source = m.source)).map (·.at_) }
    -- masters that are overdue are forgotten
    let others := v.foreigners.filter fun x =>
      x.source ≠ m.source && decide (s.ns < x.at_ + p.announceTimeout * interval p.logAnnounce)
    (s.setPtpPort n { v with foreigners := others ++ [f] }).selectSlave

/-! ## The offset (R287) -/

/-- L1Sync is up while the master's signals keep coming: three of the standard's default intervals of 1 s (log entry 32). -/
def State.l1Live (s : State) : Bool := s.qz.ptp.l1Up && decide (s.ns < s.qz.ptp.l1At + 3000000000)

/-- One measurement reaches the discipline; PTP that reaches LOCKED sets the time (R284). -/
def State.ptpMeasured (s : State) (n : Nat) : State :=
  let e := s.qz.ptp.ex
  match e.t1, e.t2 with
  | some t1, some t2 =>
    if !e.havePath || s.qz.source.mode ≠ 2 then s
    else
      let offset := (t2 - t1 - e.corrMs) - e.meanPath - (s.ptpPort n).asym
      let s1 := s.discipline offset s.l1Live
      (if s1.qz.disc = 2 && s.qz.disc ≠ 2 then s1.clearCause 0 else s1).selectSlave
  | _, _ => s

def State.ptpSync (s : State) (n : Nat) (m : PtpMsg) : State :=
  let t2 : Int := (s.now : Int) - s.latIn n
  if bit m.flags 9 then
    s.mapEx fun e => { e with syncAt := s.ns, t1 := none, t2 := some t2, corrMs := m.corr, wantFollow := some m.seq }
  else
    (s.mapEx fun e => { e with syncAt := s.ns, t1 := some (ptpStamp m.body 0), t2 := some t2, corrMs := m.corr,
                               wantFollow := none }).ptpMeasured n

def State.ptpFollowUp (s : State) (n : Nat) (m : PtpMsg) : State :=
  if s.qz.ptp.ex.wantFollow = some m.seq then
    (s.mapEx fun e => { e with t1 := some (ptpStamp m.body 0), corrMs := e.corrMs + m.corr, wantFollow := none }).ptpMeasured n
  else s

/-- t4 and c_sm arrive: the mean path delay of the delay request-response mechanism. -/
def State.ptpDelayResp (s : State) (n : Nat) (m : PtpMsg) : State :=
  let e := s.qz.ptp.ex
  match e.t1, e.t2, e.t3 with
  | some t1, some t2, some t3 =>
    if slice m.body 10 10 = portIdentity n && e.delaySeq = some m.seq then
      let mpd := roundHalfEven ((t2 - t1 - e.corrMs) + (ptpStamp m.body 0 - t3 - m.corr)) 2
      s.mapEx fun e => { e with meanPath := mpd, havePath := true, delaySeq := none }
    else s
  | _, _, _ => s

/-- A Pdelay_Resp: one-step gives the mean path delay at once, two-step awaits the follow-up. -/
def State.ptpPdelayResp (s : State) (n : Nat) (m : PtpMsg) : State :=
  let e := s.qz.ptp.ex
  let t4 : Int := (s.now : Int) - s.latIn n
  match e.t3 with
  | some t1 =>
    if slice m.body 10 10 = portIdentity n && e.delaySeq = some m.seq then
      if bit m.flags 9 then
        s.mapEx fun e => { e with peerT2 := some (ptpStamp m.body 0), peerT4 := some t4, peerCorr := m.corr }
      else
        s.mapEx fun e => { e with meanPath := roundHalfEven ((t4 - t1) - m.corr) 2, havePath := true, delaySeq := none }
    else s
  | none => s

def State.ptpPdelayFollow (s : State) (n : Nat) (m : PtpMsg) : State :=
  let e := s.qz.ptp.ex
  match e.t3, e.peerT2, e.peerT4 with
  | some t1, some t2, some t4 =>
    if slice m.body 10 10 = portIdentity n && e.delaySeq = some m.seq then
      let mpd := roundHalfEven ((t4 - t1) - (ptpStamp m.body 0 - t2) - (e.peerCorr + m.corr)) 2
      s.mapEx fun e => { e with meanPath := mpd, havePath := true, delaySeq := none, peerT2 := none, peerT4 := none }
    else s
  | _, _, _ => s

/-! ## Answers of a port (R286) -/

/-- Delay_Resp: the receive timestamp, its fraction taken off the correction field. -/
def State.answerDelay (s : State) (n : Nat) (m : PtpMsg) : State :=
  let t := ((s.now : Int) - s.latIn n).toNat
  let b := s.ptpBytes n 9 0 m.seq (m.corr - t % 65536) s.qz.ptp.logDelay (ptpTime t ++ m.source)
  s.sendPtp n b b

/-- A one-step Pdelay_Resp with the turnaround, a value of the device's own timing, in its correction field. -/
def State.answerPeer (s : State) (n : Nat) (m : PtpMsg) : State :=
  let body := zeros 10 ++ m.source
  let blank := s.ptpBytes n 3 0 m.seq m.corr 0x7F body
  let b := s.ptpBytes n 3 0 m.seq (m.corr + Config.freeNat s.draws 0) 0x7F body
  (s.sendPtp n blank b).draw

/-- L1Sync: the partner's TX, RX coherence and congruence, against the host's declaration; the partner's required bits are the
device's own (CONFIG_MATCH). -/
def State.ptpSignaling (s : State) (m : PtpMsg) : State :=
  let b := m.body.drop 10
  if s.qz.ptp.profile = 2 && fld b 0 2 = 0x8001 && 6 ≤ b.length then
    s.mapPtp fun p => { p with l1Up := p.syntonised && fld b 4 1 % 8 = 7 && fld b 5 1 % 8 = 7, l1At := s.ns }
  else s

/-- A PTP message of the domain reaches an enabled port. -/
def State.ptpMessage (s : State) (n : Nat) (m : PtpMsg) : State :=
  let v := s.ptpPort n
  let mine := s.qz.ptp.slave = some n && (match s.portBest n with | some f => f.source = m.source | none => false)
  let slave := v.role = 1 && s.qz.ptp.slave = some n
  match m.kind with
  | 0 => if mine then s.ptpSync n m else s
  | 1 => if v.role = 2 then s.answerDelay n m else s
  | 2 => if v.role = 2 || s.qz.ptp.profile = 1 then s.answerPeer n m else s
  | 3 => if slave then s.ptpPdelayResp n m else s
  | 8 => if mine then s.ptpFollowUp n m else s
  | 9 => if mine then s.ptpDelayResp n m else s
  | 10 => if slave then s.ptpPdelayFollow n m else s
  | 11 => if v.role = 1 then s.announce n m else s
  | 12 => if slave then s.ptpSignaling m else s
  | _ => s

/-- R289: PTP goes unanswered while Beynan does not serve. -/
def evPtpMessageReceive (port : PtpPort) (bytes : List Byte) (s : State) : State :=
  let n := portNumber port
  if (s.ptpPort n).role = 0 || !s.ptpUp n || !s.serving then s
  else
    match ptpParse bytes with
    | none => s
    | some m => if m.domain = s.qz.ptp.domain && m.source.take 8 ≠ clockIdentity then s.ptpMessage n m else s

def execPtpMessageReceive (port : PtpPort) (bytes : List Byte) (s : State) : Host.Outcome State Fault Refusal :=
  guarded (.ptpMessageReceive port bytes) s (evPtpMessageReceive port bytes s)

/-! ## What a port sends (R286) -/

/-- What an Announce carries. -/
structure AnnounceData where
  data : List Byte
  steps : Nat
  utc : Nat
  flags : Nat
  timeSource : Nat
  deriving DecidableEq, Repr

/-- The data set of an Announce: the selected grandmaster's, or the device's own. -/
def State.announceData (s : State) : AnnounceData :=
  let p := s.qz.ptp
  if s.qz.source.mode = 2 && s.qz.disc = 2 && p.slave.isSome then
    { data := p.gmData, steps := p.gmSteps + 1, utc := p.gmUtc, flags := p.gmFlags, timeSource := p.gmSource }
  else { data := s.ownData.data, steps := 0, utc := Config.ipField 6, flags := 8, timeSource := Config.ipField 7 }

/-- R286: the port's Sync, its Announce, the slave's delay request, or an L1Sync signal, has fallen due. -/
def State.ptpSend (s : State) (n : Nat) (kind : PtpSend) : State :=
  let v := s.ptpPort n
  let p := s.qz.ptp
  let t := ((s.now : Int) + s.latOut n).toNat
  match kind with
  | .sync =>
    if v.role ≠ 2 then s
    else
      let blank := s.ptpBytes n 0 0 v.seqSync 0 p.logSync (zeros 10)
      (s.sendPtp n blank (s.ptpBytes n 0 0 v.seqSync (t % 65536 : Nat) p.logSync (ptpTime t))).setPtpPort n
        { v with seqSync := (v.seqSync + 1) % 65536 }
  | .announce =>
    if v.role ≠ 2 then s
    else
      let a := s.announceData
      let body := ptpTime t ++ beBytes 2 a.utc ++ [0] ++ a.data ++ beBytes 2 a.steps ++ beBytes 1 a.timeSource
      let b := s.ptpBytes n 11 a.flags v.seqAnnounce 0 p.logAnnounce body
      (s.sendPtp n b b).setPtpPort n { v with seqAnnounce := (v.seqAnnounce + 1) % 65536 }
  | .delayRequest =>
    if p.slave ≠ some n then s
    else
      let peer := p.profile = 1
      let b := s.ptpBytes n (if peer then 2 else 1) 0 v.seqDelay 0 0x7F (zeros (if peer then 20 else 10))
      ((s.sendPtp n b b).setPtpPort n { v with seqDelay := (v.seqDelay + 1) % 65536 }).mapEx fun e =>
        { e with t3 := some t, delaySeq := some v.seqDelay, peerT2 := none, peerT4 := none }
  | .l1Sync =>
    if p.profile ≠ 2 then s
    else
      -- TX and RX coherent are always set, congruent as the host declares
      let tlv := beBytes 2 0x8001 ++ beBytes 2 2 ++ beBytes 1 7 ++ beBytes 1 (3 + 4 * b2n p.syntonised)
      let b := s.ptpBytes n 12 0 v.seqAnnounce 0 0x7F (List.replicate 10 0xFF ++ tlv)
      s.sendPtp n b b

def evPtpMessageSend (port : PtpPort) (kind : PtpSend) (s : State) : State :=
  let n := portNumber port
  if (s.ptpPort n).role = 0 || !s.ptpMaySend n || !s.serving then s else s.ptpSend n kind

def execPtpMessageSend (port : PtpPort) (kind : PtpSend) (s : State) : Host.Outcome State Fault Refusal :=
  guarded (.ptpMessageSend port kind) s (evPtpMessageSend port kind s)

/-- R283: the announce receipt timeout, or three Sync intervals with no Sync. A switchover alone causes neither (R289). -/
def evPtpHoldoverTimeout (s : State) : State :=
  let p := s.qz.ptp
  if s.mc.inGap || s.qz.source.mode ≠ 2 then s
  else
    match p.slave with
    | none => if p.ex.syncAt + 3 * interval p.logSync ≤ s.ns then s.setDisc 3 else s
    | some n =>
      if (s.portBest n).isNone then (s.setDisc 3).selectSlave
      else if p.ex.syncAt + 3 * interval p.logSync ≤ s.ns then (s.setDisc 3).selectSlave
      else s

def execPtpHoldoverTimeout (s : State) : Host.Outcome State Fault Refusal :=
  guarded .ptpHoldoverTimeout s (evPtpHoldoverTimeout s)

/-! ## Commands (R313) -/

def doTimeSetPtp (c : Cmd) (s : State) : Res :=
  let p := c.params
  let sync := sfld p 2 1
  let ann := sfld p 3 1
  let del := sfld p 4 1
  match firstBad [(fld p 0 1 ≤ 2, 0), (fld p 1 1 ≤ 127, 1), (decide (-7 ≤ sync ∧ sync ≤ 1), 2),
      (decide (-3 ≤ ann ∧ ann ≤ 3), 3), (decide (-7 ≤ del ∧ del ≤ 5), 4), (2 ≤ fld p 5 1 && fld p 5 1 ≤ 10, 5),
      (fld p 6 1 ≤ 1, 6)] with
  | some off => .bad off s
  | none =>
    .ok (s.mapPtp fun q => { q with profile := fld p 0 1, domain := fld p 1 1, logSync := sync, logAnnounce := ann,
                                    logDelay := del, announceTimeout := fld p 5 1, syntonised := fld p 6 1 = 1,
                                    l1Up := q.l1Up && fld p 0 1 = 2 && fld p 6 1 = 1 })

def specTimeSetPtp : OpSpec := { row := rowTimeSetPtp, body := doTimeSetPtp, records := ownRecord 0x0310 }
def execTimeSetPtp (c : Cmd) (s : State) : Host.Outcome State Fault Refusal := s.submit specTimeSetPtp c

/-- A port that can carry PTP: a management port, or an Ethernet port. -/
def State.ptpAble (s : State) (n : Nat) : Bool :=
  128 ≤ n || (match s.portCfg n with | some c => !c.klp | none => false)

def doTimeSetPtpPort (c : Cmd) (s : State) : Res :=
  let p := c.params
  let n := fld p 0 1
  let role := fld p 1 1
  match firstBad [(n ≤ 79 || n = 0x80 || n = 0x81, 0), (role ≤ 2, 1), (fld p 2 1 ≤ 2, 2)] with
  | some off => .bad off s
  | none =>
    let others := (s.qz.ptp.ports.filter fun (e : Nat × PtpPortCfg) => e.1 ≠ n && e.2.role ≠ 0).length
    if !s.ptpAble n || (role ≠ 0 && 16 ≤ others) then .fail stResource s
    else
      let v := s.ptpPort n
      .ok (s.setPtpPort n { v with role := role, transport := fld p 2 1, trimIn := sfld p 4 4, trimOut := sfld p 8 4,
                                   asym := sfld p 12 4, foreigners := if role = 1 then v.foreigners else [] }).selectSlave

def specTimeSetPtpPort : OpSpec := { row := rowTimeSetPtpPort, body := doTimeSetPtpPort, records := ownRecord 0x0311 }
def execTimeSetPtpPort (c : Cmd) (s : State) : Host.Outcome State Fault Refusal := s.submit specTimeSetPtpPort c

end Sys2Proof.Machine
end

