-- ==== Sys2Proof/Machine/Quiesce.lean ====
section
/-! DEFINITION. Quiesce (R533 to R537), PWR_QUIESCE and SEC_FW_ACTIVATE (R539). -/

namespace Sys2Proof.Machine

def State.mapQuiesce (s : State) (f : QuiesceState → QuiesceState) : State := s.mapPwr fun p => { p with quiesce := f p.quiesce }

/-! ## Step 1 -/

/-- The schedule stops as by CORR_STOP without an index. -/
def State.stopSchedule (s : State) : State :=
  if s.tile.sched ≠ .running then s else (s.mapTile fun t => { t with stop := some (s.stopIndex noIndex) }).tryStop

/-- Capture is disarmed; held segments that have not started their export are discarded, counted in ring_full. -/
def State.quietCapture (s : State) : State :=
  let waiting := s.cap.segs.filter fun x => x.mode ≠ .exporting
  let s1 := s.mapCap fun c => { c with mode := .disarmed, disarmAt := none, held := none, window := [] }
  waiting.foldl (fun u x => (u.mapCap fun c => { c with ringFull := c.ringFull + 1 }).releaseSegment x) s1

def State.disableChains (s : State) : State :=
  s.filt.chains.foldl (fun u e => u.setChain e.1 { u.chain e.1 with enable := ⟨false, []⟩, on := false }) s

/-! ## Start and end -/

def State.startQuiesce (s : State) (limitMs : Nat) : State :=
  let s1 := ((s.stopSchedule).quietCapture).disableChains
  ((s1.mapPwr fun p => { p with phase := 6 }).mapQuiesce fun q =>
    { q with active := true, step := 2, startedAt := s.ns, limitMs := limitMs, deferred := false })

/-- A request joins the quiesce in progress, starts one in SERVICE, and waits for SERVICE during boot. -/
def State.requestQuiesce (s : State) (limitMs : Nat) : State :=
  if s.pwr.phase = 4 then s.startQuiesce limitMs
  else if s.pwr.phase < 4 then s.mapQuiesce fun q => { q with deferred := true }
  else s

/-- R534, R536: SERVICE returns, QUIESCE_ACK_N is released, PD95 powers up. -/
def State.leaveQuiesce (s : State) : State :=
  let s1 := (s.mapPwr fun p => { p with phase := 4 }).mapQuiesce fun q =>
    { q with active := false, byPin := false, byCommand := false, leave := false, step := 0, ack := .released }
  (s1.emit (.pin "QUIESCE_ACK_N" 0 true s.now))

/-- R536: the pin, if it asked, is high again, and action 1 has come, if a command asked. -/
def QuiesceState.over (q : QuiesceState) : Bool := (!q.byPin || !q.pinLow) && (!q.byCommand || q.leave)

/-- Step 5. The engine is off from now on; a compaction in steps 1 or 5 is abandoned. -/
def State.enterQuiesced (s : State) : State :=
  let s1 := ((s.mapPwr fun p => { p with phase := 7 }).mapQuiesce fun q => { q with step := 5, ack := .low }).mapJrnl fun j =>
    { j with step := 0 }
  let s2 := (s1.emit (.pin "QUIESCE_ACK_N" 0 false s.now))
  let q := s2.pwr.quiesce
  if q.thenReset then s2.deviceReset 3
  else if !q.over then s2
  else if q.byPin then s2.mapQuiesce fun q => { q with ack := .pulse s.ns }
  else s2.leaveQuiesce

/-! ## Steps 2 to 5 -/

/-- Steps 2 and 3: every final dump made and sent, every export ended. -/
def State.drainedOut (s : State) : Bool :=
  !s.schedLive && s.stg.working.isNone && s.stg.inbox.isNone && (List.range s.layout.channels).all (fun c => !s.integEnds c) &&
  s.bas.collects = [] && s.dump.jobs = [] && s.cap.segs = []

/-- Every channel is told to stop at its descriptor boundary. -/
def State.stopChannels (s : State) : State :=
  s.ring.channels.foldl (fun u e =>
    let v := u.dma e.1
    if v.mode = .off || v.mode = .stopped || v.mode = .stopping then u
    else if v.running.isSome then u.setDma e.1 { v with mode := .stopping }
    else u.stopNow e.1) s

def State.channelsQuiet (s : State) : Bool := s.ring.channels.all fun e => e.2.mode = .off || e.2.mode = .stopped

/-- Step 4: no group waits, and no compaction is in its pause. -/
def State.journalQuiet (s : State) : Bool := s.jrnl.groups = [] && !(2 ≤ s.jrnl.step && s.jrnl.step ≤ 4)

/-- The quiesce goes as far as it can: to the end of step 2, through step 3, and into QUIESCED. -/
def evQuiesceDone (s : State) : State :=
  let q := s.pwr.quiesce
  if s.pwr.phase ≠ 6 then s
  else
    let s1 := if q.step = 2 && s.drainedOut then (s.stopChannels).mapQuiesce fun q => { q with step := 3 } else s
    let s2 := if s1.pwr.quiesce.step = 3 && s1.channelsQuiet then s1.mapQuiesce fun q => { q with step := 4 } else s1
    if s2.pwr.quiesce.step = 4 && s2.journalQuiet then s2.enterQuiesced else s2

def execQuiesceDone (s : State) : Host.Outcome State Fault Refusal := guarded .quiesceDone s (evQuiesceDone s)

/-- R536: the channels that are still stopping are cut where they stand, as in R467. -/
def State.cutChannels (s : State) : State :=
  s.ring.channels.foldl (fun u e => if (u.dma e.1).mode = .stopping then u.abortChannel e.1 else u) s

/-- What remains of steps 2 and 3 is abandoned: integrations and dumps not yet sent are gone, channels stand stopped. -/
def State.abandonDrain (s : State) : State :=
  let s1 := (s.stopChannels.cutChannels).mapDump fun d => { d with jobs := [], usedBytes := 0 }
  let s2 := s1.mapBas fun b => { b with integs := b.integs.map fun e => (e.1, e.2.idle (s1.leftValues e.2)), collects := [], lost := [], closes := [] }
  let keep (o : FrameOwner) : Bool := match o with
    | .dump _ _ _ => false
    | .segment _ => false
    | _ => true
  let txq := (s2.port.txq.map fun e => (e.1, e.2.filter fun f => keep f.1)).filter fun e => e.2 ≠ []
  let s3 := { s2 with port := { s2.port with txq := txq } }
  let s4 := s3.mapCap fun c => { c with segs := [] }
  let s5 := s4.mapStg fun g => { g with working := none, inbox := none, loading := none, bank0 := {}, bank1 := {} }
  s5.mapTile fun t => { t with sched := if t.layout.isSome then .loaded else .none }

/-- quiesce_ms has elapsed before step 5. -/
def evQuiesceTimeout (s : State) : State :=
  let q := s.pwr.quiesce
  if s.pwr.phase ≠ 6 || q.timeout && q.step = 4 || s.ns < q.startedAt + q.limitMs * 1000000 then s
  else
    let s1 := if q.step < 4 then s.abandonDrain else s
    s1.mapQuiesce fun q => { q with step := 4, timeout := true }

def execQuiesceTimeout (s : State) : Host.Outcome State Fault Refusal := guarded .quiesceTimeout s (evQuiesceTimeout s)

/-! ## The pins (R533, R536) -/

/-- QUIESCE_N has been low for 1 µs. -/
def evQuiescePinLow (s : State) : State :=
  (s.mapQuiesce fun q => { q with pinLow := true, byPin := s.pwr.phase ≠ 5 }).requestQuiesce s.pwr.quiesce.pinMs

def execQuiescePinLow (s : State) : Host.Outcome State Fault Refusal := guarded .quiescePinLow s (evQuiescePinLow s)

/-- QUIESCE_N rises: a pin quiesce that has reached QUIESCED ends, and one that waits for SERVICE does not start (R554). -/
def evQuiescePinHigh (s : State) : State :=
  let boot := s.pwr.phase < 4
  let s1 := s.mapQuiesce fun q => { q with pinLow := false, deferred := q.deferred && !boot, byPin := q.byPin && !boot }
  let q := s1.pwr.quiesce
  if s1.pwr.phase = 7 && q.ack = .low && q.over then s1.leaveQuiesce else s1

def execQuiescePinHigh (s : State) : Host.Outcome State Fault Refusal := guarded .quiescePinHigh s (evQuiescePinHigh s)

/-- The 10 µs of QUIESCE_ACK_N are over. -/
def evQuiesceAckPulseEnd (s : State) : State :=
  let q := s.pwr.quiesce
  match q.ack with
  | .pulse t =>
    if s.ns < t + 10000 then s
    else if q.over then s.leaveQuiesce
    else s.mapQuiesce fun q => { q with ack := .low }
  | _ => s

def execQuiesceAckPulseEnd (s : State) : Host.Outcome State Fault Refusal := guarded .quiesceAckPulseEnd s (evQuiesceAckPulseEnd s)

/-! ## PWR_QUIESCE, SEC_FW_ACTIVATE -/

def doPwrQuiesce (c : Cmd) (s : State) : Res :=
  let a := fld c.params 0 1
  let ms := fld c.params 4 4
  match firstBad [(decide (a ≤ 2), 0), (decide (100 ≤ ms && ms ≤ 60000), 4)] with
  | some off => .bad off s
  | none =>
    if a = 0 then .accepted ((s.mapQuiesce fun q => { q with byCommand := true }).requestQuiesce ms)
    else if a = 2 then .ok (s.mapQuiesce fun q => { q with pinMs := ms })
    else if !s.pwr.quiesce.active then .ok s
    else
      let s1 := s.mapQuiesce fun q => { q with leave := true }
      if s1.pwr.phase = 7 && s1.pwr.quiesce.ack = .low && s1.pwr.quiesce.over then .ok s1.leaveQuiesce else .ok s1

/-- Action 2 alone is journalled. -/
def quiesceRecords (c : Cmd) (_s : State) : List (Nat × List Byte) := if fld c.params 0 1 = 2 then [(0x0C20, c.params)] else []

def specPwrQuiesce : OpSpec := { row := rowPwrQuiesce, body := doPwrQuiesce, records := quiesceRecords }
def execPwrQuiesce (c : Cmd) (s : State) : Host.Outcome State Fault Refusal := s.submit specPwrQuiesce c

/-- The staged image is checked, its descriptor committed, and the device quiesces if asked and resets with cause 3. -/
def doSecFwActivate (c : Cmd) (s : State) : Res :=
  let f := fld c.params 0 1
  let i := s.slotImage s.stageSlot
  let verdict := s.pwr.imageFail i
  if 3 < f then .bad 0 s
  else if verdict = 3 || verdict = 4 || verdict = 5 then .fail stNotAuth s
  else if verdict ≠ 0 || s.pwr.staged.isNone then .fail stBadParam s
  else
    let s1 := (s.commitSlot).mapPwr fun p =>
      { p with staged := none, stagedBlocks := [], raiseMin := if bit f 1 then some i.measure else none }
    if bit f 0 then
      let s2 := s1.mapQuiesce fun q => { q with byCommand := true, thenReset := true }
      .accepted (s2.requestQuiesce s2.pwr.quiesce.pinMs)
    else .accepted (s1.mapPwr fun p => { p with fwReset := true })

def specSecFwActivate : OpSpec := { row := rowSecFwActivate, body := doSecFwActivate }
def execSecFwActivate (c : Cmd) (s : State) : Host.Outcome State Fault Refusal := s.submit specSecFwActivate c

end Sys2Proof.Machine
end

