-- ==== Sys2Proof/Machine/Transport.lean ====
section
/-! DEFINITION. Packets on the four endpoints: how they are read, stamped and answered; DIAG_BATCH; what lets waiting
commands go on: a journal commit, a domain that comes on, a new active core (R385, R387 to R389, R401, R411, R416, R421,
R429, R456, R479, R485, R503, R515, R517). -/

namespace Sys2Proof.Machine

/-! ## The commands by opcode -/

def specsAdmission : List OpSpec :=
  [specPwrSetOp, specPwrGetOp, specCorrSetShed, specCorrGetLoad, specCorrSetLayout, specCorrGetLayout, specCorrGetTiles,
   specBeamSetConfig, specCorrSetSplit, specCapSetRing, specMemSetHost]

def specsPorts : List OpSpec :=
  [specPortSetQuad, specPortSetLane, specPortSetKlp, specPortGetStatus, specPortGetLane, specPortEyeScan, specPortEyeRead]

def specsIngest : List OpSpec :=
  [specIngestSetPort, specIngestMcast, specIngestSetSource, specIngestLoadMap, specIngestApplyMap, specIngestLoadGain,
   specIngestApplyGain, specIngestSetTiming, specIngestGetPort, specIngestGetInput]

def specsStaging : List OpSpec :=
  [specCorrLoadCoarse, specCorrApplyCoarse, specCorrGetStaging, specCorrStart, specCorrStop]

def specsDumpCmds : List OpSpec :=
  [specCorrSetPreload, specCorrLoadFringe, specCorrSetRotation, specCorrSetCombine, specCorrGetAccum, specCorrSetDump,
   specCorrDumpAt, specCorrMapDest, specCorrGetDump, specCorrSetDest, specBeamSetDest, specCapSetDest]

def specsBeams : List OpSpec :=
  [specBeamApply, specBeamLoadWeights, specBeamLoadScale, specBeamGetSet]

def specsFilters : List OpSpec :=
  [specFiltSetChain, specFiltEnable, specFiltSync, specFiltLoadCoef, specFiltApply, specFiltGetChain]

def specsTime : List OpSpec :=
  [specTimeSetSource, specTimeSet, specTimeSetPulse, specTimeSetEvt, specTimeSetMapping, specTimeConvert, specTimeSetEpoch,
   specTimeResync, specTimeGetStatus]

def specsPtp : List OpSpec :=
  [specTimeSetPtp, specTimeSetPtpPort]

def specsFreran : List OpSpec :=
  [specFreranSetNode, specFreranSetPort, specFreranArm, specFreranGetStatus]

def specsCapture : List OpSpec :=
  [specCapSetSegment, specCapSetDetector, specCapArm, specCapTrigger, specCapGetStatus]

def specsEvents : List OpSpec :=
  [specEventSetRoute, specEventSetMode, specEventFire, specEventSetQueue, specEventGetStatus]

def specsOwnership : List OpSpec :=
  [specOwnClaim, specOwnRelease, specOwnKeepalive, specOwnHandover, specOwnSetLease, specOwnSetPolicy, specOwnGetChallenge,
   specOwnGetStatus]

def specsDevice : List OpSpec :=
  [specDevGetInfo, specDevGetStatus, specDevQueryOpcode, specDevSetLabel, specDevSetMgmt, specDevGetMgmt, specDiagEcho,
   specDiagReadCsr, specDiagWriteCsr, specDiagReadMem, specDiagWriteMem]

def specsMemory : List OpSpec :=
  [specMemGetErrors, specMemGetStats]

def specsRings : List OpSpec :=
  [specRingCreate, specRingDelete, specDmaSetChannel, specDmaStop, specRingGetStatus, specDmaGetStatus]

def specsCores : List OpSpec :=
  [specMcRehearse, specMcGetStatus]

def specsSpares : List OpSpec :=
  [specSpareSetAudit, specSpareRetire, specSpareGetStatus]

def specsJournal : List OpSpec :=
  [specJrnlGetStatus, specJrnlCompact, specJrnlRead]

def specsReset : List OpSpec :=
  [specPwrSetDomain, specPwrReset, specPwrGetDomains]

def specsQuiesce : List OpSpec :=
  [specPwrQuiesce, specSecFwActivate]

def specsBoot : List OpSpec :=
  [specSecSetCmdKey, specSecSetSignPolicy, specSecOtpRotate, specSecOtpRevoke, specSecFwStage, specSecGetIdentity,
   specSecAttest]

def specsEpochs : List OpSpec :=
  [specTimeLoadDelay, specTimeApplyDelay]

/-- Every command but DIAG_BATCH. -/
def baseSpecs : List OpSpec :=
  specsAdmission ++ specsPorts ++ specsIngest ++ specsStaging ++ specsDumpCmds ++ specsBeams ++ specsFilters ++
  specsTime ++ specsPtp ++ specsFreran ++ specsCapture ++ specsEvents ++ specsOwnership ++ specsDevice ++
  specsMemory ++ specsRings ++ specsCores ++ specsSpares ++ specsJournal ++ specsReset ++ specsQuiesce ++
  specsBoot ++ specsEpochs

/-! ## DIAG_BATCH (R421) -/

/-- The entries of a batch: opcode and parameters, or the offset of one that runs past the end; and where the last ends. -/
def batchEntries (p : List Byte) : Nat → Nat → Except Nat (List (Nat × List Byte) × Nat)
  | 0, off => .ok ([], off)
  | n + 1, off =>
    let len := fld p (off + 2) 2
    if p.length < off + 4 + len then .error off
    else
      match batchEntries p n (off + 4 + len) with
      | .error e => .error e
      | .ok (l, fin) => .ok ((fld p off 2, slice p (off + 4) len) :: l, fin)

/-- One entry, as if it had arrived alone: its status, its reply data, and the state it leaves. -/
def State.batchEntry (s : State) (c : Cmd) (code : Nat) (params : List Byte) : Nat × List Byte × State :=
  let refuse (st off : Nat) : Nat × List Byte × State := (st, s.errorDetail off, s)
  match baseSpecs.find? (·.row.code = code) with
  | none => refuse stBadOpcode 0xFFFF
  | some sp =>
    if sp.row.access ≠ .read then refuse stBadOpcode 0xFFFF
    else
      match sp.row.layout.lengthError params with
      | some off => refuse stBadParam off
      | none =>
        let r := sp.body { client := c.client, via := c.via, params := params } s
        (r.status, r.reply, r.st)

/-- The entries in order, until the reply would grow beyond 1,280 bytes: entry replies, how many ran, the state. -/
def State.runBatch (c : Cmd) : List (Nat × List Byte) → State → List Byte → Nat → List Byte × Nat × State
  | [], s, acc, n => (acc, n, s)
  | (code, params) :: t, s, acc, n =>
    let (st, data, s1) := s.batchEntry c code params
    if 1280 < 32 + acc.length + 8 + data.length then (acc, n, s)
    else
      State.runBatch c t s1 (acc ++ beBytes 2 code ++ beBytes 1 st ++ [0] ++ beBytes 2 data.length ++ zeros 2 ++ data) (n + 1)

def doDiagBatch (c : Cmd) (s : State) : Res :=
  let p := c.params
  let count := fld p 0 1
  if p.length < 1 then .bad 0 s
  else if count < 1 || 16 < count then .bad 0 s
  else if p.length < 8 then .bad 1 s
  else
    match batchEntries p count 8 with
    | .error off => .bad off s
    | .ok (l, fin) =>
      if fin < p.length then .bad fin s
      else
        let (data, n, t) := State.runBatch c l s [] 0
        .okWith (beBytes 1 n ++ zeros 7 ++ beInstant s.nowInstant ++ beInstant t.nowInstant ++ data) t

def specDiagBatch : OpSpec := { row := rowDiagBatch, body := doDiagBatch }
def execDiagBatch (c : Cmd) (s : State) : Host.Outcome State Fault Refusal := s.submit specDiagBatch c

/-- What executes a version 2 opcode; 0 stands for none. -/
def specOf (code : Nat) : Option OpSpec := (specDiagBatch :: baseSpecs).find? (·.row.code = code)

/-- R411: what executes a version 1 code. -/
def specOfV1 (code : Nat) : Option OpSpec :=
  if code = 0 then none else (specDiagBatch :: baseSpecs).find? (·.row.v1 = code)

/-! ## Waiting commands go on (R389) -/

def State.drainOrder : Nat → State → State
  | 0, s => s
  | n + 1, s =>
    if s.free then
      match s.own.order with
      | [] => s
      | w :: rest => State.drainOrder n ((s.mapOwn fun o => { o with order := rest }).process (specOf w.code) w)
    else s

/-- Commands run in stamp order while nothing holds them up. -/
def State.resume (s : State) : State := State.drainOrder s.own.order.length s

/-! ## A packet is read (R383 to R385, R411) -/

/-- What a packet comes to. -/
inductive Packet where
  /-- discarded without reply, and counted in malformed -/
  | silent
  /-- answered for its form: header version 2 or 1, opcode and seq to echo, status -/
  | verdict (v2 : Bool) (code seq status : Nat)
  | cmd (code : Nat) (c : Cmd)

/-- `exact`: the packet ends with `bs`. In a queue element it ends where its header says. -/
def readPacket (client : Client) (via : Nat) (exact : Bool) (bs : List Byte) : Packet :=
  let ver := fld bs 1 1 / 16
  let nib := fld bs 1 1 % 16
  let n := fld bs 6 2
  let bad (len : Nat) : Bool := 1280 < n || bs.length < len || (exact && bs.length ≠ len)
  if bs.length < 2 || fld bs 0 1 ≠ 0x43 then .silent
  else if ver = 1 then
    if bs.length < 8 then .silent
    else if bad (8 + n) then .verdict false (fld bs 2 1) (fld bs 4 2) stBadParam
    else
      .cmd (fld bs 2 1) { client := client, via := via, v2 := false, seq := fld bs 4 2,
                          ignored := { verNibble := nib, status := fld bs 3 1 }, params := slice bs 8 n }
  else if ver = 2 then
    let flags := fld bs 4 2
    let tag := bit flags 1
    let sig := bit flags 2
    let at_ := if tag then 28 else 16
    let fin := at_ + n
    if bs.length < 16 || bit flags 0 then .silent
    else if bad (fin + if sig then 100 else 0) then .verdict true (fld bs 2 2) (fld bs 8 4) stBadParam
    else
      .cmd (fld bs 2 2)
        { client := client, via := via, v2 := true, seq := fld bs 8 4, tag := if tag then some (instantAt bs 16) else none,
          sig := if sig then some ⟨fld bs fin 1, fld bs (fin + 4) 48, fld bs (fin + 52) 48⟩ else none,
          ignored := { verNibble := nib, flagsHigh := flags / 8, status := fld bs 12 1, tail := slice bs 13 3 },
          params := slice bs at_ n }
  else .verdict true 0 (if 12 ≤ bs.length then fld bs 8 4 else 0) stVersion

/-- A packet is stamped as it arrives. -/
def State.receivePacket (s : State) (client : Client) (via : Nat) (p : Packet) : State :=
  match p with
  | .silent => s.malformed client.ep
  | .verdict v2 code seq st => s.arrive none ⟨0, { client := client, via := via, v2 := v2, seq := seq }, code, some st, s.ns⟩
  | .cmd code c =>
    let sp := if c.v2 then specOf code else specOfV1 code
    s.arrive sp ⟨match sp with | some x => x.row.code | none => 0, c, code, none, s.ns⟩

/-! ## MGMT-A and MGMT-B (R387, R416) -/

def State.rxDiscard (s : State) (p : Nat) : State :=
  s.setMgmt p { s.mgmt p with rxDiscard := (s.mgmt p).rxDiscard + 1 }

def State.rxFrame (s : State) (p : Nat) : State := s.setMgmt p { s.mgmt p with rxFrames := (s.mgmt p).rxFrames + 1 }

/-- The client of a datagram. -/
def udpClient (p : Nat) (ip : Ip) (u : Udp) : Client :=
  { ep := if p = 0 then 1 else 2, family := if ip.v6 then 6 else 4, port := u.src,
    addr := if ip.v6 then ip.src else ip.src ++ zeros 12 }

/-- R387: the endpoint of a management port. -/
def mgmtEp (p : Nat) : Fin 4 := if p = 0 then 1 else 2

/-- A UDP datagram for one of the port's addresses. -/
def State.mgmtUdp (s : State) (p : Nat) (f : Frame) (ip : Ip) : State :=
  let bad := (s.rxDiscard p).malformed (mgmtEp p)
  match parseUdp ip with
  | none => bad
  | some u =>
    if u.dst ≠ 47100 then s.rxDiscard p
    else if !u.sumOk then bad
    else (s.rxFrame p).receivePacket (udpClient p ip u) f.src (readPacket (udpClient p ip u) f.src true u.body)

/-- A frame arrives on a management port that is on and linked. PTP messages are events of their own; a port whose PTP is disabled
discards them and counts them (DESIGN CHOICE, log entry 104). -/
def evMgmtDatagramReceive (port : Fin 2) (f : Frame) (s : State) : State :=
  let p := port.val
  let m := s.mgmt p
  let a := s.mgmtAddresses p
  let unicast := f.dst = a.mac
  let multicast := f.dst / 2 ^ 40 % 2 = 1
  if m.mode = 0 || !m.link || !s.domainOn 86 then s
  else if !vlanOk a.vlan f || !(unicast || multicast) then s.rxDiscard p
  else if ptpTo (kvGet {} s.qz.ptp.ports (128 + p)) a f then s.rxFrame p
  else
    match arpReply a f with
    | some r => if unicast || f.dst = 0xFFFFFFFFFFFF then (s.rxFrame p).sendMgmt p r else s.rxDiscard p
    | none =>
      match parseIp f.etherType f.payload with
      | none => s.rxDiscard p
      | some ip =>
        let mine := if ip.v6 then a.ipv6.contains ip.dst else a.ipv4 ≠ 0 && beNat ip.dst = a.ipv4
        -- R387: no fragment is accepted, whatever it carries
        if ip.fragment then (if unicast && mine then (s.rxDiscard p).malformed (mgmtEp p) else s.rxDiscard p)
        else match neighbourReply a f ip with
        | some r => (s.rxFrame p).sendMgmt p r
        | none =>
          if !unicast || !mine then s.rxDiscard p
          else
            match echoReply a f ip with
            | some r => (s.rxFrame p).sendMgmt p r
            | none => if ip.proto = 17 then s.mgmtUdp p f ip else s.rxDiscard p

def execMgmtDatagramReceive (port : Fin 2) (f : Frame) (s : State) : Host.Outcome State Fault Refusal :=
  guarded (.mgmtDatagramReceive port f) s (evMgmtDatagramReceive port f s)

/-! ## SMBus (R388) -/

def smbusClient : Client := ⟨3, 0, 0, zeros 16⟩

/-- SMBus packet error code: CRC-8, x^8 + x^2 + x + 1, from 0 (PRESUMED from SMBus 3.2, log entry 107). -/
def smbusPec (bs : List Byte) : Byte :=
  bs.foldl (fun (crc : Byte) b => (List.range 8).foldl (fun (c : Byte) _ => if c.msb then (c <<< 1) ^^^ 0x07 else c <<< 1) (crc ^^^ b)) 0

/-- The bytes that the code of a Block Write covers: address and write bit, command code, count, data. -/
def smbusWriteBytes (address : Nat) (code : Byte) (data : List Byte) : List Byte :=
  BitVec.ofNat 8 (2 * address) :: code :: BitVec.ofNat 8 data.length :: data

/-- Those of a Block Read: the address is sent twice, with the write bit and with the read bit. -/
def smbusReadBytes (address : Nat) (code : Byte) (data : List Byte) : List Byte :=
  BitVec.ofNat 8 (2 * address) :: code :: BitVec.ofNat 8 (2 * address + 1) :: BitVec.ofNat 8 data.length :: data

/-- R549: the device's 7-bit address. -/
def State.smbusAddress (s : State) : Nat := 0x58 + s.pwr.straps

/-- A Block Write of a fragment. A fragment out of its place discards the command it would have belonged to. -/
def evSmbusBlockWrite (target : SmbusTarget) (data : List Byte) (pec : Option Byte) (s : State) : State :=
  if target.address ≠ s.smbusAddress then s
  else if pec ≠ some (smbusPec (smbusWriteBytes target.address target.code data)) then s.malformed 3
  else if target.code ≠ 0xC0 then s
  else
    match data with
    | [] => s.malformed 3
    | b :: part =>
      let n := b.toNat % 128
      if n ≠ 0 && n ≠ s.own.smbusNext then (s.mapOwn fun o => { o with smbusIn := [], smbusNext := 0 }).malformed 3
      else
        let bs := if n = 0 then part else s.own.smbusIn ++ part
        if 128 ≤ b.toNat then
          -- the reply to read from now on is this command's
          (s.mapOwn fun o => { o with smbusIn := [], smbusNext := 0, smbusOut := none, smbusRead := 0 }).receivePacket
            smbusClient 0 (readPacket smbusClient 0 true bs)
        else s.mapOwn fun o => { o with smbusIn := bs, smbusNext := n + 1 }

def execSmbusBlockWrite (target : SmbusTarget) (data : List Byte) (pec : Option Byte) (s : State) :
    Host.Outcome State Fault Refusal :=
  guarded (.smbusBlockWrite target data pec) s (evSmbusBlockWrite target data pec s)

/-- The device answers a Block Read with data and their code. -/
def State.smbusAnswer (s : State) (code : Byte) (data : List Byte) : State :=
  s.emit (.smbus data (smbusPec (smbusReadBytes s.smbusAddress code data)))

/-- A Block Read: the next fragment of the reply, or 0xFF. A reply read to its end is gone. -/
def evSmbusBlockRead (target : SmbusTarget) (s : State) : State :=
  if target.address ≠ s.smbusAddress || target.code ≠ 0xC1 then s
  else
    match s.own.smbusOut with
    | none => s.smbusAnswer target.code [0xFF]
    | some p =>
      let k := s.own.smbusRead
      let last := p.length ≤ 254 * (k + 1)
      (s.mapOwn fun o => if last then { o with smbusOut := none, smbusRead := 0 } else { o with smbusRead := k + 1 }).smbusAnswer
        target.code (BitVec.ofNat 8 (k % 128 + 128 * b2n last) :: slice p (254 * k) 254)

def execSmbusBlockRead (target : SmbusTarget) (s : State) : Host.Outcome State Fault Refusal :=
  guarded (.smbusBlockRead target) s (evSmbusBlockRead target s)

/-! ## Command queues (R389, R456) -/

def queueClient (q : Nat) : Client := ⟨0, 0, q, zeros 16⟩

/-- A command of the queue has been read, and its reply has not been written. -/
def State.unanswered (s : State) (q : Nat) : Bool :=
  s.own.order.any (fun w => w.cmd.client = queueClient q) ||
  (match s.own.executing with | some x => x.what.cmd.client = queueClient q | none => false)

/-- R456: the next element of the queue may be read. -/
def State.elementDue (s : State) (q : Nat) : Bool :=
  let v := s.queue q
  let p := s.queue v.pair
  v.enable && v.kind = 0 && v.occupancy ≠ 0 && p.enable && p.kind = 1 && decide (p.occupancy < p.size) && s.domainOn 94 &&
  s.serving && !s.unanswered q

/-- The element is read and stamped; `element`: what host memory returns for it, none where no completion comes. -/
def evCommandQueueRead (q : Nat) (element : Option (List Byte)) (s : State) : State :=
  if !s.elementDue q then s
  else
    let v := s.queue q
    let i := v.cons
    let (s1, b) := s.readElement v i element
    let v1 := s1.queue q
    let s2 := (s1.setQueue q { v1 with cons := (i + 1) % 2 ^ 32, accessErr := v1.accessErr || b.isNone }).writeBack q
      ((i + 1) % 2 ^ 32)
    match b with
    | none => s2.completeElement q i (zeros 16)
    | some bs =>
      match readPacket (queueClient q) i false bs with
      | .silent => (s2.malformed 0).completeElement q i (zeros 16)
      | p => s2.receivePacket (queueClient q) i p

def execCommandQueueRead (q : Nat) (element : Option (List Byte)) (s : State) : Host.Outcome State Fault Refusal :=
  guarded (.commandQueueRead q element) s (evCommandQueueRead q element s)

/-- R429: the access that waits receives an error response on every beat not yet delivered. -/
def evPcieOutboundTimeout (user : OutboundUser) (s : State) : State :=
  match user with
  | .commandElement q => if inOutbound ((s.queue q).element (s.queue q).cons) then evCommandQueueRead q none s else s
  | .descriptor n reads off =>
    match (s.dma n).running with
    | some ⟨_, some b⟩ =>
      let d := descOf b
      let some_ (k len : Nat) : List Byte := (List.range len).map (Config.freeByte (s.draws + k))
      if d.bad || d.length ≤ off then s
      else if reads then
        if (d.op ≠ 2 && inOutbound d.src) || (d.op = 3 && inOutbound d.dst) then
          evDmaDescriptorComplete n { src := some_ 0 off, dst := some_ 1 off } s.draw.draw
        else s
      else if d.op ≠ 3 && inOutbound d.dst then
        evDmaDescriptorComplete n { src := some_ 0 d.length, writeErr := some off } s.draw.draw
      else s
    | _ => s

def execPcieOutboundTimeout (user : OutboundUser) (s : State) : Host.Outcome State Fault Refusal :=
  guarded (.pcieOutboundTimeout user) s (evPcieOutboundTimeout user s)

/-! ## A journal group commits (R503) -/

/-- The command that waited is executed and answered, or answered HW_ERROR with nothing applied. In a switchover gap no core is
there to do either: the command is left for TIMEOUT (R401, log entry 111). -/
def State.settleCommand (s : State) (ok : Bool) : State :=
  if s.mc.inGap then s
  else
  match s.own.executing with
  | some ⟨w, .journal, _, _⟩ =>
    let s1 := s.mapOwn fun o => { o with executing := none, stamp := w.stamp, accepted := true }
    if ok then
      match specOf w.code with
      | some sp => State.answer s1 w sp.row (sp.body w.cmd s1)
      | none => s1
    else s1.finish w stHwError (s1.errorDetail 0xFFFF)
  | _ => s

/-- The oldest group goes into flash; `failing`: blocks that fail to program or erase meanwhile. -/
def evJournalCommitDone (failing : List Nat) (s : State) : State :=
  if !s.mayCommit then s
  else
    let mine := match s.jrnl.groups with | g :: _ => g.forCommand | [] => false
    let (s0, ok) := s.commitOldest failing
    let s1 := s0.noteRecorded
    (if mine then s1.settleCommand ok else s1).resume

def execJournalCommitDone (failing : List Nat) (s : State) : Host.Outcome State Fault Refusal :=
  guarded (.journalCommitDone failing) s (evJournalCommitDone failing s)

/-! ## A domain comes on (R515, R517, R535) -/

/-- The reply that waited for domains is sent once all of them are ON, and a command that waited for PD95 is served, but not in a
switchover gap (R401). -/
def State.settleHold (s : State) : State :=
  match s.own.executing with
  | some ⟨w, .domains ds, st, data⟩ =>
    if ds.all s.domainOn && !s.mc.inGap then (s.mapOwn fun o => { o with executing := none }).finish w st data else s
  | some ⟨w, .crypto, _, _⟩ =>
    if s.domainOn 95 && !s.mc.inGap then
      let s1 := s.mapOwn fun o => { o with executing := none }
      match specOf w.code with
      | some sp => s1.serve sp w
      | none => s1
    else s
  | _ => s

def evDomainPowerUpDone (domain : Fin 96) (s : State) : State :=
  if (s.domain domain.val).state ≠ .poweringUp then s else ((s.domainUp domain.val).settleHold).resume

def execDomainPowerUpDone (domain : Fin 96) (s : State) : Host.Outcome State Fault Refusal :=
  guarded (.domainPowerUpDone domain) s (evDomainPowerUpDone domain s)

/-! ## A core takes the token (R479, R480, R485) -/

/-- The standby's sampling instant: takeover where it is due. -/
def evStandbyTakeover (s : State) : State :=
  let u := s.expireToken
  if u.takeoverDue 0 then (u.standbyTakes 0).resume
  else if u.takeoverDue 1 then (u.standbyTakes 1).resume
  else u

def execStandbyTakeover (s : State) : Host.Outcome State Fault Refusal := guarded .standbyTakeover s (evStandbyTakeover s)

def evCoreBootClaim (core : Fin 2) (s : State) : State := (s.expireToken.bootClaim core).resume

def execCoreBootClaim (core : Fin 2) (s : State) : Host.Outcome State Fault Refusal :=
  guarded (.coreBootClaim core) s (evCoreBootClaim core s)

end Sys2Proof.Machine
end

