-- ==== Sys2Proof/Machine/BringUp.lean ====
section
/-! DEFINITION. Beynan brings the device into service: journal, repairs, HBM, tiles, settings, router mode, the BOOT record
(R374, R493, R498, R499, R503, R507, R525, R533, R539). -/

namespace Sys2Proof.Machine

/-! ## Device records (R501) -/

def State.restoreTile (s : State) (t reason : Nat) : State :=
  if 272 ≤ t then s else s.setTileInfo t { s.tileInfo t with mode := .retired, reason := reason }

def HbmRepair.sameRow (a b : HbmRepair) : Bool := a.stack = b.stack && a.pc = b.pc && a.bank = b.bank && a.row = b.row

/-- A record tells what became of the row's pending candidate; a row that was repaired before may be a candidate again. -/
def noteRepair (l : List HbmRepair) (r : HbmRepair) : List HbmRepair :=
  let open_ (x : HbmRepair) : Bool := r.sameRow x && x.status = 0
  if l.any open_ then l.map fun x => if open_ x then r else x else l ++ [r]

def State.applyRecord (s : State) (p : JParsed) : State :=
  let b := p.payload
  if p.type_ = 0xF001 then s.mapJrnl fun j => { j with bootCount := lfld b 0 4 }
  else if p.type_ = 0xF002 then s.restoreTile (lfld b 0 2) (lfld b 2 1)
  else if p.type_ = 0xF003 then
    let r := (lfld b 0 2, lfld b 2 2, lfld b 4 1)
    if s.spare.sramRepairs.contains r then s else s.mapSpare fun v => { v with sramRepairs := v.sramRepairs ++ [r] }
  else if p.type_ = 0xF004 then
    let r : HbmRepair := { stack := lfld b 0 1, pc := lfld b 1 1, bank := lfld b 2 1, row := lfld b 4 4, status := lfld b 3 1 }
    s.mapSpare fun v => { v with hbmRepairs := noteRepair v.hbmRepairs r }
  else s

/-! ## Repairs (R498, R499) -/

/-- A row that the memory self-test found, which runs on the macros whose domain is on; those of the tiles are on for their BIST
(R493). -/
def State.bootRow (s : State) (r : Nat × Nat) : State :=
  let (s1, ok) := s.repairRow r.1 r.2
  if 1024 ≤ r.1 || 512 ≤ r.2 || (272 ≤ r.1 && !s.domainOn (Config.macroDomain r.1 % 96)) then s
  else if ok then s1
  else if r.1 < 272 then
    if (s1.tileInfo r.1).mode = .retired then s1 else s1.retireTile r.1 4
  else s1.mapSpare fun v => { v with sramExhausted := true }

/-- A pending candidate, number `i` of the list, is repaired, or fails for want of a resource. -/
def State.bootRepair (s : State) (failed : List Nat) (e : HbmRepair × Nat) : State :=
  if e.1.status ≠ 0 then s
  else
    let r := { e.1 with status := if failed.contains e.2 then 2 else 1 }
    (s.mapSpare fun v => { v with hbmRepairs := noteRepair v.hbmRepairs r }).handGroup [(0xF004, r.bytes)] false

def State.powered (s : State) (d : Nat) : State :=
  if s.domainOn d then s else s.setDomain d { s.domain d with state := .on, since := s.ns }

/-- HBM comes up, trained; so does the engine that holds the journal. -/
def State.bootHbm (s : State) (failed : List Nat) : State :=
  let s1 := (s.spare.hbmRepairs.zipIdx).foldl (fun u e => u.bootRepair failed e) s
  ((List.range 4).foldl (fun (u : State) (h : Nat) => (u.powered (76 + h)).bumpHc h fun c => { c with trained := true }) s1).powered 95

/-! ## Tiles and slots (R493, R497, R164) -/

/-- Factory retirements, then BIST of every tile that is left. -/
def State.bootBist (s : State) (bad : List Nat) : State :=
  (List.range 272).foldl (fun (u : State) (t : Nat) =>
    let v := u.tileInfo t
    if Config.factoryRetired t then u.setTileInfo t { v with mode := .retired, factory := true, reason := 0 }
    else if v.mode = .retired then u
    else
      let w := u.mapSpare fun p => { p with bistRuns := p.bistRuns + 1, bistFails := p.bistFails + b2n (bad.contains t) }
      if bad.contains t then w.retireTile t 1 else w) s

/-- Slot s takes the (s + 1)-th passing tile; the rest are READY. Slots without a tile are withdrawn from boot. -/
def State.assignSlots (s : State) : State :=
  let passing := (List.range 272).filter fun t => (s.tileInfo t).mode ≠ .retired
  let slots : List Slot := (List.range 260).map fun i => { tile := passing[i]? }
  let s1 := (passing.drop 260).foldl (fun (u : State) (t : Nat) =>
    u.setTileInfo t { u.tileInfo t with mode := .ready, readyAt := s.ns }) s
  let s2 := (s1.mapTile fun t => { t with slots := slots, leaving := [] }).mapSpare fun v =>
    { v with lastStep := s.now, auditPtr := 0, due := false }
  ((List.range 260).drop passing.length).foldl (fun (u : State) (i : Nat) => u.raise 180 i) s2

/-! ## Settings (R503) -/

/-- The settings whose apply index replay takes as the reserved value. -/
def replayedAtOnce : List Nat := [0x0511, 0x0621, 0x0650, 0x0651, 0x0660, 0x0811]

def replayParams (row : OpRow) (p : List Byte) : List Byte :=
  match row.tag with
  | some off => if replayedAtOnce.contains row.code then p.take off ++ noIndexBytes ++ p.drop (off + 8) else p
  | none => p

/-- A setting is restored as if its command had been accepted at once. -/
def State.replay (s : State) (p : JParsed) : State :=
  match specOf p.type_ with
  | none => s
  | some sp =>
    let params := replayParams sp.row p.payload
    if (sp.row.layout.lengthError params).isSome then s
    else
      let r := sp.body { client := smbusClient, params := params } s
      if r.good then r.st else s

/-- R115: the load map is made equal to the applied map. -/
def State.restoreLoadMap (s : State) : State :=
  s.mapIng fun g => { g with loadMap :=
    ((schedAt g.map 0 noIndex).zipIdx.foldl (fun t e => kvSet MapEntry.init t e.2 e.1) []) }

/-! ## Into service -/

/-- The BOOT record follows every record of this boot into flash. -/
def State.recordBoot (s : State) (core : Nat) (failing : List Nat) : State :=
  let n := s.jrnl.bootCount + 1
  let s1 := (s.mapJrnl fun j => { j with bootCount := n }).handGroup
    [(0xF001, leBytes 4 n ++ leBytes 1 core ++ leBytes 1 s.pwr.cause)] false
  s1.jrnl.groups.foldl (fun (u : State) (_ : JGroup) => (u.commitOldest failing).1) s1

/-- R539: the thermometer follows the image, known by its measurement, for which it was asked, once that image reaches SERVICE. -/
def PowerState.raiseMinimum (p : PowerState) : PowerState :=
  match p.raiseMin with
  | some m => if p.measure = m then { p with minVersion := max p.minVersion p.secVer, raiseMin := none } else p
  | none => p

def State.enterService (s : State) : State :=
  let s1 := s.mapPwr fun p => { p.raiseMinimum with phase := 4 }
  if s1.pwr.quiesce.deferred then s1.startQuiesce s1.pwr.quiesce.pinMs else s1

/-- Steps 1 to 7, by the active core after the first claim since the reset. -/
def evServiceBringUp (report : BootReport) (s : State) : State :=
  match s.mc.token with
  | none => s
  | some h =>
    if s.pwr.phase ≠ 3 || !s.activeCore h then s
    else
      let (s1, records) := s.recoverJournal report.failingBlocks
      let s2 := records.foldl State.applyRecord s1
      let s3 := report.badRows.foldl State.bootRow s2
      let s4 := ((s3.bootHbm report.failedHbm).bootBist report.badTiles).assignSlots
      let s5 := (records.foldl State.replay s4).restoreLoadMap
      let s6 := s5.mapEr fun r => { r with mode := r.jMode.getD 1 }
      ((s6.recordBoot h.val (report.failingBlocks.filter (· < 64))).enterService).resume

def execServiceBringUp (report : BootReport) (s : State) : Host.Outcome State Fault Refusal :=
  guarded (.serviceBringUp report) s (evServiceBringUp report s)

end Sys2Proof.Machine
end

