-- ==== Sys2Proof/Machine/Partials.lean ====
section
/-! DEFINITION. Partial frames at a combiner (R187, R188, R338, R339). -/

namespace Sys2Proof.Machine

def State.rejectPartial (s : State) : State := s.mapBas fun b => { b with partialsRejected := b.partialsRejected + 1 }

/-- A partial frame as received. -/
structure PartialFrame where
  kind : Nat
  part : Nat
  channel : Nat
  group : Nat
  start : Nat
  index : Nat
  count : Nat
  first : Nat
  items : Nat
  body : List Byte
  deriving DecidableEq, Repr

/-- None where the form or the CRC fails. -/
def partialParse (b : List Byte) : Option PartialFrame :=
  let body := b.drop 40
  if b.length < 40 || fld b 0 1 ≠ 0x50 || fld b 1 1 ≠ 1 || fld b 30 2 ≠ body.length ||
      fld b 36 4 ≠ crc32c (b.take 36 ++ body) then none
  else some { kind := fld b 2 1, part := fld b 3 1, channel := fld b 4 2, group := fld b 6 2, start := fld b 8 8,
              index := fld b 16 4, count := fld b 20 4, first := fld b 24 4, items := fld b 28 2, body := body }

/-- R339: the HEADER agrees with the combiner. -/
def State.headerAgrees (s : State) (f : PartialFrame) : Bool :=
  let l := s.layout
  let unit := if schedAt s.bas.rotate f.channel f.start then 4 else 0
  f.body.length = 112 && fld f.body 50 1 = b2n l.rect && fld f.body 51 1 = l.shape && fld f.body 48 2 = l.n &&
  fld f.body 44 4 = l.dwell && fld f.body 88 4 = l.baselines && fld f.body 55 1 = unit

/-- R188: the integration starts at a visit of the combiner's schedule, or of the one that has stopped last. -/
def State.startsVisit (s : State) (idx : Nat) : Bool :=
  (s.schedLive || s.tile.stop.isSome) && s.tile.start ≤ idx && (idx - s.tile.start) % s.dwell = 0 &&
  (match s.tile.stop with | some x => decide (idx < x) | none => true)

/-- R187: the integration has been combined already: before its own last visit, or after it. -/
def State.combinedAlready (s : State) (c start : Nat) : Bool :=
  !(s.bas.collects.any fun x => x.channel = c && x.integStart = start) &&
  (s.bas.early.contains (c, start) || decide (start < s.firstIndex (s.integ c).start))

/-- R188: a boundary of the combiner's own stands before the visit, so that an integration begins there; of a visit that the
combiner has not accounted for yet, the boundaries known so far say so. The manual does not say how a partial of no such
integration is counted; here it is rejected (DESIGN CHOICE, log entry 70). -/
def State.namesIntegration (s : State) (c start : Nat) : Bool :=
  let k := s.visitOfIndex start
  let g := s.integ c
  k = 0 || (s.bas.collects.any fun x => x.channel = c && x.integStart = start) || k = (if g.begun then g.start else g.next) ||
  (g.next ≤ k && s.boundaryBefore c k g.start)

/-- A complete leaf: its values and granule counts, and its header record. -/
def PartialLeaf.leaf (x : PartialLeaf) : Leaf :=
  let at_ (k : Nat) : List (Nat × List Byte) := x.frames.filterMap fun (e : Nat × Option (Nat × Nat × List Byte)) =>
    match e.2 with
    | some (kind, first, body) => if kind = k then some (first, body) else none
    | none => none
  let values : KV (Int × Int) := (at_ 2).foldl (fun m (e : Nat × List Byte) =>
    (List.range (e.2.length / 12)).foldl (fun m i =>
      kvSet (0, 0) m (e.1 + i) (toSigned 48 (fld e.2 (12 * i) 6), toSigned 48 (fld e.2 (12 * i + 6) 6))) m) []
  let weights : KV Nat := (at_ 3).foldl (fun m (e : Nat × List Byte) =>
    (List.range (e.2.length / 4)).foldl (fun m i => kvSet 0 m (e.1 + i) (fld e.2 (4 * i) 4)) m) []
  { part := x.part, values := values, weights := weights, header := (((at_ 1).head?).map (·.2)).getD [] }

/-- R339: bytes of the partial area in use. -/
def State.partialUsed (s : State) : Nat :=
  (s.bas.collects.map fun x => (x.leaves.filter (·.part ≠ s.bas.combine.localLeaf)).length * 16 * s.layout.baselines).sum

/-- The frames of one leaf so far: a complete one is received, where the partial area has room. -/
def State.storePartial (s : State) (x : Collect) (p : PartialLeaf) : State :=
  let others := x.partials.filter (·.part ≠ p.part)
  if p.count ≠ p.frames.length then s.putCollect { x with partials := others ++ [p] }
  else if s.split.mib * 1048576 < s.partialUsed + 16 * s.layout.baselines then
    -- no room: the leaf is left to the timeout, and its later frames find this mark
    (s.putCollect { x with partials := others ++ [{ part := p.part, count := 0, frames := [] }] }).rejectPartial
  else
    let y := { x with partials := others, leaves := x.leaves ++ [p.leaf] }
    (s.putCollect y).tryCombine y

/-- A frame of a leaf that is still awaited. -/
def State.collectPartial (s : State) (f : PartialFrame) : State :=
  let x := s.collectAt f.channel f.start
  let last := b2n (f.kind = 4)
  if x.leaves.any (·.part = f.part) then s.mapBas fun b => { b with partialsDuplicate := b.partialsDuplicate + last }
  else
    match x.partials.find? (·.part = f.part) with
    | some p =>
      if p.count = 0 then s
      else if p.count ≠ f.count then s.rejectPartial
      else s.storePartial x { p with frames := kvSet none p.frames f.index (some (f.kind, f.first, f.body)) }
    | none => s.storePartial x { part := f.part, count := f.count, frames := [(f.index, some (f.kind, f.first, f.body))] }

/-- One datagram for psx_udp. A frame that R339 rejects is counted by itself, a partial that starts at no visit once, at its
END. -/
def State.partialDatagram (s0 : State) (b : List Byte) : State :=
  let s := s0.expireCollects
  match partialParse b with
  | none => s.rejectPartial
  | some f =>
    if f.group ≠ s.split.group || f.kind = 0 || 4 < f.kind || s.bas.combine.parts ≤ f.part ||
        f.part = s.bas.combine.localLeaf || s.layout.channels ≤ f.channel || f.count ≤ f.index ||
        (f.kind = 1 && !s.headerAgrees f) then s.rejectPartial
    else if !s.startsVisit f.start then (if f.kind = 4 then s.rejectPartial else s)
    else if s.combinedAlready f.channel f.start then
      s.mapBas fun k => { k with partialsLate := k.partialsLate + b2n (f.kind = 4) }
    else if !s.namesIntegration f.channel f.start then (if f.kind = 4 then s.rejectPartial else s)
    else s.collectPartial f

/-- R88 with psx_udp in place of klp_udp: the payload of a frame that passes. -/
def State.partialPayload (s : State) (p : Nat) (f : Frame) : Option (List Byte) :=
  let v := s.inPort p
  match s.portCfg p, parseIp f.etherType f.payload with
  | some c, some ip =>
    let fam := if ip.v6 then 6 else 4
    let unicast := v.mac ≠ 0 && f.dst = v.mac
    let mine := if ip.v6 then v.ipv6 ≠ 0 && ip.dst = beBytes 16 v.ipv6 else v.ipv4 ≠ 0 && ip.dst = beBytes 4 v.ipv4
    let joined := v.groups.any fun g => g.family = fam && g.group = ip.dst
    let firstNext := if ip.v6 then fld f.payload 6 1 else ip.proto
    let plain := firstNext = 17 && !ip.fragment
    if s.bas.combine.role ≠ 2 || c.klp || c.role ≠ 0 || (s.portAt p).state < 2 || !vlanOk v.vlan f ||
        !(unicast || v.groups.any fun g => groupMac g.group = f.dst) || !(mine || joined) || !plain then none
    else
      match parseUdp ip with
      | some u => if u.dst = s.split.psxUdp && (u.sumOk || (u.sumZero && !ip.v6)) then some u.body else none
      | none => none
  | _, _ => none

/-- A frame that is no partial frame is an Ethernet frame like any other. -/
def evPartialFrameReceive (port : Fin 80) (f : Frame) (s : State) : State :=
  match s.partialPayload port.val f with
  | some b => (s.countPort port.val fun q => { q with rxPackets := q.rxPackets + 1 }).partialDatagram b
  | none => evEthFrameReceive port f s

def execPartialFrameReceive (port : Fin 80) (f : Frame) (s : State) : Host.Outcome State Fault Refusal :=
  guarded (.partialFrameReceive port f) s (evPartialFrameReceive port f s)

end Sys2Proof.Machine
end

