-- ==== Sys2Proof/Machine/Dispatch.lean ====
section
/-! DEFINITION. The one dispatch: every command and event to its meaning. -/

namespace Sys2Proof.Machine

def exec (i : Instr) (s : State) : Host.Outcome State Fault Refusal :=
  match i with
  | .pwrSetOp c => Sys2Proof.Machine.execPwrSetOp c s
  | .pwrGetOp c => Sys2Proof.Machine.execPwrGetOp c s
  | .corrSetShed c => Sys2Proof.Machine.execCorrSetShed c s
  | .corrGetLoad c => Sys2Proof.Machine.execCorrGetLoad c s
  | .portSetQuad c => Sys2Proof.Machine.execPortSetQuad c s
  | .portSetLane c => Sys2Proof.Machine.execPortSetLane c s
  | .portSetKlp c => Sys2Proof.Machine.execPortSetKlp c s
  | .portGetStatus c => Sys2Proof.Machine.execPortGetStatus c s
  | .portGetLane c => Sys2Proof.Machine.execPortGetLane c s
  | .portEyeScan c => Sys2Proof.Machine.execPortEyeScan c s
  | .portEyeRead c => Sys2Proof.Machine.execPortEyeRead c s
  | .ingestSetPort c => Sys2Proof.Machine.execIngestSetPort c s
  | .ingestMcast c => Sys2Proof.Machine.execIngestMcast c s
  | .ingestSetSource c => Sys2Proof.Machine.execIngestSetSource c s
  | .ingestLoadMap c => Sys2Proof.Machine.execIngestLoadMap c s
  | .ingestApplyMap c => Sys2Proof.Machine.execIngestApplyMap c s
  | .ingestLoadGain c => Sys2Proof.Machine.execIngestLoadGain c s
  | .ingestApplyGain c => Sys2Proof.Machine.execIngestApplyGain c s
  | .ingestSetTiming c => Sys2Proof.Machine.execIngestSetTiming c s
  | .ingestGetPort c => Sys2Proof.Machine.execIngestGetPort c s
  | .ingestGetInput c => Sys2Proof.Machine.execIngestGetInput c s
  | .corrLoadCoarse c => Sys2Proof.Machine.execCorrLoadCoarse c s
  | .corrApplyCoarse c => Sys2Proof.Machine.execCorrApplyCoarse c s
  | .corrGetStaging c => Sys2Proof.Machine.execCorrGetStaging c s
  | .corrSetLayout c => Sys2Proof.Machine.execCorrSetLayout c s
  | .corrStart c => Sys2Proof.Machine.execCorrStart c s
  | .corrStop c => Sys2Proof.Machine.execCorrStop c s
  | .corrGetLayout c => Sys2Proof.Machine.execCorrGetLayout c s
  | .corrGetTiles c => Sys2Proof.Machine.execCorrGetTiles c s
  | .corrSetPreload c => Sys2Proof.Machine.execCorrSetPreload c s
  | .corrLoadFringe c => Sys2Proof.Machine.execCorrLoadFringe c s
  | .corrSetRotation c => Sys2Proof.Machine.execCorrSetRotation c s
  | .corrSetCombine c => Sys2Proof.Machine.execCorrSetCombine c s
  | .corrGetAccum c => Sys2Proof.Machine.execCorrGetAccum c s
  | .corrSetDump c => Sys2Proof.Machine.execCorrSetDump c s
  | .corrDumpAt c => Sys2Proof.Machine.execCorrDumpAt c s
  | .corrSetDest c => Sys2Proof.Machine.execCorrSetDest c s
  | .corrMapDest c => Sys2Proof.Machine.execCorrMapDest c s
  | .corrGetDump c => Sys2Proof.Machine.execCorrGetDump c s
  | .beamSetConfig c => Sys2Proof.Machine.execBeamSetConfig c s
  | .beamLoadWeights c => Sys2Proof.Machine.execBeamLoadWeights c s
  | .beamLoadScale c => Sys2Proof.Machine.execBeamLoadScale c s
  | .beamApply c => Sys2Proof.Machine.execBeamApply c s
  | .beamSetDest c => Sys2Proof.Machine.execBeamSetDest c s
  | .beamGetSet c => Sys2Proof.Machine.execBeamGetSet c s
  | .filtSetChain c => Sys2Proof.Machine.execFiltSetChain c s
  | .filtEnable c => Sys2Proof.Machine.execFiltEnable c s
  | .filtSync c => Sys2Proof.Machine.execFiltSync c s
  | .filtLoadCoef c => Sys2Proof.Machine.execFiltLoadCoef c s
  | .filtApply c => Sys2Proof.Machine.execFiltApply c s
  | .filtGetChain c => Sys2Proof.Machine.execFiltGetChain c s
  | .timeSetSource c => Sys2Proof.Machine.execTimeSetSource c s
  | .timeSet c => Sys2Proof.Machine.execTimeSet c s
  | .timeSetPtp c => Sys2Proof.Machine.execTimeSetPtp c s
  | .timeSetPtpPort c => Sys2Proof.Machine.execTimeSetPtpPort c s
  | .timeSetPulse c => Sys2Proof.Machine.execTimeSetPulse c s
  | .timeSetEvt c => Sys2Proof.Machine.execTimeSetEvt c s
  | .timeSetMapping c => Sys2Proof.Machine.execTimeSetMapping c s
  | .timeConvert c => Sys2Proof.Machine.execTimeConvert c s
  | .timeSetEpoch c => Sys2Proof.Machine.execTimeSetEpoch c s
  | .timeLoadDelay c => Sys2Proof.Machine.execTimeLoadDelay c s
  | .timeApplyDelay c => Sys2Proof.Machine.execTimeApplyDelay c s
  | .timeResync c => Sys2Proof.Machine.execTimeResync c s
  | .timeGetStatus c => Sys2Proof.Machine.execTimeGetStatus c s
  | .freranSetNode c => Sys2Proof.Machine.execFreranSetNode c s
  | .freranSetPort c => Sys2Proof.Machine.execFreranSetPort c s
  | .freranArm c => Sys2Proof.Machine.execFreranArm c s
  | .freranGetStatus c => Sys2Proof.Machine.execFreranGetStatus c s
  | .corrSetSplit c => Sys2Proof.Machine.execCorrSetSplit c s
  | .capSetRing c => Sys2Proof.Machine.execCapSetRing c s
  | .capSetSegment c => Sys2Proof.Machine.execCapSetSegment c s
  | .capSetDetector c => Sys2Proof.Machine.execCapSetDetector c s
  | .capArm c => Sys2Proof.Machine.execCapArm c s
  | .capTrigger c => Sys2Proof.Machine.execCapTrigger c s
  | .capSetDest c => Sys2Proof.Machine.execCapSetDest c s
  | .capGetStatus c => Sys2Proof.Machine.execCapGetStatus c s
  | .eventSetRoute c => Sys2Proof.Machine.execEventSetRoute c s
  | .eventSetMode c => Sys2Proof.Machine.execEventSetMode c s
  | .eventFire c => Sys2Proof.Machine.execEventFire c s
  | .eventSetQueue c => Sys2Proof.Machine.execEventSetQueue c s
  | .eventGetStatus c => Sys2Proof.Machine.execEventGetStatus c s
  | .ownClaim c => Sys2Proof.Machine.execOwnClaim c s
  | .ownRelease c => Sys2Proof.Machine.execOwnRelease c s
  | .ownKeepalive c => Sys2Proof.Machine.execOwnKeepalive c s
  | .ownHandover c => Sys2Proof.Machine.execOwnHandover c s
  | .ownSetLease c => Sys2Proof.Machine.execOwnSetLease c s
  | .ownSetPolicy c => Sys2Proof.Machine.execOwnSetPolicy c s
  | .ownGetChallenge c => Sys2Proof.Machine.execOwnGetChallenge c s
  | .ownGetStatus c => Sys2Proof.Machine.execOwnGetStatus c s
  | .devGetInfo c => Sys2Proof.Machine.execDevGetInfo c s
  | .devGetStatus c => Sys2Proof.Machine.execDevGetStatus c s
  | .devQueryOpcode c => Sys2Proof.Machine.execDevQueryOpcode c s
  | .devSetMgmt c => Sys2Proof.Machine.execDevSetMgmt c s
  | .devGetMgmt c => Sys2Proof.Machine.execDevGetMgmt c s
  | .devSetLabel c => Sys2Proof.Machine.execDevSetLabel c s
  | .diagEcho c => Sys2Proof.Machine.execDiagEcho c s
  | .diagBatch c => Sys2Proof.Machine.execDiagBatch c s
  | .diagReadCsr c => Sys2Proof.Machine.execDiagReadCsr c s
  | .diagWriteCsr c => Sys2Proof.Machine.execDiagWriteCsr c s
  | .diagReadMem c => Sys2Proof.Machine.execDiagReadMem c s
  | .diagWriteMem c => Sys2Proof.Machine.execDiagWriteMem c s
  | .memSetHost c => Sys2Proof.Machine.execMemSetHost c s
  | .memGetErrors c => Sys2Proof.Machine.execMemGetErrors c s
  | .memGetStats c => Sys2Proof.Machine.execMemGetStats c s
  | .ringCreate c => Sys2Proof.Machine.execRingCreate c s
  | .ringDelete c => Sys2Proof.Machine.execRingDelete c s
  | .dmaSetChannel c => Sys2Proof.Machine.execDmaSetChannel c s
  | .dmaStop c => Sys2Proof.Machine.execDmaStop c s
  | .ringGetStatus c => Sys2Proof.Machine.execRingGetStatus c s
  | .dmaGetStatus c => Sys2Proof.Machine.execDmaGetStatus c s
  | .mcRehearse c => Sys2Proof.Machine.execMcRehearse c s
  | .mcGetStatus c => Sys2Proof.Machine.execMcGetStatus c s
  | .spareSetAudit c => Sys2Proof.Machine.execSpareSetAudit c s
  | .spareRetire c => Sys2Proof.Machine.execSpareRetire c s
  | .spareGetStatus c => Sys2Proof.Machine.execSpareGetStatus c s
  | .jrnlGetStatus c => Sys2Proof.Machine.execJrnlGetStatus c s
  | .jrnlCompact c => Sys2Proof.Machine.execJrnlCompact c s
  | .jrnlRead c => Sys2Proof.Machine.execJrnlRead c s
  | .pwrSetDomain c => Sys2Proof.Machine.execPwrSetDomain c s
  | .pwrGetDomains c => Sys2Proof.Machine.execPwrGetDomains c s
  | .pwrQuiesce c => Sys2Proof.Machine.execPwrQuiesce c s
  | .pwrReset c => Sys2Proof.Machine.execPwrReset c s
  | .secGetIdentity c => Sys2Proof.Machine.execSecGetIdentity c s
  | .secAttest c => Sys2Proof.Machine.execSecAttest c s
  | .secSetCmdKey c => Sys2Proof.Machine.execSecSetCmdKey c s
  | .secSetSignPolicy c => Sys2Proof.Machine.execSecSetSignPolicy c s
  | .secOtpRotate c => Sys2Proof.Machine.execSecOtpRotate c s
  | .secOtpRevoke c => Sys2Proof.Machine.execSecOtpRevoke c s
  | .secFwStage c => Sys2Proof.Machine.execSecFwStage c s
  | .secFwActivate c => Sys2Proof.Machine.execSecFwActivate c s
  | .mgmtDatagramReceive port f => Sys2Proof.Machine.execMgmtDatagramReceive port f s
  | .smbusBlockWrite target data pec => Sys2Proof.Machine.execSmbusBlockWrite target data pec s
  | .smbusBlockRead target => Sys2Proof.Machine.execSmbusBlockRead target s
  | .commandQueueRead q element => Sys2Proof.Machine.execCommandQueueRead q element s
  | .qzSnapTake value => Sys2Proof.Machine.execQzSnapTake value s
  | .erSwFire value => Sys2Proof.Machine.execErSwFire value s
  | .erCfire value => Sys2Proof.Machine.execErCfire value s
  | .erConfigWrite offset value => Sys2Proof.Machine.execErConfigWrite offset value s
  | .mxCtrlRemap value master => Sys2Proof.Machine.execMxCtrlRemap value master s
  | .rqDb q value => Sys2Proof.Machine.execRqDb q value s
  | .rqCfgEnable q value => Sys2Proof.Machine.execRqCfgEnable q value s
  | .btRecData value => Sys2Proof.Machine.execBtRecData value s
  | .btRecGo value => Sys2Proof.Machine.execBtRecGo value s
  | .hcInjAddr stack value => Sys2Proof.Machine.execHcInjAddr stack value s
  | .csrWrite addr value master => Sys2Proof.Machine.execCsrWrite addr value master s
  | .pcieInboundRead place len => Sys2Proof.Machine.execPcieInboundRead place len s
  | .pcieInboundWrite place data => Sys2Proof.Machine.execPcieInboundWrite place data s
  | .pcieOutboundTimeout user => Sys2Proof.Machine.execPcieOutboundTimeout user s
  | .ethFrameReceive port f => Sys2Proof.Machine.execEthFrameReceive port f s
  | .klpPacketReceive port bytes => Sys2Proof.Machine.execKlpPacketReceive port bytes s
  | .heldPartRelease => Sys2Proof.Machine.execHeldPartRelease s
  | .visitHoldExpiry channel visit => Sys2Proof.Machine.execVisitHoldExpiry channel visit s
  | .uncorrectableCodeword lane packets => Sys2Proof.Machine.execUncorrectableCodeword lane packets s
  | .sfmReceive lane block => Sys2Proof.Machine.execSfmReceive lane block s
  | .sfmTransmit port => Sys2Proof.Machine.execSfmTransmit port s
  | .laneLock lane step => Sys2Proof.Machine.execLaneLock lane step s
  | .polarityTryTimeout lane => Sys2Proof.Machine.execPolarityTryTimeout lane s
  | .bringupRetry lane => Sys2Proof.Machine.execBringupRetry lane s
  | .laneLockLoss lane cause => Sys2Proof.Machine.execLaneLockLoss lane cause s
  | .shedAgreeTimeout port => Sys2Proof.Machine.execShedAgreeTimeout port s
  | .eyeScanDone lane errors => Sys2Proof.Machine.execEyeScanDone lane errors s
  | .mcastReportRepeat port => Sys2Proof.Machine.execMcastReportRepeat port s
  | .mcastQueryResponse port => Sys2Proof.Machine.execMcastQueryResponse port s
  | .micaLoadStart => Sys2Proof.Machine.execMicaLoadStart s
  | .shedVisitSkip channel visit => Sys2Proof.Machine.execShedVisitSkip channel visit s
  | .micaLoadComplete => Sys2Proof.Machine.execMicaLoadComplete s
  | .visitStart => Sys2Proof.Machine.execVisitStart s
  | .visitDeadline channel visit => Sys2Proof.Machine.execVisitDeadline channel visit s
  | .tileVisitComplete slot upsets => Sys2Proof.Machine.execTileVisitComplete slot upsets s
  | .basaltVisitProcess => Sys2Proof.Machine.execBasaltVisitProcess s
  | .dumpPass channel => Sys2Proof.Machine.execDumpPass channel s
  | .dumpWeightFrames channel => Sys2Proof.Machine.execDumpWeightFrames channel s
  | .dumpDone channel => Sys2Proof.Machine.execDumpDone channel s
  | .roundEnd => Sys2Proof.Machine.execRoundEnd s
  | .slotMove slot tile => Sys2Proof.Machine.execSlotMove slot tile s
  | .slotWithdraw slot => Sys2Proof.Machine.execSlotWithdraw slot s
  | .beamSwapDone set => Sys2Proof.Machine.execBeamSwapDone set s
  | .chainVisitProcess chain => Sys2Proof.Machine.execChainVisitProcess chain s
  | .filterSwapDone => Sys2Proof.Machine.execFilterSwapDone s
  | .partialFrameReceive port f => Sys2Proof.Machine.execPartialFrameReceive port f s
  | .combineTimeout channel => Sys2Proof.Machine.execCombineTimeout channel s
  | .refInLock => Sys2Proof.Machine.execRefInLock s
  | .refInLoss => Sys2Proof.Machine.execRefInLoss s
  | .ppsEdge phase => Sys2Proof.Machine.execPpsEdge phase s
  | .ppsHoldoverTimeout => Sys2Proof.Machine.execPpsHoldoverTimeout s
  | .ptpMessageReceive port bytes => Sys2Proof.Machine.execPtpMessageReceive port bytes s
  | .ptpMessageSend port kind => Sys2Proof.Machine.execPtpMessageSend port kind s
  | .ptpHoldoverTimeout => Sys2Proof.Machine.execPtpHoldoverTimeout s
  | .suspectHoldoverTimeout => Sys2Proof.Machine.execSuspectHoldoverTimeout s
  | .pulseEdge gen => Sys2Proof.Machine.execPulseEdge gen s
  | .evtEdge pin edge => Sys2Proof.Machine.execEvtEdge pin edge s
  | .epochEvent => Sys2Proof.Machine.execEpochEvent s
  | .replicaDissent replica fault => Sys2Proof.Machine.execReplicaDissent replica fault s
  | .replicaRejoin replica => Sys2Proof.Machine.execReplicaRejoin replica s
  | .majorityReturn => Sys2Proof.Machine.execMajorityReturn s
  | .freranMessageReceive port message => Sys2Proof.Machine.execFreranMessageReceive port message s
  | .freranEchoSend ask => Sys2Proof.Machine.execFreranEchoSend ask s
  | .freranLinkTimeout port => Sys2Proof.Machine.execFreranLinkTimeout port s
  | .freranWindowClose => Sys2Proof.Machine.execFreranWindowClose s
  | .freranRearm => Sys2Proof.Machine.execFreranRearm s
  | .captureWindowClose => Sys2Proof.Machine.execCaptureWindowClose s
  | .segmentEnd => Sys2Proof.Machine.execSegmentEnd s
  | .autoForcedTrigger => Sys2Proof.Machine.execAutoForcedTrigger s
  | .segmentDone => Sys2Proof.Machine.execSegmentDone s
  | .eventDelivery => Sys2Proof.Machine.execEventDelivery s
  | .dmaDescriptorStart channel element => Sys2Proof.Machine.execDmaDescriptorStart channel element s
  | .dmaDescriptorComplete channel outcome => Sys2Proof.Machine.execDmaDescriptorComplete channel outcome s
  | .msixCoalesceExpiry q => Sys2Proof.Machine.execMsixCoalesceExpiry q s
  | .dmaDrainTimeout => Sys2Proof.Machine.execDmaDrainTimeout s
  | .scrubRead stack => Sys2Proof.Machine.execScrubRead stack s
  | .heartbeat core => Sys2Proof.Machine.execHeartbeat core s
  | .tokenExpiry => Sys2Proof.Machine.execTokenExpiry s
  | .watchdogExpiry core => Sys2Proof.Machine.execWatchdogExpiry core s
  | .coreFault fault => Sys2Proof.Machine.execCoreFault fault s
  | .standbyTakeover => Sys2Proof.Machine.execStandbyTakeover s
  | .coreBootClaim core => Sys2Proof.Machine.execCoreBootClaim core s
  | .challengeExpiry client => Sys2Proof.Machine.execChallengeExpiry client s
  | .pcieReset event => Sys2Proof.Machine.execPcieReset event s
  | .powerOnReset event => Sys2Proof.Machine.execPowerOnReset event s
  | .pwrResetFire => Sys2Proof.Machine.execPwrResetFire s
  | .bootRom core => Sys2Proof.Machine.execBootRom core s
  | .serviceBringUp report => Sys2Proof.Machine.execServiceBringUp report s
  | .domainPowerUpDone domain => Sys2Proof.Machine.execDomainPowerUpDone domain s
  | .domainFence domain outstanding => Sys2Proof.Machine.execDomainFence domain outstanding s
  | .quiescePinLow => Sys2Proof.Machine.execQuiescePinLow s
  | .quiescePinHigh => Sys2Proof.Machine.execQuiescePinHigh s
  | .quiesceDone => Sys2Proof.Machine.execQuiesceDone s
  | .quiesceTimeout => Sys2Proof.Machine.execQuiesceTimeout s
  | .journalCommitDone failing => Sys2Proof.Machine.execJournalCommitDone failing s
  | .compactionStepDone failing => Sys2Proof.Machine.execCompactionStepDone failing s
  | .auditStepDue => Sys2Proof.Machine.execAuditStepDue s
  | .auditStep => Sys2Proof.Machine.execAuditStep s
  | .faultMove slot => Sys2Proof.Machine.execFaultMove slot s
  | .bistDone tile pass rows => Sys2Proof.Machine.execBistDone tile pass rows s
  | .egressFrameSent port => Sys2Proof.Machine.execEgressFrameSent port s
  | .pulseTrailingEdge gen => Sys2Proof.Machine.execPulseTrailingEdge gen s
  | .quiesceAckPulseEnd => Sys2Proof.Machine.execQuiesceAckPulseEnd s
  | .mgmtLinkChange port up => Sys2Proof.Machine.execMgmtLinkChange port up s
  | .pcieLinkUp gen width => Sys2Proof.Machine.execPcieLinkUp gen width s

end Sys2Proof.Machine
end

