-- ==== Sys2Proof/Safety.lean ====
section
/-! DEFINITION. The terms that claims use: a command that passes every check, what is said of a command that is executed at
once and of one that waits for its journal group, and the invariants of a safe run. -/

namespace Sys2Proof.Machine

/-! ## A command that passes the checks of R390 -/

/-- What the checks leave for the execution of a command. -/
structure Taken where
  /-- the command as stamped -/
  what : Waiting
  /-- the state with the command counted and its client's entry and sequence number brought forward -/
  before : State
  /-- the command, a time tag's index put into its parameters (R298) -/
  cmd : Cmd
  /-- the state its execution starts from: the owner's lease has been renewed (R395) -/
  at_ : State
  deriving DecidableEq, Repr

/-- Checks 3 to 6 of R390 let the command through, and it does not have to wait for PD95 (R535). -/
def State.checked (s : State) (spec : OpSpec) (w : Waiting) : Option Taken :=
  match s.judged spec.row w.cmd w.stamp with
  | .ok (u, params) =>
    if s.cryptoWait spec.row w then none else some { what := w, before := s, cmd := { w.cmd with params := params }, at_ := u }
  | .error _ => none

/-- R390: the command is new, nothing is before it, and every check up to the parameter length lets it through. -/
def State.takes (s : State) (spec : OpSpec) (c : Cmd) : Option Taken :=
  let w : Waiting := ⟨spec.row.code, c, if c.v2 then spec.row.code else spec.row.v1, none, s.ns⟩
  if c.wf && (c.v2 || spec.row.v1 ≠ 0) && s.free && s.own.order = [] then
    match (s.counted w).entered w with
    | some (s2, .fresh) => (s2.advanced w).checked spec w
    | _ => none
  else none

/-! ## What is claimed of a command -/

/-- Whenever the command is taken and `good` holds of its parameters and the state it meets, it is executed at once, and
`holds` relates parameters, that state, and the result that is answered. -/
def Executes (i : Cmd → Instr) (spec : OpSpec) (good : Cmd → State → Bool) (holds : Cmd → State → Res → Prop) : Prop :=
  ∀ (s : State) (c : Cmd) (k : Taken), s.takes spec c = some k → good k.cmd k.at_ = true →
    ∃ r, exec (i c) s = .next (s.settled (State.answer k.before k.what spec.row r)) ∧ holds k.cmd k.at_ r

/-- The command as it waits for its group: the tag is in its parameters. -/
def Taken.held (k : Taken) : Waiting := { k.what with cmd := { k.cmd with tag := none } }

/-- R503: the command hands its records to the journal engine, and nothing is applied yet. -/
def HandsOver (i : Cmd → Instr) (spec : OpSpec) (good : Cmd → State → Bool) : Prop :=
  ∀ (s : State) (c : Cmd) (k : Taken), s.takes spec c = some k → good k.cmd k.at_ = true →
    snapshotSize (spec.body k.cmd k.at_).st.snapshot ≤ 1048576 → s.jrnl.full = false →
    exec (i c) s = .next (s.settled (k.before.awaitGroup k.held (spec.records k.held.cmd k.before)))

/-- The state in which a command is executed whose group has just gone into flash. -/
def State.committed (s : State) (w : Waiting) (failing : List Nat) : State :=
  (s.commitOldest failing).1.noteRecorded.mapOwn fun o => { o with executing := none, stamp := w.stamp, accepted := true }

/-- R503: once its group has committed, the command takes effect and is answered. -/
def CommitApplies (spec : OpSpec) (good : Cmd → State → Bool) (holds : Cmd → State → Res → Prop) : Prop :=
  ∀ (s : State) (w : Waiting) (g : JGroup) (rest : List JGroup) (failing : List Nat) (x : Nat) (d : List Byte),
    s.mayCommit = true → s.mc.inGap = false → s.jrnl.groups = g :: rest → g.forCommand = true → w.code = spec.row.code →
    (s.commitOldest failing).2 = true → (s.commitOldest failing).1.own.executing = some ⟨w, .journal, x, d⟩ →
    good w.cmd (s.committed w failing) = true →
    ∃ r, exec (.journalCommitDone failing) s =
        .next (s.settled (State.answer (s.committed w failing) w spec.row r).resume) ∧
      holds w.cmd (s.committed w failing) r

/-- A journalled command: it waits for its group, and takes effect when the group has committed. -/
def Journalled (i : Cmd → Instr) (spec : OpSpec) (good : Cmd → State → Bool) (holds : Cmd → State → Res → Prop) : Prop :=
  HandsOver i spec good ∧ CommitApplies spec good holds

/-- A read: the reply begins with these bytes, and nothing else changes. -/
def Reads (i : Cmd → Instr) (spec : OpSpec) (good : Cmd → State → Bool) (first : Cmd → State → List Byte) : Prop :=
  Executes i spec good fun c u r => r.status = stOk ∧ r.st = u ∧ ∃ rest, r.data = first c u ++ rest

/-- A setting: it is answered OK without data, and this is the state it leaves. -/
def Sets (i : Cmd → Instr) (spec : OpSpec) (good : Cmd → State → Bool) (after : Cmd → State → State) : Prop :=
  Executes i spec good fun c u r => r.status = stOk ∧ r.data = [] ∧ r.st = after c u

/-- A journalled setting. -/
def SetsJournalled (i : Cmd → Instr) (spec : OpSpec) (good : Cmd → State → Bool) (after : Cmd → State → State) : Prop :=
  Journalled i spec good fun c u r => r.status = stOk ∧ r.data = [] ∧ r.st = after c u

/-- Whenever the command is taken and `bad` holds, it is answered with this status and offset, and nothing is applied. -/
def Rejects (i : Cmd → Instr) (spec : OpSpec) (bad : Cmd → State → Bool) (status off : Nat) : Prop :=
  Executes i spec bad fun _ u r => r.status = status ∧ r.off = off ∧ r.st = u

/-- The queue that RING_CREATE takes: the one named, or for 0xFFFF the lowest that is free. -/
def State.queuePlace (s : State) (q : Nat) : Option Nat :=
  if q = 0xFFFF then (List.range 4096).find? fun i => 8 ≤ i && !(s.queue i).enable else some q

/-- Only the owner's command of this row gets past the ownership check (R390, R396). -/
def NeedsOwner (row : OpRow) : Prop :=
  ∀ (s : State) (c : Cmd) (n : Nat), (s.mapOwn fun o => { o with stamp := n }).authOk c row n = true →
    s.own.isOwner c.client = false → ∃ u, s.judged row c n = .error (.fail stNotOwner u)

/-! ## What is claimed of an event -/

/-- The event leads from `s` to `t`, after which the domains follow. -/
def Happens (i : Instr) (s t : State) : Prop := exec i s = .next (s.settled t)

/-- The event happens, and what it leads to, before the domains follow, is as `p` says. -/
def HappensTo (i : Instr) (s : State) (p : State → Prop) : Prop := ∃ t, Happens i s t ∧ p t

/-! ## Invariants -/

/-- R513, R517: no domain that its mode and rule want is OFF, and none that they do not want is ON. -/
def State.DomainsFollow (s : State) : Prop :=
  s.managed = true → ∀ d < 96,
    (s.wantsOn d = true → (s.domain d).state ≠ .off) ∧ (s.wantsOn d = false → (s.domain d).state ≠ .on)

/-- HBM, working SRAM and flash are held in canonical form. -/
def State.memoryWf (s : State) : Bool := Memory.wf 0 s.mem.hbm && Memory.wf 0 s.mem.sram && Memory.wf 0xFF s.flash

end Sys2Proof.Machine
end

