-- ==== Sys2Proof/Certificates/Slice0/Obligations.lean ====
section
/-! DEFINITION. What is claimed of the block: its step, its commands group by group, its events chapter by chapter, and its
invariants. A setting's claim names the parameters and the state under which it is executed and the whole state it leaves;
a read's claim gives the first bytes of its reply; an event's claim names where it happens and what it leads to. -/

open Sys2Proof Sys2Proof.Machine

/-- A step is exec of the command or event at the front of the queue on the state with the queue's rest. On an empty queue
one Quartz tick passes, which is the model's choice (DESIGN CHOICE, log entry 1). (R389). -/
def Obligations.StepTakesTheFront : Prop :=
  (∀ (s : State) (c : Instr) (rest : List Instr), step { s with pending := c :: rest } = exec c { s with pending := rest }) ∧
  (∀ s : State, s.pending = [] → step s = .next (s.settled s.tick.countCorrected))

/-- For every instruction and every state: a well-formed instruction leads to a next state and leaves the queue of those
that wait as it was, and an ill-formed one, which nothing can present, faults with illFormed (DESIGN CHOICE, log entry 6).
(R386, R389, R390). -/
def Obligations.EveryCommandCompletes : Prop :=
  (∀ (i : Instr) (s : State), i.wf = true → ∃ t, exec i s = .next t ∧ t.pending = s.pending) ∧
  (∀ (i : Instr) (s : State), i.wf = false → exec i s = .fault .illFormed)

/-- After reset nothing is pending, nobody owns the device, no core holds the token, no queue is enabled and no channel
configured, no layout is loaded, a majority holds time zero without a mapping, the phase is RESET, every domain is OFF in
mode AUTO, the audit interval is 600 s, quiesce_ms is 5,000 and REMAP is clear; the router is FIXED, every consumer stands
on producer P000 but decimator reset, whose link 0 from P187 alone is enabled, and no producer feeds a queue. That no
layout is loaded and no producer feeds a queue are the model's values (DESIGN CHOICE, log entry 33), that the queue of
commands and all that is in progress are empty its reading (DEDUCED, log entry 35). (R279, R374, R395, R457, R476, R508,
R513, R524, R532, R538, R539). -/
def Obligations.ResetStateIsAsSpecified : Prop :=
  State.reset.pending = [] ∧ State.reset.own.mode = .unowned ∧ State.reset.own.owner = none ∧ State.reset.mc.token = none ∧
  (∀ n, (State.reset.queue n).enable = false) ∧ (∀ n, (State.reset.dma n).mode = .off) ∧ State.reset.tile.sched = .none ∧
  State.reset.tile.layout = none ∧ State.reset.majority = true ∧ State.reset.now = 0 ∧ State.reset.qz.mapping = none ∧
  State.reset.pwr.phase = 0 ∧ (∀ d, (State.reset.domain d).state = .off ∧ (State.reset.domain d).mode = 0) ∧
  State.reset.spare.auditS = 600 ∧ State.reset.pwr.quiesce.pinMs = 5000 ∧ State.reset.mem.remap = false ∧
  -- the router: mode FIXED, every consumer on producer P000 but "decimator reset" on P187, whose link 0 alone is enabled
  State.reset.er.mode = 0 ∧
  (∀ n < 128, kvGet 0 State.reset.er.sel n = (if n = 73 then 187 else 0) ∧
    kvGet 0 State.reset.er.fixEn n = (if n = 73 then 1 else 0)) ∧
  (∀ p < 256, kvGet 0xFFFF State.reset.er.pqueue p = 0xFFFF)

/-- For every state that meets the invariant, not only those a run reaches: after a step, while domains are managed, no
domain that its mode or its AUTO rule wants is OFF, and none that they do not want is ON. (R513, R515, R517). -/
def Obligations.DomainsFollowTheirRules : Prop := ∀ s t : State, s.DomainsFollow → step s = .next t → t.DomainsFollow

/-- For every state whose HBM, working SRAM and flash are held in canonical form, not only those a run reaches: after any
step, whatever command or event it takes, they still are. What an unlisted byte reads as is the model's choice (DESIGN
CHOICE, log entry 7). (R425, R433, R436, R503, R527). -/
def Obligations.EveryStepKeepsTheMemory : Prop := ∀ s t : State, s.memoryWf = true → step s = .next t → t.memoryWf = true

/-- A piece of PCIe that lies in one 256-byte line of HBM, with its stack's domain ON and outside the banks of the beams
and the areas of channels, is written with OK; a read of it gives the bytes written, and every other byte of HBM, all of
working SRAM and all of flash are as before. Words with an error that waits are left out. (R433, R436, R444). -/
def Obligations.HbmReadsBackWhatWasWritten : Prop :=
  ∀ (s : State) (off : Nat) (bs : List Byte), bs ≠ [] → off % 256 + bs.length ≤ 256 → off + bs.length ≤ 0x1800000000 →
    s.memoryWf = true → s.domainOn (76 + stackOf off) = true →
    (∀ c ∈ cuts 32 off bs.length, kvGet 0 s.mem.bad (c.1 / 32 * 32) = 0 ∧
      kvGet 0 (s.mem.hc (stackOf (c.1 / 32 * 32))).parity (c.1 / 32 * 32) = 0) →
    (∀ a, off ≤ a → a < off + bs.length → s.bankAt a = none ∧ s.areaAt a = none) →
    ∃ t : State, s.busPiece 2 (0x1000000000 + off) bs = (t, .ok) ∧
      (t.readRange 2 (0x1000000000 + off) bs.length).data = bs ∧ (t.readRange 2 (0x1000000000 + off) bs.length).fail = none ∧
      (∀ a, (a < off ∨ off + bs.length ≤ a) → kvGet 0 t.mem.hbm a = kvGet 0 s.mem.hbm a) ∧
      t.mem.sram = s.mem.sram ∧ t.flash = s.flash

/-- At reset the domains are as their rules want them, and HBM, working SRAM and flash are held in canonical form. That
the memories list nothing is the model's choice (DESIGN CHOICE, log entry 7). (R513, R520). -/
def Obligations.ResetMeetsTheInvariants : Prop := State.reset.DomainsFollow ∧ State.reset.memoryWf = true

/-- In RECOVERY, a write of BT_REC_DATA stores its eight bytes little-endian at BT_REC_ADDR, which advances by 8; every
other byte of working SRAM, all of HBM and all of flash are as before, and the memories keep their canonical form. (R527,
R538). -/
def Obligations.RecoveryWritesEightBytes : Prop :=
  ∀ (s : State) (v : Nat), v < 2 ^ 64 → s.pwr.phase = 5 → s.pwr.recAddr + 8 ≤ 0x400000 → s.memoryWf = true →
    HappensTo (.btRecData v) s fun t => memRead 0 t.mem.sram s.pwr.recAddr 8 = leBytes 8 v ∧
      (∀ a, (a < s.pwr.recAddr ∨ s.pwr.recAddr + 8 ≤ a) → kvGet 0 t.mem.sram a = kvGet 0 s.mem.sram a) ∧
      t.mem.hbm = s.mem.hbm ∧ t.flash = s.flash ∧ t.memoryWf = true ∧ t.pwr.recAddr = (s.pwr.recAddr + 8) % 0x400000

/-- Answering a result changes, beyond the state it came with, the protocol's records, what is sent, and the power
domains: time, ingest, the tiles, filters, overload, Freran, capture, ports, flash, the split and the token are as the
command left them. So are staging, Basalt, dumps, beams, memory, queues, the router, spares and journal, unless the reply
goes to a completion queue, whose element is a write of memory. A reply to SEC_FW_ACTIVATE resets the device once it has
left. (R386, R391, R399, R408, R539). -/
def Obligations.AnsweringKeepsTheDataPath : Prop :=
  (∀ (before : State) (w : Waiting) (row : OpRow) (r : Res), r.st.pwr.fwReset = false →
    ∃ t : State, State.answer before w row r = t ∧ t.qz = r.st.qz ∧ t.ing = r.st.ing ∧ t.tile = r.st.tile ∧
      t.filt = r.st.filt ∧ t.load = r.st.load ∧ t.fr = r.st.fr ∧ t.cap = r.st.cap ∧ t.port = r.st.port ∧
      t.flash = r.st.flash ∧ t.split = r.st.split ∧ t.ns = r.st.ns ∧ t.mc.token = r.st.mc.token ∧
      t.mc.inGap = r.st.mc.inGap ∧ t.pending = r.st.pending ∧
      (w.cmd.client.ep ≠ 0 → t.stg = r.st.stg ∧ t.bas = r.st.bas ∧ t.dump = r.st.dump ∧ t.beam = r.st.beam ∧
        t.mem = r.st.mem ∧ t.ring = r.st.ring ∧ t.er = r.st.er ∧ t.spare = r.st.spare ∧ t.jrnl = r.st.jrnl)) ∧
  (∀ (before : State) (w : Waiting) (row : OpRow) (r : Res), r.st.pwr.fwReset = true →
    (State.answer before w row r).own.executing = none →
    ∃ u : State, State.answer before w row r = u.deviceReset 3 ∧ u.flash = r.st.flash ∧ u.qz = r.st.qz)

/-- A packet that is malformed but can be answered is answered at once. A repeated command is answered from the reply
cache and executes nothing, an older one is STALE_SEQ, a client for which the table has no room gets RESOURCE, and an
undefined opcode BAD_OPCODE. Then a command whose signature fails is NOT_AUTH; one of a non-owner, or from EP3, is
NOT_OWNER; a QUIESCED device answers BUSY to what it does not serve; parameters of the wrong length are BAD_PARAM at their
offset; and no version 1 packet reaches an opcode without a version 1 code. (R385, R388, R390, R391, R392, R411, R412,
R534). -/
def Obligations.ChecksComeInOrder : Prop :=
  (∀ (s : State) (row : OpRow) (c : Cmd) (n : Nat), (s.mapOwn fun o => { o with stamp := n }).authOk c row n = false →
    ∃ u, s.judged row c n = .error (.fail stNotAuth u)) ∧
  (∀ (s : State) (row : OpRow) (c : Cmd) (n : Nat), (s.mapOwn fun o => { o with stamp := n }).authOk c row n = true →
    row.access = .owner → s.own.isOwner c.client = false → ∃ u, s.judged row c n = .error (.fail stNotOwner u)) ∧
  (∀ (s : State) (row : OpRow) (c : Cmd) (n : Nat), (s.mapOwn fun o => { o with stamp := n }).authOk c row n = true →
    row.access ≠ .read → c.client.ep = 3 → ∃ u, s.judged row c n = .error (.fail stNotOwner u)) ∧
  (∀ (s : State) (row : OpRow) (c : Cmd) (n off : Nat), (s.mapOwn fun o => { o with stamp := n }).authOk c row n = true →
    row.access = .read → c.tag = none → row.layout.lengthError c.params = some off →
    ∃ u, s.judged row c n = .error (.bad off u)) ∧
  (∀ (s : State) (row : OpRow) (c : Cmd) (n : Nat), (s.mapOwn fun o => { o with stamp := n }).authOk c row n = true →
    row.access = .owner → s.own.isOwner c.client = true → c.client.ep ≠ 3 → c.tag = none → s.pwr.phase = 7 →
    quiescedAllows row c.params = false → ∃ u, s.judged row c n = .error (.fail stBusy u)) ∧
  (∀ spec : OpSpec, spec.row.v1 = 0 → spec.reachable false = none) ∧
  -- before all this, the sequence number (R391): a repeated command is answered from the reply cache, and nothing is executed
  (∀ (s u : State) (spec : Option OpSpec) (w : Waiting) (packet : List Byte), w.verdict = none →
    (s.counted w).entered w = some (u, .duplicate packet) → s.process spec w =
      (u.count w.cmd.client.ep fun k => { k with duplicates := k.duplicates + 1 }).sendReply w.cmd.client w.cmd.via
        (repeated w.cmd.v2 packet)) ∧
  (∀ (s u : State) (spec : Option OpSpec) (w : Waiting), w.verdict = none → (s.counted w).entered w = some (u, .stale) →
    s.process spec w = u.finish w stStaleSeq (u.errorDetail 0xFFFF)) ∧
  -- a client for which the table has no room is answered RESOURCE (R392), uncached
  (∀ (s : State) (spec : Option OpSpec) (w : Waiting), w.verdict = none → (s.counted w).entered w = none →
    s.process spec w = (s.counted w).sendReply w.cmd.client w.cmd.via
      (replyBytes w.cmd.v2 w.wireCode w.cmd.seq stResource ((s.counted w).errorDetail 0xFFFF))) ∧
  -- an undefined opcode is BAD_OPCODE, once its sequence number is taken
  (∀ (s u : State) (w : Waiting), w.verdict = none → (s.counted w).entered w = some (u, .fresh) →
    s.process none w = (u.advanced w).finish w stBadOpcode ((u.advanced w).errorDetail 0xFFFF)) ∧
  -- a new command of a defined opcode goes through checks 3 to 6
  (∀ (s u : State) (spec : OpSpec) (w : Waiting) (r : Res), w.verdict = none →
    (s.counted w).entered w = some (u, .fresh) → (u.advanced w).cryptoWait spec.row w = false →
    (u.advanced w).judged spec.row w.cmd w.stamp = .error r →
    s.process (some spec) w = State.answer (u.advanced w) w spec.row r) ∧
  -- a malformed packet that can be answered is answered at once (R385): no check, no cache
  (∀ (s : State) (spec : Option OpSpec) (w : Waiting) (st : Nat), w.verdict = some st →
    s.process spec w = s.sendReply w.cmd.client w.cmd.via
      (replyBytes w.cmd.v2 w.wireCode w.cmd.seq st (s.errorDetail 0xFFFF)))

/-- PWR_SET_OP requires the owner. It hands its parameters to the journal as record 0x0C10, and when the group has
committed the point is declared and the reply is OK. A point that is not 1 to 5 is BAD_PARAM; one that the loaded
schedules do not fit is RESOURCE, and the declaration is unchanged. (R48). -/
def Obligations.OperatingPointIsDeclared : Prop :=
  NeedsOwner rowPwrSetOp ∧
  (∀ (s : State) (c : Cmd), specPwrSetOp.records c s = [(0x0C10, c.params)]) ∧
  SetsJournalled .pwrSetOp specPwrSetOp
    (fun c u => decide (1 ≤ fld c.params 0 1 ∧ fld c.params 0 1 ≤ 5) && !u.replaying &&
      (u.mapLoad fun l => { l with op := fld c.params 0 1, source := 2 }).admitted)
    (fun c u => { u with load := { u.load with op := fld c.params 0 1, source := 2 } }) ∧
  Executes .pwrSetOp specPwrSetOp (fun c _ => decide (fld c.params 0 1 = 0 ∨ 5 < fld c.params 0 1))
    (fun _ u r => r.status = stBadParam ∧ r.off = 0 ∧ r.st = u) ∧
  Executes .pwrSetOp specPwrSetOp
    (fun c u => decide (1 ≤ fld c.params 0 1 ∧ fld c.params 0 1 ≤ 5) && !u.replaying &&
      !(u.mapLoad fun l => { l with op := fld c.params 0 1, source := 2 }).admitted)
    (fun _ u r => r.status = stResource ∧ r.st = u)

/-- PWR_GET_OP reports the declared point and its source. CORR_SET_SHED takes the overcommit setting at once and the rest
of the policy at the next round. CORR_GET_LOAD begins with the shed state, the point, S and its maximum. What
CORR_GET_LOAD shows with no layout is the model's choice (DESIGN CHOICE, log entry 104). (R27, R41, R42, R49, R50, R51).
-/
def Obligations.OverloadCommandsAct : Prop :=
  Reads .pwrGetOp specPwrGetOp (fun _ _ => true) (fun _ u => beBytes 1 u.load.op ++ beBytes 1 u.load.source) ∧
  Sets .corrSetShed specCorrSetShed
    (fun c _ => decide (fld c.params 0 1 ≤ 1 ∧ fld c.params 1 1 ≤ 1 ∧ 1 ≤ fld c.params 2 1 ∧ 1 ≤ fld c.params 3 1 ∧
      16 ≤ fld c.params 4 2 ∧ fld c.params 4 2 ≤ 4096 ∧ 1 ≤ fld c.params 6 1 ∧ fld c.params 6 1 ≤ 8))
    (fun c u => { u with load := { u.load with
      policy := { u.load.policy with overcommit := decide (fld c.params 1 1 = 1) },
      nextPolicy := some { auto := decide (fld c.params 0 1 = 1), overcommit := decide (fld c.params 1 1 = 1),
                           entryDrops := fld c.params 2 1, entryWindow := fld c.params 3 1, relaxRounds := fld c.params 4 2,
                           slackFactor := fld c.params 6 1 } } }) ∧
  Reads .corrGetLoad specCorrGetLoad (fun _ _ => true) (fun _ u =>
    beBytes 1 (b2n u.load.shed) ++ beBytes 1 u.load.op ++ zeros 2 ++ beBytes 4 u.load.s ++ beBytes 4 u.load.shedMax)

/-- Each is journalled and takes effect with its group, given parameters in range, no live schedule, every HBM stack on
and limits that hold; a layout that is loaded stands LOADED and not stopped. CORR_SET_LAYOUT is BUSY while a schedule is
live. (R39, R165, R344, R365, R449). -/
def Obligations.ShapeCommandsAct : Prop :=
  SetsJournalled .corrSetLayout specCorrSetLayout
    (fun c u => (firstBad (layoutChecks (fld c.params 0 1) (layoutAt c.params))).isNone &&
      (firstBad (u.settingChecks (layoutAt c.params))).isNone && !u.schedLive && !u.hbmAway && !u.replaying &&
      (u.loadLayout (layoutAt c.params)).slotsSuffice && (u.loadLayout (layoutAt c.params)).admitted)
    (fun c u => u.loadLayout (layoutAt c.params)) ∧
  (∀ (s : State) (l : CorrLayout), (s.loadLayout l).tile.layout = some l ∧ (s.loadLayout l).tile.sched = .loaded ∧
    (s.loadLayout l).tile.stop = none) ∧
  Executes .corrSetLayout specCorrSetLayout
    (fun c u => (firstBad (layoutChecks (fld c.params 0 1) (layoutAt c.params))).isNone &&
      (firstBad (u.settingChecks (layoutAt c.params))).isNone && u.schedLive)
    (fun _ u r => r.status = stBusy ∧ r.st = u) ∧
  SetsJournalled .corrSetSplit specCorrSetSplit
    (fun c u => let k := u.bas.combine
      [1, 2, 4, 8].contains (fld c.params 0 1) && decide (fld c.params 1 1 < fld c.params 0 1) &&
      decide ((k.role ≠ 0 → fld c.params 0 1 = k.parts) ∧ (k.role = 1 → fld c.params 1 1 = k.part) ∧
        (k.role = 2 → k.localLeaf ≠ 0xFF → fld c.params 1 1 = k.localLeaf)) &&
      decide (fld c.params 8 4 ≤ 16384) && !u.schedLive && (decide (fld c.params 8 4 = 0) || !u.hbmAway) && !u.replaying &&
      ({ u with split := { parts := fld c.params 0 1, index := fld c.params 1 1, group := fld c.params 2 2,
                           psxUdp := fld c.params 4 2, mib := fld c.params 8 4 } } : State).admitted)
    (fun c u => { u with split := { parts := fld c.params 0 1, index := fld c.params 1 1, group := fld c.params 2 2,
                                    psxUdp := fld c.params 4 2, mib := fld c.params 8 4 } }) ∧
  SetsJournalled .capSetRing specCapSetRing
    (fun c u => decide (fld c.params 0 2 ≤ 8192 ∧ fld c.params 2 2 < u.loadedN ∧ 1 ≤ fld c.params 4 2 ∧
        fld c.params 4 2 ≤ 4096 ∧ fld c.params 2 2 + fld c.params 4 2 ≤ u.loadedN ∧ fld c.params 6 2 < u.loadedChannels ∧
        1 ≤ fld c.params 8 2 ∧ fld c.params 8 2 ≤ 4096 ∧ fld c.params 6 2 + fld c.params 8 2 ≤ u.loadedChannels) &&
      !u.schedLive && decide (u.cap.segs = []) && (decide (fld c.params 0 2 = 0) || !u.hbmAway) &&
      (u.replaying || (u.mapCap fun d => { d with
        sel := ⟨fld c.params 0 2, fld c.params 2 2, fld c.params 4 2, fld c.params 6 2, fld c.params 8 2⟩,
        blocks := [], reused := [] }).admitted))
    (fun c u => u.mapCap fun d => { d with
      sel := ⟨fld c.params 0 2, fld c.params 2 2, fld c.params 4 2, fld c.params 6 2, fld c.params 8 2⟩,
      blocks := [], reused := [] }) ∧
  SetsJournalled .memSetHost specMemSetHost
    (fun c u => decide (fld c.params 0 4 % 64 = 0 ∧ fld c.params 0 4 ≤ 65536) && u.residualsIn (fld c.params 0 4) &&
      u.queueOk (fld c.params 4 2) 5 &&
      (decide (fld c.params 0 4 = u.mem.hostMib) || (!u.schedLive && (decide (fld c.params 0 4 = 0) || !u.hbmAway))) &&
      (u.replaying || ({ u with mem := { u.mem with hostMib := fld c.params 0 4, logQueue := fld c.params 4 2 } } : State).memoryFits))
    (fun c u => { u with mem := { u.mem with hostMib := fld c.params 0 4, logQueue := fld c.params 4 2 } })

/-- PORT_SET_QUAD leaves the quad as configured with its lanes unlocked and its ports restarted, and names the entry its
layout does not allow; PORT_SET_LANE leaves the lane as set, unlocked where its polarity or preset changed or its receiver
is disabled, and its port as the lane's loss leaves it; PORT_SET_KLP gives a duplex KLP port the settings that its next
superframe takes up, a simplex one its settings at once, and is BAD_PARAM on any other port. That PORT_SET_QUAD clears
sf_count and counts no loss, and that a simplex KLP port takes its settings at once, are the model's choice (DESIGN
CHOICE, log entry 104); that a rate OFF reads no port entry is its reading (log entry 76). (R55, R56, R77, R81, R82, R83).
-/
def Obligations.PortSettingsAct : Prop :=
  Journalled .portSetQuad specPortSetQuad
    (fun c _ => decide (fld c.params 0 1 ≤ 19 ∧ fld c.params 1 1 ≤ 4 ∧ fld c.params 2 1 ≤ 2 ∧ fld c.params 3 1 ≤ 3) &&
      (decide (fld c.params 1 1 = 0) ||
        (badPortEntry (fld c.params 1 1) (fld c.params 2 1) c.params (layoutPorts (fld c.params 3 1))).isNone))
    (fun c u r =>
      let first := 4 * fld c.params 0 1
      -- the state once the four ports have gone down
      let down := (List.range 4).foldl (fun w j => w.enterPort (first + j) 0) u
      r.status = stOk ∧ r.data = [] ∧
      r.st.port.quads = kvSet Quad.init u.port.quads (fld c.params 0 1)
        { rate := fld c.params 1 1, role := fld c.params 2 1, layout := fld c.params 3 1,
          modes := (List.range 4).map fun j => fld c.params (4 + 2 * j) 1,
          roles := (List.range 4).map fun j => fld c.params (5 + 2 * j) 1 } ∧
      r.st.port.lanes = (List.range 4).foldl (fun m j =>
        let v := kvGet Lane.init m (first + j)
        kvSet Lane.init m (first + j) { v with
          signal := false, cdr := false, block := false, align := false, laneId := none, rxInv := decide (v.rxPol = 2),
          txInv := decide (v.txPol = 2), invSeen := 0, tryAt := u.ns, retryAt := u.ns }) u.port.lanes ∧
      r.st.port.ports = (List.range 4).foldl (fun m j => kvSet Port.init m (first + j) { kvGet Port.init m (first + j) with
          shedMap := 0, pendingSheds := [], partnerSeen := false, partnerFlags := 0, partnerGood := 0, partnerActive := 0,
          partnerSf := none, rxGood := 0, txActive := 0, sfCount := 0, sfAt := 0 }) down.port.ports ∧
      (∀ e ∈ r.st.port.scans, e.1 / 4 = fld c.params 0 1 → e.2.running = false) ∧
      { r.st with port := down.port } = down ∧
      r.st.load = u.load ∧ r.st.qz = u.qz ∧ r.st.tile = u.tile ∧ r.st.own = u.own) ∧
  Executes .portSetQuad specPortSetQuad
    (fun c _ => decide (fld c.params 0 1 ≤ 19 ∧ 1 ≤ fld c.params 1 1 ∧ fld c.params 1 1 ≤ 4 ∧ fld c.params 2 1 ≤ 2 ∧
        fld c.params 3 1 ≤ 3) &&
      (badPortEntry (fld c.params 1 1) (fld c.params 2 1) c.params (layoutPorts (fld c.params 3 1))).isSome)
    (fun c u r => r.status = stBadParam ∧ r.st = u ∧
      badPortEntry (fld c.params 1 1) (fld c.params 2 1) c.params (layoutPorts (fld c.params 3 1)) = some r.off) ∧
  Journalled .portSetLane specPortSetLane
    (fun c u => decide (fld c.params 0 1 ≤ 79 ∧ fld c.params 1 1 ≤ 2 ∧ fld c.params 2 1 ≤ 2 ∧ fld c.params 3 1 ≤ 15 ∧
        fld c.params 4 1 ≤ 2 ∧ fld c.params 5 1 ≤ 2) &&
      (decide (fld c.params 2 1 ≠ 0) ||
        (match u.portOfLane (fld c.params 0 1) with | some (_, k) => decide (k.mode = 8) | none => false)))
    (fun c u r =>
      let p := c.params
      let l := fld p 0 1
      let v := u.lane l
      let relocks := v.rxPol ≠ fld p 1 1 ∨ v.txPol ≠ fld p 2 1 ∨ v.preset ≠ fld p 3 1
      let sleeps := (v.rxState = 0 ∧ fld p 5 1 ≠ 0) ∨ (v.txState = 0 ∧ fld p 4 1 ≠ 0)
      r.status = stOk ∧ r.data = [] ∧
      ∃ w : Lane, w.rxPol = fld p 1 1 ∧ w.txPol = fld p 2 1 ∧ w.preset = fld p 3 1 ∧ w.txState = fld p 4 1 ∧
        w.rxState = fld p 5 1 ∧ w.tryAt = u.ns ∧ w.retryAt = u.ns ∧ w.lockLosses = v.lockLosses ∧ w.flips = v.flips ∧
        (relocks ∨ fld p 5 1 ≠ 0 → w.signal = false ∧ w.cdr = false ∧ w.block = false ∧ w.align = false ∧ w.laneId = none ∧
          w.rxInv = decide (fld p 1 1 = 2)) ∧
        (¬ relocks → fld p 5 1 = 0 → w.signal = v.signal ∧ w.cdr = v.cdr ∧ w.block = v.block ∧ w.align = v.align ∧
          w.laneId = v.laneId ∧ w.rxInv = v.rxInv) ∧
        (v.txPol ≠ fld p 2 1 → w.txInv = decide (fld p 2 1 = 2)) ∧ (v.txPol = fld p 2 1 → w.txInv = v.txInv) ∧
        (u.portOfLane l = none → r.st = (u.setLane l w) ∨ r.st = (u.setLane l w).abortScan l) ∧
        (∀ q k, u.portOfLane l = some (q, k) →
          (¬ relocks → ¬ sleeps → r.st = (u.setLane l w).settlePort q) ∧
          (relocks ∨ sleeps → k.mode ≠ 8 → r.st = ((u.setLane l w).laneLost l v).abortScan l) ∧
          (relocks ∨ sleeps → k.mode = 8 → r.st = ((u.setLane l w).laneLost l v).abortScan l ∨
            r.st = (((u.setLane l w).laneLost l v).abortScan l).settlePort q))) ∧
  SetsJournalled .portSetKlp specPortSetKlp
    (fun c u => (match u.portCfg (fld c.params 0 1) with | some k => decide (k.mode = 8) | none => false) &&
      decide (fld c.params 0 1 ≤ 79 ∧ fld c.params 1 1 ≤ 1 ∧ 1 ≤ fld c.params 2 1 ∧ fld c.params 2 1 ≤ 8))
    (fun c u => u.setPort (fld c.params 0 1) { u.portAt (fld c.params 0 1) with
      nextKlp := some (decide (fld c.params 1 1 = 1), fld c.params 2 1) }) ∧
  SetsJournalled .portSetKlp specPortSetKlp
    (fun c u => (match u.portCfg (fld c.params 0 1) with | some k => decide (k.mode = 9) | none => false) &&
      decide (fld c.params 0 1 ≤ 79 ∧ fld c.params 1 1 ≤ 1 ∧ 1 ≤ fld c.params 2 1 ∧ fld c.params 2 1 ≤ 8))
    (fun c u => u.setPort (fld c.params 0 1) { u.portAt (fld c.params 0 1) with
      shed := decide (fld c.params 1 1 = 1), agreeSf := fld c.params 2 1, nextKlp := none }) ∧
  Rejects .portSetKlp specPortSetKlp
    (fun c u => match u.portCfg (fld c.params 0 1) with | some k => decide (k.mode ≠ 8 ∧ k.mode ≠ 9) | none => true)
    stBadParam 0

/-- The reports begin with the stated fields and change nothing; PORT_EYE_SCAN replies ACCEPTED and starts a scan of its
lane with the points its ranges give, and is BUSY while the quad scans. What a receiver has corrected is a free value (log
entry 77). (R80, R84, R85, R86, R87, R119, R141). -/
def Obligations.PortAndIngestReportsAct : Prop :=
  Reads .portGetStatus specPortGetStatus (fun c _ => decide (fld c.params 0 1 ≤ 79))
    (fun c u => let p := fld c.params 0 1
      let v := u.portAt p
      (match u.portCfg p with
       | none => [0, 0, 0xFF, 0, 0, 0]
       | some k => beBytes 1 v.state ++ beBytes 1 k.width ++ beBytes 1 k.mode ++ beBytes 1 (u.goodIds p k) ++
          beBytes 1 (if k.klp then v.partnerGood else 0) ++ beBytes 1 (if k.klp then v.partnerActive else 0)) ++ zeros 2 ++
      beCount 8 v.correctedCw ++ beCount 8 v.uncorrectableCw ++
      beCount 8 v.rxPackets ++ beCount 8 v.rxDiscard ++ beCount 8 v.txPackets ++ beCount 8 v.txDiscard ++
      beCount 4 v.downEvents ++ beCount 4 v.shedEvents ++ beCount 4 v.restoreEvents ++ zeros 4 ++ beBytes 8 v.changeSec ++
      beBytes 4 v.changeNs ++ zeros 4) ∧
  Reads .portGetLane specPortGetLane
    (fun c u => decide (fld c.params 0 1 ≤ 79 ∧ (u.quad (fld c.params 0 1 / 4)).rate ≠ 0))
    (fun c u => let v := u.lane (fld c.params 0 1)
      beBytes 1 v.txState ++ beBytes 1 v.rxState ++
      beBytes 1 (b2n v.signal + 2 * b2n v.cdr + 4 * b2n v.block + 8 * b2n v.align) ++
      beBytes 1 (b2n v.rxInv + 2 * b2n v.txInv) ++ beBytes 1 (v.laneId.getD 0xFF) ++ zeros 3 ++
      beCount 4 v.lockLosses ++ beCount 4 v.flips ++ beCount 8 v.correctedSymbols) ∧
  Reads .portGetLane specPortGetLane
    (fun c u => decide (fld c.params 0 1 ≤ 79 ∧ (u.quad (fld c.params 0 1 / 4)).rate = 0)) (fun _ _ => [2, 2]) ∧
  Executes .portEyeScan specPortEyeScan
    (fun c u => let p := c.params
      let rate := (u.quad (fld p 0 1 / 4)).rate
      decide (fld p 0 1 ≤ 79 ∧ 1 ≤ rate ∧ rate ≤ 4 ∧ (if rate ≤ 2 then fld p 1 1 = 0 else 1 ≤ fld p 1 1 ∧ fld p 1 1 ≤ 3) ∧
        -32 ≤ sfld p 2 1 ∧ sfld p 2 1 ≤ sfld p 3 1 ∧
        sfld p 3 1 ≤ 31 ∧ 1 ≤ sfld p 4 1 ∧ sfld p 4 1 ≤ 16 ∧ -63 ≤ sfld p 5 1 ∧ sfld p 5 1 ≤ sfld p 6 1 ∧ sfld p 6 1 ≤ 63 ∧
        1 ≤ sfld p 7 1 ∧ sfld p 7 1 ≤ 16 ∧ 20 ≤ fld p 8 1 ∧ fld p 8 1 ≤ 36) &&
      u.port.scans.all fun e => e.1 / 4 ≠ fld p 0 1 / 4 || !e.2.running)
    (fun c u r => r.status = stAccepted ∧ r.data = [] ∧ r.st = { u with port := r.st.port } ∧
      r.st.port = { u.port with scans := r.st.port.scans } ∧
      ∃ e : EyeScan, (fld c.params 0 1, e) ∈ r.st.port.scans ∧ e.running = true ∧ e.startedAt = u.ns ∧ e.points = [] ∧
        (e.phases : Int) = (sfld c.params 3 1 - sfld c.params 2 1) / sfld c.params 4 1 + 1 ∧
        (e.volts : Int) = (sfld c.params 6 1 - sfld c.params 5 1) / sfld c.params 7 1 + 1) ∧
  Executes .portEyeScan specPortEyeScan
    (fun c u => let p := c.params
      let rate := (u.quad (fld p 0 1 / 4)).rate
      decide (fld p 0 1 ≤ 79 ∧ 1 ≤ rate ∧ rate ≤ 4 ∧ (if rate ≤ 2 then fld p 1 1 = 0 else 1 ≤ fld p 1 1 ∧ fld p 1 1 ≤ 3) ∧
        -32 ≤ sfld p 2 1 ∧ sfld p 2 1 ≤ sfld p 3 1 ∧
        sfld p 3 1 ≤ 31 ∧ 1 ≤ sfld p 4 1 ∧ sfld p 4 1 ≤ 16 ∧ -63 ≤ sfld p 5 1 ∧ sfld p 5 1 ≤ sfld p 6 1 ∧ sfld p 6 1 ≤ 63 ∧
        1 ≤ sfld p 7 1 ∧ sfld p 7 1 ≤ 16 ∧ 20 ≤ fld p 8 1 ∧ fld p 8 1 ≤ 36) &&
      u.port.scans.any fun e => decide (e.1 / 4 = fld p 0 1 / 4) && e.2.running)
    (fun _ u r => r.status = stBusy ∧ r.st = u) ∧
  Reads .portEyeRead specPortEyeRead
    (fun c u => decide (fld c.params 0 1 ≤ 79) && (u.port.scans.find? (·.1 = fld c.params 0 1)).isNone)
    (fun c _ => [3] ++ zeros 9 ++ beBytes 2 (fld c.params 2 2)) ∧
  Reads .portEyeRead specPortEyeRead
    (fun c u => decide (fld c.params 0 1 ≤ 79) && (u.port.scans.find? (·.1 = fld c.params 0 1)).isSome)
    (fun c u => match u.port.scans.find? (·.1 = fld c.params 0 1) with
      | none => []
      | some (l, e) => beBytes 1 (if e.running then 0 else if e.aborted then 2 else 1) ++ beBytes 1 e.eye ++
          beBytes 1 e.phases ++ beBytes 1 e.volts ++ beBytes 2 (Config.eyeStepUv e.rate) ++ beBytes 1 e.dwell ++
          beBytes 1 (slice (e.counts l u.ns) (fld c.params 2 2) 64).length ++ beBytes 2 (e.counts l u.ns).length ++
          beBytes 2 (fld c.params 2 2) ++ ((slice (e.counts l u.ns) (fld c.params 2 2) 64).map (beBytes 4)).flatten) ∧
  Reads .ingestGetPort specIngestGetPort (fun c _ => decide (fld c.params 0 1 ≤ 79)) (fun c u =>
    let v := u.inPort (fld c.params 0 1)
    beCount 8 v.klp1 ++ beCount 8 v.klp2 ++ beCount 8 v.filtered ++ beCount 8 v.malformed ++ beCount 8 v.unknown ++
    beCount 8 v.unmapped ++ beCount 8 v.late ++ beCount 8 v.early ++ beCount 8 v.duplicate ++ beCount 8 v.overflow) ∧
  Reads .ingestGetInput specIngestGetInput (fun c _ => decide (fld c.params 0 2 < 4096)) (fun c u =>
    let x := u.inputCount (fld c.params 0 2)
    beCount 8 x.samples ++ beCount 8 x.valid ++ beCount 8 x.invalid ++ beCount 8 x.saturated ++
    beBytes 8 (if x.last = 0 then noIndex else x.last - 1)) ∧
  Executes .ingestGetInput specIngestGetInput (fun c _ => decide (4096 ≤ fld c.params 0 2))
    (fun _ u r => r.status = stBadParam ∧ r.off = 0 ∧ r.st = u) ∧
  Reads .corrGetStaging specCorrGetStaging (fun c _ => decide (fld c.params 0 2 < 4096)) (fun _ u =>
    beCount 8 u.stg.loaded ++ beCount 8 u.stg.dropWaiting ++ beCount 8 u.stg.dropLoading ++ beCount 8 u.stg.dropLoaded)

/-- A port's addresses, a group membership, an entry of the KLP-1 source table and hold are as the command gives them,
journalled. (R91, R95, R112, R113, R114, R118). -/
def Obligations.IngestSettingsAct : Prop :=
  SetsJournalled .ingestSetPort specIngestSetPort
    (fun c u => decide (fld c.params 0 1 ≤ 79 ∧ fld c.params 2 2 ≤ 4094) &&
      match u.portCfg (fld c.params 0 1) with | some k => !k.klp | none => false)
    (fun c u => u.setInPort (fld c.params 0 1) { u.inPort (fld c.params 0 1) with
      vlan := fld c.params 2 2, klpUdp := fld c.params 4 2, mac := fld c.params 6 6, ipv4 := fld c.params 12 4,
      ipv6 := fld c.params 16 16 }) ∧
  -- a membership is added, replaced, or removed, and reported
  SetsJournalled .ingestMcast specIngestMcast
    (fun c u => decide (fld c.params 0 1 ≤ 79 ∧ fld c.params 1 1 = 1 ∧ (fld c.params 2 1 = 4 ∨ fld c.params 2 1 = 6) ∧
        fld c.params 3 1 ≤ 4) &&
      (match u.portCfg (fld c.params 0 1) with | some k => decide (k.role = 0) | none => false) &&
      ((u.inPort (fld c.params 0 1)).groups.any (·.isFor (groupAt c.params)) ||
        decide ((u.inPort (fld c.params 0 1)).groups.length < 64)))
    (fun c u => let v := u.inPort (fld c.params 0 1)
      let m := groupAt c.params
      (u.setInPort (fld c.params 0 1) { v with
        groups := if v.groups.any (·.isFor m) then v.groups.map fun g => if g.isFor m then m else g else v.groups ++ [m] }).reportChange
        (fld c.params 0 1) m false) ∧
  Journalled .ingestMcast specIngestMcast
    (fun c u => decide (fld c.params 0 1 ≤ 79 ∧ fld c.params 1 1 = 0 ∧ (fld c.params 2 1 = 4 ∨ fld c.params 2 1 = 6) ∧
        fld c.params 3 1 ≤ 4) &&
      (match u.portCfg (fld c.params 0 1) with | some k => decide (k.role = 0) | none => false) &&
      (u.inPort (fld c.params 0 1)).groups.any (·.isFor (groupAt c.params)))
    (fun c u r => r.status = stOk ∧ r.data = [] ∧ ∃ old ∈ (u.inPort (fld c.params 0 1)).groups, old.isFor (groupAt c.params) = true ∧
      r.st = (u.setInPort (fld c.params 0 1) { u.inPort (fld c.params 0 1) with
        groups := (u.inPort (fld c.params 0 1)).groups.filter fun g => !g.isFor (groupAt c.params) }).reportChange
        (fld c.params 0 1) old true) ∧
  -- a port holds 64 memberships
  Executes .ingestMcast specIngestMcast
    (fun c u => decide (fld c.params 0 1 ≤ 79 ∧ fld c.params 1 1 = 1 ∧ (fld c.params 2 1 = 4 ∨ fld c.params 2 1 = 6) ∧
        fld c.params 3 1 ≤ 4 ∧ 64 ≤ (u.inPort (fld c.params 0 1)).groups.length) &&
      (u.inPort (fld c.params 0 1)).groups.all (fun g => !g.isFor (groupAt c.params)) &&
      match u.portCfg (fld c.params 0 1) with | some k => decide (k.role = 0) | none => false)
    (fun _ u r => r.status = stResource ∧ r.st = u) ∧
  SetsJournalled .ingestSetSource specIngestSetSource
    (fun c _ => decide (fld c.params 1 1 ≤ 1 ∧ fld c.params 2 1 ≤ 79 ∧
      (fld c.params 3 1 = 0 ∨ fld c.params 3 1 = 4 ∨ fld c.params 3 1 = 6) ∧ fld c.params 4 2 ≠ 0xFFFF))
    (fun c u => u.mapIng fun g => { g with
      sources := kvSet SourceEntry.init u.ing.sources (fld c.params 0 1)
       { valid := decide (fld c.params 1 1 = 1), port := fld c.params 2 1, family := fld c.params 3 1,
         source := fld c.params 4 2, udp := fld c.params 6 2, addr := slice c.params 8 16 } }) ∧
  SetsJournalled .ingestSetTiming specIngestSetTiming (fun c _ => decide (10 ≤ fld c.params 0 4 ∧ fld c.params 0 4 ≤ 10000))
    (fun c u => { u with ing := { u.ing with holdUs := fld c.params 0 4 } })

/-- The LOAD commands write the load tables; an APPLY makes them the tables in force, while a schedule is live from the
index it names and in place of an apply that has not taken effect. Which visits an apply at once governs, and how long a
gain apply keeps the load BUSY, is the model's choice (DESIGN CHOICE, log entry 104). (R98, R99, R100, R103, R115, R116,
R117, R139, R140, R556). -/
def Obligations.IngestTablesLoadAndApply : Prop :=
  Sets .ingestLoadMap specIngestLoadMap
    (fun c _ => decide (1 ≤ fld c.params 2 2 ∧ fld c.params 2 2 ≤ 64 ∧ fld c.params 0 2 + fld c.params 2 2 ≤ 4096) &&
      (List.range (fld c.params 2 2)).all fun e =>
        decide (1 ≤ fld c.params (8 + 16 * e) 2 ∧ fld c.params (8 + 16 * e) 2 ≤ 4096 ∧
          1 ≤ fld c.params (14 + 16 * e) 2 ∧ fld c.params (14 + 16 * e) 2 ≤ 4096))
    (fun c u => u.mapIng fun g => { g with
      loadMap := (List.range (fld c.params 2 2)).foldl
        (fun t e => kvSet MapEntry.init t (fld c.params 0 2 + e) (mapEntryAt c.params e)) g.loadMap }) ∧
  SetsJournalled .ingestApplyMap specIngestApplyMap
    (fun c u => decide (fld c.params 0 2 ≤ 4096) &&
      mapOk u.loadedN u.loadedChannels (u.loadMapEntries (fld c.params 0 2)) && !u.schedLive)
    (fun c u => u.mapIng fun g => { g with map := ⟨u.loadMapEntries (fld c.params 0 2), []⟩ }) ∧
  SetsJournalled .ingestApplyMap specIngestApplyMap
    (fun c u => decide (fld c.params 0 2 ≤ 4096) &&
      mapOk u.loadedN u.loadedChannels (u.loadMapEntries (fld c.params 0 2)) && u.schedLive &&
      (decide (fld c.params 8 8 = noIndex) || !u.mapPassed (fld c.params 8 8)))
    (fun c u => u.mapIng fun g => { g with
      map := (dropPending u.ing.map u.mapWhenPassed).push
        (u.applyAt (fld c.params 8 8) fun ch => u.firstIndex (u.chan ch).opened) (u.loadMapEntries (fld c.params 0 2)) }) ∧
  Executes .ingestApplyMap specIngestApplyMap
    (fun c u => decide (fld c.params 0 2 ≤ 4096) && !mapOk u.loadedN u.loadedChannels (u.loadMapEntries (fld c.params 0 2)))
    (fun _ u r => r.status = stBadParam ∧ r.off = 0 ∧ r.st = u) ∧
  Sets .ingestLoadGain specIngestLoadGain
    (fun c u => decide (fld c.params 0 2 < 4096 ∧ 1 ≤ fld c.params 4 2 ∧ fld c.params 4 2 ≤ 256 ∧ fld c.params 2 2 + fld c.params 4 2 ≤ 4096) &&
      !u.gainPending)
    (fun c u => u.mapIng fun g => { g with
      gainLoad := (List.range (fld c.params 4 2)).foldl
        (fun t e => kvSet 4096 t (fld c.params 0 2 * 4096 + fld c.params 2 2 + e) (fld c.params (8 + 2 * e) 2)) g.gainLoad }) ∧
  Executes .ingestLoadGain specIngestLoadGain
    (fun c u => decide (fld c.params 0 2 < 4096 ∧ 1 ≤ fld c.params 4 2 ∧ fld c.params 4 2 ≤ 256 ∧ fld c.params 2 2 + fld c.params 4 2 ≤ 4096) &&
      u.gainPending)
    (fun _ u r => r.status = stBusy ∧ r.st = u) ∧
  Sets .ingestApplyGain specIngestApplyGain (fun _ u => !u.schedLive)
    (fun _ u => u.mapIng fun g => { g with gain := ⟨u.ing.gainLoad, []⟩ }) ∧
  Sets .ingestApplyGain specIngestApplyGain
    (fun c u => u.schedLive && (decide (fld c.params 0 8 = noIndex) || !u.gainWhenPassed (.idx (fld c.params 0 8))))
    (fun c u => u.mapIng fun g => { g with
      gain := (dropPending u.ing.gain u.gainWhenPassed).push (u.applyAt (fld c.params 0 8) u.nextSample) u.ing.gainLoad }) ∧
  Executes .ingestApplyGain specIngestApplyGain
    (fun c u => u.schedLive && decide (fld c.params 0 8 ≠ noIndex) && u.gainWhenPassed (.idx (fld c.params 0 8)))
    (fun _ u r => r.status = stPast ∧ r.st = u) ∧
  Sets .corrLoadCoarse specCorrLoadCoarse
    (fun c u => decide (1 ≤ fld c.params 2 2 ∧ fld c.params 2 2 ≤ 256 ∧ fld c.params 0 2 + fld c.params 2 2 ≤ u.loadedN) &&
      (List.range (fld c.params 2 2)).all (fun e => decide (fld c.params (8 + 2 * e) 2 ≤
        match u.tile.layout with | some l => dCap l.n l.dwell | none => 4096)) && !u.schedPending u.stg.coarse)
    (fun c u => u.mapStg fun g => { g with
      coarseLoad := (List.range (fld c.params 2 2)).foldl
        (fun t e => kvSet 0 t (fld c.params 0 2 + e) (fld c.params (8 + 2 * e) 2)) g.coarseLoad }) ∧
  SetsJournalled .corrApplyCoarse specCorrApplyCoarse
    (fun _ u => u.coarseOk && !u.schedLive)
    (fun _ u => u.mapStg fun g => { g with coarse := ⟨u.stg.coarseLoad, []⟩ }) ∧
  SetsJournalled .corrApplyCoarse specCorrApplyCoarse
    (fun c u => u.coarseOk && u.schedLive && !u.indexPast (fld c.params 0 8))
    (fun c u => u.mapStg fun g => { g with
      coarse := (dropPending u.stg.coarse u.takenPast).push (u.applyAt (fld c.params 0 8) u.nextTaken) u.stg.coarseLoad }) ∧
  Rejects .corrApplyCoarse specCorrApplyCoarse (fun _ u => !u.coarseOk) stBadParam 0

/-- A loaded layout starts at an index that is not past, a running schedule stops, and the reports begin with the layout
and a slot. (R167, R168, R169, R170). -/
def Obligations.ScheduleCommandsAct : Prop :=
  Sets .corrStart specCorrStart
    (fun c u => u.tile.layout.isSome && decide (fld c.params 0 8 % 256 = 0 ∧ fld c.params 0 8 ≠ noIndex) && !u.schedLive &&
      match u.instantOfIndex (fld c.params 0 8) with | some t => decide (u.now < t) | none => u.qz.mapping.isNone)
    (fun c u => u.startSchedule (fld c.params 0 8)) ∧
  (∀ (s : State) (x : Nat), (s.startSchedule x).tile = { s.endSchedule.tile with sched := .running, start := x, stop := none } ∧
    (s.startSchedule x).ing.held = [] ∧ (∀ e ∈ (s.startSchedule x).stg.chans, e.2.visits = [] ∧ e.2.floor = 0) ∧ (s.startSchedule x).stg.loading = none ∧
    (s.startSchedule x).load.shed = false ∧ (s.startSchedule x).load.s = 0) ∧
  Executes .corrStart specCorrStart
    (fun c u => u.tile.layout.isSome && decide (fld c.params 0 8 % 256 = 0 ∧ fld c.params 0 8 ≠ noIndex) && !u.schedLive &&
      match u.instantOfIndex (fld c.params 0 8) with | some t => decide (t ≤ u.now) | none => false)
    (fun _ u r => r.status = stPast ∧ r.st = u) ∧
  Sets .corrStop specCorrStop
    (fun c u => decide (u.tile.sched = .running) && (decide (fld c.params 0 8 = noIndex) || !u.takenPast (.idx (fld c.params 0 8))))
    (fun c u => (u.mapTile fun t => { t with stop := some (u.stopIndex (fld c.params 0 8)) }).tryStop) ∧
  Executes .corrStop specCorrStop (fun _ u => decide (u.tile.sched ≠ .running))
    (fun _ u r => r.status = stBadParam ∧ r.off = 0xFFFF ∧ r.st = u) ∧
  Executes .corrStart specCorrStart (fun _ u => u.tile.layout.isNone)
    (fun _ u r => r.status = stBadParam ∧ r.off = 0xFFFF ∧ r.st = u) ∧
  Reads .corrGetLayout specCorrGetLayout (fun _ u => u.tile.layout.isSome) (fun _ u =>
    beBytes 1 u.tile.sched.code ++ beBytes 1 (b2n u.layout.rect) ++ beBytes 1 u.layout.shape ++
    beCount 1 (bMax u.layout.blocks u.corrSlots.length) ++ beBytes 2 u.layout.n) ∧
  Reads .corrGetLayout specCorrGetLayout (fun _ u => u.tile.layout.isNone) (fun _ u => zeros 22 ++ beBytes 2 u.corrSlots.length) ∧
  -- a slot's tile, and whether it is idle, correlates, forms beams, or is withdrawn
  Reads .corrGetTiles specCorrGetTiles
    (fun c u => (u.tile.slots[fld c.params 0 2]?).isSome)
    (fun c u => let n := fld c.params 0 2
      let tile := (u.slotAt n).tile
      beBytes 2 (tile.getD 0xFFFF) ++ beBytes 1 (if tile.isNone then 3 else if u.beamSlots.contains n then 2
        else if u.tile.layout.isNone || u.blocksOf n = [] then 0 else 1))

/-- Preload, fringe tables, rotation and combination are as the commands give them, and CORR_GET_ACCUM begins with the
stated fields. (R175, R182, R193, R194, R195, R196, R197). -/
def Obligations.BasaltCommandsAct : Prop :=
  SetsJournalled .corrSetPreload specCorrSetPreload
    (fun c u => let p := c.params
      decide (fld p 0 2 ≤ 4095 ∧ 1 ≤ fld p 2 2 ∧ fld p 0 2 + fld p 2 2 ≤ 4096 ∧ fld p 4 1 ≤ 2 ∧
        (fld p 4 1 = 1 → (toSigned 48 (fld p 8 6)).natAbs ≤ 2 ^ 46 ∧ (toSigned 48 (fld p 14 6)).natAbs ≤ 2 ^ 46)) &&
      (decide (fld p 4 1 ≠ 2) || (decide (fld p 24 8 % 4096 = 0) &&
        u.inHost (fld p 24 8) ((fld p 2 2 - 1) * imageStride u.loadedBaselines + 12 * u.loadedBaselines))) &&
      !u.indexPast (fld p 32 8))
    (fun c u => u.mapBas fun b => { b with
      preload := (List.range (fld c.params 2 2)).foldl (fun m i =>
        kvSet Preload.init m (fld c.params 0 2 + i) (u.queueSetting (kvGet Preload.init m (fld c.params 0 2 + i)) (fld c.params 32 8)
          (if fld c.params 4 1 = 0 then {}
           else if fld c.params 4 1 = 1 then
             { mode := 1, biasRe := toSigned 48 (fld c.params 8 6), biasIm := toSigned 48 (fld c.params 14 6) }
           else { mode := 2, residual := fld c.params 24 8 + i * imageStride u.loadedBaselines,
                  length := 12 * u.loadedBaselines }))) b.preload }) ∧
  -- a preload is bounded by 2^46, and a residual lies in the host region
  Executes .corrSetPreload specCorrSetPreload
    (fun c _ => decide (fld c.params 0 2 ≤ 4095 ∧ fld c.params 2 2 = 1 ∧ fld c.params 4 1 = 1 ∧
      2 ^ 46 < (toSigned 48 (fld c.params 8 6)).natAbs))
    (fun _ u r => r.status = stBadParam ∧ r.off = 8 ∧ r.st = u) ∧
  Executes .corrSetPreload specCorrSetPreload
    (fun c u => decide (fld c.params 0 2 ≤ 4095 ∧ fld c.params 2 2 = 1 ∧ fld c.params 4 1 = 2) &&
      !(decide (fld c.params 24 8 % 4096 = 0) && u.inHost (fld c.params 24 8) (12 * u.loadedBaselines)))
    (fun _ u r => r.status = stBadParam ∧ r.off = 24 ∧ r.st = u) ∧
  Sets .corrLoadFringe specCorrLoadFringe
    (fun c u => decide (fld c.params 0 1 = 0 ∧ fld c.params 2 2 ≤ 4095 ∧ 1 ≤ fld c.params 4 2 ∧ fld c.params 4 2 ≤ 64 ∧
      fld c.params 2 2 + fld c.params 4 2 ≤ 4096) && !u.schedPending u.bas.fringe)
    (fun c u => u.mapBas fun b => { b with
      fringeLoad := { b.fringeLoad with
        sky := (List.range (fld c.params 4 2)).foldl
          (fun m i => kvSet 0 m (fld c.params 2 2 + i) (fld c.params (8 + 8 * i) 8)) b.fringeLoad.sky } }) ∧
  Sets .corrLoadFringe specCorrLoadFringe
    (fun c u => decide (fld c.params 0 1 = 1 ∧ fld c.params 2 2 ≤ 4095 ∧ 1 ≤ fld c.params 4 2 ∧ fld c.params 4 2 ≤ 256 ∧
      fld c.params 2 2 + fld c.params 4 2 ≤ 4096) && !u.schedPending u.bas.fringe)
    (fun c u => u.mapBas fun b => { b with
      fringeLoad := { b.fringeLoad with
        phase := (List.range (fld c.params 4 2)).foldl
          (fun m i => kvSet 0 m (fld c.params 2 2 + i) (fld c.params (8 + 4 * i) 4)) b.fringeLoad.phase } }) ∧
  SetsJournalled .corrSetRotation specCorrSetRotation
    (fun c u => decide (fld c.params 0 1 ≤ 1) && !u.indexPast (fld c.params 8 8) &&
      (decide (fld c.params 0 1 = 0) || u.replaying || (match u.tile.layout with | some l => l.phasesFit | none => true)))
    (fun c u => u.mapBas fun b => { b with
      rotate := u.applySetting b.rotate (fld c.params 8 8) (decide (fld c.params 0 1 = 1)),
      fringe := u.applySetting b.fringe (fld c.params 8 8) b.fringeLoad }) ∧
  -- R305: rotation is not turned on where a layout asks for more phases than the generators form
  Rejects .corrSetRotation specCorrSetRotation
    (fun c u => decide (fld c.params 0 1 = 1) && !u.replaying && (match u.tile.layout with | some l => !l.phasesFit | none => false))
    stResource 0xFFFF ∧
  SetsJournalled .corrSetCombine specCorrSetCombine
    (fun c u => decide (fld c.params 0 1 ≤ 2 ∧ 1 ≤ fld c.params 1 1 ∧ fld c.params 1 1 ≤ 8 ∧
        (fld c.params 0 1 = 1 → fld c.params 2 1 < fld c.params 1 1) ∧
        (fld c.params 0 1 = 2 → (fld c.params 3 1 < fld c.params 1 1 ∨ fld c.params 3 1 = 0xFF) ∧
          100 ≤ fld c.params 4 4 ∧ fld c.params 4 4 ≤ 1000000)) && !u.schedLive)
    (fun c u => u.mapBas fun b => { b with
      combine := { role := fld c.params 0 1, parts := fld c.params 1 1, part := fld c.params 2 1,
                   localLeaf := fld c.params 3 1, timeoutUs := fld c.params 4 4 } }) ∧
  Reads .corrGetAccum specCorrGetAccum (fun c _ => decide (fld c.params 0 2 ≤ 4095)) (fun c u =>
    beBytes 1 (u.integState (fld c.params 0 2)) ++ beBytes 1 (u.shownPreload (u.integ (fld c.params 0 2))).mode ++
    beBytes 1 (b2n (u.integ (fld c.params 0 2)).rotation))

/-- Dump settings, scheduled dumps and the destinations of channels are as the commands give them, and CORR_GET_DUMP
begins with the stated fields. How many log entries admission counts is a free value (log entry 27). (R198, R199, R221,
R222, R224, R225). -/
def Obligations.DumpCommandsAct : Prop :=
  SetsJournalled .corrSetDump specCorrSetDump
    (fun c u => let d : DumpSet := ⟨fld c.params 0 4, decide (fld c.params 4 1 = 1), fld c.params 5 1, fld c.params 6 1,
        fld c.params 7 1⟩
      decide (d.period ≤ 16777215 ∧ fld c.params 4 1 ≤ 1 ∧ d.coding ≤ 2 ∧ d.order ≤ 1 ∧ d.weightMode ≤ 1 ∧
        16 ≤ fld c.params 8 2 ∧ fld c.params 8 2 ≤ 512) && (!u.schedLive || decide (fld c.params 8 2 = u.dump.bufferMib)) &&
      u.dumpsFit d (fld c.params 8 2) u.dump.map u.dump.dests && !u.indexPast (fld c.params 16 8))
    (fun c u => u.mapDump fun q => { q with
      set := u.queueSetting q.set (fld c.params 16 8) ⟨fld c.params 0 4, decide (fld c.params 4 1 = 1), fld c.params 5 1,
        fld c.params 6 1, fld c.params 7 1⟩,
      bufferMib := fld c.params 8 2,
      -- the dumps of a schedule that has ended keep the settings they had
      prior := if u.tile.sched = .loaded ∧ q.prior = none then some q.set else q.prior }) ∧
  SetsJournalled .corrDumpAt specCorrDumpAt
    (fun c u => decide (1 ≤ fld c.params 2 2 ∧
        fld c.params 0 2 + fld c.params 2 2 ≤ 4096 ∧ (u.dump.scheduled.filter (·.counted)).length < 64) &&
      !u.indexPast (fld c.params 8 8))
    (fun c u => u.mapDump fun q => { q with
      scheduled := q.scheduled ++ [⟨fld c.params 0 2, fld c.params 2 2, u.applyAt (fld c.params 8 8) u.nextTaken, true, 0⟩] }) ∧
  Executes .corrDumpAt specCorrDumpAt
    (fun c u => decide (1 ≤ fld c.params 2 2 ∧
      fld c.params 0 2 + fld c.params 2 2 ≤ 4096 ∧ 64 ≤ (u.dump.scheduled.filter (·.counted)).length))
    (fun _ u r => r.status = stResource ∧ r.st = u) ∧
  SetsJournalled .corrMapDest specCorrMapDest
    (fun c u => decide (fld c.params 0 2 ≤ 4095 ∧ 1 ≤ fld c.params 2 2 ∧ fld c.params 0 2 + fld c.params 2 2 ≤ 4096 ∧
        fld c.params 4 1 ≤ 15) &&
      u.dumpsFit u.lastDumpSet u.dump.bufferMib ((List.range (fld c.params 2 2)).foldl
        (fun m i => kvSet 0 m (fld c.params 0 2 + i) (fld c.params 4 1)) u.dump.map) u.dump.dests)
    (fun c u => u.mapDump fun q => { q with
      map := (List.range (fld c.params 2 2)).foldl (fun m i => kvSet 0 m (fld c.params 0 2 + i) (fld c.params 4 1)) q.map,
      -- a dump whose boundary has come keeps the destination it had
      mapDue := (List.range (fld c.params 2 2)).foldl (fun m i =>
        let ch := fld c.params 0 2 + i
        if ((u.settleLost ch).integEnds ch) && kvGet 0 m ch = 0 then kvSet 0 m ch (kvGet 0 q.map ch + 1) else m) q.mapDue }) ∧
  Reads .corrGetDump specCorrGetDump
    (fun c _ => decide (fld c.params 0 2 ≤ 4095))
    (fun c u => (match kvGet [] u.dump.kept (fld c.params 0 2) with | d :: _ => d.wire | [] => zeros 128) ++
      beCount 8 u.dump.total ++ beCount 8 u.dump.visDiscarded ++ beCount 8 u.dump.portLost)

/-- A destination that passes its checks stands as the command gives it, journalled. (R223, R256, R368). -/
def Obligations.DestinationCommandsAct : Prop :=
  SetsJournalled .corrSetDest specCorrSetDest (fun c u => (u.badDest c.params 256 15).isNone)
    (fun c u => u.mapDump fun q => { q with dests := kvSet Dest.init q.dests (fld c.params 0 1) (destAt c.params) }) ∧
  SetsJournalled .beamSetDest specBeamSetDest
    (fun c u => (u.badDest c.params 1024 15).isNone &&
      u.beamsFit u.beam.sets u.liveChains
        (kvSet Dest.init u.beam.dests (fld c.params 0 1) (destAt c.params)))
    (fun c u => { u with beam := { u.beam with dests := kvSet Dest.init u.beam.dests (fld c.params 0 1) (destAt c.params) } }) ∧
  Journalled .capSetDest specCapSetDest (fun c u => (u.badDest c.params 1024 15).isNone)
    (fun c u r => r.status = stOk ∧ r.data = [] ∧ r.st = (u.mapCap fun d => { d with dest := destAt c.params }).pumpSegments ∧
      r.st.cap.dest = destAt c.params) ∧
  Executes .corrSetDest specCorrSetDest (fun c u => (u.badDest c.params 256 15).isSome)
    (fun c u r => r.status = stBadParam ∧ some r.off = u.badDest c.params 256 15 ∧ r.st = u) ∧
  Executes .beamSetDest specBeamSetDest (fun c u => (u.badDest c.params 1024 15).isSome)
    (fun c u r => r.status = stBadParam ∧ some r.off = u.badDest c.params 1024 15 ∧ r.st = u)

/-- A set is configured, its load bank written, and the swap makes the load bank the active one; while a swap waits, the
bank is BUSY. What a second apply does inside a swap is the model's reading (DEDUCED, log entry 25). (R226, R234, R236,
R237, R238, R253, R254, R255, R257). -/
def Obligations.BeamCommandsAct : Prop :=
  SetsJournalled .beamSetConfig specBeamSetConfig
    (fun c u => let t := u.setBeamSet (fld c.params 0 1) ((u.beamSet (fld c.params 0 1)).configured c.params)
      (firstBad (u.beamChecks c.params)).isNone && !u.schedLive && (decide (fld c.params 1 1 ≠ 1) || !u.hbmAway) && !u.replaying &&
      (t.slotsSuffice || decide (t.bMaxNow ≤ u.bMaxNow)) && t.beamsFit t.beam.sets t.liveChains t.beam.dests && t.admitted)
    (fun c u => u.setBeamSet (fld c.params 0 1) ((u.beamSet (fld c.params 0 1)).configured c.params)) ∧
  (∀ (b : BeamSet) (p : List Byte), b.configured p = { b with
    enable := decide (fld p 1 1 = 1), slots := fld p 2 1, groups := fld p 3 1, firstGroup := fld p 4 1, detect := fld p 5 1,
    track := decide (fld p 6 1 = 1), shared := decide (fld p 7 1 = 1), chan0 := fld p 8 2, chanCount := fld p 10 2,
    nInt := fld p 12 4, vDest := fld p 16 1, dDest := fld p 17 1 }) ∧
  Sets .beamLoadWeights specBeamLoadWeights
    (fun c u => let b := u.beamSet (fld c.params 0 1)
      decide (fld c.params 0 1 ≤ 15 ∧ fld c.params 1 1 ≤ 63 ∧ 64 * b.firstGroup ≤ fld c.params 4 2 ∧
        1 ≤ fld c.params 6 2 ∧ fld c.params 6 2 ≤ 512 ∧
        fld c.params 4 2 + fld c.params 6 2 ≤ 64 * b.firstGroup + 64 * b.groups ∧ b.swap = none ∧ b.owed = false) && (b.entryFor (fld c.params 2 2)).isSome)
    (fun c u => let b := u.beamSet (fld c.params 0 1)
      u.setBeamSet (fld c.params 0 1) { b with load := { b.load with
        w := (List.range (fld c.params 6 2)).foldl (fun m i =>
          kvSet 0 m (weightKey ((b.entryFor (fld c.params 2 2)).getD 0) (fld c.params 1 1) (fld c.params 4 2 + i - 64 * b.firstGroup))
            (fld c.params (8 + 2 * i) 2 + 1)) b.load.w } }) ∧
  Executes .beamLoadWeights specBeamLoadWeights
    (fun c u => let b := u.beamSet (fld c.params 0 1)
      decide (fld c.params 0 1 ≤ 15 ∧ fld c.params 1 1 ≤ 63 ∧ 64 * b.firstGroup ≤ fld c.params 4 2 ∧
        1 ≤ fld c.params 6 2 ∧ fld c.params 6 2 ≤ 512 ∧
        fld c.params 4 2 + fld c.params 6 2 ≤ 64 * b.firstGroup + 64 * b.groups ∧ (b.swap ≠ none ∨ b.owed = true)) && (b.entryFor (fld c.params 2 2)).isSome)
    (fun _ u r => r.status = stBusy ∧ r.st = u) ∧
  Sets .beamLoadScale specBeamLoadScale
    (fun c u => let b := u.beamSet (fld c.params 0 1)
      decide (fld c.params 0 1 ≤ 15 ∧ 1 ≤ fld c.params 4 2 ∧ fld c.params 1 1 + fld c.params 4 2 ≤ 64 ∧
        b.swap = none ∧ b.owed = false) && (b.entryFor (fld c.params 2 2)).isSome)
    (fun c u => let b := u.beamSet (fld c.params 0 1)
      u.setBeamSet (fld c.params 0 1) { b with load := { b.load with
        scale := (List.range (fld c.params 4 2)).foldl (fun m i =>
          kvSet 0 m (scaleKey ((b.entryFor (fld c.params 2 2)).getD 0) (fld c.params 1 1 + i)) (fld c.params (8 + 4 * i) 4 + 1)) b.load.scale } }) ∧
  Sets .beamApply specBeamApply
    (fun c u => (bitsOf 16 (fld c.params 0 2)).all (fun n => (u.beamSet n).enable) && !u.schedLive)
    (fun c u => (bitsOf 16 (fld c.params 0 2)).foldl (fun t n =>
      (t.setBeamSet n { t.beamSet n with nextSwap := none }).finishSwap n) u) ∧
  -- while a schedule is live each swap waits for its index; one that has begun to take effect is followed, any other replaced
  Sets .beamApply specBeamApply
    (fun c u => (bitsOf 16 (fld c.params 0 2)).all (fun n => (u.beamSet n).enable) && u.schedLive &&
      (decide (fld c.params 8 8 = noIndex) || (bitsOf 16 (fld c.params 0 2)).all fun n =>
        (u.beamSet n).channels.all fun ch => !u.sampleTaken (.idx (fld c.params 8 8)) ch))
    (fun c u => (bitsOf 16 (fld c.params 0 2)).foldl (fun t n => t.swapBeam n (fld c.params 8 8)) u) ∧
  (∀ (s : State) (n idx : Nat), s.schedLive = true → s.swapBeam n idx = s.setBeamSet n
    (match (s.beamSet n).swap with
     | some w => if (s.beamSet n).channels.any fun ch => s.sampleTaken w ch
         then { s.beamSet n with nextSwap := some (s.applyAt idx s.nextTaken) }
         else { s.beamSet n with swap := some (s.applyAt idx s.nextTaken) }
     | none => { s.beamSet n with swap := some (s.applyAt idx s.nextTaken) })) ∧
  Executes .beamApply specBeamApply (fun c u => (bitsOf 16 (fld c.params 0 2)).any fun n => !(u.beamSet n).enable)
    (fun _ u r => r.status = stBadParam ∧ r.off = 0 ∧ r.st = u) ∧
  Reads .beamGetSet specBeamGetSet (fun c _ => decide (fld c.params 0 1 ≤ 15 ∧ fld c.params 1 1 ≤ 63)) (fun c u =>
    beBytes 1 (b2n (u.beamSet (fld c.params 0 1)).enable) ++
    beBytes 1 (ceilDiv (u.beamSet (fld c.params 0 1)).groups (u.beamSet (fld c.params 0 1)).slots))

/-- A chain is configured while it is disabled and keeps its coefficients; coefficients go to the load bank and a swap
makes it active; a sync raises its event. What a second apply does inside a swap is the model's reading (DEDUCED, log
entry 25). (R262, R264, R267, R274, R275, R276, R277, R278). -/
def Obligations.FilterCommandsAct : Prop :=
  SetsJournalled .filtSetChain specFiltSetChain
    (fun c u => let p := c.params
      let x := chainAt p
      (firstBad (u.chainChecks p)).isNone && !u.chainOn (u.chain (fld p 0 1)) &&
      (u.tile.layout.isNone || decide ((u.chainDemand x).1 ≤ 16 * stepRate u.load.op * (u.chainDemand x).2)) &&
      u.beamsFit u.beam.sets (kvSet Chain.init u.liveChains (fld p 0 1) x) u.beam.dests)
    (fun c u => let old := u.chain (fld c.params 0 1)
      let x := chainAt c.params
      u.setChain (fld c.params 0 1)
        { x with
          active := old.active, load := old.load, swap := old.swap, enable := old.enable, runs := x.stages.map (fun _ => {}), seqs := old.seqs,
          outputs := old.outputs, gaps := old.gaps, overruns := old.overruns, satOutputs := old.satOutputs, taken := old.taken }) ∧
  Rejects .filtSetChain specFiltSetChain
    (fun c u => (firstBad (u.chainChecks c.params)).isNone && u.chainOn (u.chain (fld c.params 0 1))) stBusy 0xFFFF ∧
  -- chains are enabled or disabled at once, or while a schedule is live from an index
  Sets .filtEnable specFiltEnable
    (fun c u => decide (fld c.params 4 1 ≤ 1) &&
      (decide (fld c.params 4 1 = 0) || u.beamsFit u.beam.sets
        (u.filt.chains.filter fun e => e.2.configured && (u.chainEnabled e.2 || (bitsOf 32 (fld c.params 0 4)).contains e.1))
          u.beam.dests) &&
      !u.schedLive)
    (fun c u => (bitsOf 32 (fld c.params 0 4)).foldl (fun t n =>
      t.setChain n { t.chain n with enable := ⟨decide (fld c.params 4 1 = 1), []⟩,
                                    on := (t.chain n).on && decide (fld c.params 4 1 = 1) }) u) ∧
  Sets .filtEnable specFiltEnable
    (fun c u => decide (fld c.params 4 1 ≤ 1) &&
      (decide (fld c.params 4 1 = 0) || u.beamsFit u.beam.sets
        (u.filt.chains.filter fun e => e.2.configured && (u.chainEnabled e.2 || (bitsOf 32 (fld c.params 0 4)).contains e.1))
          u.beam.dests) &&
      u.schedLive && !u.chainsTaken (fld c.params 0 4) (fld c.params 8 8))
    (fun c u => (bitsOf 32 (fld c.params 0 4)).foldl (fun t n =>
      t.setChain n { t.chain n with
        enable := (t.chain n).enable.push (u.applyAt (fld c.params 8 8) u.nextTaken) (decide (fld c.params 4 1 = 1)) }) u) ∧
  Rejects .filtEnable specFiltEnable (fun c _ => decide (1 < fld c.params 4 1)) stBadParam 4 ∧
  Sets .filtSync specFiltSync
    (fun _ u => decide (u.filt.syncs.length + (u.er.raised.filter (·.producer = 187)).length < 16))
    (fun c u => u.raiseEvent 187 (fld c.params 0 8) 0) ∧
  Executes .filtSync specFiltSync
    (fun _ u => decide (16 ≤ u.filt.syncs.length + (u.er.raised.filter (·.producer = 187)).length))
    (fun _ u r => r.status = stResource ∧ r.st = u) ∧
  Sets .filtLoadCoef specFiltLoadCoef
    (fun c u => decide (fld c.params 0 1 ≤ 31 ∧ fld c.params 1 1 ≤ 2 ∧ 1 ≤ fld c.params 4 2 ∧
        fld c.params 2 2 + fld c.params 4 2 ≤ 256 ∧ (u.chain (fld c.params 0 1)).swap = none) &&
      u.filt.owed.all (fun m => !bit m (fld c.params 0 1)) &&
      (List.range (fld c.params 4 2)).all fun i =>
        decide (-131072 ≤ sfld c.params (8 + 4 * i) 4 ∧ sfld c.params (8 + 4 * i) 4 ≤ 131071))
    (fun c u => u.setChain (fld c.params 0 1) { u.chain (fld c.params 0 1) with
      load := (List.range (fld c.params 4 2)).foldl (fun m i =>
        kvSet 0 m (fld c.params 1 1 * 256 + fld c.params 2 2 + i) (sfld c.params (8 + 4 * i) 4))
        (u.chain (fld c.params 0 1)).load }) ∧
  SetsJournalled .filtApply specFiltApply (fun _ u => !u.schedLive)
    (fun c u => (u.mapFilt fun f => { f with
      applies := (f.applies.map fun m => m - (m &&& fld c.params 0 4)).filter (· ≠ 0) }).finishFilters (fld c.params 0 4)) ∧
  SetsJournalled .filtApply specFiltApply
    (fun c u => u.schedLive && !u.chainsTaken (fld c.params 0 4) (fld c.params 8 8))
    (fun c u => u.swapFilters (fld c.params 0 4) (fld c.params 8 8)) ∧
  Reads .filtGetChain specFiltGetChain (fun c _ => decide (fld c.params 0 1 ≤ 31)) (fun c u =>
    let h := u.chain (fld c.params 0 1)
    beBytes 1 (if !u.chainOn h then 0 else if h.warm && h.onUntil (u.chainFront h) then 2 else 1) ++ beBytes 1 h.stages.length ++ beBytes 1 h.series)

/-- The source is as set, the time is set at once or at the next edge, a resync copies one replica into the others, and
the report begins with the stated fields. (R280, R282, R283, R284, R311, R312, R320, R321). -/
def Obligations.TimeSourceCommandsAct : Prop :=
  Journalled .timeSetSource specTimeSetSource
    (fun c _ => let p := c.params
      decide (fld p 0 1 ≤ 1 ∧ fld p 1 1 ≤ 2 ∧ fld p 2 1 ≤ 1 ∧ 100 ≤ fld p 8 4 ∧ fld p 8 4 ≤ 1000000000 ∧ 10 ≤ fld p 12 4 ∧
        fld p 12 4 ≤ 1000000000 ∧ 10 ≤ fld p 16 2 ∧ fld p 16 2 ≤ 1000 ∧ 1 ≤ fld p 18 2 ∧
        (toSigned 40 (fld p 20 5)).natAbs ≤ 2 ^ 38))
    (fun c u r => let p := c.params
      r.status = stOk ∧ r.data = [] ∧ r.st = { u with qz := r.st.qz } ∧
      r.st.qz.source = {
        ref := fld p 0 1, mode := fld p 1 1, falling := decide (fld p 2 1 = 1), ppsDelay := sfld p 4 4,
        stepNs := fld p 8 4, suspectNs := fld p 12 4, bwMhz := fld p 16 2, holdoverS := fld p 18 2,
        freeAdj := toSigned 40 (fld p 20 5) } ∧
      (fld p 1 1 = 0 → r.st.qz.r0.adj = toSigned 40 (fld p 20 5) ∧ r.st.qz.r1.adj = toSigned 40 (fld p 20 5) ∧
        r.st.qz.r2.adj = toSigned 40 (fld p 20 5)) ∧
      (fld p 1 1 ≠ u.qz.source.mode → r.st.qz.disc = (if fld p 1 1 = 0 then 0 else 1)) ∧
      (fld p 1 1 = u.qz.source.mode → r.st.qz.disc = u.qz.disc) ∧
      (fld p 0 1 ≠ u.qz.source.ref → r.st.qz.pllLock = false)) ∧
  Sets .timeSet specTimeSet
    (fun c u => decide (fld c.params 6 4 ≤ 999999999 ∧ fld c.params 12 1 = 1 ∧ u.qz.source.mode ≠ 2))
    (fun c u => u.mapQz fun q => { q with pendingSet := some (instantAt c.params 0).units }) ∧
  Sets .timeSet specTimeSet
    (fun c u => decide (fld c.params 6 4 ≤ 999999999 ∧ fld c.params 12 1 = 0 ∧ u.qz.source.mode ≠ 2))
    (fun c u => ((u.stepTime (((instantAt c.params 0).units : Int) - u.now)).clearCause 0).mapQz fun q =>
      { q with pendingSet := none }) ∧
  Executes .timeSet specTimeSet
    (fun c u => decide (fld c.params 6 4 ≤ 999999999 ∧ fld c.params 12 1 ≤ 1 ∧ u.qz.source.mode = 2))
    (fun _ u r => r.status = stBusy ∧ r.st = u) ∧
  -- the copy is made at the next tick
  Sets .timeResync specTimeResync (fun c _ => decide (fld c.params 0 1 ≤ 3))
    (fun c u => u.mapQz fun q => { q with resync := some (fld c.params 0 1) }) ∧
  (∀ (s : State) (src : Nat), s.qz.resync = some src → src ≤ 2 →
    let from_ := (if src = 0 then s.qz.r0 else if src = 1 then s.qz.r1 else s.qz.r2).tick
    s.tick.qz.r0 = { time := from_.time, adj := from_.adj } ∧ s.tick.qz.r1 = s.tick.qz.r0 ∧ s.tick.qz.r2 = s.tick.qz.r0 ∧
    s.tick.qz.steps = s.qz.steps + 1 ∧ s.tick.qz.resync = none ∧ s.tick.tile = s.tile) ∧
  (∀ s : State, s.qz.resync = some 3 → s.tick.qz.r0 = { time := 0, adj := s.qz.r0.adj } ∧ s.tick.qz.r1 = s.tick.qz.r0 ∧
    s.tick.qz.r2 = s.tick.qz.r0 ∧ bit s.tick.qz.causes 0 = true ∧ s.tick.qz.steps = s.qz.steps + 1 ∧ s.tick.qz.resync = none) ∧
  Executes .timeResync specTimeResync (fun c _ => decide (3 < fld c.params 0 1))
    (fun _ u r => r.status = stBadParam ∧ r.off = 0 ∧ r.st = u) ∧
  Reads .timeGetStatus specTimeGetStatus (fun _ _ => true) (fun _ u =>
    beBytes 8 u.qzStatus ++ beBytes 1 u.qz.causes ++ beBytes 1 (u.qz.ptp.slave.getD 0xFF))

/-- The PTP profile, a PTP port, a pulse generator and an EVT pin are as the commands give them. The choice of a master is
that of IEEE 1588 (PRESUMED, log entry 32). (R290, R291, R293, R313, R314, R315). -/
def Obligations.TimePortCommandsAct : Prop :=
  SetsJournalled .timeSetPtp specTimeSetPtp
    (fun c _ => let p := c.params
      decide (fld p 0 1 ≤ 2 ∧ fld p 1 1 ≤ 127 ∧ -7 ≤ sfld p 2 1 ∧ sfld p 2 1 ≤ 1 ∧ -3 ≤ sfld p 3 1 ∧ sfld p 3 1 ≤ 3 ∧
        -7 ≤ sfld p 4 1 ∧ sfld p 4 1 ≤ 5 ∧ 2 ≤ fld p 5 1 ∧ fld p 5 1 ≤ 10 ∧ fld p 6 1 ≤ 1))
    (fun c u => let p := c.params
      u.mapPtp fun q => { q with
        profile := fld p 0 1, domain := fld p 1 1, logSync := sfld p 2 1, logAnnounce := sfld p 3 1, logDelay := sfld p 4 1,
        announceTimeout := fld p 5 1, syntonised := decide (fld p 6 1 = 1),
        l1Up := q.l1Up && decide (fld p 0 1 = 2) && decide (fld p 6 1 = 1) }) ∧
  SetsJournalled .timeSetPtpPort specTimeSetPtpPort
    (fun c u => let p := c.params
      decide ((fld p 0 1 ≤ 79 ∨ fld p 0 1 = 0x80 ∨ fld p 0 1 = 0x81) ∧ fld p 1 1 ≤ 2 ∧ fld p 2 1 ≤ 2 ∧
        (fld p 1 1 = 0 ∨ (u.qz.ptp.ports.filter fun e => e.1 ≠ fld p 0 1 && e.2.role ≠ 0).length < 16)) && u.ptpAble (fld p 0 1))
    (fun c u => let p := c.params
      (u.setPtpPort (fld p 0 1) { u.ptpPort (fld p 0 1) with
        role := fld p 1 1, transport := fld p 2 1, trimIn := sfld p 4 4, trimOut := sfld p 8 4, asym := sfld p 12 4,
        foreigners := if fld p 1 1 = 1 then (u.ptpPort (fld p 0 1)).foreigners else [] }).selectSlave) ∧
  -- a generator is set, to start at an instant (arm 1), at an index (arm 2) or with an event (arm 3), or is stopped (arm 0)
  SetsJournalled .timeSetPulse specTimeSetPulse
    (fun c u => let p := c.params
      decide (fld p 0 1 ≤ 7 ∧ fld p 1 1 ≤ 3 ∧ fld p 4 4 < 2 ^ 18 ∧ (fld p 1 1 = 1 → fld p 14 4 ≤ 999999999) ∧
        (fld p 1 1 = 3 → 100 ≤ fld p 20 4 ∧ fld p 20 4 ≤ 1000000000) ∧ 4 ≤ fld p 40 4 ∧
        (fld p 32 8 = 0 ∨ fld p 40 4 * 65536 < fld p 32 8)) &&
      ((List.range 16).all fun n => !bit (fld p 4 4) (n + 2) || (u.evtPin n).output) &&
      (decide (fld p 1 1 ≠ 1) || decide (u.now + 1000 * 65536 < (instantAt p 8).units)) &&
      (decide (fld p 1 1 ≠ 2) || (match u.instantOfIndex (fld p 24 8) with
        | some t => decide (u.now + 1000 * 65536 < t)
        | none => false)))
    (fun c u => let p := c.params
      (u.setPulse (fld p 0 1) {
        arm := fld p 1 1, outputs := fld p 4 4, setStart := (instantAt p 8).units, offsetNs := fld p 20 4,
        startIndex := fld p 24 8, period := fld p 32 8, width := fld p 40 4, count := fld p 44 4,
        start := if fld p 1 1 = 1 then some (instantAt p 8).units
          else if fld p 1 1 = 2 then u.instantOfIndex (fld p 24 8) else none }).drivePins u u.now) ∧
  Executes .timeSetPulse specTimeSetPulse
    (fun c u => let p := c.params
      decide (fld p 0 1 ≤ 7 ∧ fld p 1 1 = 1 ∧ fld p 4 4 < 4 ∧ fld p 14 4 ≤ 999999999 ∧ 4 ≤ fld p 40 4 ∧
        (fld p 32 8 = 0 ∨ fld p 40 4 * 65536 < fld p 32 8) ∧ (instantAt p 8).units ≤ u.now + 1000 * 65536) && !u.replaying)
    (fun _ u r => r.status = stPast ∧ r.st = u) ∧
  -- a pin becomes an output, or keeps the direction it has
  SetsJournalled .timeSetEvt specTimeSetEvt
    (fun c u => decide (fld c.params 0 1 ≤ 15 ∧ fld c.params 1 1 ≤ 1 ∧ 1 ≤ fld c.params 2 1 ∧ fld c.params 2 1 ≤ 3) &&
      u.queueOk (fld c.params 4 2) 6 && (decide (fld c.params 1 1 = 1) || !(u.evtPin (fld c.params 0 1)).output))
    (fun c u => u.setEvtPin (fld c.params 0 1) { u.evtPin (fld c.params 0 1) with
      output := decide (fld c.params 1 1 = 1), edges := fld c.params 2 1, queue := fld c.params 4 2 }) ∧
  -- a pin that becomes an input is driven by no generator any more
  SetsJournalled .timeSetEvt specTimeSetEvt
    (fun c u => decide (fld c.params 0 1 ≤ 15 ∧ fld c.params 1 1 = 0 ∧ 1 ≤ fld c.params 2 1 ∧ fld c.params 2 1 ≤ 3) &&
      u.queueOk (fld c.params 4 2) 6 && (u.evtPin (fld c.params 0 1)).output)
    (fun c u => ((List.range 8).foldl (fun w g =>
        w.setPulse g { w.pulse g with outputs := withBit (w.pulse g).outputs (fld c.params 0 1 + 2) false })
      (u.setEvtPin (fld c.params 0 1) { u.evtPin (fld c.params 0 1) with
        output := false, edges := fld c.params 2 1, queue := fld c.params 4 2, level := none })).drivePins u u.now)

/-- The mapping, the epoch length and the delay models are as the commands give them, and TIME_CONVERT returns both forms
of its point. (R296, R299, R304, R316, R317, R318, R319, R556). -/
def Obligations.MappingCommandsAct : Prop :=
  -- while a schedule is live the rate stays
  SetsJournalled .timeSetMapping specTimeSetMapping
    (fun c u => let p := c.params
      decide (fld p 14 4 ≤ 999999999 ∧ 1 ≤ fld p 20 4 ∧ 1 ≤ fld p 24 8 ∧ fld p 24 8 ≤ 2 ^ 48 ∧ fld p 20 4 ≤ fld p 24 8 ∧
        fld p 24 8 ≤ 1450000000 * fld p 20 4) &&
      (!u.schedLive || (match u.qz.mapping with
        | some m => decide (m.num * fld p 20 4 = fld p 24 8 * m.den)
        | none => false)))
    (fun c u => let p := c.params
      u.mapQz fun q => { q with mapping := some ⟨fld p 0 8, (instantAt p 8).units, fld p 24 8, fld p 20 4⟩ }) ∧
  SetsJournalled .timeSetMapping specTimeSetMapping
    (fun c u => decide (fld c.params 14 4 ≤ 999999999 ∧ 1 ≤ fld c.params 20 4 ∧ fld c.params 24 8 = 0) &&
      (!u.schedLive || u.qz.mapping.isNone))
    (fun _ u => u.mapQz fun q => { q with mapping := none }) ∧
  -- a change of rate while a schedule is live
  Executes .timeSetMapping specTimeSetMapping
    (fun c u => decide (fld c.params 14 4 ≤ 999999999 ∧ 1 ≤ fld c.params 20 4 ∧ fld c.params 24 8 = 0) && u.schedLive &&
      u.qz.mapping.isSome)
    (fun _ u r => r.status = stBusy ∧ r.st = u) ∧
  Reads .timeConvert specTimeConvert (fun c u => decide (fld c.params 0 1 = 0) && !u.qz.convFail)
    (fun c u => let t := u.instantOfIndex (fld c.params 4 8)
      beBytes 1 (b2n u.qz.mapping.isNone + 2 * b2n (u.qz.mapping.isSome && t.isNone) + 4 * b2n u.suspect) ++ zeros 7 ++
      beBytes 8 (fld c.params 4 8) ++ beInstant ((t.map instantOf).getD ⟨0, 0, 0⟩) ++ beInstant u.nowInstant) ∧
  Reads .timeConvert specTimeConvert
    (fun c u => decide (fld c.params 0 1 = 1 ∧ fld c.params 18 4 ≤ 999999999) && !u.qz.convFail)
    (fun c u => let i := u.indexOfInstant (instantAt c.params 12).units
      beBytes 1 (b2n u.qz.mapping.isNone + 2 * b2n (u.qz.mapping.isSome && decide (i = noIndex)) + 4 * b2n u.suspect) ++ zeros 7 ++
      beBytes 8 i ++ beInstant (instantAt c.params 12) ++ beInstant u.nowInstant) ∧
  -- a conversion on which no two replicas agree
  Executes .timeConvert specTimeConvert
    (fun c u => decide (fld c.params 0 1 ≤ 1 ∧ (fld c.params 0 1 = 0 ∨ fld c.params 18 4 ≤ 999999999)) && u.qz.convFail)
    (fun _ u r => r.status = stOk ∧ r.st = u.draw.mapQz (fun q => { q with convFail := false }) ∧
      ∃ f, f < 8 ∧ r.data.take 1 = beBytes 1 (f + 8)) ∧
  SetsJournalled .timeSetEpoch specTimeSetEpoch
    (fun c u => !u.schedLive && epochLenOk (fld c.params 0 8) (u.tile.layout.map (·.dwell)))
    (fun c u => u.mapQz fun q => { q with epochLen := fld c.params 0 8 }) ∧
  Executes .timeSetEpoch specTimeSetEpoch
    (fun c u => !epochLenOk (fld c.params 0 8) (u.tile.layout.map (·.dwell)))
    (fun _ u r => r.status = stBadParam ∧ r.off = 0 ∧ r.st = u) ∧
  Sets .timeLoadDelay specTimeLoadDelay
    (fun c u => decide (fld c.params 0 2 < 4096 ∧ 1 ≤ fld c.params 2 2 ∧ fld c.params 2 2 ≤ 26 ∧
        fld c.params 0 2 + fld c.params 2 2 ≤ 4096) &&
      (List.range (fld c.params 2 2)).all (fun e => decide (fld c.params (8 + 48 * e) 1 ≤ 1)) && !u.schedPending u.qz.delay)
    (fun c u => u.mapQz fun q => { q with
      delayLoad := (List.range (fld c.params 2 2)).foldl
        (fun t e => kvSet DelayModel.init t (fld c.params 0 2 + e) (delayEntry c.params e)) u.qz.delayLoad }) ∧
  Sets .timeApplyDelay specTimeApplyDelay (fun _ u => !u.schedLive)
    (fun _ u => u.mapQz fun q => { q with delay := ⟨u.qz.delayLoad, []⟩ }) ∧
  -- while a schedule is live a new table starts with an epoch
  Sets .timeApplyDelay specTimeApplyDelay
    (fun c u => u.schedLive && (decide (fld c.params 0 8 = noIndex) ||
      (decide (u.tile.start ≤ fld c.params 0 8 ∧ (fld c.params 0 8 - u.tile.start) % u.epochSpan = 0) &&
        !u.indexPast (fld c.params 0 8))))
    (fun c u => u.mapQz fun q => { q with
      delay := (dropPending u.qz.delay u.takenPast).push (u.applyAt (fld c.params 0 8) fun ch => u.epochFrom (u.nextTaken ch)) u.qz.delayLoad }) ∧
  Executes .timeApplyDelay specTimeApplyDelay
    (fun c u => u.schedLive && decide (fld c.params 0 8 ≠ noIndex ∧ u.tile.start ≤ fld c.params 0 8 ∧
      (fld c.params 0 8 - u.tile.start) % u.epochSpan ≠ 0))
    (fun _ u r => r.status = stBadParam ∧ r.off = 0 ∧ r.st = u)

/-- The node and its ports are as set, the master arms and disarms a generation, and the report begins with the stated
fields. (R326, R327, R340, R341, R342, R343). -/
def Obligations.FreranCommandsAct : Prop :=
  SetsJournalled .freranSetNode specFreranSetNode
    (fun c _ => decide (fld c.params 0 1 ≤ 2 ∧ (fld c.params 0 1 = 1 → fld c.params 1 1 ≤ 7) ∧ fld c.params 3 1 ≤ 1 ∧
      65536 ≤ fld c.params 4 4 ∧ 1 ≤ fld c.params 8 4 ∧ fld c.params 8 4 ≤ 10000000))
    (fun c u => u.mapFr fun f => { f with
      mode := fld c.params 0 1, node := fld c.params 1 1, master := fld c.params 2 1,
      rearm := decide (fld c.params 3 1 = 1), maxLatency := fld c.params 4 4, rearmUs := fld c.params 8 4 }) ∧
  SetsJournalled .freranSetPort specFreranSetPort
    (fun c _ => decide (fld c.params 0 1 ≤ 1 ∧ fld c.params 1 1 = 1))
    (fun c u => let n : Fin 2 := if fld c.params 0 1 = 0 then 0 else 1
      u.setFrPort n { u.frPort n with
        enable := true, asym := sfld c.params 4 4, heardAt := if (u.frPort n).enable then (u.frPort n).heardAt else u.ns }) ∧
  SetsJournalled .freranSetPort specFreranSetPort
    (fun c _ => decide (fld c.params 0 1 ≤ 1 ∧ fld c.params 1 1 = 0))
    (fun c u => let n : Fin 2 := if fld c.params 0 1 = 0 then 0 else 1
      (u.frLink n false).setFrPort n { (u.frLink n false).frPort n with
        enable := false, asym := sfld c.params 4 4, up := false, run := 0, asked := none, means := [] }) ∧
  Sets .freranArm specFreranArm
    (fun c u => u.frMaster && decide (fld c.params 0 1 = 1 ∧ u.fr.gen < fld c.params 4 4))
    (fun c u => (u.frSend 3 (fld c.params 4 4) 0 0).frArm (fld c.params 4 4)) ∧
  Executes .freranArm specFreranArm
    (fun c u => u.frMaster && decide (fld c.params 0 1 = 1 ∧ fld c.params 4 4 ≤ u.fr.gen))
    (fun _ u r => r.status = stBadParam ∧ r.off = 4 ∧ r.st = u) ∧
  Executes .freranArm specFreranArm (fun _ u => !u.frMaster) (fun _ u r =>
    r.status = stBadParam ∧ r.off = 0xFFFF ∧ r.st = u) ∧
  Sets .freranArm specFreranArm (fun c u => u.frMaster && decide (fld c.params 0 1 = 0))
    (fun c u => (u.frSend 4 (fld c.params 4 4) 0 0).frDisarm (fld c.params 4 4)) ∧
  Rejects .freranArm specFreranArm (fun c u => u.frMaster && decide (1 < fld c.params 0 1)) stBadParam 0 ∧
  -- the device is armed for the generation at once, or, while a window of another is open, after it
  (∀ (s : State) (g : Nat), s.fr.windows = [] → s.frArm g = s.mapFr fun f => { f with gen := g, armed := true }) ∧
  (∀ (s : State) (g h x : Nat) (l : List Fire), s.fr.windows = [(h, x, l)] → h ≠ g →
    s.frArm g = s.mapFr fun f => { f with armNext := some g }) ∧
  (∀ (s : State) (g : Nat), (s.frDisarm g).fr.armed = (s.fr.armed && decide (s.fr.gen ≠ g))) ∧
  Reads .freranGetStatus specFreranGetStatus (fun _ _ => true) (fun _ u =>
    beBytes 1 (if u.fr.windows ≠ [] then 2 else b2n u.fr.armed) ++ beBytes 1 (b2n u.fr.port0.up + 2 * b2n u.fr.port1.up) ++
    zeros 2 ++ beBytes 4 u.fr.gen)

/-- Segment settings and detectors are as set, capture is armed and disarmed, a trigger is judged, and the report begins
with the stated fields. Which fields of a detector are checked is the model's choice (DESIGN CHOICE, log entry 104).
(R350, R351, R352, R354, R359, R366, R367, R368, R369). -/
def Obligations.CaptureCommandsAct : Prop :=
  SetsJournalled .capSetSegment specCapSetSegment
    (fun c u => let p := c.params
      decide (fld p 0 1 ≤ 2 ∧ fld p 2 2 ≤ 1000 ∧ fld p 4 4 ≤ 2 ^ 24 ∧ fld p 4 4 % 256 = 0 ∧ 256 ≤ fld p 8 4 ∧
        fld p 8 4 ≤ 2 ^ 24 ∧ fld p 8 4 % 256 = 0 ∧ fld p 12 4 ≤ 2 ^ 24 ∧ fld p 12 4 % 256 = 0 ∧
        (fld p 0 1 = 2 → 256 ≤ fld p 16 4)) && decide (u.cap.mode = .disarmed) &&
      (u.tile.layout.isNone || u.cap.sel.fits u.ringReserve (fld p 4 4) (fld p 8 4)))
    (fun c u => let p := c.params
      u.mapCap fun d => { d with
        segMode := fld p 0 1, mergeUs := fld p 2 2, pre := fld p 4 4, post := fld p 8 4, holdoff := fld p 12 4,
        autoLen := fld p 16 4, trigMask := fld p 24 8 }) ∧
  Executes .capSetSegment specCapSetSegment
    (fun c u => let p := c.params
      decide (fld p 0 1 ≤ 2 ∧ fld p 2 2 ≤ 1000 ∧ fld p 4 4 ≤ 2 ^ 24 ∧ fld p 4 4 % 256 = 0 ∧ 256 ≤ fld p 8 4 ∧
        fld p 8 4 ≤ 2 ^ 24 ∧ fld p 8 4 % 256 = 0 ∧ fld p 12 4 ≤ 2 ^ 24 ∧ fld p 12 4 % 256 = 0 ∧
        (fld p 0 1 = 2 → 256 ≤ fld p 16 4)) && decide (u.cap.mode ≠ .disarmed))
    (fun _ u r => r.status = stBusy ∧ r.st = u) ∧
  Executes .capSetSegment specCapSetSegment
    (fun c u => let p := c.params
      decide (fld p 0 1 ≤ 2 ∧ fld p 2 2 ≤ 1000 ∧ fld p 4 4 ≤ 2 ^ 24 ∧ fld p 4 4 % 256 = 0 ∧ 256 ≤ fld p 8 4 ∧
        fld p 8 4 ≤ 2 ^ 24 ∧ fld p 8 4 % 256 = 0 ∧ fld p 12 4 ≤ 2 ^ 24 ∧ fld p 12 4 % 256 = 0 ∧
        (fld p 0 1 = 2 → 256 ≤ fld p 16 4)) && decide (u.cap.mode = .disarmed) && u.tile.layout.isSome && !u.replaying &&
      !u.cap.sel.fits u.ringReserve (fld p 4 4) (fld p 8 4))
    (fun _ u r => r.status = stResource ∧ r.st = u) ∧
  -- a detector that is off, one on a chain that delivers to capture, and one on an input pin
  SetsJournalled .capSetDetector specCapSetDetector
    (fun c u => let p := c.params
      let chain := u.chain (fld p 2 1)
      let pin := u.evtPin (fld p 4 1)
      decide (fld p 0 1 ≤ 63 ∧ fld p 1 1 ≤ 2 ∧ fld p 2 1 ≤ 31 ∧ fld p 4 1 ≤ 15 ∧ fld p 5 1 ≤ 1 ∧ fld p 6 1 ≤ 1) &&
      (decide (fld p 1 1 ≠ 1) || (chain.configured && chain.detected && chain.toFlint &&
        decide (fld p 3 1 < chain.series ∧ sfld p 8 8 < sfld p 16 8))) &&
      (decide (fld p 1 1 ≠ 2) || (!pin.output &&
        (if fld p 5 1 = 1 then decide (pin.edges = 3) else bit pin.edges (fld p 6 1)))))
    (fun c u => let p := c.params
      u.draw.setDet (fld p 0 1) {
        source := fld p 1 1, chain := fld p 2 1, series := fld p 3 1, pin := fld p 4 1, level := decide (fld p 5 1 = 1),
        falling := decide (fld p 6 1 = 1), low := sfld p 8 8, high := sfld p 16 8, minWeight := fld p 24 4,
        -- a level detector is primed where its line is at the inactive level; a line that no edge has shown is either way
        primed := decide (fld p 1 1 = 2) && decide (fld p 5 1 = 1) &&
          decide ((u.evtPin (fld p 4 1)).level.getD (Config.freeBool u.draws (fld p 0 1)) = decide (fld p 6 1 = 1)),
        fires := (u.det (fld p 0 1)).fires }) ∧
  -- arming takes effect when capture is disarmed
  Sets .capArm specCapArm (fun c u => decide (fld c.params 0 1 = 1 ∧ u.cap.mode = .disarmed))
    (fun c u => u.mapCap fun d => { d with
      mode := .armed, armGen := if u.schedLive then d.gen else d.gen + 1, rearm := if fld c.params 8 8 = noIndex then d.top else fld c.params 8 8, disarmAt := none, held := none,
      autoSpent := false }) ∧
  Sets .capArm specCapArm (fun c u => decide (fld c.params 0 1 = 1 ∧ u.cap.mode ≠ .disarmed)) (fun _ u => u) ∧
  -- disarming takes effect at once when capture is armed, and otherwise refuses what lies at or after the index
  Sets .capArm specCapArm (fun c u => decide (fld c.params 0 1 = 0 ∧ u.cap.mode = .armed))
    (fun _ u => u.mapCap fun d => { d with mode := .disarmed, held := none }) ∧
  Sets .capArm specCapArm (fun c u => decide (fld c.params 0 1 = 0 ∧ u.cap.mode = .disarmed)) (fun _ u => u) ∧
  Sets .capArm specCapArm (fun c u => decide (fld c.params 0 1 = 0 ∧ (u.cap.mode = .deciding ∨ u.cap.mode = .capturing)))
    (fun c u => u.mapCap fun d =>
      let x := if fld c.params 8 8 = noIndex then d.top else fld c.params 8 8
      { d with disarmAt := some (match d.disarmAt with | some y => min x y | none => x) }) ∧
  Rejects .capArm specCapArm (fun c _ => decide (1 < fld c.params 0 1)) stBadParam 0 ∧
  -- a trigger below the rearm index is suppressed and counted, one that a pending disarm covers is refused, any other accepted
  Sets .capTrigger specCapTrigger (fun c u => decide (fld c.params 0 1 = 0 ∧ fld c.params 8 8 ≠ noIndex ∧ u.cap.mode = .disarmed))
    (fun _ u => u) ∧
  Sets .capTrigger specCapTrigger
    (fun c u => decide (fld c.params 0 1 = 0 ∧ fld c.params 8 8 ≠ noIndex ∧ u.cap.mode ≠ .disarmed ∧ fld c.params 8 8 < u.cap.rearm))
    (fun c u => u.mapCap fun d => { d with
      suppressed := d.suppressed + 1, sinceFreeze := d.sinceFreeze + 1,
      suppressedBackoff := d.suppressedBackoff + b2n (match d.backoffFrom with
        | some x => decide (x ≤ fld c.params 8 8)
        | none => false) }) ∧
  Sets .capTrigger specCapTrigger
    (fun c u => decide (fld c.params 0 1 = 0 ∧ fld c.params 8 8 ≠ noIndex ∧ u.cap.mode ≠ .disarmed ∧ u.cap.rearm ≤ fld c.params 8 8) &&
      (match u.cap.disarmAt with | some x => decide (x ≤ fld c.params 8 8) | none => false))
    (fun _ u => u) ∧
  Sets .capTrigger specCapTrigger
    (fun c u => decide (fld c.params 0 1 = 0 ∧ fld c.params 8 8 ≠ noIndex ∧ u.cap.mode ≠ .disarmed ∧ u.cap.rearm ≤ fld c.params 8 8) &&
      (match u.cap.disarmAt with | some x => decide (fld c.params 8 8 < x) | none => true))
    (fun c u => u.mapCap fun d =>
      let t : Trigger := ⟨fld c.params 8 8, 2, 0xFF, 0⟩
      let e := { d with autoSpent := d.autoSpent || decide (t.index < d.rearm + d.autoLen) }
      match d.mode, d.held with
      | .armed, _ => { e with mode := .deciding, openedAt := u.ns, window := [t] }
      | .deciding, _ => { e with window := d.window ++ [t] }
      | .capturing, none => { e with held := some t }
      | .capturing, some h => if t.before h then { e with held := some t, merged := d.merged + 1 } else e
      | .disarmed, _ => d) ∧
  Rejects .capTrigger specCapTrigger (fun c _ => decide (fld c.params 0 1 ≠ 0)) stBadParam 0 ∧
  Rejects .capTrigger specCapTrigger (fun c _ => decide (fld c.params 0 1 = 0 ∧ fld c.params 8 8 = noIndex)) stBadParam 8 ∧
  Reads .capGetStatus specCapGetStatus (fun c _ => decide (fld c.params 0 1 ≤ 63)) (fun _ u =>
    beBytes 1 u.cap.mode.code ++ beBytes 1 u.cap.level ++ beCount 2 u.cap.segs.length ++ beBytes 4 u.cap.sel.blocks ++
    beBytes 4 (u.cap.blocks.filter fun b => u.cap.pinned b).length ++ zeros 4 ++ beBytes 8 u.cap.rearm ++
    beCount 8 u.cap.segments ++ beCount 8 u.cap.forced ++ beCount 8 u.cap.merged ++ beCount 8 u.cap.suppressed ++
    beCount 8 u.cap.suppressedBackoff ++ beCount 8 u.cap.ringFull ++ beCount 8 u.cap.noIndex ++ beCount 8 u.cap.lostGranules ++
    beCount 8 u.cap.overflow ++ beCount 8 u.cap.framesSent ++ beCount 8 u.cap.portLost)

/-- Routes, the router's mode and the queues of producers are as set, a fired software event is raised, and the report
begins with the stated fields. (R371, R373, R374, R376, R380, R381). -/
def Obligations.EventCommandsAct : Prop :=
  SetsJournalled .eventSetRoute specEventSetRoute (fun c _ => decide (fld c.params 0 1 ≤ 127 ∧ fld c.params 2 1 ≤ 15))
    (fun c u => { u with er := { u.er with
      sel := kvSet 0 u.er.sel (fld c.params 0 1) (fld c.params 1 1), fixEn := kvSet 0 u.er.fixEn (fld c.params 0 1) (fld c.params 2 1),
      jRoutes := kvSet 0 u.er.jRoutes (fld c.params 0 1) (1 + fld c.params 1 1 + 256 * fld c.params 2 1) } }) ∧
  SetsJournalled .eventSetMode specEventSetMode (fun c _ => decide (fld c.params 0 1 ≤ 1))
    (fun c u => { u with er := { u.er with mode := fld c.params 0 1, jMode := some (fld c.params 0 1) } }) ∧
  Executes .eventSetMode specEventSetMode (fun c _ => decide (1 < fld c.params 0 1))
    (fun _ u r => r.status = stBadParam ∧ r.off = 0 ∧ r.st = u) ∧
  Sets .eventFire specEventFire (fun c _ => decide (fld c.params 0 1 ≤ 15))
    (fun c u => u.raiseEvent (1 + fld c.params 0 1) (fld c.params 8 8) 0) ∧
  -- an event is on its way to the consumers, its producer's flag is set, and its count has risen
  (∀ (s : State) (p i a : Nat), let t := s.raiseEvent p i a
    t.er.raised = s.er.raised ++ [⟨p, i, a % 2 ^ 32, s.suspect, false, s.nowInstant, kvGet 0 s.er.pcount p % 2 ^ 32, s.ns⟩] ∧
    t.er.pflag = withBit s.er.pflag p true ∧ t.er.pcount = kvBump s.er.pcount p 1 ∧ t.own = s.own ∧ t.qz = s.qz ∧
    t.tile = s.tile) ∧
  SetsJournalled .eventSetQueue specEventSetQueue
    (fun c u => u.queueOk (fld c.params 2 2) 6 && decide (fld c.params 2 2 < 4096 ∨ fld c.params 2 2 = 0xFFFF))
    (fun c u => { u with er := { u.er with
      pqueue := kvSet 0xFFFF u.er.pqueue (fld c.params 0 1) (fld c.params 2 2),
      jQueues := kvSet 0xFFFF u.er.jQueues (fld c.params 0 1) (fld c.params 2 2) } }) ∧
  Reads .eventGetStatus specEventGetStatus (fun c _ => decide (fld c.params 1 1 ≤ 127)) (fun c u =>
    beBytes 1 u.er.mode ++ beBytes 1 (kvGet 0 u.er.sel (fld c.params 1 1)) ++ beBytes 1 (kvGet 0 u.er.fixEn (fld c.params 1 1)))

/-- An unowned device is taken by a claim, and the named successor takes it over with its nonce; another client's claim
without permitted preemption, a third client's claim in HANDOVER and one from an endpoint outside ep_mask are NOT_OWNER, a
successor with a wrong nonce is NOT_AUTH; a release leaves the device unowned; a handover names or withdraws a successor;
the lease and the policy are as set; a challenge given becomes the client's current one; the status begins with the
ownership state and the owner's endpoint. That the generation counts every change of owner is the model's reading
(DEDUCED, log entry 9). (R395, R396, R397, R402, R404, R405, R406, R407, R408). -/
def Obligations.OwnershipCommandsAct : Prop :=
  -- an unowned device is taken; 0 asks for the policy's lease
  Executes .ownClaim specOwnClaim
    (fun c u => decide ((fld c.params 0 4 = 0 ∨ 100 ≤ fld c.params 0 4 ∧ fld c.params 0 4 ≤ 60000) ∧ u.own.mode = .unowned) &&
      bit u.own.policy.epMask c.client.ep.val)
    (fun c u r => let ms := if fld c.params 0 4 = 0 then u.own.policy.defaultMs else fld c.params 0 4
      r.status = stOk ∧ r.data = [] ∧ r.st = { u with own := r.st.own } ∧ r.st.own.mode = .owned ∧
      r.st.own.owner = some c.client ∧ r.st.own.leaseMs = ms ∧ r.st.own.restartAt = u.own.stamp ∧
      r.st.own.leaseLeft = ms * 1000000 - (u.own.chargedTo - max u.own.stamp u.own.chargeFrom) ∧ r.st.own.gen = (u.own.gen + 1) % 2 ^ 32) ∧
  -- the owner's own claim sets the lease
  Executes .ownClaim specOwnClaim
    (fun c u => decide ((fld c.params 0 4 = 0 ∨ 100 ≤ fld c.params 0 4 ∧ fld c.params 0 4 ≤ 60000) ∧ u.own.mode ≠ .unowned ∧
        u.own.owner = some c.client) && bit u.own.policy.epMask c.client.ep.val)
    (fun c u r => let ms := if fld c.params 0 4 = 0 then u.own.policy.defaultMs else fld c.params 0 4
      r.status = stOk ∧ r.data = [] ∧ r.st = { u with own := r.st.own } ∧ r.st.own.mode = u.own.mode ∧
      r.st.own.owner = u.own.owner ∧ r.st.own.leaseMs = ms ∧ r.st.own.restartAt = u.own.stamp ∧
      r.st.own.leaseLeft = ms * 1000000 - (u.own.chargedTo - max u.own.stamp u.own.chargeFrom) ∧ r.st.own.gen = u.own.gen) ∧
  -- a claim whose signature was good preempts where the policy admits it
  (∀ (u : State) (c : Cmd), (fld c.params 0 4 = 0 ∨ 100 ≤ fld c.params 0 4 ∧ fld c.params 0 4 ≤ 60000) → u.own.mode ≠ .unowned →
    u.own.owner ≠ some c.client → bit u.own.policy.epMask c.client.ep.val = true → bit (fld c.params 4 1) 0 = true →
    u.own.policy.preempt = true → c.sig.isSome = true →
    let r := doOwnClaim c u
    r.status = stOk ∧ r.data = [] ∧ r.st.own.owner = some c.client ∧ r.st.own.mode = .owned ∧
      r.st.own.successor = none ∧ r.st.own.gen = (u.own.gen + 1) % 2 ^ 32) ∧
  -- another client's claim without preemption, and without a handover, is refused
  Executes .ownClaim specOwnClaim
    (fun c u => decide (100 ≤ fld c.params 0 4 ∧ fld c.params 0 4 ≤ 60000 ∧ u.own.mode = .owned ∧
      u.own.owner ≠ some c.client ∧ u.own.successor = none) && !bit (fld c.params 4 1) 0)
    (fun _ u r => r.status = stNotOwner ∧ r.st.own.owner = u.own.owner ∧ r.st.own.gen = u.own.gen) ∧
  -- the named successor takes the device over with the nonce
  Executes .ownClaim specOwnClaim
    (fun c u => decide (100 ≤ fld c.params 0 4 ∧ fld c.params 0 4 ≤ 60000 ∧ u.own.mode = .handover ∧
        u.own.owner ≠ some c.client ∧ u.own.successor = some (c.client, fld c.params 8 8)) &&
      bit u.own.policy.epMask c.client.ep.val && !bit (fld c.params 4 1) 0)
    (fun c u r => r.status = stOk ∧ r.st.own.owner = some c.client ∧ r.st.own.mode = .owned ∧ r.st.own.successor = none ∧
      r.st.own.gen = (u.own.gen + 1) % 2 ^ 32) ∧
  Sets .ownRelease specOwnRelease (fun _ _ => true) (fun _ u => { u with own := { u.own with
    owner := none, mode := .unowned, successor := none, ownerChallenge := none, gen := (u.own.gen + 1) % 2 ^ 32,
    leaseLeft := 0 } }) ∧
  Sets .ownHandover specOwnHandover
    (fun c u => decide (fld c.params 0 1 ≤ 2 ∧ (fld c.params 0 1 = 0 → fld c.params 1 1 = 0 ∧ fld c.params 2 2 < 4096) ∧
      (fld c.params 0 1 ≠ 0 → fld c.params 1 1 = 4 ∨ fld c.params 1 1 = 6) ∧ fld c.params 24 8 ≠ 0 ∧
      u.own.owner ≠ some (successorOf c.params)))
    (fun c u => { u with own := { u.own with
      successor := some (successorOf c.params, fld c.params 24 8), mode := .handover } }) ∧
  Sets .ownHandover specOwnHandover
    (fun c _ => decide (fld c.params 0 1 = 0 ∧ fld c.params 1 1 = 0 ∧ fld c.params 2 2 < 4096 ∧ fld c.params 24 8 = 0))
    (fun _ u => { u with own := { u.own with successor := none, mode := .owned } }) ∧
  Sets .ownSetLease specOwnSetLease (fun c _ => decide (100 ≤ fld c.params 0 4 ∧ fld c.params 0 4 ≤ 60000))
    (fun c u => let again := stampCycle u.own.restartAt = stampCycle u.own.stamp
      { u with own := { u.own with
        leaseMs := fld c.params 0 4, leaseLeft := fld c.params 0 4 * 1000000 - (u.own.chargedTo - max u.own.stamp u.own.chargeFrom),
        restartAt := u.own.stamp, leaseBefore := if again then u.own.leaseBefore else u.own.leaseLeft,
        restartBefore := if again then u.own.restartBefore else u.own.restartAt } }) ∧
  Executes .ownSetLease specOwnSetLease (fun c _ => decide (fld c.params 0 4 < 100 ∨ 60000 < fld c.params 0 4))
    (fun _ u r => r.status = stBadParam ∧ r.off = 0 ∧ r.st = u) ∧
  SetsJournalled .ownSetPolicy specOwnSetPolicy
    (fun c _ => decide (fld c.params 1 1 ≤ 1 ∧ fld c.params 2 1 ≤ 1 ∧ 100 ≤ fld c.params 4 4 ∧ fld c.params 4 4 ≤ 60000))
    (fun c u => { u with own := { u.own with
      policy := ⟨fld c.params 0 1 % 8, decide (fld c.params 1 1 = 1), decide (fld c.params 2 1 = 1), fld c.params 4 4⟩ } }) ∧
  -- in HANDOVER a third client is refused, and so is the successor without the nonce
  Executes .ownClaim specOwnClaim
    (fun c u => decide (fld c.params 0 4 = 0 ∨ 100 ≤ fld c.params 0 4 ∧ fld c.params 0 4 ≤ 60000) &&
      decide (u.own.mode = .handover ∧ u.own.owner ≠ some c.client) && bit u.own.policy.epMask c.client.ep.val &&
      !bit (fld c.params 4 1) 0 && u.own.successor.any fun x => decide (x.1 ≠ c.client))
    (fun c u r => r.status = stNotOwner ∧ r.st = u.consumeChallenge c.client) ∧
  Executes .ownClaim specOwnClaim
    (fun c u => decide (fld c.params 0 4 = 0 ∨ 100 ≤ fld c.params 0 4 ∧ fld c.params 0 4 ≤ 60000) &&
      decide (u.own.mode = .handover ∧ u.own.owner ≠ some c.client) && bit u.own.policy.epMask c.client.ep.val &&
      !bit (fld c.params 4 1) 0 && u.own.successor.any fun x => decide (x.1 = c.client ∧ x.2 ≠ fld c.params 8 8))
    (fun c u r => r.status = stNotAuth ∧ r.st = u.consumeChallenge c.client) ∧
  -- an endpoint that the policy does not admit, and a preempt flag that it does not permit or that is not signed
  Executes .ownClaim specOwnClaim
    (fun c u => decide (fld c.params 0 4 = 0 ∨ 100 ≤ fld c.params 0 4 ∧ fld c.params 0 4 ≤ 60000) &&
      !bit u.own.policy.epMask c.client.ep.val)
    (fun c u r => r.status = stNotOwner ∧ r.st = u.consumeChallenge c.client) ∧
  Executes .ownClaim specOwnClaim
    (fun c u => decide (fld c.params 0 4 = 0 ∨ 100 ≤ fld c.params 0 4 ∧ fld c.params 0 4 ≤ 60000) &&
      decide (u.own.mode = .owned ∧ u.own.owner ≠ some c.client ∧ u.own.successor = none) && bit (fld c.params 4 1) 0 &&
      (!u.own.policy.preempt || c.sig.isNone))
    (fun c u r => r.status = stNotOwner ∧ r.st = u.consumeChallenge c.client) ∧
  Executes .ownGetChallenge specOwnGetChallenge (fun _ _ => true) (fun c u r =>
    r.status = stOk ∧ r.data = challengeBytes u.draws ++ beBytes 4 30000 ∧
    r.st = { u with draws := u.draws + 1, own := u.own.mapClient c.client fun e =>
      { e with challenge := some (challengeBytes u.draws, u.ns) } }) ∧
  Reads .ownGetStatus specOwnGetStatus (fun c _ => decide (fld c.params 0 1 ≤ 3)) (fun _ u =>
    beBytes 1 u.own.mode.code ++ beBytes 1 (match u.own.owner with | some o => o.ep.val | none => 0xFF)) ∧
  Executes .ownGetStatus specOwnGetStatus (fun c _ => decide (3 < fld c.params 0 1))
    (fun _ u r => r.status = stBadParam ∧ r.off = 0 ∧ r.st = u)

/-- Both commands take no parameters: any byte is BAD_PARAM at offset 0. Both require the owner. OWN_KEEPALIVE restarts
the owner's lease and does nothing else. (R403). -/
def Obligations.KeepaliveOnlyRenews : Prop :=
  NeedsOwner rowOwnRelease ∧ NeedsOwner rowOwnKeepalive ∧
  rowOwnRelease.layout.lengths = (0, 0) ∧ rowOwnKeepalive.layout.lengths = (0, 0) ∧
  (∀ p : List Byte, p ≠ [] → rowOwnRelease.layout.lengthError p = some 0 ∧ rowOwnKeepalive.layout.lengthError p = some 0) ∧
  Sets .ownKeepalive specOwnKeepalive (fun _ _ => true) (fun _ u => u) ∧
  (∀ (s : State) (c : Cmd) (k : Taken), s.takes specOwnKeepalive c = some k →
    -- what renewals of the token have charged since the stamp stays charged, and a later restart stands
    (if s.own.restartAt ≤ s.ns then
      k.at_.own.leaseLeft = k.at_.own.leaseMs * 1000000 - (s.own.chargedTo - max s.ns s.own.chargeFrom) ∧ k.at_.own.restartAt = s.ns
     else k.at_.own.leaseLeft = s.own.leaseLeft ∧ k.at_.own.restartAt = s.own.restartAt) ∧
    k.at_.own.owner = s.own.owner ∧ k.at_.own.leaseMs = s.own.leaseMs ∧ k.at_ = { s with own := k.at_.own })

/-- The reports begin with the stated fields, an opcode that is not defined is described by zeros, a management port's new
setting waits for the reply to leave, and the label is set. (R409, R413, R414, R415, R417, R418, R419). -/
def Obligations.DeviceCommandsAct : Prop :=
  Reads .devGetInfo specDevGetInfo (fun _ _ => true) (fun _ _ =>
    partName ++ beBytes 2 (Config.version 0) ++ beBytes 2 (Config.version 1) ++ dieIdBytes) ∧
  Reads .devGetStatus specDevGetStatus (fun _ _ => true) (fun _ u =>
    beBytes 1 u.tile.sched.code ++ beBytes 1 u.load.op ++ beBytes 1 (b2n u.load.shed) ++ beBytes 1 u.own.mode.code) ∧
  Reads .devQueryOpcode specDevQueryOpcode
    (fun c _ => decide (1 ≤ fld c.params 2 1 ∧ fld c.params 2 1 ≤ 2) &&
      (if fld c.params 2 1 = 1 then rowOfV1 (fld c.params 0 2 % 256) else rowOf (fld c.params 0 2)).isNone)
    (fun _ _ => zeros 16) ∧
  -- a defined opcode, of either version
  Reads .devQueryOpcode specDevQueryOpcode
    (fun c _ => decide (1 ≤ fld c.params 2 1 ∧ fld c.params 2 1 ≤ 2) &&
      (if fld c.params 2 1 = 1 then rowOfV1 (fld c.params 0 2 % 256) else rowOf (fld c.params 0 2)).isSome)
    (fun c u => match (if fld c.params 2 1 = 1 then rowOfV1 (fld c.params 0 2 % 256) else rowOf (fld c.params 0 2)) with
      | none => []
      | some w => [1] ++ beBytes 1 w.access.code ++ beBytes 1 w.v1 ++
          beBytes 1 (b2n w.tag.isSome + 2 * b2n (u.sigRequired w) + 4 * b2n w.accepted) ++ beBytes 2 w.code ++
          beBytes 2 w.layout.lengths.1 ++ beBytes 2 w.layout.lengths.2 ++ beBytes 2 w.replyMin ++ beBytes 2 w.replyMax) ∧
  Executes .devQueryOpcode specDevQueryOpcode (fun c _ => decide (fld c.params 2 1 < 1 ∨ 2 < fld c.params 2 1))
    (fun _ u r => r.status = stBadParam ∧ r.off = 2 ∧ r.st = u) ∧
  SetsJournalled .devSetMgmt specDevSetMgmt
    (fun c u => decide (fld c.params 0 1 ≤ 1 ∧ fld c.params 1 1 ≤ 2 ∧ fld c.params 2 2 ≤ 4094 ∧
      fld c.params 4 6 / 2 ^ 40 % 2 = 0) && ipv6Settable (slice c.params 16 16) && !u.replaying)
    (fun c u => { u with dev := { u.dev with next := some (fld c.params 0 1, { u.mgmt (fld c.params 0 1) with
      mode := fld c.params 1 1, vlan := fld c.params 2 2, mac := fld c.params 4 6, ipv4 := fld c.params 12 4,
      ipv6 := fld c.params 16 16 }) } }) ∧
  Reads .devGetMgmt specDevGetMgmt (fun c _ => decide (fld c.params 0 1 ≤ 1)) (fun c u =>
    beBytes 1 (u.mgmt (fld c.params 0 1)).mode) ∧
  Executes .devGetMgmt specDevGetMgmt (fun c _ => decide (1 < fld c.params 0 1))
    (fun _ u r => r.status = stBadParam ∧ r.off = 0 ∧ r.st = u) ∧
  SetsJournalled .devSetLabel specDevSetLabel (fun _ _ => true)
    (fun c u => { u with dev := { u.dev with
      label := if (slice c.params 0 32).all (· = 0) then [] else slice c.params 0 32 } })

/-- DIAG_ECHO takes 0 to 1,280 bytes of parameters, whatever they are, answers OK with the same bytes as its reply data,
and changes nothing. (R420). -/
def Obligations.EchoReturnsItsParameters : Prop :=
  rowDiagEcho.layout.lengths = (0, 1280) ∧ (∀ p : List Byte, rowDiagEcho.layout.lengthError p = none) ∧
  Executes .diagEcho specDiagEcho (fun _ _ => true) (fun c u r => r.status = stOk ∧ r.data = c.params ∧ r.st = u)

/-- Each accesses the registers or bytes it names through the matrix, or runs its entries in order, and the reply tells
how far that went. The order of beats and pieces is the model's (DEDUCED, log entry 48). (R421, R422, R423, R424). -/
def Obligations.DiagnosticCommandsAct : Prop :=
  Executes .diagReadCsr specDiagReadCsr (fun c _ => (badCsrRange (fld c.params 0 8) (fld c.params 8 2)).isNone)
    (fun c u r => r.status = stOk ∧ r.st = (u.readRegs u.activeId.val (fld c.params 0 8) (fld c.params 8 2)).1 ∧
      r.data.take 1 = beBytes 1 (u.readRegs u.activeId.val (fld c.params 0 8) (fld c.params 8 2)).2.1.code) ∧
  Executes .diagWriteCsr specDiagWriteCsr (fun c _ => (badCsrRange (fld c.params 0 8) (fld c.params 8 2)).isNone)
    (fun c u r => r.status = stOk ∧ r.st = (u.writeRegs u.activeId.val (fld c.params 0 8)
      ((List.range (fld c.params 8 2)).map fun i => fld c.params (16 + 8 * i) 8)).1) ∧
  Executes .diagReadMem specDiagReadMem (fun c u => (u.badMemRange (fld c.params 0 8) (fld c.params 8 2)).isNone)
    (fun c u r => r.status = stOk ∧ r.st = (u.readRange u.activeId.val (fld c.params 0 8) (fld c.params 8 2)).st ∧
      r.data.drop 8 = padTo 0 (fld c.params 8 2) (u.readRange u.activeId.val (fld c.params 0 8) (fld c.params 8 2)).data) ∧
  Executes .diagWriteMem specDiagWriteMem (fun c u => (u.badMemRange (fld c.params 0 8) (fld c.params 8 2)).isNone)
    (fun c u r => r.status = stOk ∧
      r.st = (u.writeRange u.activeId.val (fld c.params 0 8) (slice c.params 16 (fld c.params 8 2))).1) ∧
  Executes .diagBatch specDiagBatch (fun c _ => match batchEntries c.params (fld c.params 0 1) 8 with
      | .ok (_, fin) => decide (fin = c.params.length) && decide (1 ≤ fld c.params 0 1 ∧ fld c.params 0 1 ≤ 16) &&
        decide (8 ≤ c.params.length)
      | .error _ => false)
    (fun c u r => r.status = stOk ∧ ∃ l fin, batchEntries c.params (fld c.params 0 1) 8 = .ok (l, fin) ∧
      r.st = (State.runBatch c l u [] 0).2.2 ∧ r.data.take 1 = beBytes 1 (State.runBatch c l u [] 0).2.1)

/-- The reports begin with the counters over all stacks and with the host region. A scrub reads the next unit of its
stack, and the last unit ends a pass. That a unit with an uncorrectable word is not written back is the model's reading
(DEDUCED, log entry 103). (R444, R445, R448, R450). -/
def Obligations.MemoryIsReportedAndScrubbed : Prop :=
  Reads .memGetErrors specMemGetErrors (fun _ _ => true) (fun _ u =>
    beCount 8 (u.mem.sumHc (·.ceCount)) ++ beCount 8 (u.mem.sumHc (·.ueCount) + u.mem.sramUe) ++ beCount 8 (u.mem.sumHc (·.parRetry)) ++
    beCount 8 (u.mem.sumHc (·.parFail))) ∧
  Executes .memGetStats specMemGetStats (fun c _ => decide (fld c.params 0 1 ≤ 3)) (fun _ u r =>
    r.status = stOk ∧ r.st = u.draw ∧
    r.data.take 12 = beBytes 8 (if u.mem.hostMib = 0 then 0 else u.hostBase) ++ beBytes 4 u.mem.hostMib) ∧
  Rejects .memGetStats specMemGetStats (fun c _ => decide (3 < fld c.params 0 1)) stBadParam 0 ∧
  (∀ (s : State) (h : Fin 4), s.domainOn (76 + h.val) = true → kvGet 0 (s.mem.hc h.val).parity (scrubUnit h.val (s.mem.hc h.val).scrubPos) = 0 →
    kvGet 0 s.mem.bad (scrubUnit h.val (s.mem.hc h.val).scrubPos) = 0 → (s.mem.hc h.val).scrubPos + 1 < stackUnits →
    Happens (.scrubRead h) s ((s.grant 15).bumpHc h.val fun c =>
      { c with reads := c.reads + 1, scrubPos := (s.mem.hc h.val).scrubPos + 1, scrubPasses := c.scrubPasses + 0 })) ∧
  (∀ (s : State) (h : Fin 4), s.domainOn (76 + h.val) = true → kvGet 0 (s.mem.hc h.val).parity (scrubUnit h.val (s.mem.hc h.val).scrubPos) = 0 →
    kvGet 0 s.mem.bad (scrubUnit h.val (s.mem.hc h.val).scrubPos) = 0 → (s.mem.hc h.val).scrubPos + 1 = stackUnits →
    Happens (.scrubRead h) s ((s.grant 15).bumpHc h.val fun c =>
      { c with reads := c.reads + 1, scrubPos := 0, scrubPasses := c.scrubPasses + 1 })) ∧
  -- wrong single bits are corrected, written back, counted and logged
  (∀ (s u : State) (h : Fin 4) (unit bad : Nat), s.domainOn (76 + h.val) = true → kvGet 0 (s.mem.hc h.val).parity unit = 0 →
    unit = scrubUnit h.val (s.mem.hc h.val).scrubPos → bad = kvGet 0 s.mem.bad unit → bad % 16 ≠ 0 → bad / 16 % 16 = 0 →
    (s.mem.hc h.val).scrubPos + 1 < stackUnits →
    u = (((s.grant 15).bumpHc h.val fun c => { c with
        reads := c.reads + 1, scrubPos := (s.mem.hc h.val).scrubPos + 1, scrubPasses := c.scrubPasses + 0 }).bumpHc h.val fun c =>
      { c with ceCount := c.ceCount + (bitsOf 4 (bad % 16)).length }).countWrite unit →
    Happens (.scrubRead h) s (((u.mapMem fun m => { m with bad := kvSet 0 m.bad unit 0 }).logMemErr 4 h.val (hbmPc unit % 32) 15
      (bad % 16) false (0x1000000000 + unit)).noteScrub unit)) ∧
  -- a word that cannot be corrected is counted and logged; its row becomes a repair candidate, and the memory stays
  (∀ (s : State) (h : Fin 4) (unit bad : Nat), s.domainOn (76 + h.val) = true → kvGet 0 (s.mem.hc h.val).parity unit = 0 →
    unit = scrubUnit h.val (s.mem.hc h.val).scrubPos → bad = kvGet 0 s.mem.bad unit → bad / 16 % 16 ≠ 0 →
    (s.mem.hc h.val).scrubPos + 1 < stackUnits →
    Happens (.scrubRead h) s (((((s.grant 15).bumpHc h.val fun c => { c with
        reads := c.reads + 1, scrubPos := (s.mem.hc h.val).scrubPos + 1, scrubPasses := c.scrubPasses + 0 }).bumpHc h.val fun c =>
      { c with ueCount := c.ueCount + 1 }).logMemErr 5 h.val (hbmPc unit % 32) 15 (bad / 16 % 16) false
        (0x1000000000 + unit)).addCandidate unit)) ∧
  (∀ (s : State) (h : Fin 4), s.domainOn (76 + h.val) = false → Happens (.scrubRead h) s s) ∧
  -- a parity error is retried and logged; where the retry meets another, it has failed
  (∀ (s : State) (h : Fin 4) (unit n : Nat), s.domainOn (76 + h.val) = true → unit = scrubUnit h.val (s.mem.hc h.val).scrubPos →
    stackOf unit = h.val → n = kvGet 0 (s.mem.hc h.val).parity unit → 0 < n → HappensTo (.scrubRead h) s fun t =>
      (t.mem.hc h.val).parRetry = (s.mem.hc h.val).parRetry + 1 ∧
      (t.mem.hc h.val).parFail = (s.mem.hc h.val).parFail + (if n = 1 then 0 else 1) ∧
      (s.mem.logQueue = 0xFFFF → kvGet 0xFFFF s.er.pqueue 195 = 0xFFFF →
        t.mem.errCount = s.mem.errCount + (if n = 1 then 0 else 1)))

/-- A queue comes into being empty and is disabled again, a channel at rest is configured, a channel that moves data stops
when its descriptor has ended, and the reports begin with the registers. (R452, R456, R459, R466, R469, R470, R472, R473,
R474). -/
def Obligations.RingAndDmaCommandsAct : Prop :=
  -- the named queue, or the lowest free one, comes into being, empty
  Executes .ringCreate specRingCreate
    (fun c u => decide (((8 ≤ fld c.params 0 2 ∧ fld c.params 0 2 < 4096) ∨ fld c.params 0 2 = 0xFFFF) ∧
        fld c.params 2 1 ≤ 6 ∧ 1 ≤ fld c.params 4 1 ∧ fld c.params 4 1 ≤ 16 ∧
        ((16 ≤ fld c.params 8 2 ∧ fld c.params 8 2 < 2048) ∨ fld c.params 8 2 = 0xFFFF) ∧
        fld c.params 24 8 % 8 = 0 ∧ fld c.params 24 8 < 2 ^ 48) &&
      esizeOk (fld c.params 2 1) (fld c.params 3 1) && u.baseOk (fld c.params 16 8) &&
      (decide (fld c.params 2 1 ≠ 0) || u.pairOk (fld c.params 0 2) (fld c.params 6 2) (fld c.params 4 1)) &&
      (u.queuePlace (fld c.params 0 2)).any fun n => !(u.queue n).enable)
    (fun c u r => ∃ n, u.queuePlace (fld c.params 0 2) = some n ∧ r.status = stOk ∧
      r.data = beBytes 2 n ++ zeros 6 ++ beBytes 8 (doorbellAddr n) ∧
      r.st = u.setQueue n { u.queue n with
        enable := true, kind := fld c.params 2 1, esize := fld c.params 3 1, entries := fld c.params 4 1,
        pair := if fld c.params 2 1 = 0 then fld c.params 6 2 else 0,
        vector := fld c.params 8 2, coal := fld c.params 10 2, base := fld c.params 16 8, wb := fld c.params 24 8,
        prod := 0, cons := 0, raisedAt := none, owed := false }) ∧
  Sets .ringDelete specRingDelete
    (fun c u => decide (8 ≤ fld c.params 0 2 ∧ fld c.params 0 2 < 4096) && (u.queue (fld c.params 0 2)).enable &&
      !u.queueNamed (fld c.params 0 2) && !(decide (c.client.ep = 0) && decide (c.client.port = fld c.params 0 2)) &&
      u.own.owner.all fun o => !(decide (o.ep = 0) && decide (o.port = fld c.params 0 2)))
    (fun c u => u.setQueue (fld c.params 0 2) { u.queue (fld c.params 0 2) with enable := false, prod := 0, cons := 0 }) ∧
  Rejects .ringDelete specRingDelete
    (fun c u => decide (fld c.params 0 2 < 8 ∨ 4096 ≤ fld c.params 0 2) || !(u.queue (fld c.params 0 2)).enable) stBadParam 0 ∧
  -- a channel at rest is configured
  Sets .dmaSetChannel specDmaSetChannel
    (fun c u => decide (fld c.params 1 1 = 1 ∧ fld c.params 2 1 ≤ 1 ∧ (fld c.params 2 1 = 1 → fld c.params 0 1 < 64)) &&
      u.isQueue (fld c.params 4 2) 2 && u.isQueue (fld c.params 6 2) 3 &&
      decide ((u.dma (fld c.params 0 1)).mode = .off ∨ (u.dma (fld c.params 0 1)).mode = .stopped) &&
      u.ring.channels.all fun e =>
        decide (e.1 = fld c.params 0 1 ∨ e.2.mode = .off ∨ e.2.descQ ≠ fld c.params 4 2))
    (fun c u => (u.setDma (fld c.params 0 1) { u.dma (fld c.params 0 1) with
      mode := .idle, descQ := fld c.params 4 2, complQ := fld c.params 6 2, eventStart := decide (fld c.params 2 1 = 1),
      started := false }).settleChannel (fld c.params 0 1)) ∧
  -- the same setting of a channel that has work changes nothing, and a channel without work is set off
  Sets .dmaSetChannel specDmaSetChannel
    (fun c u => let v := u.dma (fld c.params 0 1)
      decide (fld c.params 1 1 = 1 ∧ fld c.params 2 1 ≤ 1 ∧ (fld c.params 2 1 = 1 → fld c.params 0 1 < 64)) &&
      u.isQueue (fld c.params 4 2) 2 && u.isQueue (fld c.params 6 2) 3 &&
      decide (v.mode ≠ .off ∧ v.mode ≠ .stopped ∧ v.descQ = fld c.params 4 2 ∧ v.complQ = fld c.params 6 2 ∧
        v.eventStart = decide (fld c.params 2 1 = 1)) &&
      u.ring.channels.all fun e =>
        decide (e.1 = fld c.params 0 1 ∨ e.2.mode = .off ∨ e.2.descQ ≠ fld c.params 4 2))
    (fun c u => (u.setDma (fld c.params 0 1) (u.dma (fld c.params 0 1))).settleChannel (fld c.params 0 1)) ∧
  Sets .dmaSetChannel specDmaSetChannel
    (fun c u => let v := u.dma (fld c.params 0 1)
      decide (fld c.params 1 1 = 0 ∧ fld c.params 2 1 ≤ 1 ∧ (fld c.params 2 1 = 1 → fld c.params 0 1 < 64)) &&
      u.isQueue (fld c.params 4 2) 2 && u.isQueue (fld c.params 6 2) 3 &&
      decide (v.mode = .off ∨ v.mode = .stopped ∨ (v.mode = .idle ∧ v.descQ = fld c.params 4 2 ∧ v.complQ = fld c.params 6 2 ∧
        v.eventStart = decide (fld c.params 2 1 = 1))) &&
      u.ring.channels.all fun e =>
        decide (e.1 = fld c.params 0 1 ∨ e.2.mode = .off ∨ e.2.descQ ≠ fld c.params 4 2))
    (fun c u => let v := u.dma (fld c.params 0 1)
      ((u.setDma (fld c.params 0 1) { v with
        mode := .off, descQ := fld c.params 4 2, complQ := fld c.params 6 2, eventStart := decide (fld c.params 2 1 = 1),
        started := false }).freeStart (fld c.params 0 1)).settleChannel (fld c.params 0 1)) ∧
  -- a channel that moves data stops when its descriptor has ended
  Executes .dmaStop specDmaStop
    (fun c u => decide ((u.dma (fld c.params 0 1)).mode ≠ .off ∧ (u.dma (fld c.params 0 1)).mode ≠ .stopped ∧
      (u.dma (fld c.params 0 1)).mode ≠ .stopping) && (u.dma (fld c.params 0 1)).running.isSome)
    (fun c u r => r.status = stAccepted ∧
      r.st = u.setDma (fld c.params 0 1) { u.dma (fld c.params 0 1) with mode := .stopping }) ∧
  Executes .dmaStop specDmaStop (fun c u => decide ((u.dma (fld c.params 0 1)).mode = .stopping))
    (fun _ u r => r.status = stAccepted ∧ r.st = u) ∧
  -- one without work stops at once
  Executes .dmaStop specDmaStop
    (fun c u => decide ((u.dma (fld c.params 0 1)).mode ≠ .off ∧ (u.dma (fld c.params 0 1)).mode ≠ .stopped ∧
      (u.dma (fld c.params 0 1)).mode ≠ .stopping) && (u.dma (fld c.params 0 1)).running.isNone)
    (fun c u r => r.status = stAccepted ∧ r.st = (u.stopNow (fld c.params 0 1)).freeStart (fld c.params 0 1)) ∧
  Executes .dmaStop specDmaStop
    (fun c u => decide ((u.dma (fld c.params 0 1)).mode = .off ∨ (u.dma (fld c.params 0 1)).mode = .stopped))
    (fun _ u r => r.status = stBusy ∧ r.st = u) ∧
  Reads .ringGetStatus specRingGetStatus (fun c _ => decide (fld c.params 0 2 < 4096)) (fun c u =>
    beBytes 8 (u.queue (fld c.params 0 2)).cfgWord ++ beBytes 8 (u.queue (fld c.params 0 2)).base ++
    beBytes 8 (u.queue (fld c.params 0 2)).wb ++ beBytes 4 (u.queue (fld c.params 0 2)).prod ++
    beBytes 4 (u.queue (fld c.params 0 2)).cons) ∧
  Executes .dmaGetStatus specDmaGetStatus (fun _ _ => true) (fun c u r => r.status = stOk ∧ r.st = u.draw ∧
    r.data.take 16 = beBytes 8 (u.dcStatus (fld c.params 0 1)) ++ beBytes 8 (u.dma (fld c.params 0 1)).cfgWord)

/-- A rehearsal starts with a ready standby and is BUSY otherwise. The audit interval is set. A READY tile is retired
through the journal, a BACKING one is marked as long as a READY tile can take its slot, and action 1 puts a tile that a
command retired to the test. (R487, R488, R508, R509, R510). -/
def Obligations.CoreAndSpareCommandsAct : Prop :=
  Executes .mcRehearse specMcRehearse
    (fun c u => decide (fld c.params 0 1 ≤ 1) && u.standbyReady && u.mc.rehearsal.isNone)
    (fun c u r => r.status = stAccepted ∧
      r.st = { u with mc := { u.mc with rehearsal := some (fld c.params 0 1), rehearsals := u.mc.rehearsals + 1 } }) ∧
  Rejects .mcRehearse specMcRehearse (fun c _ => decide (1 < fld c.params 0 1)) stBadParam 0 ∧
  Executes .mcRehearse specMcRehearse
    (fun c u => decide (fld c.params 0 1 ≤ 1) && !(u.standbyReady && u.mc.rehearsal.isNone))
    (fun _ u r => r.status = stBusy ∧ r.st = u) ∧
  Reads .mcGetStatus specMcGetStatus (fun _ _ => true) (fun _ u =>
    beBytes 1 u.activeId.val ++ beBytes 1 u.standbyCode ++ beBytes 1 u.mc.lastCause ++ beBytes 1 (b2n u.mc.rehearsal.isSome) ++
    beCount 4 u.mc.lastGapUs ++ beCount 4 u.mc.maxGapUs ++ beCount 4 u.mc.switchovers ++ beCount 4 u.mc.rehearsals ++
    beCount 4 u.mc.timeouts) ∧
  SetsJournalled .spareSetAudit specSpareSetAudit
    (fun c _ => decide (fld c.params 0 4 = 0 ∨ (10 ≤ fld c.params 0 4 ∧ fld c.params 0 4 ≤ 86400)))
    (fun c u => { u with spare := { u.spare with auditS := fld c.params 0 4 } }) ∧
  Rejects .spareSetAudit specSpareSetAudit
    (fun c _ => decide ((0 < fld c.params 0 4 ∧ fld c.params 0 4 < 10) ∨ 86400 < fld c.params 0 4)) stBadParam 0 ∧
  -- a tile that backs nothing is retired through the journal
  SetsJournalled .spareRetire specSpareRetire
    (fun c u => decide (fld c.params 0 2 ≤ 271 ∧ fld c.params 2 1 = 0) &&
      decide ((u.tileInfo (fld c.params 0 2)).mode = .ready))
    (fun c u => u.setTileInfo (fld c.params 0 2) { u.tileInfo (fld c.params 0 2) with mode := .retired, reason := 3 }) ∧
  -- one in the test is marked, and so is one that backs a slot, as long as a READY tile can take the slot over; both through
  -- the journal
  SetsJournalled .spareRetire specSpareRetire
    (fun c u => decide (fld c.params 0 2 ≤ 271 ∧ fld c.params 2 1 = 0) &&
      (decide ((u.tileInfo (fld c.params 0 2)).mode = .testing) ||
        decide ((u.tileInfo (fld c.params 0 2)).mode = .backing) && u.readyTile.isSome))
    (fun c u => u.setTileInfo (fld c.params 0 2) { u.tileInfo (fld c.params 0 2) with doom := 3, reportNs := u.ns }) ∧
  Executes .spareRetire specSpareRetire
    (fun c u => decide (fld c.params 0 2 ≤ 271 ∧ fld c.params 2 1 = 0) &&
      decide ((u.tileInfo (fld c.params 0 2)).mode = .backing) && u.readyTile.isNone)
    (fun _ u r => r.status = stBusy ∧ r.st = u) ∧
  -- one that is retired stays so
  Sets .spareRetire specSpareRetire
    (fun c u => decide (fld c.params 0 2 ≤ 271 ∧ fld c.params 2 1 = 0) &&
      decide ((u.tileInfo (fld c.params 0 2)).mode = .retired))
    (fun _ u => u) ∧
  -- action 1 puts a tile that a command retired to the test
  Sets .spareRetire specSpareRetire
    (fun c u => decide (fld c.params 0 2 ≤ 271 ∧ fld c.params 2 1 = 1) &&
      decide ((u.tileInfo (fld c.params 0 2)).mode = .retired ∧ (u.tileInfo (fld c.params 0 2)).reason = 3))
    (fun c u => u.setTileInfo (fld c.params 0 2)
      { u.tileInfo (fld c.params 0 2) with mode := .testing, reason := 0, fails := 0 }) ∧
  Rejects .spareRetire specSpareRetire
    (fun c u => decide (271 < fld c.params 0 2) || decide (fld c.params 2 1 = 1) &&
      !decide ((u.tileInfo (fld c.params 0 2)).mode = .retired ∧ (u.tileInfo (fld c.params 0 2)).reason = 3)) stBadParam 0 ∧
  Rejects .spareRetire specSpareRetire (fun c _ => decide (fld c.params 0 2 ≤ 271 ∧ 1 < fld c.params 2 1)) stBadParam 2 ∧
  Rejects .spareGetStatus specSpareGetStatus (fun c _ => decide (271 < fld c.params 0 2)) stBadParam 0 ∧
  Reads .spareGetStatus specSpareGetStatus (fun c _ => decide (fld c.params 0 2 ≤ 271)) (fun _ u =>
    beBytes 2 ((List.range 272).filter fun i => decide ((u.tileInfo i).mode = .ready)).length ++
    beBytes 2 ((List.range 272).filter fun i => decide ((u.tileInfo i).mode = .testing)).length)

/-- The reports give the journal's place and its bytes, a compaction is started once, the oldest group goes into flash,
and each step of a compaction does its work; step 4 makes the other half the active one. (R501, R503, R505, R506, R511,
R512). -/
def Obligations.JournalKeepsItsRecords : Prop :=
  Reads .jrnlGetStatus specJrnlGetStatus (fun _ _ => true) (fun _ u =>
    beBytes 1 u.jrnl.code ++ beBytes 1 u.jrnl.half ++ beBytes 1 u.jrnl.recovered ++
    beBytes 1 ((List.range 64).filter (bit u.jrnl.badMap)).length ++ beBytes 4 u.jrnl.generation ++
    beBytes 8 u.jrnl.baseSeq ++ beBytes 8 u.jrnl.lastSeq ++ beBytes 4 (u.jrnl.fill * 65536 / max u.jrnl.capacity 1) ++
    beBytes 4 u.jrnl.snapshotBytes ++ beCount 4 u.jrnl.compactions ++ beCount 4 u.jrnl.pauseMaxUs ++
    beCount 4 u.jrnl.commitMaxUs ++ beCount 4 u.jrnl.recordsLost) ∧
  Executes .jrnlCompact specJrnlCompact (fun _ u => decide (u.jrnl.step = 0) && !u.jrnl.degraded)
    (fun _ u r => r.status = stAccepted ∧ r.st = { u with jrnl := { u.jrnl with step := 1 } }) ∧
  Executes .jrnlCompact specJrnlCompact (fun _ u => decide (u.jrnl.step ≠ 0) || u.jrnl.degraded)
    (fun _ u r => r.status = stBusy ∧ r.st = u) ∧
  Reads .jrnlRead specJrnlRead
    (fun c _ => decide (fld c.params 0 1 ≤ 1 ∧ 1 ≤ fld c.params 2 2 ∧ fld c.params 2 2 ≤ 1024 ∧
      fld c.params 4 4 + fld c.params 2 2 ≤ halfBytes))
    (fun c u => memRead 0xFF u.flash
      (halfBase (if fld c.params 0 1 = 0 then u.jrnl.half else 1 - u.jrnl.half) + fld c.params 4 4) (fld c.params 2 2)) ∧
  -- the oldest group of records that no command waits for goes into flash
  (∀ (s : State) (g : JGroup) (rest : List JGroup) (f : List Nat), s.mayCommit = true → s.jrnl.groups = g :: rest →
    g.forCommand = false → Happens (.journalCommitDone f) s ((s.commitOldest f).1.noteRecorded.resume)) ∧
  (∀ (s : State) (f : List Nat), s.mayCommit = false → Happens (.journalCommitDone f) s s) ∧
  (∀ (s : State) (f : List Nat), s.domainOn 95 = true → s.pwr.phase ≠ 7 →
    (s.jrnl.step = 1 → Happens (.compactionStepDone f) s ((s.pieces 7).checkHalf f)) ∧
    (s.jrnl.step = 2 → s.mc.inGap = false → Happens (.compactionStepDone f) s ((s.pieces 7).writeHeader f)) ∧
    (s.jrnl.step = 3 → s.mc.inGap = false → Happens (.compactionStepDone f) s ((s.pieces 7).writeSnapshot f)) ∧
    (s.jrnl.step = 4 → s.mc.inGap = false → Happens (.compactionStepDone f) s ((s.pieces 7).switchHalves f)) ∧
    -- a switchover gap interrupts a snapshot
    (2 ≤ s.jrnl.step → s.jrnl.step ≤ 4 → s.mc.inGap = true → Happens (.compactionStepDone f) s s) ∧
    (s.jrnl.step = 5 → Happens (.compactionStepDone f) s ((s.pieces 7).eraseOld f).maybeCompact) ∧
    (s.jrnl.step = 0 → Happens (.compactionStepDone f) s s)) ∧
  (∀ (s : State) (f : List Nat), (s.domainOn 95 = false ∨ s.pwr.phase = 7) → Happens (.compactionStepDone f) s s) ∧
  -- step 4 makes the other half the active one
  (∀ (s : State) (f : List Nat), f.contains 0 = false → (s.switchHalves f).jrnl.half = 1 - s.jrnl.half ∧
    (s.switchHalves f).jrnl.generation = (s.jrnl.generation + 1) % 2 ^ 32 ∧
    (s.switchHalves f).jrnl.baseSeq = s.jrnl.lastSeq + 1 ∧ (s.switchHalves f).jrnl.step = 5 ∧
    (s.switchHalves f).jrnl.compactions = s.jrnl.compactions + 1)

/-- A domain's mode is journalled but for the two management cores'. Action 0 of PWR_QUIESCE starts a quiesce or joins it,
action 1 asks for its end, action 2 journals the limit of a pin's quiesce. PWR_RESET resets the device 10 ms later, the
PCIe function, or the standby core. (R513, R517, R533, R534, R536, R539, R540). -/
def Obligations.PowerCommandsAct : Prop :=
  SetsJournalled .pwrSetDomain specPwrSetDomain
    (fun c u => decide (fld c.params 0 1 ≤ 95 ∧ fld c.params 0 1 ≠ 87 ∧ fld c.params 0 1 ≠ 88) &&
      modeAccepted (fld c.params 0 1) (fld c.params 1 1) &&
      !(decide (fld c.params 1 1 = 2) && u.offBusy (fld c.params 0 1)))
    (fun c u => u.setDomain (fld c.params 0 1) { u.domain (fld c.params 0 1) with mode := fld c.params 1 1 }) ∧
  Sets .pwrSetDomain specPwrSetDomain
    (fun c u => decide (fld c.params 0 1 = 87 ∨ fld c.params 0 1 = 88) && decide (fld c.params 1 1 = 1 ∨ fld c.params 1 1 = 2) &&
      !(decide (fld c.params 1 1 = 2) && decide (u.activeId.val = fld c.params 0 1 - 87)))
    (fun c u => u.setDomain (fld c.params 0 1) { u.domain (fld c.params 0 1) with mode := fld c.params 1 1 }) ∧
  Executes .pwrSetDomain specPwrSetDomain
    (fun c u => decide (fld c.params 0 1 ≤ 95) && modeAccepted (fld c.params 0 1) (fld c.params 1 1) &&
      decide (fld c.params 1 1 = 2) && u.offBusy (fld c.params 0 1))
    (fun _ u r => r.status = stBusy ∧ r.st = u) ∧
  Reads .pwrGetDomains specPwrGetDomains (fun _ _ => true) (fun _ u =>
    ((List.range 96).map fun d => beBytes 1 ((u.domain d).state.code + 4 * (u.domain d).mode)).flatten ++
    beCount 8 ((u.pwr.domains.toList.map (·.fences)).sum) ++ beBytes 1 u.pwr.phase ++ beBytes 1 u.pwr.cause) ∧
  -- in SERVICE, action 0 starts a quiesce
  Executes .pwrQuiesce specPwrQuiesce
    (fun c u => decide (fld c.params 0 1 = 0 ∧ 100 ≤ fld c.params 4 4 ∧ fld c.params 4 4 ≤ 60000 ∧ u.pwr.phase = 4))
    (fun c u r => r.status = stAccepted ∧ r.st.pwr.phase = 6 ∧ r.st.pwr.quiesce.limitMs = fld c.params 4 4 ∧
      r.st.pwr.quiesce.startedAt = u.ns ∧ r.st.pwr.quiesce.step = 2 ∧ r.st.pwr.quiesce.byCommand = true) ∧
  -- another request joins it, and action 1 asks for its end, which comes in QUIESCED once the pin, if it asked, is high
  Executes .pwrQuiesce specPwrQuiesce
    (fun c u => decide (fld c.params 0 1 = 0 ∧ 100 ≤ fld c.params 4 4 ∧ fld c.params 4 4 ≤ 60000 ∧ 5 ≤ u.pwr.phase))
    (fun _ u r => r.status = stAccepted ∧
      r.st = { u with pwr := { u.pwr with quiesce := { u.pwr.quiesce with byCommand := true } } }) ∧
  Sets .pwrQuiesce specPwrQuiesce
    (fun c u => decide (fld c.params 0 1 = 1 ∧ 100 ≤ fld c.params 4 4 ∧ fld c.params 4 4 ≤ 60000 ∧ u.pwr.phase ≠ 7) &&
      u.pwr.quiesce.active)
    (fun _ u => { u with pwr := { u.pwr with quiesce := { u.pwr.quiesce with leave := true } } }) ∧
  Executes .pwrQuiesce specPwrQuiesce
    (fun c u => decide (fld c.params 0 1 = 1 ∧ 100 ≤ fld c.params 4 4 ∧ fld c.params 4 4 ≤ 60000 ∧ u.pwr.phase = 7) &&
      u.pwr.quiesce.active && decide (u.pwr.quiesce.ack = .low) && (!u.pwr.quiesce.byPin || !u.pwr.quiesce.pinLow))
    (fun _ u r => r.status = stOk ∧ r.st.pwr.phase = 4 ∧ r.st.pwr.quiesce.active = false ∧
      r.st.pwr.quiesce.ack = .released ∧ r.st.wire = .pin "QUIESCE_ACK_N" 0 true u.now :: u.wire) ∧
  Sets .pwrQuiesce specPwrQuiesce
    (fun c u => decide (fld c.params 0 1 = 1 ∧ 100 ≤ fld c.params 4 4 ∧ fld c.params 4 4 ≤ 60000) && !u.pwr.quiesce.active)
    (fun _ u => u) ∧
  Rejects .pwrQuiesce specPwrQuiesce (fun c _ => decide (2 < fld c.params 0 1)) stBadParam 0 ∧
  Rejects .pwrQuiesce specPwrQuiesce
    (fun c _ => decide (fld c.params 0 1 ≤ 2 ∧ (fld c.params 4 4 < 100 ∨ 60000 < fld c.params 4 4))) stBadParam 4 ∧
  SetsJournalled .pwrQuiesce specPwrQuiesce
    (fun c _ => decide (fld c.params 0 1 = 2 ∧ 100 ≤ fld c.params 4 4 ∧ fld c.params 4 4 ≤ 60000))
    (fun c u => { u with pwr := { u.pwr with quiesce := { u.pwr.quiesce with pinMs := fld c.params 4 4 } } }) ∧
  -- scope 0 resets the device 10 ms after its reply, scope 1 the PCIe endpoint, scope 2 the standby core
  Sets .pwrReset specPwrReset (fun c _ => decide (fld c.params 0 1 = 0))
    (fun _ u => { u with pwr := { u.pwr with resetAsked := true } }) ∧
  Sets .pwrReset specPwrReset (fun c _ => decide (fld c.params 0 1 = 1)) (fun _ u => (u.resetRequester 2).pcieReset true) ∧
  Sets .pwrReset specPwrReset (fun c u => decide (fld c.params 0 1 = 2) && decide ((u.core u.standbyId).mode ≠ .off))
    (fun _ u => u.resetCore u.standbyId) ∧
  Executes .pwrReset specPwrReset (fun c u => decide (fld c.params 0 1 = 2) && decide ((u.core u.standbyId).mode = .off))
    (fun _ u r => r.status = stBusy ∧ r.st = u) ∧
  Rejects .pwrReset specPwrReset (fun c _ => decide (2 < fld c.params 0 1)) stBadParam 0

/-- Identity and attestation begin with the stated fields. Command keys and the signing policy are journalled. A key hash
goes into a blank slot and an active key is revoked, each with a valid authorisation. An image is staged in ascending
order, and one that verifies is committed before the device resets; one whose key or signature fails is NOT_AUTH. (R523,
R529, R531, R532, R539, R540). -/
def Obligations.SecurityCommandsAct : Prop :=
  Reads .secGetIdentity specSecGetIdentity (fun _ _ => true) (fun _ u =>
    dieIdBytes ++ publicKey Config.identityScalar ++ zeros 3 ++ beBytes 4 Config.endorseId ++
    (List.range 96).map Config.endorsement ++ beBytes 1 u.keyMask ++ beBytes 1 u.pwr.otpWord ++ beBytes 2 u.pwr.signMask) ∧
  Reads .secAttest specSecAttest (fun _ _ => true) (fun c u =>
    beBytes 1 1 ++ beBytes 1 u.pwr.slot ++ beBytes 1 u.pwr.keySlot ++ beBytes 1 u.pwr.otpWord ++ beBytes 4 u.pwr.secVer ++
    dieIdBytes ++ beBytes 4 u.jrnl.bootCount ++ beBytes 4 u.pwr.minVersion ++ padTo 0 32 c.params ++ padTo 0 48 u.pwr.measure ++
    u.configDigest ++ beBytes 8 u.jrnl.lastSeq ++ beInstant u.nowInstant) ∧
  SetsJournalled .secSetCmdKey specSecSetCmdKey
    (fun c u => decide (fld c.params 0 1 ≤ 7 ∧ fld c.params 1 1 = 1) && (pointOf (slice c.params 4 97)).isSome &&
      decide (kvGet [] u.pwr.cmdKeys (fld c.params 0 1) = []))
    (fun c u => { u with pwr := { u.pwr with
      cmdKeys := kvSet [] u.pwr.cmdKeys (fld c.params 0 1) (slice c.params 4 97) } }) ∧
  SetsJournalled .secSetCmdKey specSecSetCmdKey
    (fun c u => decide (fld c.params 0 1 ≤ 7 ∧ fld c.params 1 1 = 0) &&
      !(decide (kvGet [] u.pwr.cmdKeys (fld c.params 0 1) ≠ [] ∧ u.pwr.cmdKeys.length = 1) &&
        (decide (u.pwr.signMask ≠ 0) || u.own.policy.claimAuth)))
    (fun c u => { u with pwr := { u.pwr with cmdKeys := kvSet [] u.pwr.cmdKeys (fld c.params 0 1) [] } }) ∧
  -- once keys are enrolled the command is signed: its meaning, its signature being good
  (∀ (u : State) (c : Cmd), fld c.params 0 1 ≤ 7 → fld c.params 1 1 = 1 → (pointOf (slice c.params 4 97)).isSome = true →
    kvGet [] u.pwr.cmdKeys (fld c.params 0 1) ≠ [] → doSecSetCmdKey c u = .fail stBusy u) ∧
  (∀ (u : State) (c : Cmd), fld c.params 0 1 ≤ 7 → fld c.params 1 1 = 0 → kvGet [] u.pwr.cmdKeys (fld c.params 0 1) ≠ [] →
    u.pwr.cmdKeys.length = 1 → (u.pwr.signMask ≠ 0 ∨ u.own.policy.claimAuth = true) → doSecSetCmdKey c u = .fail stBusy u) ∧
  SetsJournalled .secSetSignPolicy specSecSetSignPolicy
    (fun c u => decide (fld c.params 0 2 < 2 ∨ u.pwr.cmdKeys ≠ []))
    (fun c u => { u with pwr := { u.pwr with signMask := fld c.params 0 2 / 2 * 2 } }) ∧
  Rejects .secSetSignPolicy specSecSetSignPolicy (fun c u => decide (2 ≤ fld c.params 0 2 ∧ u.pwr.cmdKeys = [])) stBadParam 0 ∧
  -- a key hash goes into a blank target, and only one of two active keys can be revoked
  Executes .secOtpRotate specSecOtpRotate
    (fun c u => decide (fld c.params 0 1 ≤ 2 ∧ fld c.params 1 1 ≤ 2) && decide ((u.pwr.otp (fld c.params 0 1)).code = 0))
    (fun c u r =>
      if u.authorised (fld c.params 1 1) 1 (fld c.params 0 1) (slice c.params 4 48) (slice c.params 52 97) (slice c.params 152 96)
      then r.status = stOk ∧ r.data = [] ∧
        r.st = { u with pwr := u.pwr.setOtp (fld c.params 0 1) { hash := slice c.params 4 48, active := true } }
      else r.status = stNotAuth ∧ r.st = u) ∧
  Executes .secOtpRotate specSecOtpRotate
    (fun c u => decide (fld c.params 0 1 ≤ 2 ∧ fld c.params 1 1 ≤ 2) &&
      !u.authorised (fld c.params 1 1) 1 (fld c.params 0 1) (slice c.params 4 48) (slice c.params 52 97) (slice c.params 152 96))
    (fun _ u r => r.status = stNotAuth ∧ r.st = u) ∧
  Executes .secOtpRevoke specSecOtpRevoke
    (fun c u => decide (fld c.params 0 1 ≤ 2 ∧ fld c.params 1 1 ≤ 2) &&
      !u.authorised (fld c.params 1 1) 2 (fld c.params 0 1) (zeros 48) (slice c.params 4 97) (slice c.params 104 96))
    (fun _ u r => r.status = stNotAuth ∧ r.st = u) ∧
  Executes .secOtpRevoke specSecOtpRevoke
    (fun c u => decide (fld c.params 0 1 ≤ 2 ∧ fld c.params 1 1 ≤ 2) && decide ((u.pwr.otp (fld c.params 0 1)).code = 1) &&
      decide (2 ≤ ((List.range 3).filter fun n => (u.pwr.otp n).isActive).length))
    (fun c u r =>
      if u.authorised (fld c.params 1 1) 2 (fld c.params 0 1) (zeros 48) (slice c.params 4 97) (slice c.params 104 96)
      then r.status = stOk ∧ r.data = [] ∧
        r.st = { u with pwr := u.pwr.setOtp (fld c.params 0 1) { u.pwr.otp (fld c.params 0 1) with revoked := true } }
      else r.status = stNotAuth ∧ r.st = u) ∧
  Sets .secFwStage specSecFwStage
    (fun c u => decide (1 ≤ fld c.params 4 2 ∧ fld c.params 4 2 ≤ 1024 ∧ fld c.params 0 4 + fld c.params 4 2 ≤ 0x400000) &&
      (decide (fld c.params 0 4 = 0) || u.pwr.staged.any fun e => decide (e ≤ fld c.params 0 4)))
    (fun c u => u.stageBytes (fld c.params 0 4) (slice c.params 8 (fld c.params 4 2))) ∧
  Rejects .secFwStage specSecFwStage
    (fun c u => !(decide (fld c.params 0 4 = 0) || u.pwr.staged.any fun e => decide (e ≤ fld c.params 0 4))) stBadParam 0 ∧
  -- an image that verifies is committed, unless the journal engine is writing a snapshot; the device resets once the reply is
  -- out, or quiesces first if flag bit 0 asks so
  Executes .secFwActivate specSecFwActivate
    (fun c u => decide (fld c.params 0 1 ≤ 3) && u.pwr.staged.isSome && decide (u.jrnl.step < 2 ∨ 4 < u.jrnl.step))
    (fun c u r =>
      let image := u.slotImage u.stageSlot
      let verdict := u.pwr.imageFail image
      let kept := u.commitSlot.mapPwr fun p =>
        { p with staged := none, stagedBlocks := [], raiseMin := if bit (fld c.params 0 1) 1 then some image.measure else none }
      if verdict = 3 ∨ verdict = 4 ∨ verdict = 5 then r.status = stNotAuth ∧ r.st = u
      else if verdict ≠ 0 then r.status = stBadParam ∧ r.st = u
      else r.status = stAccepted ∧ r.st =
        if bit (fld c.params 0 1) 0
        then (kept.mapQuiesce fun q => { q with byCommand := true, thenReset := true }).requestQuiesce u.pwr.quiesce.pinMs
        else kept.mapPwr fun p => { p with fwReset := true }) ∧
  Executes .secFwActivate specSecFwActivate (fun c u => decide (fld c.params 0 1 ≤ 3) && u.pwr.staged.isNone)
    (fun _ u r => (r.status = stNotAuth ∨ r.status = stBadParam) ∧ r.st = u) ∧
  -- a target slot in the wrong state is BAD_PARAM, and the only active key stays, for those who may ask
  Executes .secOtpRotate specSecOtpRotate
    (fun c u => decide (fld c.params 0 1 ≤ 2 ∧ fld c.params 1 1 ≤ 2) && decide ((u.pwr.otp (fld c.params 0 1)).code ≠ 0))
    (fun c u r => r.st = u ∧
      if u.authorised (fld c.params 1 1) 1 (fld c.params 0 1) (slice c.params 4 48) (slice c.params 52 97) (slice c.params 152 96)
      then r.status = stBadParam ∧ r.off = 0 else r.status = stNotAuth) ∧
  Executes .secOtpRevoke specSecOtpRevoke
    (fun c u => decide (fld c.params 0 1 ≤ 2 ∧ fld c.params 1 1 ≤ 2) && decide ((u.pwr.otp (fld c.params 0 1)).code ≠ 1))
    (fun c u r => r.st = u ∧
      if u.authorised (fld c.params 1 1) 2 (fld c.params 0 1) (zeros 48) (slice c.params 4 97) (slice c.params 104 96)
      then r.status = stBadParam ∧ r.off = 0 else r.status = stNotAuth) ∧
  Executes .secOtpRevoke specSecOtpRevoke
    (fun c u => decide (fld c.params 0 1 ≤ 2 ∧ fld c.params 1 1 ≤ 2) && decide ((u.pwr.otp (fld c.params 0 1)).code = 1) &&
      decide (((List.range 3).filter fun n => (u.pwr.otp n).isActive).length ≤ 1))
    (fun c u r => r.st = u ∧
      if u.authorised (fld c.params 1 1) 2 (fld c.params 0 1) (zeros 48) (slice c.params 4 97) (slice c.params 104 96)
      then r.status = stBusy else r.status = stNotAuth) ∧
  -- while the journal engine writes a snapshot an activation that would succeed waits; any other is answered at once
  (∀ (s : State) (c : Cmd) (k : Taken), s.takes specSecFwActivate c = some k → 2 ≤ s.jrnl.step → s.jrnl.step ≤ 4 →
    snapshotSize (doSecFwActivate k.cmd k.at_).st.snapshot ≤ 1048576 →
    exec (.secFwActivate c) s = .next (s.settled (if (doSecFwActivate k.cmd k.at_).good then k.before.awaitGroup k.held []
      else State.answer k.before k.what rowSecFwActivate (doSecFwActivate k.cmd k.at_))))

/-- A frame for another station is discarded and an ARP request answered; SMBus fragments join into a packet and a reply
is read; a command queue's element is read, stamped and taken as a packet. The SMBus code is that of SMBus 3.2 (PRESUMED,
log entry 107). (R385, R387, R388, R389, R416, R453, R456). -/
def Obligations.TransportsCarryPackets : Prop :=
  -- MGMT: what is not addressed to the port is discarded, an ARP request for its address is answered
  (∀ (s : State) (port : Fin 2) (f : Frame), f.wf = true → (s.mgmt port.val).mode ≠ 0 → (s.mgmt port.val).link = true →
    s.domainOn 86 = true → f.dst ≠ (s.mgmtAddresses port.val).mac → f.dst / 2 ^ 40 % 2 = 0 →
    Happens (.mgmtDatagramReceive port f) s (s.setMgmt port.val
      { s.mgmt port.val with rxDiscard := (s.mgmt port.val).rxDiscard + 1 })) ∧
  (∀ (s : State) (port : Fin 2) (f r : Frame), f.wf = true → (s.mgmt port.val).mode ≠ 0 → (s.mgmt port.val).link = true →
    s.domainOn 86 = true → vlanOk (s.mgmtAddresses port.val).vlan f = true → f.dst = 0xFFFFFFFFFFFF →
    f.etherType = 0x0806 → arpReply (s.mgmtAddresses port.val) f = some r →
    Happens (.mgmtDatagramReceive port f) s ((s.rxFrame port.val).sendMgmt port.val r)) ∧
  -- a command datagram for the port's address becomes a command of its source
  (∀ (s : State) (port : Fin 2) (f : Frame) (ip : Ip) (u : Udp), f.wf = true → (s.mgmt port.val).mode ≠ 0 →
    (s.mgmt port.val).link = true → s.domainOn 86 = true → vlanOk (s.mgmtAddresses port.val).vlan f = true →
    f.dst = (s.mgmtAddresses port.val).mac →
    ptpTo (kvGet {} s.qz.ptp.ports (128 + port.val)) (s.mgmtAddresses port.val) f = false →
    arpReply (s.mgmtAddresses port.val) f = none →
    parseIp f.etherType f.payload = some ip → neighbourReply (s.mgmtAddresses port.val) f ip = none →
    (if ip.v6 then (s.mgmtAddresses port.val).ipv6.contains ip.dst
      else (s.mgmtAddresses port.val).ipv4 ≠ 0 && beNat ip.dst = (s.mgmtAddresses port.val).ipv4) = true →
    echoReply (s.mgmtAddresses port.val) f ip = none → ip.proto = 17 → ip.fragment = false → parseUdp ip = some u →
    u.dst = 47100 → u.sumOk = true →
    Happens (.mgmtDatagramReceive port f) s ((s.rxFrame port.val).receivePacket (udpClient port.val ip u) f.src
      (readPacket (udpClient port.val ip u) f.src true u.body))) ∧
  -- SMBus: fragments with the device's address and a right code are joined in order, and the last one completes the packet
  (∀ (s : State) (b : Byte) (part : List Byte), s.smbusAddress < 128 → part.length ≤ 254 → b.toNat < 128 →
    (b.toNat = 0 ∨ b.toNat = s.own.smbusNext) →
    Happens (.smbusBlockWrite ⟨s.smbusAddress, 0xC0⟩ (b :: part)
      (some (smbusPec (smbusWriteBytes s.smbusAddress 0xC0 (b :: part))))) s { s with own := { s.own with
        smbusIn := if b.toNat = 0 then part else s.own.smbusIn ++ part, smbusNext := b.toNat + 1 } }) ∧
  (∀ (s : State) (b : Byte) (part : List Byte), s.smbusAddress < 128 → part.length ≤ 254 → 128 ≤ b.toNat →
    (b.toNat = 128 ∨ b.toNat = 128 + s.own.smbusNext) →
    Happens (.smbusBlockWrite ⟨s.smbusAddress, 0xC0⟩ (b :: part)
      (some (smbusPec (smbusWriteBytes s.smbusAddress 0xC0 (b :: part))))) s
      (State.receivePacket { s with own := { s.own with smbusIn := [], smbusNext := 0, smbusOut := none, smbusRead := 0 } }
        smbusClient 0 (readPacket smbusClient 0 true (if b.toNat = 128 then part else s.own.smbusIn ++ part)))) ∧
  -- another address is another device's; a wrong or missing code is counted in malformed, whatever the command code
  (∀ (s : State) (a : Nat) (code : Byte) (data : List Byte) (pec : Option Byte), a < 128 → data.length ≤ 255 →
    a ≠ s.smbusAddress → Happens (.smbusBlockWrite ⟨a, code⟩ data pec) s s ∧ Happens (.smbusBlockRead ⟨a, code⟩) s s) ∧
  (∀ (s : State) (code : Byte) (data : List Byte) (pec : Option Byte), s.smbusAddress < 128 → data.length ≤ 255 →
    pec ≠ some (smbusPec (smbusWriteBytes s.smbusAddress code data)) →
    Happens (.smbusBlockWrite ⟨s.smbusAddress, code⟩ data pec) s (s.malformed 3)) ∧
  -- a read answers 0xFF, or the reply fragment by fragment
  (∀ s : State, s.smbusAddress < 128 → s.own.smbusOut = none →
    Happens (.smbusBlockRead ⟨s.smbusAddress, 0xC1⟩) s (s.smbusAnswer 0xC1 [0xFF])) ∧
  (∀ (s : State) (p : List Byte), s.smbusAddress < 128 → s.own.smbusOut = some p → p.length ≤ 254 * (s.own.smbusRead + 1) →
    Happens (.smbusBlockRead ⟨s.smbusAddress, 0xC1⟩) s
      (State.smbusAnswer { s with own := { s.own with smbusOut := none, smbusRead := 0 } } 0xC1
        (BitVec.ofNat 8 (s.own.smbusRead % 128 + 128) :: slice p (254 * s.own.smbusRead) 254))) ∧
  (∀ (s : State) (p : List Byte), s.smbusAddress < 128 → s.own.smbusOut = some p → 254 * (s.own.smbusRead + 1) < p.length →
    Happens (.smbusBlockRead ⟨s.smbusAddress, 0xC1⟩) s
      (State.smbusAnswer { s with own := { s.own with smbusRead := s.own.smbusRead + 1 } } 0xC1
        (BitVec.ofNat 8 (s.own.smbusRead % 128) :: slice p (254 * s.own.smbusRead) 254))) ∧
  -- a command queue in host memory: the element is read and stamped, CONS moves on
  (∀ (s : State) (q : Nat) (bs : List Byte) (code : Nat) (c : Cmd), q < 4096 → bs.length ≤ 16384 → s.elementDue q = true →
    (s.readElement (s.queue q) (s.queue q).cons (some bs)).2 = some bs →
    readPacket (queueClient q) (s.queue q).cons false bs = .cmd code c →
    ∃ u : State, u = (s.readElement (s.queue q) (s.queue q).cons (some bs)).1 ∧
      Happens (.commandQueueRead q (some bs)) s
        (((u.setQueue q { u.queue q with cons := ((s.queue q).cons + 1) % 2 ^ 32, accessErr := (u.queue q).accessErr }).writeBack q
          (((s.queue q).cons + 1) % 2 ^ 32)).receivePacket (queueClient q) (s.queue q).cons (.cmd code c))) ∧
  (∀ (s : State) (q : Nat) (e : Option (List Byte)), q < 4096 → (∀ b ∈ e, b.length ≤ 16384) → s.elementDue q = false →
    Happens (.commandQueueRead q e) s s) ∧
  -- no IP fragment is accepted, whatever it carries: one for the port is malformed
  (∀ (s : State) (port : Fin 2) (f : Frame) (ip : Ip), f.wf = true → (s.mgmt port.val).mode ≠ 0 →
    (s.mgmt port.val).link = true → s.domainOn 86 = true → vlanOk (s.mgmtAddresses port.val).vlan f = true →
    f.dst = (s.mgmtAddresses port.val).mac →
    ptpTo (kvGet {} s.qz.ptp.ports (128 + port.val)) (s.mgmtAddresses port.val) f = false →
    arpReply (s.mgmtAddresses port.val) f = none → parseIp f.etherType f.payload = some ip → ip.fragment = true →
    (if ip.v6 then (s.mgmtAddresses port.val).ipv6.contains ip.dst
      else (s.mgmtAddresses port.val).ipv4 ≠ 0 && beNat ip.dst = (s.mgmtAddresses port.val).ipv4) = true →
    Happens (.mgmtDatagramReceive port f) s ((s.rxDiscard port.val).malformed (mgmtEp port.val)))

/-- Each register write has its effect: a snapshot, a software event, a fired consumer, a route, REMAP, a doorbell, a
queue's configuration, a recovery image and its check, an injected error. (R281, R371, R374, R375, R426, R432, R444, R453,
R471, R527, R538). -/
def Obligations.RegisterWritesAct : Prop :=
  (∀ (s : State) (v : Nat), v < 2 ^ 64 → bit v 0 = true → Happens (.qzSnapTake v) s s.takeSnapshot) ∧
  (∀ (s : State) (v : Nat), v < 2 ^ 64 → bit v 0 = false → Happens (.qzSnapTake v) s s) ∧
  (∀ (s : State) (v : Nat), v < 2 ^ 64 → Happens (.erSwFire v) s
    (((List.range 16).filter (bit v)).foldl (fun u n => u.raiseEvent (1 + n) s.er.swIndex 0) s)) ∧
  (∀ (s : State) (v : Nat), v < 2 ^ 64 → bit v 7 = true → Happens (.erCfire v) s
    (s.deliverTo (v % 128) { producer := 0, index := noIndex, arg := 0, suspect := s.suspect, late := false,
                             time := s.nowInstant, seq := 0, at_ := s.ns })) ∧
  (∀ (s : State) (v : Nat), v < 2 ^ 64 → bit v 7 = false → Happens (.erCfire v) s s) ∧
  (∀ (s : State) (v : Nat), v < 2 ^ 64 →
    Happens (.erConfigWrite 0 v) s { s with er := { s.er with mode := v % 2 } }) ∧
  (∀ (s : State) (n v : Nat), n < 128 → v < 2 ^ 64 →
    Happens (.erConfigWrite (0x1000 + 8 * n) v) s { s with er := { s.er with sel := kvSet 0 s.er.sel n (v % 256) } } ∧
    Happens (.erConfigWrite (0x1400 + 8 * n) v) s { s with er := { s.er with fixEn := kvSet 0 s.er.fixEn n (v % 16) } }) ∧
  -- MC-A, MC-B or PCIe sets REMAP; a core that does not hold the token meets an error
  (∀ (s : State) (v m : Nat), v < 2 ^ 64 → m ≤ 2 → s.coreMayWrite m = true → Happens (.mxCtrlRemap v m) s
    ((s.grant m).mapMem fun x => { x with remap := x.remap || bit v 0 })) ∧
  (∀ (s : State) (v m : Nat), v < 2 ^ 64 → m ≤ 2 → s.coreMayWrite m = false → Happens (.mxCtrlRemap v m) s (s.grant m).errResp) ∧
  -- a doorbell within the queue moves the index that the host owns; any other is counted
  (∀ (s : State) (q v : Nat), q < 4096 → v < 2 ^ 64 → s.domainOn 85 = true → (s.queue q).doorbellOk (v % 2 ^ 32) = true →
    Happens (.rqDb q v) s ((s.setQueue q (if hostProduced (s.queue q).kind then { s.queue q with prod := v % 2 ^ 32 }
      else { s.queue q with cons := v % 2 ^ 32 })).settleQueue q)) ∧
  (∀ (s : State) (q v : Nat), q < 4096 → v < 2 ^ 64 → s.domainOn 85 = true → (s.queue q).doorbellOk (v % 2 ^ 32) = false →
    Happens (.rqDb q v) s ((s.setQueue q { s.queue q with dbBad := true }).mapRing fun g => { g with dbBad := g.dbBad + 1 })) ∧
  -- a queue of the CSRs is configured while it is disabled, and enabled and disabled by EN
  (∀ (s : State) (q v : Nat) (n : Queue), q < 8 → v < 2 ^ 64 → s.domainOn 85 = true → (s.queue q).enable = false →
    n = { s.queue q with
      kind := v % 8, esize := v / 16 % 16, entries := v / 2 ^ 16 % 32, pair := v / 2 ^ 32 % 4096,
      vector := v / 2 ^ 48 % 65536 } →
    Happens (.rqCfgEnable q v) s (s.setQueue q (if bit v 3 = false then n
      else if s.enableOk q n then { n with enable := true, prod := 0, cons := 0 } else { n with accessErr := true }))) ∧
  (∀ (s : State) (q v : Nat), q < 8 → v < 2 ^ 64 → s.domainOn 85 = true → (s.queue q).enable = true → Happens (.rqCfgEnable q v) s
    (if bit v 3 then s
      else (s.setQueue q { s.queue q with enable := false, prod := 0, cons := 0 }).settleQueue q)) ∧
  (∀ (s : State) (q v : Nat), 8 ≤ q → q < 4096 → v < 2 ^ 64 → s.domainOn 85 = true → Happens (.rqCfgEnable q v) s s) ∧
  -- recovery: eight bytes of the image at a time, then its check
  (∀ (s : State) (v : Nat), v < 2 ^ 64 → s.pwr.phase = 5 → Happens (.btRecData v) s
    ((s.sramStore s.pwr.recAddr ((leBytes 8 v).take (0x400000 - s.pwr.recAddr))).mapPwr fun p =>
      { p with recAddr := (s.pwr.recAddr + 8) % 0x400000 })) ∧
  (∀ (s : State) (v : Nat), v < 2 ^ 64 → s.pwr.phase ≠ 5 → Happens (.btRecData v) s s ∧ Happens (.btRecGo v) s s) ∧
  (∀ (s : State) (v : Nat), v < 2 ^ 64 → bit v 0 = false → Happens (.btRecGo v) s s) ∧
  (∀ (s : State) (v : Nat), v < 2 ^ 64 → s.pwr.phase = 5 → bit v 0 = true →
    if s.pwr.imageFail (imageAt 0 s.mem.sram 0) = 0 then
      Happens (.btRecGo v) s ((s.programSlot0 (imageAt 0 s.mem.sram 0)).deviceReset 4)
    else Happens (.btRecGo v) s { s with pwr := { s.pwr with fail := s.pwr.imageFail (imageAt 0 s.mem.sram 0) } }) ∧
  -- an injected parity error waits at its unit
  (∀ (s : State) (h : Fin 4) (v : Nat), v < 2 ^ 48 → 0x1000000000 ≤ v → v < 0x2800000000 →
    stackOf ((v - 0x1000000000) / 32 * 32) = h.val → s.domainOn (76 + h.val) = true → (s.mem.hc h.val).injMode = 3 →
    HappensTo (.hcInjAddr h v) s fun t =>
      (t.mem.hc h.val).parity = kvBump (s.mem.hc h.val).parity ((v - 0x1000000000) / 32 * 32) 1 ∧
      (t.mem.hc h.val).injMode = 0 ∧ (t.mem.hc h.val).injAddr = v ∧ t.mem.bad = s.mem.bad) ∧
  -- with no mode armed, or an address outside the stack, only the register changes
  (∀ (s : State) (h : Fin 4) (v : Nat), v < 2 ^ 48 →
    (v < 0x1000000000 ∨ 0x2800000000 ≤ v ∨ stackOf ((v - 0x1000000000) / 32 * 32) ≠ h.val ∨
      s.domainOn (76 + h.val) = false ∨ (s.mem.hc h.val).injMode = 0) →
    Happens (.hcInjAddr h v) s (s.bumpHc h.val fun c => { c with injAddr := v, injMode := 0 })) ∧
  -- a wrong bit, or an uncorrectable word, at a place the model leaves free, in one word of the unit
  (∀ (s : State) (h : Fin 4) (v : Nat), v < 2 ^ 48 → 0x1000000000 ≤ v → v < 0x2800000000 →
    stackOf ((v - 0x1000000000) / 32 * 32) = h.val → s.domainOn (76 + h.val) = true →
    (s.mem.hc h.val).injMode = 1 ∨ (s.mem.hc h.val).injMode = 2 →
    HappensTo (.hcInjAddr h v) s fun t => (t.mem.hc h.val).injMode = 0 ∧ (t.mem.hc h.val).injAddr = v ∧
      ∃ w < 4, t.mem.bad = kvSet 0 s.mem.bad ((v - 0x1000000000) / 32 * 32)
        (if (s.mem.hc h.val).injMode = 1 then flipOne (kvGet 0 s.mem.bad ((v - 0x1000000000) / 32 * 32)) w
         else withBit (withBit (kvGet 0 s.mem.bad ((v - 0x1000000000) / 32 * 32)) w false) (w + 4) true)) ∧
  -- with the PCIe domain not ON the registers of the queues answer an error
  (∀ (s : State) (q v : Nat), q < 4096 → v < 2 ^ 64 → s.domainOn 85 = false →
    Happens (.rqDb q v) s s.errResp ∧ Happens (.rqCfgEnable q v) s s.errResp) ∧
  -- what a write does to the other registers of CSR space, where it reaches them
  (∀ (s : State) (v : Nat), s.writeMatrix 0x10 v = (s.mapMem fun m => { m with hostHi := v % 2 ^ 24 }) ∧
    s.writeMatrix 0x18 v = (s.mapMem fun m => { m with decerrValid := m.decerrValid && !bit v 63 })) ∧
  (∀ (s : State) (v : Nat),
    s.writeBoot 0x40 v = (if s.pwr.phase = 5 then s.mapPwr fun p => { p with recAddr := v % 2 ^ 22 } else s) ∧
    s.writeBoot 0x58 v = (s.mapQuiesce fun q => { q with timeout := q.timeout && !bit v 2 })) ∧
  (∀ (s : State) (v n : Nat), n < 256 → (s.writeQuartz 0x28 v).qz.causes = s.qz.causes ∧
    s.writeRouter 0x10 v = (s.mapEr fun r => { r with swIndex := v % 2 ^ 64 }) ∧
    s.writeRouter (0x3000 + 8 * n) v = (s.mapEr fun r => { r with pqueue := kvSet 0xFFFF r.pqueue n (v % 65536) })) ∧
  (∀ (s : State) (h v : Nat), v % 4 ≠ 0 → s.writeHbmCtl h 0x30 v = (s.bumpHc h fun c => { c with injMode := v % 4 })) ∧
  -- of a queue: base, write-back and coalescing while it is one of the CSRs' and disabled, and the flags by writing ones
  (∀ (s : State) (q v : Nat), q < 8 → (s.queue q).enable = false →
    s.writeRings (0x10000 + 64 * q) v = s.setQueue q { s.queue q with base := v % 2 ^ 48 } ∧
    s.writeRings (0x10010 + 64 * q) v = s.setQueue q { s.queue q with wb := v % 2 ^ 48 } ∧
    s.writeRings (0x10028 + 64 * q) v = s.setQueue q { s.queue q with coal := v % 65536 }) ∧
  (∀ (s : State) (q v : Nat), q < 4096 → (8 ≤ q ∨ (s.queue q).enable = true) →
    s.writeRings (0x10000 + 64 * q) v = s ∧ s.writeRings (0x10010 + 64 * q) v = s ∧ s.writeRings (0x10028 + 64 * q) v = s) ∧
  (∀ (s : State) (q v : Nat), q < 4096 → s.writeRings (0x10030 + 64 * q) v = s.setQueue q { s.queue q with
    dbBad := (s.queue q).dbBad && !bit v 0, accessErr := (s.queue q).accessErr && !bit v 1 })

/-- An aligned write of a master that may write reaches its register; any other meets an error or a decode error. Inbound
accesses reach memory and registers while the link is up. A read or a write of host memory that is never answered ends the
element or the descriptor that made it. The order of beats and pieces is the model's (DEDUCED, log entry 48). (R14, R400,
R428, R429, R430, R431, R432, R436). -/
def Obligations.BusAccessesAct : Prop :=
  (∀ (s : State) (a v m : Nat), 0x80000000 ≤ a → a < 0x90000000 → v < 2 ^ 64 → m ≤ 2 → a % 8 = 0 → s.coreMayWrite m = true →
    csrAt a ≠ .none → Happens (.csrWrite a v m) s
      (if (s.grant m).csrServed a then (s.grant m).writeReg a v else (s.grant m).errResp)) ∧
  (∀ (s : State) (a v m : Nat), 0x80000000 ≤ a → a < 0x90000000 → v < 2 ^ 64 → m ≤ 2 →
    (a % 8 ≠ 0 ∨ s.coreMayWrite m = false) → Happens (.csrWrite a v m) s (s.grant m).errResp) ∧
  (∀ (s : State) (a v m : Nat), 0x80000000 ≤ a → a < 0x90000000 → v < 2 ^ 64 → m ≤ 2 → a % 8 = 0 → s.coreMayWrite m = true →
    csrAt a = .none → Happens (.csrWrite a v m) s ((s.grant m).decErr m a true)) ∧
  -- a BAR2 read answers the bytes of HBM, or why it failed
  (∀ (s : State) (off n : Nat), off + n ≤ 2 ^ 37 → n ≤ 4096 → s.linkUp = true → s.pwr.phase ≠ 5 →
    Happens (.pcieInboundRead ⟨.hbm, off⟩ n) s ((s.readRange 2 (0x1000000000 + off) n).st.completeRead
      (match (s.readRange 2 (0x1000000000 + off) n).fail with | some (_, r) => r | none => .ok)
      (s.readRange 2 (0x1000000000 + off) n).data)) ∧
  -- a BAR0 read is of eight bytes of CSR space
  (∀ (s : State) (off n : Nat), off + n ≤ 0x10000000 → n ≤ 4096 → n ≠ 8 → s.linkUp = true →
    Happens (.pcieInboundRead ⟨.csr, off⟩ n) s ((s.grant 2).errResp.emit .readAbort)) ∧
  (∀ (s : State) (off : Nat), off + 8 ≤ 0x10000000 → s.linkUp = true → s.pwr.phase ≠ 5 →
    Happens (.pcieInboundRead ⟨.csr, off⟩ 8) s ((s.csrRead 2 (0x80000000 + off)).1.completeRead (s.csrRead 2 (0x80000000 + off)).2.1
      (leBytes 8 (s.csrRead 2 (0x80000000 + off)).2.2))) ∧
  (∀ (s : State) (off : Nat) (d : List Byte), off + 8 ≤ 0x10000000 → d.length = 8 → s.linkUp = true → s.pwr.phase ≠ 5 →
    Happens (.pcieInboundWrite ⟨.csr, off⟩ d) s (s.csrStore 2 (0x80000000 + off) (leNat d)).1) ∧
  -- a BAR2 write stores its pieces, where inbound writes may store
  (∀ (s : State) (off : Nat) (d : List Byte), off + d.length ≤ 2 ^ 37 → d.length ≤ 4096 → s.linkUp = true →
    s.pwr.phase ≠ 5 → Happens (.pcieInboundWrite ⟨.hbm, off⟩ d) s
      ((cuts 256 (0x1000000000 + off) d.length).foldl
        (fun u c => u.inboundPiece c.1 (slice d (c.1 - (0x1000000000 + off)) c.2)) s)) ∧
  -- without a link nothing arrives
  (∀ (s : State) (bar : Bar) (off : Nat) (d : List Byte), off + d.length ≤ bar.size → d.length ≤ 4096 → s.linkUp = false →
    Happens (.pcieInboundWrite ⟨bar, off⟩ d) s s ∧ Happens (.pcieInboundRead ⟨bar, off⟩ d.length) s s) ∧
  -- an element that host memory never returns is answered as one of zeros
  (∀ (s : State) (q : Nat), inOutbound ((s.queue q).element (s.queue q).cons) = true →
    Happens (.pcieOutboundTimeout (.commandElement q)) s (evCommandQueueRead q none s)) ∧
  -- a descriptor's read that host memory never answers has an error response from the first missing beat on
  (∀ (s : State) (n off : Nat) (x : Nat) (b : List Byte), (s.dma n).running = some ⟨x, some b⟩ → (descOf b).bad = false →
    off < (descOf b).length → ((descOf b).op ≠ 2 && inOutbound (descOf b).src || (descOf b).op = 3 && inOutbound (descOf b).dst) = true →
    Happens (.pcieOutboundTimeout (.descriptor n true off)) s
      (evDmaDescriptorComplete n { src := (List.range off).map (Config.freeByte s.draws),
                                   dst := (List.range off).map (Config.freeByte (s.draws + 1)) } s.draw.draw)) ∧
  (∀ (s : State) (n off : Nat) (x : Nat) (b : List Byte), (s.dma n).running = some ⟨x, some b⟩ → (descOf b).bad = false →
    off < (descOf b).length → ((descOf b).op ≠ 3 && inOutbound (descOf b).dst) = true →
    Happens (.pcieOutboundTimeout (.descriptor n false off)) s
      (evDmaDescriptorComplete n { src := (List.range (descOf b).length).map (Config.freeByte s.draws), writeErr := some off }
        s.draw.draw))

/-- A lane finds signal, CDR, block and alignment lock in turn, tries the other polarity every 2 ms and everything every
10 ms, and loses its lock at the step its cause names; a shed not agreed in time restarts the port; superframe markers
tell each side what the other sees and count superframes. The first sf_count, flags bit 0 and the PLL's time are the
model's choice (DESIGN CHOICE, log entry 104). (R63, R64, R66, R67, R69, R72, R73, R74, R80). -/
def Obligations.LanesComeUpAndGo : Prop :=
  -- a lane with CDR lock finds its blocks, and one with block lock its alignment
  (∀ (s : State) (l : Fin 80) (p : Nat) (c : PortCfg), s.portOfLane l.val = some (p, c) → s.serdesOn (l.val / 4) = true →
    (s.lane l.val).rxState = 0 → (s.lane l.val).cdr = false →
    Happens (.laneLock l .cdr) s
      ((s.setLane l.val { s.lane l.val with signal := true, cdr := true, tryAt := s.ns }).settlePort p)) ∧
  (∀ (s : State) (l : Fin 80) (p : Nat) (c : PortCfg), s.portOfLane l.val = some (p, c) → s.serdesOn (l.val / 4) = true →
    (s.lane l.val).rxState = 0 → (s.lane l.val).cdr = true → (s.lane l.val).block = false →
    Happens (.laneLock l .block) s ((s.setLane l.val { s.lane l.val with
        block := true, lastInv := (s.lane l.val).rxInv,
        flips := (s.lane l.val).flips + b2n ((s.lane l.val).rxInv ≠ (s.lane l.val).lastInv) }).settlePort p)) ∧
  (∀ (s : State) (l : Fin 80) (p id : Nat) (c : PortCfg), s.portOfLane l.val = some (p, c) → s.serdesOn (l.val / 4) = true →
    (s.lane l.val).rxState = 0 → (s.lane l.val).block = true → (s.lane l.val).align = false → (c.klp = true → id < c.width) →
    Happens (.laneLock l (.align id)) s
      (((s.setLane l.val { s.lane l.val with align := true, laneId := some id }).settlePort p).restoreLanes p)) ∧
  -- without block lock the other polarity is tried every 2 ms, and everything again every 10 ms
  (∀ (s : State) (l : Fin 80), (s.lane l.val).rxPol = 0 → (s.lane l.val).cdr = true → (s.lane l.val).block = false →
    (s.lane l.val).tryAt + 2000000 ≤ s.ns →
    Happens (.polarityTryTimeout l) s
      (s.setLane l.val { s.lane l.val with rxInv := !(s.lane l.val).rxInv, tryAt := s.ns })) ∧
  (∀ (s : State) (l : Fin 80), s.ns < (s.lane l.val).tryAt + 2000000 → Happens (.polarityTryTimeout l) s s) ∧
  (∀ (s : State) (l : Fin 80) (p : Nat) (c : PortCfg), s.portOfLane l.val = some (p, c) → (s.lane l.val).block = false →
    (s.lane l.val).rxState = 0 → (s.lane l.val).retryAt + 10000000 ≤ s.ns →
    Happens (.bringupRetry l) s ((s.setLane l.val { (s.lane l.val).unlock with retryAt := s.ns }).settlePort p)) ∧
  (∀ (s : State) (l : Fin 80) (p : Nat) (c : PortCfg), s.portOfLane l.val = some (p, c) → (s.lane l.val).inLock c = false →
    (s.lane l.val).block = true → (s.lane l.val).rxState = 0 → (s.lane l.val).retryAt + 10000000 ≤ s.ns →
    Happens (.bringupRetry l) s ((s.setLane l.val { (s.lane l.val).unlock with retryAt := s.ns }).settlePort p)) ∧
  (∀ (s : State) (l : Fin 80), s.ns < (s.lane l.val).retryAt + 10000000 → Happens (.bringupRetry l) s s) ∧
  -- a loss of signal takes every lock of the lane, one of CDR all but the signal, one of blocks or codewords those above it,
  -- and one of the alignment that alone; a lane loses only what it has
  (∀ (s : State) (l : Fin 80) (p : Nat) (c : PortCfg), s.portOfLane l.val = some (p, c) → (s.lane l.val).signal = true →
    Happens (.laneLockLoss l .signal) s ((s.setLane l.val (s.lane l.val).unlock).laneLost l.val (s.lane l.val))) ∧
  (∀ (s : State) (l : Fin 80) (p : Nat) (c : PortCfg), s.portOfLane l.val = some (p, c) → (s.lane l.val).cdr = true →
    Happens (.laneLockLoss l .cdr) s
      ((s.setLane l.val { (s.lane l.val).unlock with signal := (s.lane l.val).signal }).laneLost l.val (s.lane l.val))) ∧
  (∀ (s : State) (l : Fin 80) (p : Nat) (c : PortCfg), s.portOfLane l.val = some (p, c) → (s.lane l.val).block = true →
    Happens (.laneLockLoss l (if c.klp then .codeword else .block)) s
      ((s.setLane l.val ((s.lane l.val).noBlock s.ns)).laneLost l.val (s.lane l.val))) ∧
  (∀ (s : State) (l : Fin 80) (p : Nat) (c : PortCfg), s.portOfLane l.val = some (p, c) → (s.lane l.val).align = true →
    (c.klp = true ∨ 1 < c.width) → Happens (.laneLockLoss l .am) s
      ((s.setLane l.val { s.lane l.val with align := false, laneId := none }).laneLost l.val (s.lane l.val))) ∧
  (∀ (s : State) (l : Fin 80), (s.lane l.val).signal = false → Happens (.laneLockLoss l .signal) s s) ∧
  (∀ (s : State) (l : Fin 80), (s.lane l.val).cdr = false → Happens (.laneLockLoss l .cdr) s s) ∧
  (∀ (s : State) (l : Fin 80), (s.lane l.val).block = false →
    Happens (.laneLockLoss l .block) s s ∧ Happens (.laneLockLoss l .codeword) s s) ∧
  (∀ (s : State) (l : Fin 80) (p : Nat) (c : PortCfg), s.portOfLane l.val = some (p, c) → (c.klp = true ∨ 1 < c.width) →
    (s.lane l.val).align = false → Happens (.laneLockLoss l .am) s s) ∧
  (∀ (s : State) (l : Fin 80) (cause : LossCause), s.portOfLane l.val = none → Happens (.laneLockLoss l cause) s s) ∧
  -- a shed that the partner has not agreed in time restarts the port
  (∀ (s : State) (p : Fin 80) (c : PortCfg), s.portCfg p.val = some c →
    ((s.portAt p.val).pendingSheds.any fun x => x.reported && decide ((s.portAt p.val).agreeSf ≤ x.sent)) = true →
    Happens (.shedAgreeTimeout p) s (s.restartPort p.val c)) ∧
  (∀ (s : State) (p : Fin 80), (s.portAt p.val).pendingSheds = [] → Happens (.shedAgreeTimeout p) s s) ∧
  (∀ (s : State) (l : Fin 80) (p n : Nat) (c : PortCfg), s.portOfLane l.val = some (p, c) → (s.lane l.val).block = true →
    Happens (.uncorrectableCodeword l n) s (s.setPort p { s.portAt p with
      uncorrectableCw := (s.portAt p).uncorrectableCw + 1, rxDiscard := (s.portAt p).rxDiscard + n })) ∧
  (∀ (s : State) (l : Fin 80) (n : Nat), (s.lane l.val).block = false → Happens (.uncorrectableCodeword l n) s s) ∧
  (∀ (s : State) (l : Fin 80) (errors : List Nat), (errors.all fun x => decide (x < 2 ^ 37)) = true →
    (∀ e ∈ s.port.scans.find? (fun x : Nat × EyeScan => decide (x.1 = l.val)), e.2.running = false ∨ e.2.done s.ns ≠ e.2.total) → Happens (.eyeScanDone l errors) s s) ∧
  (∀ (s : State) (l : Fin 80) (e : EyeScan) (errors : List Nat), (errors.all fun x => decide (x < 2 ^ 37)) = true →
    s.port.scans.find? (fun x => decide (x.1 = l.val)) = some (l.val, e) → e.running = true → e.done s.ns = e.total →
    Happens (.eyeScanDone l errors) s (State.raise { s with port := { s.port with scans := s.port.scans.map fun x =>
      if x.1 = l.val then (x.1, { e with
        running := false, points := padTo 0 e.total (errors.map fun n => min n 0xFFFFFFFF) }) else x } } 178 l.val)) ∧
  -- one Ethernet lane that loses its alignment is in lock no more
  (∀ (s : State) (l : Fin 80) (p : Nat) (c : PortCfg), s.portOfLane l.val = some (p, c) → c.klp = false → c.width = 1 →
    (s.lane l.val).block = true → Happens (.laneLockLoss l .am) s
      ((s.setLane l.val ((s.lane l.val).noBlock s.ns)).laneLost l.val (s.lane l.val))) ∧
  -- a marker on a lane in lock tells what the partner sees; the first of a superframe moves a duplex port's polarity
  (∀ (s u : State) (l : Fin 80) (p : Nat) (c : PortCfg) (b : List Byte), b.length = 32 → s.portOfLane l.val = some (p, c) →
    c.klp = true → (s.lane l.val).inLock c = true → fld b 0 1 = 0x78 → fld b 1 1 = 1 →
    u = s.setPort p { s.portAt p with
      partnerSeen := true, partnerFlags := fld b 2 1, partnerGood := fld b 8 1, partnerActive := fld b 9 1,
      partnerSf := some (fld b 4 4) } →
    Happens (.sfmReceive l b) s
      (((if c.duplex = true ∧ (s.portAt p).partnerSf ≠ some (fld b 4 4) then u.followInversion p c (fld b 10 1) else u).settlePort
        p).agreeSheds p |>.restoreLanes p)) ∧
  (∀ (s : State) (l : Fin 80) (p : Nat) (c : PortCfg) (b : List Byte), b.length = 32 → s.portOfLane l.val = some (p, c) →
    (c.klp = false ∨ (s.lane l.val).inLock c = false ∨ fld b 0 1 ≠ 0x78 ∨ fld b 1 1 ≠ 1) → Happens (.sfmReceive l b) s s) ∧
  (∀ (s : State) (l : Fin 80) (b : List Byte), b.length = 32 → s.portOfLane l.val = none → Happens (.sfmReceive l b) s s) ∧
  -- the device's own marker, on every lane that transmits: sf_count moves on, a command's settings come into force
  (∀ (s u : State) (p : Fin 80) (c : PortCfg) (klp : Bool × Nat), s.portCfg p.val = some c → c.duplex = true →
    s.serdesOn (p.val / 4) = true → s.txAwake p.val c = true →
    ((s.portAt p.val).sfAt = 0 ∨ (s.portAt p.val).sfAt + 1048576 ≤ s.ns) →
    klp = (s.portAt p.val).nextKlp.getD ((s.portAt p.val).shed, (s.portAt p.val).agreeSf) →
    u = s.setPort p.val { s.portAt p.val with
      rxGood := s.goodIds p.val c,
      txActive := (s.portLanes p.val c).foldl (fun acc l => if decide ((s.lane l).txState = 0) && bit (s.portAt p.val).partnerGood (l - p.val)
        then withBit acc (l - p.val) true else acc) 0,
      sfAt := s.ns, sfCount := ((s.portAt p.val).sfCount + 1) % 2 ^ 32, shed := klp.1, agreeSf := klp.2, nextKlp := none,
      pendingSheds := (s.portAt p.val).pendingSheds.filterMap fun x =>
        if x.reported then some { x with sent := x.sent + 1 }
        else if bit (s.goodIds p.val c) x.laneId then none else some { x with reported := true } } →
    Happens (.sfmTransmit p) s (((u.portLanes p.val c).foldl (fun w l => if (w.lane l).txState = 0
      then w.emit (.superframe l (l - p.val) c.width (u.sfmBlock p.val c)) else w) u).agreeSheds p.val |>.restoreLanes p.val)) ∧
  (∀ (s : State) (p : Fin 80), (s.portAt p.val).sfAt ≠ 0 → s.ns < (s.portAt p.val).sfAt + 1048576 → Happens (.sfmTransmit p) s s) ∧
  (∀ (s : State) (p : Fin 80) (c : PortCfg), s.portCfg p.val = some c → c.duplex = false → Happens (.sfmTransmit p) s s)

/-- Frames and packets are counted, filtered and parsed on a port that is UP; what a release lets go is judged anew; a
visit closes when its hold has expired; reports are repeated and queries answered. The order of the checks of a datagram
and a negative index are the model's choice (DESIGN CHOICE, log entry 104). (R60, R88, R90, R91, R105, R106, R110). -/
def Obligations.IngestEventsAct : Prop :=
  -- a frame for another station, or another VLAN: filtered on an ingest port, discarded on an egress port
  (∀ (s : State) (p : Fin 80) (f : Frame) (c : PortCfg), f.wf = true → s.portCfg p.val = some c → c.klp = false →
    2 ≤ (s.portAt p.val).state → f.etherType ≠ 0x8808 →
    (vlanOk (s.inPort p.val).vlan f = false ∨
      ((s.inPort p.val).mac = 0 ∨ f.dst ≠ (s.inPort p.val).mac) ∧ f.dst / 2 ^ 40 % 2 = 0) →
    Happens (.ethFrameReceive p f) s
      (if c.role = 0 then (s.countPort p.val fun q => { q with rxPackets := q.rxPackets + 1 }).filtered p.val
       else s.countPort p.val fun q => { q with rxDiscard := q.rxDiscard + 1 })) ∧
  -- a pause frame is discarded
  (∀ (s : State) (p : Fin 80) (f : Frame) (c : PortCfg), f.wf = true → s.portCfg p.val = some c → c.klp = false →
    2 ≤ (s.portAt p.val).state → f.etherType = 0x8808 →
    Happens (.ethFrameReceive p f) s (s.countPort p.val fun q => { q with rxDiscard := q.rxDiscard + 1 })) ∧
  -- a frame for the port that is no ARP, neighbour, query or PTP message is looked at as ingest
  (∀ (s : State) (p : Fin 80) (f : Frame) (c : PortCfg), f.wf = true → s.portCfg p.val = some c → c.klp = false →
    2 ≤ (s.portAt p.val).state → c.role = 0 → (s.inPort p.val).mac ≠ 0 → f.dst = (s.inPort p.val).mac →
    vlanOk (s.inPort p.val).vlan f = true → ptpTo (kvGet {} s.qz.ptp.ports p.val) (s.inPort p.val).addresses f = false →
    arpReply (s.inPort p.val).addresses f = none →
    ((parseIp f.etherType f.payload).bind fun x => neighbourReply (s.inPort p.val).addresses f x) = none →
    (parseIp f.etherType f.payload).bind queryOf = none → (parseIp f.etherType f.payload).any unheeded = false →
    (f.etherType = 0x0800 ∨ f.etherType = 0x86DD) →
    Happens (.ethFrameReceive p f) s
      ((s.countPort p.val fun q => { q with rxPackets := q.rxPackets + 1 }).ingestIp p.val f)) ∧
  -- an ARP request for the port's address is answered, and a query waits for its answer
  (∀ (s : State) (p : Fin 80) (f r : Frame) (c : PortCfg), f.wf = true → s.portCfg p.val = some c → c.klp = false →
    2 ≤ (s.portAt p.val).state → f.etherType = 0x0806 → (s.inPort p.val).mac ≠ 0 →
    (f.dst = (s.inPort p.val).mac ∨ f.dst = 0xFFFFFFFFFFFF) → vlanOk (s.inPort p.val).vlan f = true →
    arpReply (s.inPort p.val).addresses f = some r →
    Happens (.ethFrameReceive p f) s ((s.countPort p.val fun q => { q with rxPackets := q.rxPackets + 1 }).sendOwn p.val r)) ∧
  (∀ (s : State) (p : Fin 80) (f : Frame) (c : PortCfg) (q : McastQuery), f.wf = true → s.portCfg p.val = some c →
    c.klp = false → 2 ≤ (s.portAt p.val).state → f.etherType ≠ 0x8808 → c.role = 0 → f.dst / 2 ^ 40 % 2 = 1 →
    vlanOk (s.inPort p.val).vlan f = true → ptpTo (kvGet {} s.qz.ptp.ports p.val) (s.inPort p.val).addresses f = false →
    arpReply (s.inPort p.val).addresses f = none →
    ((parseIp f.etherType f.payload).bind fun x => neighbourReply (s.inPort p.val).addresses f x) = none →
    (parseIp f.etherType f.payload).bind queryOf = some q →
    Happens (.ethFrameReceive p f) s ((s.countPort p.val fun q => { q with rxPackets := q.rxPackets + 1 }).setInPort p.val
      { s.inPort p.val with queries := (s.inPort p.val).queries ++ [q] })) ∧
  -- nothing is received on a port that is not UP, and no packet that KLP cannot carry
  (∀ (s : State) (p : Fin 80) (f : Frame), f.wf = true → (s.portAt p.val).state < 2 → Happens (.ethFrameReceive p f) s s) ∧
  (∀ (s : State) (p : Fin 80) (b : List Byte) (c : PortCfg), 64 ≤ b.length → b.length ≤ 9216 → s.portCfg p.val = some c →
    c.klp = true → 2 ≤ (s.portAt p.val).state →
    Happens (.klpPacketReceive p b) s
      ((s.countPort p.val fun q => { q with rxPackets := q.rxPackets + 1 }).klpPacket p.val none b)) ∧
  (∀ (s : State) (p : Fin 80) (b : List Byte), b.length < 64 → Happens (.klpPacketReceive p b) s s) ∧
  (∀ (s : State) (p : Fin 80) (b : List Byte), b.length ≤ 9216 → (s.portAt p.val).state < 2 → Happens (.klpPacketReceive p b) s s) ∧
  -- what a release, or a stop, lets go is judged anew
  (∀ (s : State) (p : Part) (rest : List HeldItem), s.ing.held = .part p :: rest →
    (s.noVisit p.index || s.releasedSomewhere (s.visitOf p.index)) = true →
    Happens .heldPartRelease s (State.judgePart { s with ing := { s.ing with held := rest } } p)) ∧
  (∀ (s : State) (p : Piece) (rest : List HeldItem), s.ing.held = .piece p :: rest → s.noVisit p.index = true →
    Happens .heldPartRelease s
      (State.countIn { s with ing := { s.ing with held := rest } } p.port fun q => { q with late := q.late + 1 })) ∧
  (∀ (s : State) (p : Piece) (rest : List HeldItem), s.ing.held = .piece p :: rest → s.noVisit p.index = false →
    (s.chan p.channel).released p.visit = true →
    Happens .heldPartRelease s (State.judgePiece { s with ing := { s.ing with held := rest } } p)) ∧
  (∀ s : State, s.ing.held = [] → Happens .heldPartRelease s s) ∧
  (∀ (s : State) (c k : Nat), s.visitExists c k = true → (s.chan c).released k = true → (s.chan c).closed k = false →
    s.holdExpired c k = true → Happens (.visitHoldExpiry c k) s (s.closeVisit c k)) ∧
  (∀ (s : State) (c k : Nat), s.holdExpired c k = false → Happens (.visitHoldExpiry c k) s s) ∧
  -- multicast reports go out a second time after a second; a query is answered for the groups it asks for
  (∀ (s u : State) (p : Fin 80), u = s.setInPort p.val { s.inPort p.val with
      repeats := (s.inPort p.val).repeats.filter fun r => decide (s.ns < r.sentAt + 1000000000) } →
    Happens (.mcastReportRepeat p) s
      (((s.inPort p.val).repeats.filter fun r => decide (r.sentAt + 1000000000 ≤ s.ns)).foldl
        (fun w r => w.sendOwn p.val (w.reportFrame p.val r.what (changeRecord r.what r.leave))) u)) ∧
  (∀ (s : State) (p : Fin 80), (s.inPort p.val).queries = [] → Happens (.mcastQueryResponse p) s s) ∧
  (∀ (s : State) (p : Fin 80) (q : McastQuery) (rest : List McastQuery), (s.inPort p.val).queries = q :: rest →
    Happens (.mcastQueryResponse p) s
      ((((s.inPort p.val).groups.filter fun m => decide (m.family = q.family) && q.group.all fun g => decide (m.group = g)).filterMap
          fun m => (answerRecord q m).map fun r => (m, r)).foldl
        (fun w e => w.sendOwn p.val (w.reportFrame p.val e.1 e.2))
        (s.setInPort p.val { s.inPort p.val with queries := rest })))

/-- The eligible visit of the lowest index is loaded into a free bank, which becomes full and is worked on in its turn; a
visit that the planner shed leaves, and one that has not started by its deadline is dropped. (R41, R128, R129, R130, R131,
R132, R133, R134, R135). -/
def Obligations.MicaTakesUpVisits : Prop :=
  -- the eligible visit of the lowest index is taken up, once a bank is free
  (∀ (s : State) (c k b : Nat), s.tile.sched = .running → s.tile.stop = none → s.candidate = some (c, k) →
    s.freeBank = some b → s.stg.loading = none → s.visitExists c k = true → k < s.load.toBegin → s.stagingOn b = true →
    HappensTo .micaLoadStart s fun t => t.stg.loads = s.stg.loads + 1 ∧ t.stg.bank0 = s.stg.bank0 ∧ t.stg.bank1 = s.stg.bank1 ∧
      ∃ l, t.stg.loading = some l ∧ l.bank = b ∧ l.channel = c ∧ l.visit = k ∧ l.since = s.ns) ∧
  (∀ s : State, s.tryStop = s → s.stg.loading.isSome = true → Happens .micaLoadStart s s) ∧
  -- a completed load leaves a full bank, and its half is released
  (∀ (s : State) (l : Loading), s.stg.loading = some l → HappensTo .micaLoadComplete s fun t =>
    t.stg.loading = none ∧ t.stg.loadLast = s.ns - l.since ∧ t.stg.loadMax = max s.stg.loadMax (s.ns - l.since) ∧
    (t.bank l.bank).full = true ∧ (t.bank l.bank).inUse = false ∧ (t.bank l.bank).visit = (l.channel, l.visit) ∧
    (t.bank l.bank).delays = l.delays ∧ (t.bank l.bank).fullAt = s.ns ∧
    (t.bank l.bank).data = (s.stage l).data ∧ (t.bank l.bank).valid = (s.stage l).valid) ∧
  (∀ s : State, s.stg.loading = none → Happens .micaLoadComplete s s) ∧
  -- a visit that the planner sheds leaves, unless Mica loads it already or a pending stop lies at or before it
  (∀ (s : State) (c k : Nat), s.visitExists c k = true → (s.chan c).eligible k = true →
    (s.load.round k).plan.contains c = true → (∀ l ∈ s.stg.loading, l.channel ≠ c ∨ l.visit ≠ k) →
    Happens (.shedVisitSkip c k) s
      (if s.tile.sched = .running ∧ ∃ x ∈ s.tile.stop, x ≤ s.firstIndex k
       then (s.mapTile fun t => { t with sched := .stopping }).settleSched
       else (((s.leave c k).countShed c k).loseVisit c k 2).tryStop)) ∧
  (∀ (s : State) (c k : Nat) (l : Loading), s.stg.loading = some l → l.channel = c → l.visit = k →
    Happens (.shedVisitSkip c k) s s) ∧
  (∀ (s : State) (c k : Nat), (s.load.round k).plan.contains c = false → Happens (.shedVisitSkip c k) s s) ∧
  -- the bank loaded first is worked on as long as its deadline has not passed
  (∀ (s : State) (b c k : Nat), s.stg.working = none → s.nextBank = some b → (s.bank b).visit = (c, k) →
    s.deadlinePassed c k true = false → s.liveSlots.all s.slotOn = true → HappensTo .visitStart s fun t => t.stg.loaded = s.stg.loaded + 1 ∧
      (t.bank b).inUse = true ∧ (t.bank b).full = (s.bank b).full ∧ ∃ w, t.stg.working = some (b, w) ∧ w.channel = c ∧ w.visit = k ∧
      w.data = (s.bank b).data ∧ w.valid = (s.bank b).valid ∧ w.delays = (s.bank b).delays ∧ w.beams = (s.bank b).beams ∧
      w.tiles = [] ∧ w.since = s.ns) ∧
  (∀ s : State, s.stg.working.isSome = true → Happens .visitStart s s) ∧
  (∀ s : State, s.nextBank = none → Happens .visitStart s s) ∧
  (∀ (s : State) (b c k : Nat), s.nextBank = some b → (s.bank b).visit = (c, k) → s.deadlinePassed c k true = true →
    Happens .visitStart s s) ∧
  -- at its deadline a visit that has not started is dropped
  (∀ (s : State) (c k : Nat), s.dropState c k ≠ .started → s.visitExists c k = true → s.deadlinePassed c k false = true →
    s.stopsAt k = false → Happens (.visitDeadline c k) s (s.dropVisit c k (s.dropState c k))) ∧
  (∀ (s : State) (c k : Nat), (s.dropState c k = .started ∨ s.deadlinePassed c k false = false) →
    Happens (.visitDeadline c k) s s) ∧
  -- of a visit at or beyond a pending stop the stop takes effect instead
  (∀ (s : State) (c k x : Nat), s.dropState c k ≠ .started → s.visitExists c k = true → s.deadlinePassed c k false = true →
    s.tile.sched = .running → s.tile.stop = some x → x ≤ s.firstIndex k →
    Happens (.visitDeadline c k) s ((s.mapTile fun t => { t with sched := .stopping }).settleSched)) ∧
  -- a round is planned before Mica takes up the first of its visits
  (∀ (s : State) (c k : Nat), s.tile.sched = .running → s.tile.stop = none → s.candidate = some (c, k) →
    s.freeBank.isSome = true → s.stg.loading = none → s.visitExists c k = true →
    s.readyLoad = s.beginRounds (k + s.layout.channels + 1)) ∧
  (∀ (s : State) (c k fuel : Nat), s.candidate = some (c, k) → s.load.toBegin ≤ k →
    s.beginRounds (fuel + 1) = (s.startRound s.load.toBegin).beginRounds fuel) ∧
  -- a domain that is not ON is waited for
  (∀ (s : State) (b : Nat), s.readyLoad = s → s.freeBank = some b → s.stagingOn b = false → Happens .micaLoadStart s s) ∧
  (∀ s : State, s.liveSlots.all s.slotOn = false → Happens .visitStart s s)

/-- A slot completes the visit, and with the last one Basalt is handed it and the bank is free; Basalt takes the visit out
of its inbox; a round in which every visit was started, dropped or shed completes and is judged. When a visit's duration
ends, and a round without a start, are the model's choice (DESIGN CHOICE, log entry 104). (R42, R44, R130, R151, R157,
R173). -/
def Obligations.TilesAndBasaltWork : Prop :=
  -- a slot completes: its accumulators and counts hold what its passes left; with the last slot Basalt is handed the visit,
  -- the bank is free, and the round sees the visit end
  (∀ (s u v : State) (i b tile : Nat) (w : TileWork) (ups : List Upset), s.stg.working = some (b, w) →
    (s.slotAt i).tile = some tile → (s.slotAt i).done = false → s.stg.inbox = none → s.slotOn i = true →
    u = ((s.setSlot i { s.slotAt i with
        done := true, visits := (s.slotAt i).visits + b2n (s.slotWorks i w.channel) }).mapTile fun t =>
      { t with tileVisits := t.tileVisits + b2n (s.slotWorks i w.channel) }) →
    v = (if s.blocksOf i = [] then u
      else u.setTileInfo tile ((u.tileInfo tile).afterVisit w s.layout (s.blocksOf i)
        (ups.filter fun x => (s.blocksOf i).contains (upsetBlock x)))) →
    Happens (.tileVisitComplete i ups) s
      (if (v.liveSlots.all fun j => (v.slotAt j).done) = true
       then (((v.setBank b (v.bank b).emptied).mapStg fun g =>
          { g with working := none, idleAt := s.ns, inbox := some { w with tiles := w.tiles ++ [(i, tile)] } }).roundVisitDone
            w).tryStop
       else v.mapStg fun g => { g with working := some (b, { w with tiles := w.tiles ++ [(i, tile)] }) })) ∧
  (∀ (s : State) (i : Nat) (u : List Upset), s.stg.working = none → Happens (.tileVisitComplete i u) s s) ∧
  (∀ (s : State) (i : Nat) (u : List Upset), (s.slotAt i).done = true → Happens (.tileVisitComplete i u) s s) ∧
  (∀ (s : State) (i : Nat) (u : List Upset), (s.slotAt i).tile = none ∨ s.stg.inbox.isSome = true ∨ s.slotOn i = false →
    Happens (.tileVisitComplete i u) s s) ∧
  -- Basalt takes the visit out of its inbox, its lanes and the output groups of the visit's sets being ON
  (∀ (s : State) (w : TileWork), s.stg.inbox = some w → s.basaltOn w = true → HappensTo .basaltVisitProcess s fun t => ∃ u v : State,
    u = (s.mapStg fun g => { g with inbox := none }).catchUp w.channel w.visit ∧
    v = (((u.accumulate w).visitBeams w).forgetVisit w.channel w.visit).skipOthers w.channel ∧
    t = ((((if v.integEnds w.channel && !(decide (v.pwr.phase = 6) && v.pastStop w.channel (v.integ w.channel).next)
      then v.endInteg w.channel else v).settleLost w.channel).settleDumps).settleSyncs).settleSched) ∧
  (∀ s : State, s.stg.inbox = none → Happens .basaltVisitProcess s s) ∧
  -- a round in which every visit was started, dropped or shed completes
  (∀ (s : State) (r : Round), s.load.rounds = [r] → s.schedLive = true → r.ended = false →
    r.started + r.dropped.length + r.shed.length = s.layout.channels → r.running ≠ 0 → r.awaiting = [] → s.load.shed = false →
    s.load.policy.auto = false → s.load.nextPolicy = none →
    HappensTo .roundEnd s fun t => t.load.rounds = [{ r with ended := true }] ∧ t.load.shed = false ∧
      t.load.window = ((r.dropped.length - r.forgiven) :: s.load.window).take 255) ∧
  (∀ (s : State) (r : Round), s.load.rounds = [r] → s.schedLive = true → r.ended = true → r.awaiting = [] → s.roundOver r = true →
    Happens .roundEnd s (s.judgeRound r)) ∧
  (∀ s : State, s.load.rounds = [] → Happens .roundEnd s s) ∧
  (∀ (s : State) (w : TileWork), s.stg.inbox = some w → s.basaltOn w = false → Happens .basaltVisitProcess s s)

/-- A dump is made in a pass of its own, its weights and its DUMP_END follow, partial frames are taken in and combined,
and frames leave their ports; a frame bound for a full queue waits. How a combination is counted and logged is the model's
reading (DEDUCED, log entry 70). (R46, R187, R198, R215, R216, R217, R218, R339, R455). -/
def Obligations.DumpsAndFramesLeave : Prop :=
  (∀ (s : State) (c : Nat), c < s.layout.channels → s.integEnds c = true → s.pwr.phase ≠ 6 →
    Happens (.dumpPass c) s ((s.endInteg c).settleLost c)) ∧
  (∀ (s : State) (c : Nat), s.integEnds c = false → Happens (.dumpPass c) s s) ∧
  (∀ (s : State) (c : Nat) (j : DumpJob), s.dump.jobs.find? (fun x => decide (x.channel = c)) = some j →
    j.first s.dump.jobs = true → j.frames = [] → j.inFlight = 0 → j.weightsDone = false →
    Happens (.dumpWeightFrames c) s
      ((s.mapJob j.channel j.seq fun x => { x with weightsDone := true }).handAll j (j.weightBytes.map fun f => (f, 0)))) ∧
  (∀ (s : State) (c : Nat), s.dump.jobs = [] → Happens (.dumpWeightFrames c) s s ∧ Happens (.dumpDone c) s s) ∧
  -- the DUMP_END leaves by an egress port that is UP; the dump is over and says so
  (∀ (s : State) (c : Nat) (j : DumpJob), s.dump.jobs = [j] → j.channel = c → j.first [j] = true → j.weightsDone = true →
    j.due ≤ s.ns → j.inFlight = 0 → j.dst.kind = 1 → s.portTransmits j.dst.port = true → ∃ u : State,
      u = (s.setPort j.dst.port { s.portAt j.dst.port with txPackets := (s.portAt j.dst.port).txPackets + 1 }).emit
        (.frame j.dst.port (j.dst.frame (j.endFrame j.lost))) ∧
      Happens (.dumpDone c) s (((u.mapDump fun d => { d with
        jobs := [], kept := kvSet [] d.kept c
          ((kvGet [] d.kept c).map fun r => if r.seq = j.seq then { r with complete := true } else r) }).raiseEvent 181
          j.integStart (c * 65536 + j.seq % 65536)).pumpJobs)) ∧
  -- a partial frame is counted and taken in, any other is an Ethernet frame like all
  (∀ (s : State) (p : Fin 80) (f : Frame) (b : List Byte), f.wf = true → s.partialPayload p.val f = some b →
    Happens (.partialFrameReceive p f) s ((s.countPort p.val fun q => { q with rxPackets := q.rxPackets + 1 }).partialDatagram b)) ∧
  (∀ (s : State) (p : Fin 80) (f : Frame), f.wf = true → s.partialPayload p.val f = none →
    Happens (.partialFrameReceive p f) s (evEthFrameReceive p f s)) ∧
  (∀ (s : State) (c : Nat) (x : Collect), s.bas.collects = [x] → x.channel = c →
    x.startedAt + s.bas.combine.timeoutUs * 1000 ≤ s.ns → Happens (.combineTimeout c) s (s.combine x)) ∧
  (∀ (s : State) (c : Nat), (∀ x ∈ s.bas.collects, x.channel = c → s.ns < x.startedAt + s.bas.combine.timeoutUs * 1000) →
    Happens (.combineTimeout c) s s) ∧
  -- the frame at the head of a port leaves
  (∀ (s : State) (p : Nat) (o : FrameOwner) (f : Frame) (rest : List (FrameOwner × Frame)), p < 80 → s.txq p = (o, f) :: rest →
    Happens (.egressFrameSent p) s ((((s.setTxq p rest).emit (.frame p f)).setPort p
      { s.portAt p with txPackets := (s.portAt p).txPackets + 1 }).frameGone o false)) ∧
  -- a frame bound for a queue is pushed; it waits while the queue is full
  (∀ (s u : State) (p : Nat) (o : FrameOwner) (f : Frame) (rest : List (FrameOwner × Frame)) (lost : Bool), 80 ≤ p →
    s.txq p = (o, f) :: rest → s.push (p - 80) 4 f.payload = (u, .done lost) →
    Happens (.egressFrameSent p) s ((u.setTxq p rest).frameGone o lost)) ∧
  (∀ (s u : State) (p : Nat) (o : FrameOwner) (f : Frame) (rest : List (FrameOwner × Frame)), 80 ≤ p →
    s.txq p = (o, f) :: rest → s.push (p - 80) 4 f.payload = (u, .absent) →
    Happens (.egressFrameSent p) s ((u.setTxq p rest).frameGone o true)) ∧
  (∀ (s u : State) (p : Nat) (o : FrameOwner) (f : Frame) (rest : List (FrameOwner × Frame)), 80 ≤ p →
    s.txq p = (o, f) :: rest → s.push (p - 80) 4 f.payload = (u, .full) → Happens (.egressFrameSent p) s s) ∧
  (∀ (s : State) (p : Nat), s.txq p = [] → Happens (.egressFrameSent p) s s) ∧
  -- a dump that an event asked for is not done sooner than one visit later
  (∀ (s : State) (c : Nat) (j : DumpJob), s.dump.jobs = [j] → s.ns < j.due → Happens (.dumpDone c) s s)

/-- A swap that every channel has passed makes the load bank active, and is raised once its time is over; a chain takes in
the oldest visit or gap it holds unless it must wait; a filter swap that every chain has passed is finished, and is raised
once its time is over. (R238, R267, R269, R272). -/
def Obligations.SwapsAndChainsAct : Prop :=
  -- once every channel has passed the swap, the load bank is the active one, and "beam swap done" is raised; a swap that an
  -- event asked for takes its time first
  (∀ (s : State) (n : Fin 16), s.ns < (s.beamSet n.val).doneAt → Happens (.beamSwapDone n) s s) ∧
  (∀ (s u v : State) (n : Fin 16) (w : When), (s.beamSet n.val).doneAt ≤ s.ns → (s.beamSet n.val).owed = false →
    (s.beamSet n.val).swap = some w → ((s.beamSet n.val).channels.all fun c => s.swapPassed w c) = true →
    u = s.setBeamSet n.val { s.beamSet n.val with
      active := (s.beamSet n.val).load, swap := (s.beamSet n.val).nextSwap, nextSwap := none, owed := true } →
    v = u.setBeamSet n.val { u.beamSet n.val with owed := false } →
    Happens (.beamSwapDone n) s
      (State.raise { v with er := { v.er with busy := v.er.busy.filter (· ≠ 78 + n.val) } } 183 n.val)) ∧
  (∀ (s u : State) (n : Fin 16), (s.beamSet n.val).doneAt ≤ s.ns → (s.beamSet n.val).owed = true →
    u = s.setBeamSet n.val { s.beamSet n.val with owed := false } →
    Happens (.beamSwapDone n) s
      (State.raise { u with er := { u.er with busy := u.er.busy.filter (· ≠ 78 + n.val) } } 183 n.val)) ∧
  (∀ (s : State) (n : Fin 16), (s.beamSet n.val).owed = false →
    (∀ w ∈ (s.beamSet n.val).swap, ((s.beamSet n.val).channels.all fun c => s.swapPassed w c) = false) →
    Happens (.beamSwapDone n) s s) ∧
  -- a chain takes in its oldest visit, or the gap in its place, once the lower chains of its set have
  (∀ (s : State) (n : Fin 32) (x : ChainInput) (rest : List ChainInput), (s.chain n.val).input = x :: rest → x.gap = true →
    s.chainWaits n.val x.visit = false → s.domainOn (91 + n.val / 16) = true →
    Happens (.chainVisitProcess n) s (if (s.chain n.val).onUntil (s.firstIndex x.visit)
      then (s.setChain n.val { s.chain n.val with input := rest }).chainGap n.val
      else s.setChain n.val { s.chain n.val with input := rest })) ∧
  (∀ (s : State) (n : Fin 32) (x : ChainInput) (rest : List ChainInput), (s.chain n.val).input = x :: rest → x.gap = false →
    s.chainWaits n.val x.visit = false → s.domainOn (91 + n.val / 16) = true →
    Happens (.chainVisitProcess n) s (((s.setChain n.val
      (Chain.feedAll s.filt.syncs (s.stepOf (s.chain n.val)) x.values { s.chain n.val with input := rest }).1).emitOutputs n.val
        x.visit (s.stepOf (s.chain n.val))
        (Chain.feedAll s.filt.syncs (s.stepOf (s.chain n.val)) x.values { s.chain n.val with input := rest }).2).settleSyncs)) ∧
  (∀ (s : State) (n : Fin 32), (∀ x ∈ (s.chain n.val).input.head?, s.chainWaits n.val x.visit = true ∨ s.domainOn (91 + n.val / 16) = false) →
    Happens (.chainVisitProcess n) s s) ∧
  -- the chains of a mask have all passed their swap, or are disabled
  (∀ (s : State) (m : Nat), s.filt.doneAt ≤ s.ns → s.filt.owed = [] → s.filt.applies = [m] →
    ((bitsOf 32 m).all fun n => s.chainSwapped (s.chain n)) = true →
    Happens .filterSwapDone s ((s.mapFilt fun f => { f with applies := [] }).finishFilters m)) ∧
  (∀ (s : State) (m : Nat) (rest : List Nat), s.filt.doneAt ≤ s.ns → s.filt.owed = m :: rest →
    Happens .filterSwapDone s (State.raise { s with
      filt := { s.filt with owed := rest }, er := { s.er with busy := s.er.busy.filter (· ≠ 94) } } 185 m)) ∧
  (∀ s : State, s.filt.applies = [] → s.filt.owed = [] ∨ s.ns < s.filt.doneAt → Happens .filterSwapDone s s)

/-- The slot at the audit pointer, or the lowest faulty slot, takes the tile that has been READY longest; a visit start
due earlier comes first; a step without a READY tile is skipped; a slot that no tile backs is withdrawn; a test that
passes makes a tile READY and the second that fails retires it. (R163, R164, R492, R494, R495, R496, R497). -/
def Obligations.TilesMoveAndAreTested : Prop :=
  (∀ s : State, s.spare.auditS ≠ 0 → s.spare.due = false → s.tile.slots ≠ [] →
    s.spare.lastStep + s.spare.auditS * secUnits ≤ s.now →
    Happens .auditStepDue s { s with spare := { s.spare with due := true, passed := false, dueNs := s.ns } }) ∧
  (∀ s : State, s.spare.auditS = 0 → Happens .auditStepDue s s) ∧
  -- the slot at the pointer takes the tile that has been READY longest, once that tile's group is ON
  (∀ (s : State) (i x : Nat), s.auditReady = true → s.auditSlot = some i → s.readyTile = some x → s.domainOn (x / 4) = true →
    Happens .auditStep s ((s.moveSlot i x).endAudit (s.slotAfter i) true)) ∧
  -- with no tile READY the step is skipped and counted
  (∀ s : State, s.auditReady = true → s.readyTile = none → Happens .auditStep s { s with spare := { s.spare with
    due := false, passed := false, lastStep := s.now, auditSkipped := s.spare.auditSkipped + 1 } }) ∧
  (∀ s : State, s.auditReady = false → Happens .auditStep s s) ∧
  -- a reported tile leaves its slot at a boundary, unless a visit start that is due comes first
  (∀ (s : State) (i x : Nat), s.atBoundary = true → s.faultySlot = some i → s.readyTile = some x → s.domainOn (x / 4) = true →
    s.moveFirst (s.faultDue i) = true →
    Happens (.faultMove i) s ((s.moveSlot i x).mapSpare fun p => { p with faultMoves := p.faultMoves + 1 }) ∧
    Happens (.slotMove i x) s ((s.moveSlot i x).mapSpare fun p => { p with faultMoves := p.faultMoves + 1 })) ∧
  (∀ (s : State) (i : Nat), (s.faultTurn i = false ∨ s.atBoundary = false) → Happens (.faultMove i) s s) ∧
  (∀ (s : State) (i x : Nat), s.readyTile = some x → s.faultySlot = none → s.auditSlot = some i → s.auditReady = true →
    s.domainOn (x / 4) = true → Happens (.slotMove i x) s ((s.moveSlot i x).endAudit (s.slotAfter i) true)) ∧
  (∀ (s : State) (i x : Nat), s.readyTile ≠ some x → Happens (.slotMove i x) s s) ∧
  -- a slot without a tile to come is withdrawn at a boundary, once its tile's record has committed
  (∀ (s : State) (x : Leaving) (due : Nat) (rest : List Leaving), s.atBoundary = true → s.tile.leaving = x :: rest →
    x.due = some due → s.moveFirst due = true →
    Happens (.slotWithdraw x.slot) s (((s.setSlot x.slot { s.slotAt x.slot with tile := none }).mapTile fun t =>
      { t with leaving := t.leaving.filter (fun e => e.slot ≠ x.slot) }).raise 180 x.slot)) ∧
  (∀ (s : State) (i : Nat), (∀ x ∈ s.tile.leaving, x.slot = i → x.due = none) → Happens (.slotWithdraw i) s s) ∧
  -- a test that passes makes the tile READY; the second that fails retires it with reason 1
  (∀ (s : State) (t : Nat), t < 272 → (s.tileInfo t).mode = .testing → (s.tileInfo t).doom = 0 → s.domainOn (t / 4) = true →
    Happens (.bistDone t true []) s ((s.mapSpare fun p => { p with bistRuns := p.bistRuns + 1 }).setTileInfo t
      { s.tileInfo t with
        mode := .ready, readyAt := s.ns, fails := 0, reported := false,
        faults := (s.tileInfo t).faults + b2n (s.tileInfo t).reported })) ∧
  (∀ (s : State) (t : Nat), t < 272 → (s.tileInfo t).mode = .testing → (s.tileInfo t).doom = 0 → s.domainOn (t / 4) = true →
    (s.tileInfo t).fails ≠ 0 →
    Happens (.bistDone t false []) s ((s.mapSpare fun p =>
      { p with bistRuns := p.bistRuns + 1, bistFails := p.bistFails + 1 }).retireTile t 1)) ∧
  (∀ (s : State) (t : Nat), t < 272 → (s.tileInfo t).mode = .testing → (s.tileInfo t).doom = 0 → s.domainOn (t / 4) = true →
    (s.tileInfo t).fails = 0 →
    Happens (.bistDone t false []) s ((s.mapSpare fun p =>
      { p with bistRuns := p.bistRuns + 1, bistFails := p.bistFails + 1 }).setTileInfo t { s.tileInfo t with fails := 1 })) ∧
  (∀ (s : State) (t : Nat) (pass : Bool), t < 272 → (s.tileInfo t).mode = .testing → (s.tileInfo t).doom ≠ 0 →
    s.domainOn (t / 4) = true →
    Happens (.bistDone t pass []) s ((s.mapSpare fun p =>
      { p with bistRuns := p.bistRuns + 1, bistFails := p.bistFails + b2n (!pass) }).retireTile t (s.tileInfo t).doom)) ∧
  -- failing rows take spare rows, as long as there are some; then the test counts as the others
  (∀ (s : State) (t : Nat) (rows : List Nat), t < 272 → (∀ x ∈ rows, x < 512) → (s.tileInfo t).mode = .testing →
    (s.tileInfo t).doom = 0 → s.domainOn (t / 4) = true →
    Happens (.bistDone t true rows) s (if (s.repairRows t rows).2
      then ((s.repairRows t rows).1.mapSpare fun p => { p with bistRuns := p.bistRuns + 1 }).setTileInfo t
        { s.tileInfo t with
          mode := .ready, readyAt := s.ns, fails := 0, reported := false,
          faults := (s.tileInfo t).faults + b2n (s.tileInfo t).reported }
      else ((s.repairRows t rows).1.mapSpare fun p => { p with bistRuns := p.bistRuns + 1 }).retireTile t 4)) ∧
  (∀ (s : State) (t : Nat) (pass : Bool) (rows : List Nat), (∀ x ∈ rows, x < 512) →
    (272 ≤ t ∨ (s.tileInfo t).mode ≠ .testing ∨ s.domainOn (t / 4) = false) → Happens (.bistDone t pass rows) s s) ∧
  -- with no tile to come a tile that is to be retired is, in whichever slot it stands
  (∀ (s : State) (i t : Nat), s.atBoundary = true → s.readyTile = none → s.liveSlots.contains i = true →
    s.slotFaulty i = true → s.moveFirst (s.faultDue i) = true → (s.slotAt i).tile = some t → (s.tileInfo t).doom ≠ 0 →
    ((List.range 272).any fun x => (s.tileInfo x).mode = .testing) = false →
    Happens (.faultMove i) s (s.retireTile t (s.tileInfo t).doom))

/-- The PLL's lock, PPS edges and PTP messages act on time as the discipline mode has it, and the holdover timeouts move
the discipline state and make time suspect. The choice of a master is that of IEEE 1588 (PRESUMED, log entry 32). (R282,
R283, R284, R285, R286, R289). -/
def Obligations.ReferencesDisciplineTime : Prop :=
  (∀ s : State, HappensTo .refInLock s fun t => t.qz.pllLock = true ∧ t.qz.refLostAt = none ∧
    t.qz.causes = withBit s.qz.causes 2 false) ∧
  (∀ s : State, s.qz.refLostAt = none →
    Happens .refInLoss s { s with qz := { s.qz with pllLock := false, refLostAt := some s.ns } }) ∧
  (∀ (s : State) (x : Nat), s.qz.refLostAt = some x → Happens .refInLoss s { s with qz := { s.qz with pllLock := false } }) ∧
  -- a time that waits is set at an edge that is not rejected
  (∀ (s : State) (phase x : Nat) (ts : Int), phase < 16 → s.qz.pendingSet = some x → s.qz.source.mode ≠ 1 →
    ts = (s.stampAt phase : Int) - s.qz.source.ppsDelay →
    Happens (.ppsEdge phase) s (((State.stepTime { s with qz := { s.qz with lastPpsAt := s.ns } }
      ((x : Int) - ts)).clearCause 0).mapQz fun q => { q with pendingSet := none, good := 0, rejected := 0 })) ∧
  -- an edge with no time waiting to be set, while PPS is not the source, is only noted
  (∀ (s : State) (phase : Nat), phase < 16 → s.qz.pendingSet = none → s.qz.source.mode ≠ 1 →
    Happens (.ppsEdge phase) s { s with qz := { s.qz with lastPpsAt := s.ns } }) ∧
  (∀ (s : State) (phase : Nat), phase < 16 → s.qz.pendingSet = none → s.qz.source.mode = 1 →
    Happens (.ppsEdge phase) s (State.discipline { s with qz := { s.qz with lastPpsAt := s.ns } }
      ((s.stampAt phase : Int) - s.qz.source.ppsDelay -
        roundHalfEven ((s.stampAt phase : Int) - s.qz.source.ppsDelay) secUnits * secUnits) false)) ∧
  (∀ s : State, s.qz.source.mode = 1 → s.qz.lastPpsAt + 1500000000 ≤ s.ns → Happens .ppsHoldoverTimeout s (s.setDisc 3)) ∧
  (∀ s : State, s.ns < s.qz.lastPpsAt + 1500000000 → Happens .ppsHoldoverTimeout s s) ∧
  -- no master is selected any more: PTP holds over, except during a switchover
  (∀ s : State, s.mc.inGap = false → s.qz.source.mode = 2 → s.qz.ptp.slave = none →
    s.qz.ptp.ex.syncAt + 3 * interval s.qz.ptp.logSync ≤ s.ns → Happens .ptpHoldoverTimeout s (s.setDisc 3)) ∧
  (∀ (s : State) (n : Nat), s.mc.inGap = false → s.qz.source.mode = 2 → s.qz.ptp.slave = some n →
    ((s.portBest n).isNone = true ∨ s.qz.ptp.ex.syncAt + 3 * interval s.qz.ptp.logSync ≤ s.ns) →
    Happens .ptpHoldoverTimeout s (s.setDisc 3).selectSlave) ∧
  (∀ s : State, (s.mc.inGap = true ∨ s.qz.source.mode ≠ 2) → Happens .ptpHoldoverTimeout s s) ∧
  -- holdover_s after the reference went, time is suspect of it
  (∀ (s : State) (x : Nat), s.qz.refLostAt = some x → x + s.qz.source.holdoverS * 1000000000 < s.ns → s.qz.discLostAt = none →
    Happens .suspectHoldoverTimeout s (s.setCause 2)) ∧
  (∀ (s : State) (x : Nat), s.qz.discLostAt = some x → x + s.qz.source.holdoverS * 1000000000 < s.ns → s.qz.refLostAt = none →
    Happens .suspectHoldoverTimeout s (s.setCause 3)) ∧
  (∀ s : State, s.qz.refLostAt = none → s.qz.discLostAt = none → Happens .suspectHoldoverTimeout s s) ∧
  -- PTP: a message of the domain from another clock acts on a port that has a role
  (∀ (s : State) (p : PtpPort) (b : List Byte) (m : PtpMsg), b.length ≤ 1500 → (s.ptpPort (portNumber p)).role ≠ 0 →
    s.ptpUp (portNumber p) = true → s.serving = true → ptpParse b = some m → m.domain = s.qz.ptp.domain →
    m.source.take 8 ≠ clockIdentity → Happens (.ptpMessageReceive p b) s (s.ptpMessage (portNumber p) m)) ∧
  (∀ (s : State) (p : PtpPort) (b : List Byte), b.length ≤ 1500 → (s.ptpPort (portNumber p)).role = 0 →
    Happens (.ptpMessageReceive p b) s s) ∧
  (∀ (s : State) (p : PtpPort) (k : PtpSend), (s.ptpPort (portNumber p)).role ≠ 0 → s.ptpMaySend (portNumber p) = true →
    s.serving = true → Happens (.ptpMessageSend p k) s (s.ptpSend (portNumber p) k)) ∧
  (∀ (s : State) (p : PtpPort) (k : PtpSend), (s.serving = false ∨ s.ptpMaySend (portNumber p) = false) → Happens (.ptpMessageSend p k) s s)

/-- A due pulse drives its pins with its rounded instant and is raised, or is skipped and counted without a majority; it
ends after its width; an edge of an input pin is detected or merged into the last; an epoch boundary is raised when it is
reached. What a dropped record counts as is the model's choice (DESIGN CHOICE, log entry 104), and an epoch's moment
without a mapping its reading (DEDUCED, log entry 108). (R290, R293, R295, R303, R308, R315). -/
def Obligations.PulsesAndPinsAct : Prop :=
  -- a due pulse drives its pins and says when
  (∀ (s : State) (g : Fin 8) (t : Nat), (s.pulse g.val).edge (s.pulse g.val).next = some t → (s.pulse g.val).spent = false →
    t ≤ s.now → s.majority = true → s.qz.held = false →
    Happens (.pulseEdge g) s (((s.setPulse g.val { s.pulse g.val with
      next := (s.pulse g.val).next + 1, high := some t }).drivePins s t).raiseEvent (33 + g.val) (s.indexOfInstant t)
        (s.pulse g.val).next (some (instantOf t)))) ∧
  -- without a majority, and until it has returned, it is skipped and counted
  (∀ (s : State) (g : Fin 8) (t : Nat), (s.pulse g.val).edge (s.pulse g.val).next = some t → (s.pulse g.val).spent = false →
    t ≤ s.now → (s.majority = false ∨ s.qz.held = true) →
    Happens (.pulseEdge g) s ((s.setPulse g.val { s.pulse g.val with next := (s.pulse g.val).next + 1 }).mapQz fun q =>
      { q with skippedPulses := q.skippedPulses + 1 })) ∧
  (∀ (s : State) (g : Fin 8), (∀ t ∈ (s.pulse g.val).edge (s.pulse g.val).next, (s.pulse g.val).spent = true ∨ s.now < t) →
    Happens (.pulseEdge g) s s) ∧
  (∀ (s : State) (g : Fin 8) (t : Nat), (s.pulse g.val).high = some t → t + (s.pulse g.val).width * 65536 ≤ s.now →
    Happens (.pulseTrailingEdge g) s ((s.setPulse g.val { s.pulse g.val with high := none }).drivePins s
      (t + (s.pulse g.val).width * 65536))) ∧
  (∀ (s : State) (g : Fin 8), (∀ t ∈ (s.pulse g.val).high, s.now < t + (s.pulse g.val).width * 65536) →
    Happens (.pulseTrailingEdge g) s s) ∧
  -- an edge of an input pin that is detected; one within 4 ns of the last is merged into it
  (∀ (s : State) (n : Fin 16) (r : Bool) (phase : Nat), phase < 16 → (s.evtPin n.val).output = false →
    (s.evtPin n.val).level ≠ some r → bit (s.evtPin n.val).edges (if r then 0 else 1) = true →
    (∀ x ∈ (s.evtPin n.val).lastEdge, s.stampAt phase < x ∨ x + 4 * 65536 ≤ s.stampAt phase) →
    Happens (.evtEdge n ⟨r, phase⟩) s
      ((s.setEvtPin n.val { s.evtPin n.val with level := some r }).evtDetected n.val r (s.stampAt phase))) ∧
  (∀ (s : State) (n : Fin 16) (r : Bool) (phase x : Nat), phase < 16 → (s.evtPin n.val).output = false →
    (s.evtPin n.val).level ≠ some r → bit (s.evtPin n.val).edges (if r then 0 else 1) = true →
    (s.evtPin n.val).lastEdge = some x → x ≤ s.stampAt phase →
    s.stampAt phase < x + 4 * 65536 → HappensTo (.evtEdge n ⟨r, phase⟩) s fun t =>
      (t.evtPin n.val).merged = (s.evtPin n.val).merged + 1 ∧ (t.evtPin n.val).seq = (s.evtPin n.val).seq ∧
      (t.evtPin n.val).level = some r ∧ t.qz.lostEdges = s.qz.lostEdges + 1 ∧ t.er = s.er) ∧
  -- an edge that is not selected moves the level alone, and an output detects none
  (∀ (s : State) (n : Fin 16) (r : Bool) (phase : Nat), phase < 16 → (s.evtPin n.val).output = false →
    (s.evtPin n.val).level ≠ some r → bit (s.evtPin n.val).edges (if r then 0 else 1) = false →
    Happens (.evtEdge n ⟨r, phase⟩) s (s.setEvtPin n.val { s.evtPin n.val with level := some r })) ∧
  (∀ (s : State) (n : Fin 16) (r : Bool) (phase : Nat), phase < 16 →
    ((s.evtPin n.val).output = true ∨ (s.evtPin n.val).level = some r) → Happens (.evtEdge n ⟨r, phase⟩) s s) ∧
  -- the next epoch boundary, once reached with a majority
  (∀ s : State, s.schedLive = true → s.majority = true → s.qz.held = false → s.epochReached (s.epochIndex s.qz.nextEpoch) = true →
    Happens .epochEvent s (((s.mapQz fun q => { q with nextEpoch := s.qz.nextEpoch + 1 }).raiseEvent 169
      (s.epochIndex s.qz.nextEpoch) s.qz.nextEpoch).frOwnEpoch s.qz.nextEpoch)) ∧
  (∀ s : State, (s.majority = false ∨ s.qz.held = true ∨ s.schedLive = false ∨
    s.epochReached (s.epochIndex s.qz.nextEpoch) = false) → Happens .epochEvent s s)

/-- A replica that two others contradict leaves the vote and is fenced by the third dissent within 60 s; with no two that
agree there is no majority; at the next second a dissenter rejoins; a majority that returns resumes pulses and epochs.
What is held once for the three replicas is the model's reading (DEDUCED, log entry 109). (R306, R307, R308, R309, R310).
-/
def Obligations.ReplicasVote : Prop :=
  -- a replica that differs from two that agree leaves the vote
  (∀ (s : State) (r : Fin 3) (v : Nat), v < 2 ^ 48 * 1000000000 * 2 ^ 48 → (s.replica r).inVote = true →
    (s.setReplica r { s.replica r with time := v }).othersAgree r = true →
    votedRaw (s.setReplica r { s.replica r with time := v }).replicas ≠ some v →
    Happens (.replicaDissent r (.time v)) s ((s.setReplica r { s.replica r with time := v }).dissent r)) ∧
  (∀ (s : State) (r : Fin 3), s.othersAgree r = true →
    (s.dissent r).replica r = { s.replica r with
      inVote := false, dissents := s.ns :: (s.replica r).dissents.filter (fun t => s.ns < t + 60000000000),
      fenced := (s.replica r).fenced ||
        decide (3 ≤ (s.ns :: (s.replica r).dissents.filter (fun t => s.ns < t + 60000000000)).length),
      outSec := ((s.dissent r).replica r).outSec }) ∧
  -- with no two that agree, there is no majority
  (∀ (s : State) (r : Fin 3) (v : Nat), v < 2 ^ 48 * 1000000000 * 2 ^ 48 → (s.replica r).inVote = true →
    (s.setReplica r { s.replica r with time := v }).othersAgree r = false →
    (s.setReplica r { s.replica r with time := v }).majority = false →
    Happens (.replicaDissent r (.time v)) s (s.setReplica r { s.replica r with time := v }).noMajority) ∧
  (∀ (s : State) (r : Fin 3) (i : Nat), i < 4096 → (s.replica r).inVote = true → s.othersAgree r = false →
    Happens (.replicaDissent r (.delay i)) s { s with qz := { s.qz with voteFail := s.qz.voteFail ++ [i] } }) ∧
  -- one that differs in another voted output, or in a conversion, leaves the vote where the others agree; where they do not,
  -- the conversion has no majority, and an output has no vote of its own
  (∀ (s : State) (r : Fin 3), (s.replica r).inVote = true → s.othersAgree r = true →
    Happens (.replicaDissent r .output) s (s.dissent r) ∧ Happens (.replicaDissent r .conversion) s (s.dissent r) ∧
    ∀ i < 4096, Happens (.replicaDissent r (.delay i)) s (s.dissent r)) ∧
  (∀ (s : State) (r : Fin 3), (s.replica r).inVote = true → s.othersAgree r = false →
    Happens (.replicaDissent r .output) s s ∧
    Happens (.replicaDissent r .conversion) s { s with qz := { s.qz with convFail := true } }) ∧
  -- at the next second it is loaded from a replica of the majority and rejoins
  (∀ (s : State) (r : Fin 3) (x : Nat), votedRaw s.replicas = some x → (s.replica r).inVote = false →
    (s.replica r).fenced = false → (s.replica r).outSec < s.now / secUnits →
    HappensTo (.replicaRejoin r) s fun t => (t.replica r).inVote = true ∧ (t.replica r).time = x ∧
      t.qz.resyncs = s.qz.resyncs + 1) ∧
  (∀ (s : State) (r : Fin 3), (s.replica r).fenced = true → Happens (.replicaRejoin r) s s) ∧
  -- a majority returns at an advance of the seconds field, and events missed meanwhile are made up for
  (∀ s : State, s.qz.held = true → s.majority = true → s.qz.heldSec ≠ some (s.now / secUnits) →
    Happens .majorityReturn s (((s.mapQz fun q =>
      { q with held := false, agreedAt := if q.agreedAt.isSome then q.agreedAt else some s.ns }).skipPulses
        (s.now + 1)).lateEpoch)) ∧
  (∀ s : State, (s.majority = false ∨ s.qz.held = false ∨ s.qz.heldSec = some (s.now / secUnits)) →
    Happens .majorityReturn s s)

/-- An invalid message is counted, an echo request answered, an answer measured, what is forwarded goes its way; every 1
ms a port asks; a silent link goes down after 10 ms; a window commits its best fire and the master rearms. How a timestamp
is cut to 0.8 ns is the model's choice (DESIGN CHOICE, log entry 104). (R323, R324, R325, R326, R327, R329, R330). -/
def Obligations.FreranLinksAct : Prop :=
  (∀ (s : State) (p : Fin 2) (b : List Byte) (ph : Nat), b.length = 36 → ph < 65536 → (s.frPort p).enable = true →
    frParse b = none →
    Happens (.freranMessageReceive p ⟨b, ph⟩) s { s with fr := { s.fr with rxErrors := s.fr.rxErrors + 1 } }) ∧
  -- an echo request is answered, an answer measures the latency, and on an UP port what is to be forwarded goes its way
  (∀ (s u : State) (p : Fin 2) (b : List Byte) (ph : Nat) (m : FrMsg), b.length = 36 → ph < 65536 → (s.frPort p).enable = true →
    frParse b = some m → u = s.setFrPort p { s.frPort p with heardAt := s.ns } →
    Happens (.freranMessageReceive p ⟨b, ph⟩) s
      (if m.kind = 1 then ((u.emit (.freran p.val (u.frOwn 2 0 m.b (Config.freeNat s.draws 0)).bytes)).frCounted).draw
       else if m.kind = 2 then u.frEcho p m (s.ballStamp ph)
       else if (s.frPort p).up = true ∧ 3 ≤ m.kind ∧ m.kind ≤ 6 then u.frForwarded p m (s.ballStamp ph)
       else u)) ∧
  (∀ (s : State) (p : Fin 2) (b : List Byte) (ph : Nat), b.length = 36 → ph < 65536 → (s.frPort p).enable = false →
    Happens (.freranMessageReceive p ⟨b, ph⟩) s s ∧ Happens (.freranEchoSend ⟨p, ph⟩) s s) ∧
  (∀ (s : State) (p : Fin 2) (ph : Nat), ph < 65536 → (s.frPort p).enable = true → (s.frPort p).sentAt + 1000000 ≤ s.ns →
    Happens (.freranEchoSend ⟨p, ph⟩) s
      (((s.emit (.freran p.val (s.frOwn 1 0 (s.ballStamp ph % 2 ^ 64) 0).bytes)).frCounted).setFrPort p { s.frPort p with
        asked := some (s.ballStamp ph % 2 ^ 64), sentAt := s.ns,
        run := if (s.frPort p).asked.isSome then 0 else (s.frPort p).run })) ∧
  (∀ (s : State) (p : Fin 2) (ph : Nat), ph < 65536 → s.ns < (s.frPort p).sentAt + 1000000 → Happens (.freranEchoSend ⟨p, ph⟩) s s) ∧
  -- a link on which nothing valid has come for 10 ms is down
  (∀ (s : State) (p : Fin 2), (s.frPort p).heardAt + 10000000 ≤ s.ns →
    Happens (.freranLinkTimeout p) s ((s.frLink p false).setFrPort p
      { s.frPort p with up := false, run := 0, means := [], asked := none })) ∧
  (∀ (s : State) (p : Fin 2), s.ns < (s.frPort p).heardAt + 10000000 → Happens (.freranLinkTimeout p) s s) ∧
  -- a window commits its best fire; the master rearms
  (∀ (s : State) (g at_ : Nat) (fires : List Fire), s.fr.windows = [(g, at_, fires)] →
    at_ * 65536 + 2 * s.fr.maxLatency ≤ s.ns * 65536 → Happens .freranWindowClose s (s.frCommit g fires)) ∧
  (∀ s : State, (∀ w ∈ s.fr.windows, s.ns * 65536 < w.2.1 * 65536 + 2 * s.fr.maxLatency) → Happens .freranWindowClose s s) ∧
  (∀ (s : State) (x g : Nat) (rest : List (Nat × Nat)), s.fr.rearmAt = (x, g) :: rest → x ≤ s.ns →
    Happens .freranRearm s (if s.frMaster = true ∧ s.fr.rearm = true
      then ((s.mapFr fun f => { f with rearmAt := rest }).frSend 3 g 0 0).frArm (g % 2 ^ 32)
      else s.mapFr fun f => { f with rearmAt := rest })) ∧
  (∀ s : State, (∀ x ∈ s.fr.rearmAt.head?, s.ns < x.1) → Happens .freranRearm s s)

/-- A window freezes its trigger when it closes, mode auto forces one, a segment whose visits have closed waits for its
export, and its SEG_END releases the ring. (R354, R355, R358, R359, R362). -/
def Obligations.CaptureEventsAct : Prop :=
  -- the window closes once an export that is only to be completed is done, and its smallest trigger is frozen; a forced
  -- trigger gives way to a real one at its index
  (∀ (s u : State) (x : Trigger) (rest : List Trigger), s.cap.mode = .deciding →
    s.cap.openedAt + s.cap.mergeUs * 1000 ≤ s.ns →
    u = (if s.cap.segs.head?.any (fun y => decide (y.mode = .exporting ∧ y.inFlight = 0)) then evSegmentDone s else s) →
    u.cap.mode = .deciding → u.cap.openedAt + u.cap.mergeUs * 1000 ≤ u.ns →
    (u.cap.window.filter fun e => !(decide (e.source = 3) &&
      u.cap.window.any fun y => decide (y.source ≠ 3) && decide (y.index = e.index))) = x :: rest →
    Happens .captureWindowClose s ((u.mapCap fun c => { c with
      merged := c.merged + rest.length,
      forced := c.forced + ((x :: rest).filter fun e => decide (e.source = 3)).length }).freeze
        (rest.foldl (fun m e => if e.before m then e else m) x) rest.length)) ∧
  (∀ s : State, (s.cap.mode ≠ .deciding ∨ s.ns < s.cap.openedAt + s.cap.mergeUs * 1000) → Happens .captureWindowClose s s) ∧
  -- in mode auto, a forced trigger once auto_len has gone by without another
  (∀ s : State, s.cap.segMode = 2 → s.cap.autoSpent = false → (s.cap.mode = .armed ∨ s.cap.mode = .deciding) →
    (match s.qz.mapping with
      | none => decide (s.cap.armGen ≤ s.cap.gen ∧ s.cap.rearm + s.cap.autoLen < s.cap.top)
      | some _ => (s.instantOfIndex (s.cap.rearm + s.cap.autoLen)).any fun x =>
          decide (x + s.cap.mergeUs * 1000 * 65536 ≤ s.now)) = true →
    Happens .autoForcedTrigger s (s.mapCap fun c =>
      { c.trigger ⟨s.cap.rearm + s.cap.autoLen, 3, 0xFF, 0⟩ s.ns with autoSpent := true })) ∧
  (∀ s : State, (s.cap.segMode ≠ 2 ∨ s.cap.autoSpent = true) → Happens .autoForcedTrigger s s) ∧
  -- a segment whose visits have closed waits for its export; in mode single capture is over, else it rests, or decides on the
  -- trigger that it held
  (∀ (s u : State) (x : Segment), s.cap.segs = [x] → x.mode = .capturing → s.cap.mode = .capturing → s.segmentEnded x = true →
    x.stopped = false →
    u = (s.mapSegment x.seq fun y => { y with mode := .waiting, lost := y.lost ++ [] }).mapCap (fun c =>
        { c with lostGranules := c.lostGranules + 0 }) →
    Happens .segmentEnd s ((u.mapCap fun c =>
      if c.segMode = 0 then { c with mode := .disarmed, disarmAt := none, held := none }
      else match c.rest.mode, c.rest.held with
        | .armed, some y => { c.rest with held := none }.trigger y s.ns
        | _, _ => c.rest).pumpSegments)) ∧
  -- what a stop has left unwritten is missing
  (∀ (s u : State) (x : Segment) (gone : List Nat), s.cap.segs = [x] → x.mode = .capturing → s.cap.mode = .capturing →
    x.stopped = true → s.cap.segMode = 0 →
    gone = ((List.range x.count).filter fun i => !x.lost.contains i && (s.blockFor x i).isNone) →
    u = (s.mapSegment x.seq fun y => { y with mode := .waiting, lost := y.lost ++ gone }).mapCap (fun c =>
        { c with lostGranules := c.lostGranules + gone.length }) →
    Happens .segmentEnd s ((u.mapCap fun c => { c with mode := .disarmed, disarmAt := none, held := none }).pumpSegments)) ∧
  (∀ s : State, s.cap.mode ≠ .capturing → Happens .segmentEnd s s) ∧
  (∀ s : State, s.cap.segs = [] → Happens .segmentEnd s s ∧ Happens .segmentDone s s) ∧
  -- the last frame gone, SEG_END follows to the port the segment was exported to, and the ring is released
  (∀ (s : State) (x : Segment) (rest : List Segment), s.cap.segs = x :: rest → x.mode = .exporting → x.inFlight = 0 →
    x.dest.kind = 1 →
    Happens .segmentDone s (if s.portTransmits x.dest.port
      then (((s.setPort x.dest.port { s.portAt x.dest.port with
          txPackets := (s.portAt x.dest.port).txPackets + 1 }).emit
            (.frame x.dest.port (x.dest.frame (s.segmentEndFrame x.dest x)))).frameGone (.segment x.seq) false).releaseSegment x
      else ((s.setPort x.dest.port { s.portAt x.dest.port with
          txDiscard := (s.portAt x.dest.port).txDiscard + 1 }).frameGone (.segment x.seq) true).releaseSegment x)) ∧
  (∀ (s u : State) (x : Segment) (rest : List Segment) (lost : Bool), s.cap.segs = x :: rest → x.mode = .exporting →
    x.inFlight = 0 → x.dest.kind ≠ 1 → s.push x.dest.queue 4 (s.segmentEndFrame x.dest x) = (u, .done lost) →
    Happens .segmentDone s ((u.frameGone (.segment x.seq) lost).releaseSegment x)) ∧
  (∀ (s : State) (x : Segment) (rest : List Segment), s.cap.segs = x :: rest → (x.mode ≠ .exporting ∨ x.inFlight ≠ 0) →
    Happens .segmentDone s s.pumpSegments)

/-- An event goes to every consumer that its producer reaches; a channel reads its descriptor, runs it and writes its
record; a suppressed interrupt is raised at the end of its interval; a draining DMA domain aborts its channels. (R372,
R377, R454, R459, R460, R461, R463, R467). -/
def Obligations.RouterAndDmaAct : Prop :=
  -- of the events raised 8 ns ago, within 32 ns of the first, one goes to every consumer that its producer reaches; which one
  -- is the model's free choice
  (∀ (s : State) (e : EventRec) (rest : List EventRec), s.er.raised = e :: rest → e.at_ + 8 ≤ s.ns →
    ∃ x ∈ e :: rest.filter (fun y => decide (y.at_ + 8 ≤ s.ns) && decide (y.at_ < e.at_ + 32)),
      Happens .eventDelivery s ((s.draw.mapEr fun r => { r with raised := r.raised.erase x }).deliver x)) ∧
  (∀ (s : State) (e : EventRec), s.er.raised = [e] → e.at_ + 8 ≤ s.ns →
    Happens .eventDelivery s ((s.draw.mapEr fun r => { r with raised := [] }).deliver e)) ∧
  (∀ (s : State) (e : EventRec) (rest : List EventRec), s.er.raised = e :: rest → s.ns < e.at_ + 8 → Happens .eventDelivery s s) ∧
  (∀ s : State, s.er.raised = [] → Happens .eventDelivery s s) ∧
  -- a channel with a descriptor, and room for its record, reads it
  (∀ (s : State) (n : Nat) (x : Option (List Byte)), n < 256 → (s.dma n).mode = .idle → (s.dma n).running = none →
    s.domainOn 94 = true → s.descWaiting (s.dma n) = true → (s.dma n).eventStart = false → s.complRoom (s.dma n).complQ = true →
    HappensTo (.dmaDescriptorStart n x) s fun t => (t.dma n).mode = .running ∧ (t.dma n).started = false ∧
      (t.dma n).running = some ⟨(s.queue (s.dma n).descQ).cons,
        (s.readElement (s.queue (s.dma n).descQ) (s.queue (s.dma n).descQ).cons x).2⟩) ∧
  (∀ (s : State) (n : Nat) (x : Option (List Byte)), (256 ≤ n ∨ s.domainOn 94 = false ∨ s.descWaiting (s.dma n) = false ∨
    s.complRoom (s.dma n).complQ = false) → Happens (.dmaDescriptorStart n x) s s) ∧
  (∀ (s : State) (n : Nat) (r : RunningDesc) (x : DmaOutcome), (s.dma n).running = some r → (s.dma n).doneAt ≤ s.ns →
    Happens (.dmaDescriptorComplete n x) s ((s.runDesc r x).1.endDesc n r (s.runDesc r x).2)) ∧
  (∀ (s : State) (n : Nat) (x : DmaOutcome), ((s.dma n).running = none ∨ s.ns < (s.dma n).doneAt) → Happens (.dmaDescriptorComplete n x) s s) ∧
  (∀ (s : State) (q t : Nat), (s.queue q).raisedAt = some t → (s.queue q).owed = true → t + (s.queue q).coal * 1000 ≤ s.ns →
    Happens (.msixCoalesceExpiry q) s
      ((s.setQueue q { s.queue q with raisedAt := some s.ns, owed := false }).msix (s.queue q).vector)) ∧
  (∀ (s : State) (q : Nat), (s.queue q).owed = false → Happens (.msixCoalesceExpiry q) s s) ∧
  (∀ s : State, (s.domain 94).state = .draining → (s.domain 94).since + 90000 ≤ s.ns →
    Happens .dmaDrainTimeout s s.abortChannels) ∧
  (∀ s : State, ((s.domain 94).state ≠ .draining ∨ s.ns < (s.domain 94).since + 90000) → Happens .dmaDrainTimeout s s)

/-- A standby beats and is ready after ten beats, the holder renews the token with its beat, an expired token is unheld,
an active core that fails stops, a ready standby takes over, the first claim brings the device to INIT, and a challenge
lapses 30 s after it was given. (R407, R476, R477, R478, R479, R480, R483, R485). -/
def Obligations.CoresShareTheToken : Prop :=
  -- a standby beats, and is ready after ten beats in a row
  (∀ (s : State) (h : Fin 2), s.tokenLapsed = false → max (s.core h).wireAt (s.core h).mailAt + 100000 ≤ s.ns →
    (s.core h).mode = .standby → HappensTo (.heartbeat h) s fun t => (t.core h).run = (s.core h).run + 1 ∧
      (t.core h).role = (if 10 ≤ (s.core h).run + 1 then 1 else 0) ∧ (t.core h).hbCount = (s.core h).hbCount + 1 ∧
      (t.core h).wireAt = s.ns ∧ (t.core h).mailAt = s.ns) ∧
  -- the token's holder renews it with its beat
  (∀ (s : State) (h : Fin 2), s.tokenLapsed = false → max (s.core h).wireAt (s.core h).mailAt + 100000 ≤ s.ns →
    (s.core h).mode = .active → s.mc.rehearsal = none → s.mc.token = some h →
    Happens (.heartbeat h) s (s.renewToken.beat h true)) ∧
  (∀ (s : State) (h : Fin 2), s.ns < max (s.core h).wireAt (s.core h).mailAt + 100000 → Happens (.heartbeat h) s s) ∧
  (∀ s : State, s.mc.token.isSome = true → s.mc.tokenAt + 1000000 ≤ s.ns → Happens .tokenExpiry s s.dropToken) ∧
  (∀ s : State, (s.mc.token = none ∨ s.ns < s.mc.tokenAt + 1000000) → Happens .tokenExpiry s s) ∧
  -- an active core that hangs or fails stops
  (∀ (s : State) (h : Fin 2), (s.core h).mode = .active →
    Happens (.watchdogExpiry h) s (s.stopCore h) ∧ Happens (.coreFault ⟨h, none⟩) s (s.stopCore h)) ∧
  (∀ (s : State) (h : Fin 2), (s.stopCore h).mc.inGap = true ∧ ((s.stopCore h).core h).mode = .stopping ∧
    ((s.stopCore h).core h).role = 3) ∧
  (∀ (s : State) (h : Fin 2), (s.core h).mode ≠ .active → Happens (.watchdogExpiry h) s s ∧ Happens (.coreFault ⟨h, none⟩) s s) ∧
  -- a ready standby that has missed the active core on both paths takes over, and waiting commands run again
  (∀ s u : State, u = s.expireToken → u.takeoverDue 0 = true → Happens .standbyTakeover s (u.standbyTakes 0).resume) ∧
  (∀ s u : State, u = s.expireToken → u.takeoverDue 0 = false → u.takeoverDue 1 = true →
    Happens .standbyTakeover s (u.standbyTakes 1).resume) ∧
  (∀ s u : State, u = s.expireToken → u.takeoverDue 0 = false → u.takeoverDue 1 = false → Happens .standbyTakeover s u) ∧
  -- the first claim after a reset brings the device to INIT; MC-A goes before MC-B
  (∀ (s u : State) (h : Fin 2), u = s.expireToken → u.claimDue h = true → (h = 1 → u.claimDue 0 = false) →
    s.mc.claimed = false → s.pwr.phase = 2 → ∃ t : State, Happens (.coreBootClaim h) s t.resume ∧ t.pwr.phase = 3 ∧ t.mc.token = some h ∧ t.mc.tokenAt = s.ns ∧
    (t.core h).mode = .active ∧ (t.core h).role = 2 ∧ t.mc.claimed = true) ∧
  (∀ (s u : State) (h : Fin 2), u = s.expireToken → u.claimDue h = false → u.claimDue 0 = false →
    Happens (.coreBootClaim h) s u.resume) ∧
  -- a challenge lapses 30 s after it was given
  (∀ (s : State) (c : Client), c.wf = true → Happens (.challengeExpiry c) s { s with own := s.own.mapClient c fun e =>
    match e.challenge with
    | some (_, at_) => if at_ + 30000000000 ≤ s.ns then { e with challenge := none } else e
    | none => e }) ∧
  -- an error in working SRAM that a core meets is logged, its row is repaired, and an active core stops
  (∀ (s u : State) (h : Fin 2) (unit words : Nat), unit % 32 = 0 → unit < 0x400000 → 0 < words → words < 16 →
    (s.core h).mode = .active →
    u = (s.mapMem fun m => { m with sramBad := kvSet 0 m.sramBad unit words }).sramError h.val unit words false (0x40000000 + unit) →
    Happens (.coreFault ⟨h, some (unit, words)⟩) s (u.stopCore h)) ∧
  -- the lease of the token is judged before a renewal: a holder whose lease has lapsed stops
  (∀ (s : State) (h : Fin 2), s.mc.token = some h → s.tokenLapsed = true → (s.core h).mode = .active →
    max (s.core h).wireAt (s.core h).mailAt + 100000 ≤ s.ns → Happens (.heartbeat h) s (s.expireToken.stopCore h))

/-- A reset of the device keeps OTP and flash and leaves phase RESET without an owner or a token; PCIe and management
links go up and down; a device without a valid image is in RECOVERY; a core's ROM boots it or finds its copy broken;
bring-up ends in SERVICE with the restored router mode. (R416, R485, R520, R521, R523, R524, R525, R527, R539). -/
def Obligations.ResetsAndBootAct : Prop :=
  -- the straps are sampled at a power-on reset
  (∀ (s : State) (c : Fin 2) (x : Fin 8), Happens (.powerOnReset ⟨c, x, none⟩) s
    { s.deviceReset c.val with pwr := { (s.deviceReset c.val).pwr with straps := x.val } }) ∧
  -- a device reset keeps what is in OTP and flash, and nothing is served before the ROM has run
  (∀ (s : State) (c : Nat), (s.deviceReset c).flash = s.flash ∧ (s.deviceReset c).pwr.cause = c ∧ (s.deviceReset c).pwr.phase = 0 ∧
    (s.deviceReset c).pwr.otp 0 = s.pwr.otp 0 ∧ (s.deviceReset c).pwr.otp 1 = s.pwr.otp 1 ∧
    (s.deviceReset c).pwr.otp 2 = s.pwr.otp 2 ∧ (s.deviceReset c).pwr.straps = s.pwr.straps ∧ (s.deviceReset c).mc.token = none ∧ (s.deviceReset c).own.mode = .unowned) ∧
  (∀ (s : State) (t : Nat), s.pwr.resetAt = some t → t ≤ s.ns → Happens .pwrResetFire s (s.deviceReset 2)) ∧
  (∀ s : State, (∀ x ∈ s.pwr.resetAt, s.ns < x) → Happens .pwrResetFire s s) ∧
  -- a PCIe reset: what had been granted completes, queues in host memory are disabled, and an owner there is gone
  (∀ (s : State) (x : InboundCut), x.wf = true → Happens (.pcieReset ⟨.function, x⟩) s
    ((if s.linkUp then s.finishInbound x else s).pcieReset true)) ∧
  (∀ (s : State) (k : PcieResetKind) (x : InboundCut), x.wf = true → k ≠ .function → HappensTo (.pcieReset ⟨k, x⟩) s fun t =>
    t = (if s.linkUp then s.finishInbound x else s).pcieReset false ∧ t.pwr.pcieGen = 0 ∧ t.pwr.pcieWidth = 0) ∧
  (∀ (s : State) (g w : Nat), s.domainOn 85 = true → Happens (.pcieLinkUp g w) s
    { s with pwr := { s.pwr with pcieGen := g, pcieWidth := w } }) ∧
  (∀ (s : State) (g w : Nat), s.domainOn 85 = false → Happens (.pcieLinkUp g w) s s) ∧
  (∀ (s : State) (p : Fin 2) (up : Bool), s.domainOn 86 = true → (s.mgmt p.val).mode ≠ 0 →
    Happens (.mgmtLinkChange p up) s (s.setMgmt p.val { s.mgmt p.val with link := up })) ∧
  (∀ (s : State) (p : Fin 2), ((s.mgmt p.val).mode = 0 ∨ s.domainOn 86 = false) → Happens (.mgmtLinkChange p true) s s) ∧
  (∀ (s : State) (p : Fin 2), Happens (.mgmtLinkChange p false) s (s.setMgmt p.val { s.mgmt p.val with link := false })) ∧
  -- the ROM: a device without a valid image is in RECOVERY, with MC-B's ROM not run before LOADED
  (∀ s : State, s.pwr.phase = 0 → s.slotCommitted 0 = false → s.slotCommitted 1 = false →
    HappensTo (.bootRom 0) s fun t => t.pwr.phase = 5 ∧ t.pwr.fail = 1 ∧ t.flash = s.flash) ∧
  (∀ s : State, s.pwr.phase = 0 → Happens (.bootRom 0) s
    (if s.romBoot.pwr.phase = 2 then
      State.coreBooted { s.romBoot.draw with fr := { s.romBoot.fr with boot := Config.freeNat s.romBoot.draws 1 % 65536 } } 0
     else s.romBoot)) ∧
  (∀ s : State, s.pwr.phase = 0 → Happens (.bootRom 1) s s) ∧
  (∀ (s : State) (h : Fin 2), s.pwr.phase ≠ 0 → s.pwr.phase ≠ 5 → (s.core h).mode = .booting → s.domainOn (87 + h.val) = true →
    s.mc.claimed = false → Happens (.bootRom h) s (s.coreBooted h)) ∧
  -- a core that boots alone finds its copy in SRAM broken
  (∀ (s : State) (h : Fin 2), s.pwr.phase ≠ 0 → s.pwr.phase ≠ 5 → (s.core h).mode = .booting → s.domainOn (87 + h.val) = true →
    s.mc.claimed = true → s.copyIntact = false → Happens (.bootRom h) s
      ((s.setCore h { s.core h with mode := .failed }).mapPwr fun p => { p with fail := 7 })) ∧
  -- bring-up belongs to phase INIT and the active core
  (∀ (s : State) (r : BootReport), r.badTiles.all (decide <| · < 272) = true →
    (r.badRows.all fun x => decide (x.1 < 65536) && decide (x.2 < 65536)) = true → s.pwr.phase ≠ 3 →
    Happens (.serviceBringUp r) s s) ∧
  -- journal, repairs, HBM, tiles, settings and router mode in their order; then the BOOT record, and SERVICE
  (∀ (s u : State) (h : Fin 2) (r : BootReport) (x : State × List JParsed), r.badTiles.all (decide <| · < 272) = true →
    (r.badRows.all fun x => decide (x.1 < 65536) && decide (x.2 < 65536)) = true →
    s.mc.token = some h → (s.core h).mode = .active → s.pwr.phase = 3 → x = s.recoverJournal r.failingBlocks →
    u = (x.2.foldl State.replay
      ((((r.badRows.foldl State.bootRow (x.2.foldl State.applyRecord x.1)).bootHbm r.failedHbm).bootBist
        r.badTiles).assignSlots)).restoreLoadMap →
    Happens (.serviceBringUp r) s
      ((((u.mapEr fun e => { e with mode := e.jMode.getD 1 }).recordBoot h.val (r.failingBlocks.filter (· < 64))).enterService).resume)) ∧
  -- a rotation that a loss of power cuts short leaves the hash, and the fuse as it reads then
  (∀ (s : State) (c : Fin 2) (x : Fin 8) (p : List Byte) (fuse : Bool), p.length = 248 →
    Happens (.powerOnReset ⟨c, x, some (p, fuse)⟩) s
      { (rotate p fuse s).st.deviceReset c.val with
        pwr := { ((rotate p fuse s).st.deviceReset c.val).pwr with straps := x.val } })

/-- A domain comes ON; the fence acts 100 µs after draining began and what the domain held is lost; the pin starts a
quiesce, which ends in QUIESCED or is cut short with TIMEOUT, and the device returns to SERVICE. (R515, R516, R533, R534,
R536). -/
def Obligations.DomainsAndQuiesceAct : Prop :=
  (∀ (s : State) (d : Fin 96), (s.domain d.val).state = .poweringUp →
    Happens (.domainPowerUpDone d) s (((s.domainUp d.val).settleHold).resume)) ∧
  (∀ (s : State) (d : Fin 96), (s.domain d.val).state = .poweringUp →
    ((s.domainUp d.val).domain d.val).state = .on ∧ ((s.domainUp d.val).domain d.val).since = s.ns) ∧
  (∀ (s : State) (d : Fin 96), (s.domain d.val).state ≠ .poweringUp → Happens (.domainPowerUpDone d) s s) ∧
  -- 100 µs after a domain began to drain the fence acts, and what the domain held is lost
  (∀ (s : State) (d : Fin 96) (l : List FencePiece), (Instr.domainFence d l).wf = true → (s.domain d.val).state = .draining →
    (s.domain d.val).since + 100000 ≤ s.ns →
    Happens (.domainFence d l) s ((l.foldl State.fencePiece (s.setDomain d.val { s.domain d.val with
      state := .off, fences := (s.domain d.val).fences + l.length, since := s.ns })).loseDomain d.val)) ∧
  (∀ (s : State) (d : Fin 96) (l : List FencePiece), (Instr.domainFence d l).wf = true →
    ((s.domain d.val).state ≠ .draining ∨ s.ns < (s.domain d.val).since + 100000) → Happens (.domainFence d l) s s) ∧
  -- each piece that the fence completes is answered with an error
  (∀ (s : State) (x : FencePiece), (s.fencePiece x).mem.errCount = s.mem.errCount + 1) ∧
  (∀ s : State, s.pwr.phase = 4 → HappensTo .quiescePinLow s fun t => t.pwr.phase = 6 ∧ t.pwr.quiesce.pinLow = true ∧
    t.pwr.quiesce.byPin = true ∧ t.pwr.quiesce.limitMs = s.pwr.quiesce.pinMs ∧ t.pwr.quiesce.step = 2) ∧
  (∀ s : State, s.pwr.phase < 4 → HappensTo .quiescePinLow s fun t => t.pwr.phase = s.pwr.phase ∧
    t.pwr.quiesce.deferred = true) ∧
  (∀ s : State, 4 ≤ s.pwr.phase → s.pwr.phase ≠ 7 → Happens .quiescePinHigh s
    { s with pwr := { s.pwr with quiesce := { s.pwr.quiesce with pinLow := false } } }) ∧
  -- a pin that rises before SERVICE asks for nothing any more
  (∀ s : State, s.pwr.phase < 4 → Happens .quiescePinHigh s
    { s with pwr := { s.pwr with quiesce := { s.pwr.quiesce with pinLow := false, deferred := false, byPin := false } } }) ∧
  -- a quiesce that the pin alone asked for ends when the pin rises
  (∀ s : State, s.pwr.phase = 7 → s.pwr.quiesce.ack = .low → s.pwr.quiesce.byCommand = false →
    HappensTo .quiescePinHigh s fun t => t.pwr.phase = 4 ∧ t.pwr.quiesce.active = false ∧ t.pwr.quiesce.ack = .released) ∧
  -- with nothing left to commit the device is QUIESCED, the pin's quiesce being still asked for
  (∀ s : State, s.pwr.phase = 6 → s.pwr.quiesce.step = 4 → s.journalQuiet = true → s.pwr.quiesce.thenReset = false →
    s.pwr.quiesce.byPin = true → s.pwr.quiesce.pinLow = true → HappensTo .quiesceDone s fun t => t.pwr.phase = 7 ∧
      t.pwr.quiesce.ack = .low ∧ t.jrnl.step = 0) ∧
  (∀ s : State, s.pwr.phase ≠ 6 → Happens .quiesceDone s s ∧ Happens .quiesceTimeout s s) ∧
  -- quiesce_ms after its start the quiesce is cut short, and says TIMEOUT
  (∀ s : State, s.pwr.phase = 6 → s.pwr.quiesce.step < 4 → s.pwr.quiesce.startedAt + s.pwr.quiesce.limitMs * 1000000 ≤ s.ns →
    HappensTo .quiesceTimeout s fun t => t.pwr.quiesce.step = 4 ∧ t.pwr.quiesce.timeout = true ∧ t.dump.jobs = [] ∧
      t.cap.segs = []) ∧
  (∀ (s : State) (x : Nat), s.pwr.quiesce.ack = .pulse x → x + 10000 ≤ s.ns → s.pwr.quiesce.over = true →
    Happens .quiesceAckPulseEnd s s.leaveQuiesce) ∧
  (∀ s : State, s.pwr.quiesce.ack = .low → Happens .quiesceAckPulseEnd s s)

/-- The blocks of a packet of 64 to 9,216 bytes spell that packet again, and each has 32 bytes; every codeword of a
superframe that the device sends has 544 symbols. (R59, R60, R61). -/
def Obligations.KlpFramingKeepsPackets : Prop :=
  (∀ b : List Byte, klpLength b.length = true → klpPacketOf (klpBlocks b) = some b) ∧
  (∀ b : List Byte, klpLength b.length = true → ∀ k ∈ klpBlocks b, k.bytes.length = 32) ∧
  -- wherever markers stand among the blocks of a packet, the receiver finds the packet
  (∀ (b : List Byte) (blocks : List KlpBlock), klpLength b.length = true → blocks.filter (fun k => !k.marker) = klpBlocks b →
    klpReceived blocks = [b]) ∧
  (∀ (id width n : Nat) (sfm : List Byte), sfm.length = 32 → (superframeCodeword id width sfm n).length = 544)
end

