-- ==== Sys2Proof/Laws/State.lean ====
section
/-! SUPPORT. What each plain update of the state leaves: one lemma per field per update. -/

namespace Sys2Proof.Machine

section
variable (s : State)

@[simp] theorem State.emit_pending (o : Output) : (s.emit o).pending = s.pending := rfl
@[simp] theorem State.emit_ns (o : Output) : (s.emit o).ns = s.ns := rfl
@[simp] theorem State.emit_draws (o : Output) : (s.emit o).draws = s.draws := rfl
@[simp] theorem State.emit_wire (o : Output) : (s.emit o).wire = o :: s.wire := rfl
@[simp] theorem State.emit_own (o : Output) : (s.emit o).own = s.own := rfl
@[simp] theorem State.emit_dev (o : Output) : (s.emit o).dev = s.dev := rfl
@[simp] theorem State.emit_er (o : Output) : (s.emit o).er = s.er := rfl
@[simp] theorem State.emit_mc (o : Output) : (s.emit o).mc = s.mc := rfl
@[simp] theorem State.emit_ring (o : Output) : (s.emit o).ring = s.ring := rfl
@[simp] theorem State.emit_mem (o : Output) : (s.emit o).mem = s.mem := rfl
@[simp] theorem State.emit_flash (o : Output) : (s.emit o).flash = s.flash := rfl
@[simp] theorem State.emit_spare (o : Output) : (s.emit o).spare = s.spare := rfl
@[simp] theorem State.emit_jrnl (o : Output) : (s.emit o).jrnl = s.jrnl := rfl
@[simp] theorem State.emit_pwr (o : Output) : (s.emit o).pwr = s.pwr := rfl
@[simp] theorem State.emit_load (o : Output) : (s.emit o).load = s.load := rfl
@[simp] theorem State.emit_port (o : Output) : (s.emit o).port = s.port := rfl
@[simp] theorem State.emit_ing (o : Output) : (s.emit o).ing = s.ing := rfl
@[simp] theorem State.emit_stg (o : Output) : (s.emit o).stg = s.stg := rfl
@[simp] theorem State.emit_bas (o : Output) : (s.emit o).bas = s.bas := rfl
@[simp] theorem State.emit_dump (o : Output) : (s.emit o).dump = s.dump := rfl
@[simp] theorem State.emit_beam (o : Output) : (s.emit o).beam = s.beam := rfl
@[simp] theorem State.emit_filt (o : Output) : (s.emit o).filt = s.filt := rfl
@[simp] theorem State.emit_split (o : Output) : (s.emit o).split = s.split := rfl
@[simp] theorem State.emit_fr (o : Output) : (s.emit o).fr = s.fr := rfl
@[simp] theorem State.emit_cap (o : Output) : (s.emit o).cap = s.cap := rfl
@[simp] theorem State.emit_qz (o : Output) : (s.emit o).qz = s.qz := rfl
@[simp] theorem State.emit_tile (o : Output) : (s.emit o).tile = s.tile := rfl

@[simp] theorem State.draw_pending : (s.draw).pending = s.pending := rfl
@[simp] theorem State.draw_ns : (s.draw).ns = s.ns := rfl
@[simp] theorem State.draw_draws : (s.draw).draws = s.draws + 1 := rfl
@[simp] theorem State.draw_wire : (s.draw).wire = s.wire := rfl
@[simp] theorem State.draw_own : (s.draw).own = s.own := rfl
@[simp] theorem State.draw_dev : (s.draw).dev = s.dev := rfl
@[simp] theorem State.draw_er : (s.draw).er = s.er := rfl
@[simp] theorem State.draw_mc : (s.draw).mc = s.mc := rfl
@[simp] theorem State.draw_ring : (s.draw).ring = s.ring := rfl
@[simp] theorem State.draw_mem : (s.draw).mem = s.mem := rfl
@[simp] theorem State.draw_flash : (s.draw).flash = s.flash := rfl
@[simp] theorem State.draw_spare : (s.draw).spare = s.spare := rfl
@[simp] theorem State.draw_jrnl : (s.draw).jrnl = s.jrnl := rfl
@[simp] theorem State.draw_pwr : (s.draw).pwr = s.pwr := rfl
@[simp] theorem State.draw_load : (s.draw).load = s.load := rfl
@[simp] theorem State.draw_port : (s.draw).port = s.port := rfl
@[simp] theorem State.draw_ing : (s.draw).ing = s.ing := rfl
@[simp] theorem State.draw_stg : (s.draw).stg = s.stg := rfl
@[simp] theorem State.draw_bas : (s.draw).bas = s.bas := rfl
@[simp] theorem State.draw_dump : (s.draw).dump = s.dump := rfl
@[simp] theorem State.draw_beam : (s.draw).beam = s.beam := rfl
@[simp] theorem State.draw_filt : (s.draw).filt = s.filt := rfl
@[simp] theorem State.draw_split : (s.draw).split = s.split := rfl
@[simp] theorem State.draw_fr : (s.draw).fr = s.fr := rfl
@[simp] theorem State.draw_cap : (s.draw).cap = s.cap := rfl
@[simp] theorem State.draw_qz : (s.draw).qz = s.qz := rfl
@[simp] theorem State.draw_tile : (s.draw).tile = s.tile := rfl

@[simp] theorem State.mapOwn_pending (f : OwnState → OwnState) : (s.mapOwn f).pending = s.pending := rfl
@[simp] theorem State.mapOwn_ns (f : OwnState → OwnState) : (s.mapOwn f).ns = s.ns := rfl
@[simp] theorem State.mapOwn_draws (f : OwnState → OwnState) : (s.mapOwn f).draws = s.draws := rfl
@[simp] theorem State.mapOwn_wire (f : OwnState → OwnState) : (s.mapOwn f).wire = s.wire := rfl
@[simp] theorem State.mapOwn_own (f : OwnState → OwnState) : (s.mapOwn f).own = f s.own := rfl
@[simp] theorem State.mapOwn_dev (f : OwnState → OwnState) : (s.mapOwn f).dev = s.dev := rfl
@[simp] theorem State.mapOwn_er (f : OwnState → OwnState) : (s.mapOwn f).er = s.er := rfl
@[simp] theorem State.mapOwn_mc (f : OwnState → OwnState) : (s.mapOwn f).mc = s.mc := rfl
@[simp] theorem State.mapOwn_ring (f : OwnState → OwnState) : (s.mapOwn f).ring = s.ring := rfl
@[simp] theorem State.mapOwn_mem (f : OwnState → OwnState) : (s.mapOwn f).mem = s.mem := rfl
@[simp] theorem State.mapOwn_flash (f : OwnState → OwnState) : (s.mapOwn f).flash = s.flash := rfl
@[simp] theorem State.mapOwn_spare (f : OwnState → OwnState) : (s.mapOwn f).spare = s.spare := rfl
@[simp] theorem State.mapOwn_jrnl (f : OwnState → OwnState) : (s.mapOwn f).jrnl = s.jrnl := rfl
@[simp] theorem State.mapOwn_pwr (f : OwnState → OwnState) : (s.mapOwn f).pwr = s.pwr := rfl
@[simp] theorem State.mapOwn_load (f : OwnState → OwnState) : (s.mapOwn f).load = s.load := rfl
@[simp] theorem State.mapOwn_port (f : OwnState → OwnState) : (s.mapOwn f).port = s.port := rfl
@[simp] theorem State.mapOwn_ing (f : OwnState → OwnState) : (s.mapOwn f).ing = s.ing := rfl
@[simp] theorem State.mapOwn_stg (f : OwnState → OwnState) : (s.mapOwn f).stg = s.stg := rfl
@[simp] theorem State.mapOwn_bas (f : OwnState → OwnState) : (s.mapOwn f).bas = s.bas := rfl
@[simp] theorem State.mapOwn_dump (f : OwnState → OwnState) : (s.mapOwn f).dump = s.dump := rfl
@[simp] theorem State.mapOwn_beam (f : OwnState → OwnState) : (s.mapOwn f).beam = s.beam := rfl
@[simp] theorem State.mapOwn_filt (f : OwnState → OwnState) : (s.mapOwn f).filt = s.filt := rfl
@[simp] theorem State.mapOwn_split (f : OwnState → OwnState) : (s.mapOwn f).split = s.split := rfl
@[simp] theorem State.mapOwn_fr (f : OwnState → OwnState) : (s.mapOwn f).fr = s.fr := rfl
@[simp] theorem State.mapOwn_cap (f : OwnState → OwnState) : (s.mapOwn f).cap = s.cap := rfl
@[simp] theorem State.mapOwn_qz (f : OwnState → OwnState) : (s.mapOwn f).qz = s.qz := rfl
@[simp] theorem State.mapOwn_tile (f : OwnState → OwnState) : (s.mapOwn f).tile = s.tile := rfl

@[simp] theorem State.mapMc_pending (f : McState → McState) : (s.mapMc f).pending = s.pending := rfl
@[simp] theorem State.mapMc_ns (f : McState → McState) : (s.mapMc f).ns = s.ns := rfl
@[simp] theorem State.mapMc_draws (f : McState → McState) : (s.mapMc f).draws = s.draws := rfl
@[simp] theorem State.mapMc_wire (f : McState → McState) : (s.mapMc f).wire = s.wire := rfl
@[simp] theorem State.mapMc_own (f : McState → McState) : (s.mapMc f).own = s.own := rfl
@[simp] theorem State.mapMc_dev (f : McState → McState) : (s.mapMc f).dev = s.dev := rfl
@[simp] theorem State.mapMc_er (f : McState → McState) : (s.mapMc f).er = s.er := rfl
@[simp] theorem State.mapMc_mc (f : McState → McState) : (s.mapMc f).mc = f s.mc := rfl
@[simp] theorem State.mapMc_ring (f : McState → McState) : (s.mapMc f).ring = s.ring := rfl
@[simp] theorem State.mapMc_mem (f : McState → McState) : (s.mapMc f).mem = s.mem := rfl
@[simp] theorem State.mapMc_flash (f : McState → McState) : (s.mapMc f).flash = s.flash := rfl
@[simp] theorem State.mapMc_spare (f : McState → McState) : (s.mapMc f).spare = s.spare := rfl
@[simp] theorem State.mapMc_jrnl (f : McState → McState) : (s.mapMc f).jrnl = s.jrnl := rfl
@[simp] theorem State.mapMc_pwr (f : McState → McState) : (s.mapMc f).pwr = s.pwr := rfl
@[simp] theorem State.mapMc_load (f : McState → McState) : (s.mapMc f).load = s.load := rfl
@[simp] theorem State.mapMc_port (f : McState → McState) : (s.mapMc f).port = s.port := rfl
@[simp] theorem State.mapMc_ing (f : McState → McState) : (s.mapMc f).ing = s.ing := rfl
@[simp] theorem State.mapMc_stg (f : McState → McState) : (s.mapMc f).stg = s.stg := rfl
@[simp] theorem State.mapMc_bas (f : McState → McState) : (s.mapMc f).bas = s.bas := rfl
@[simp] theorem State.mapMc_dump (f : McState → McState) : (s.mapMc f).dump = s.dump := rfl
@[simp] theorem State.mapMc_beam (f : McState → McState) : (s.mapMc f).beam = s.beam := rfl
@[simp] theorem State.mapMc_filt (f : McState → McState) : (s.mapMc f).filt = s.filt := rfl
@[simp] theorem State.mapMc_split (f : McState → McState) : (s.mapMc f).split = s.split := rfl
@[simp] theorem State.mapMc_fr (f : McState → McState) : (s.mapMc f).fr = s.fr := rfl
@[simp] theorem State.mapMc_cap (f : McState → McState) : (s.mapMc f).cap = s.cap := rfl
@[simp] theorem State.mapMc_qz (f : McState → McState) : (s.mapMc f).qz = s.qz := rfl
@[simp] theorem State.mapMc_tile (f : McState → McState) : (s.mapMc f).tile = s.tile := rfl

@[simp] theorem State.mapEr_pending (f : Router → Router) : (s.mapEr f).pending = s.pending := rfl
@[simp] theorem State.mapEr_ns (f : Router → Router) : (s.mapEr f).ns = s.ns := rfl
@[simp] theorem State.mapEr_draws (f : Router → Router) : (s.mapEr f).draws = s.draws := rfl
@[simp] theorem State.mapEr_wire (f : Router → Router) : (s.mapEr f).wire = s.wire := rfl
@[simp] theorem State.mapEr_own (f : Router → Router) : (s.mapEr f).own = s.own := rfl
@[simp] theorem State.mapEr_dev (f : Router → Router) : (s.mapEr f).dev = s.dev := rfl
@[simp] theorem State.mapEr_er (f : Router → Router) : (s.mapEr f).er = f s.er := rfl
@[simp] theorem State.mapEr_mc (f : Router → Router) : (s.mapEr f).mc = s.mc := rfl
@[simp] theorem State.mapEr_ring (f : Router → Router) : (s.mapEr f).ring = s.ring := rfl
@[simp] theorem State.mapEr_mem (f : Router → Router) : (s.mapEr f).mem = s.mem := rfl
@[simp] theorem State.mapEr_flash (f : Router → Router) : (s.mapEr f).flash = s.flash := rfl
@[simp] theorem State.mapEr_spare (f : Router → Router) : (s.mapEr f).spare = s.spare := rfl
@[simp] theorem State.mapEr_jrnl (f : Router → Router) : (s.mapEr f).jrnl = s.jrnl := rfl
@[simp] theorem State.mapEr_pwr (f : Router → Router) : (s.mapEr f).pwr = s.pwr := rfl
@[simp] theorem State.mapEr_load (f : Router → Router) : (s.mapEr f).load = s.load := rfl
@[simp] theorem State.mapEr_port (f : Router → Router) : (s.mapEr f).port = s.port := rfl
@[simp] theorem State.mapEr_ing (f : Router → Router) : (s.mapEr f).ing = s.ing := rfl
@[simp] theorem State.mapEr_stg (f : Router → Router) : (s.mapEr f).stg = s.stg := rfl
@[simp] theorem State.mapEr_bas (f : Router → Router) : (s.mapEr f).bas = s.bas := rfl
@[simp] theorem State.mapEr_dump (f : Router → Router) : (s.mapEr f).dump = s.dump := rfl
@[simp] theorem State.mapEr_beam (f : Router → Router) : (s.mapEr f).beam = s.beam := rfl
@[simp] theorem State.mapEr_filt (f : Router → Router) : (s.mapEr f).filt = s.filt := rfl
@[simp] theorem State.mapEr_split (f : Router → Router) : (s.mapEr f).split = s.split := rfl
@[simp] theorem State.mapEr_fr (f : Router → Router) : (s.mapEr f).fr = s.fr := rfl
@[simp] theorem State.mapEr_cap (f : Router → Router) : (s.mapEr f).cap = s.cap := rfl
@[simp] theorem State.mapEr_qz (f : Router → Router) : (s.mapEr f).qz = s.qz := rfl
@[simp] theorem State.mapEr_tile (f : Router → Router) : (s.mapEr f).tile = s.tile := rfl

@[simp] theorem State.mapRing_pending (f : RingState → RingState) : (s.mapRing f).pending = s.pending := rfl
@[simp] theorem State.mapRing_ns (f : RingState → RingState) : (s.mapRing f).ns = s.ns := rfl
@[simp] theorem State.mapRing_draws (f : RingState → RingState) : (s.mapRing f).draws = s.draws := rfl
@[simp] theorem State.mapRing_wire (f : RingState → RingState) : (s.mapRing f).wire = s.wire := rfl
@[simp] theorem State.mapRing_own (f : RingState → RingState) : (s.mapRing f).own = s.own := rfl
@[simp] theorem State.mapRing_dev (f : RingState → RingState) : (s.mapRing f).dev = s.dev := rfl
@[simp] theorem State.mapRing_er (f : RingState → RingState) : (s.mapRing f).er = s.er := rfl
@[simp] theorem State.mapRing_mc (f : RingState → RingState) : (s.mapRing f).mc = s.mc := rfl
@[simp] theorem State.mapRing_ring (f : RingState → RingState) : (s.mapRing f).ring = f s.ring := rfl
@[simp] theorem State.mapRing_mem (f : RingState → RingState) : (s.mapRing f).mem = s.mem := rfl
@[simp] theorem State.mapRing_flash (f : RingState → RingState) : (s.mapRing f).flash = s.flash := rfl
@[simp] theorem State.mapRing_spare (f : RingState → RingState) : (s.mapRing f).spare = s.spare := rfl
@[simp] theorem State.mapRing_jrnl (f : RingState → RingState) : (s.mapRing f).jrnl = s.jrnl := rfl
@[simp] theorem State.mapRing_pwr (f : RingState → RingState) : (s.mapRing f).pwr = s.pwr := rfl
@[simp] theorem State.mapRing_load (f : RingState → RingState) : (s.mapRing f).load = s.load := rfl
@[simp] theorem State.mapRing_port (f : RingState → RingState) : (s.mapRing f).port = s.port := rfl
@[simp] theorem State.mapRing_ing (f : RingState → RingState) : (s.mapRing f).ing = s.ing := rfl
@[simp] theorem State.mapRing_stg (f : RingState → RingState) : (s.mapRing f).stg = s.stg := rfl
@[simp] theorem State.mapRing_bas (f : RingState → RingState) : (s.mapRing f).bas = s.bas := rfl
@[simp] theorem State.mapRing_dump (f : RingState → RingState) : (s.mapRing f).dump = s.dump := rfl
@[simp] theorem State.mapRing_beam (f : RingState → RingState) : (s.mapRing f).beam = s.beam := rfl
@[simp] theorem State.mapRing_filt (f : RingState → RingState) : (s.mapRing f).filt = s.filt := rfl
@[simp] theorem State.mapRing_split (f : RingState → RingState) : (s.mapRing f).split = s.split := rfl
@[simp] theorem State.mapRing_fr (f : RingState → RingState) : (s.mapRing f).fr = s.fr := rfl
@[simp] theorem State.mapRing_cap (f : RingState → RingState) : (s.mapRing f).cap = s.cap := rfl
@[simp] theorem State.mapRing_qz (f : RingState → RingState) : (s.mapRing f).qz = s.qz := rfl
@[simp] theorem State.mapRing_tile (f : RingState → RingState) : (s.mapRing f).tile = s.tile := rfl

@[simp] theorem State.mapMem_pending (f : MemState → MemState) : (s.mapMem f).pending = s.pending := rfl
@[simp] theorem State.mapMem_ns (f : MemState → MemState) : (s.mapMem f).ns = s.ns := rfl
@[simp] theorem State.mapMem_draws (f : MemState → MemState) : (s.mapMem f).draws = s.draws := rfl
@[simp] theorem State.mapMem_wire (f : MemState → MemState) : (s.mapMem f).wire = s.wire := rfl
@[simp] theorem State.mapMem_own (f : MemState → MemState) : (s.mapMem f).own = s.own := rfl
@[simp] theorem State.mapMem_dev (f : MemState → MemState) : (s.mapMem f).dev = s.dev := rfl
@[simp] theorem State.mapMem_er (f : MemState → MemState) : (s.mapMem f).er = s.er := rfl
@[simp] theorem State.mapMem_mc (f : MemState → MemState) : (s.mapMem f).mc = s.mc := rfl
@[simp] theorem State.mapMem_ring (f : MemState → MemState) : (s.mapMem f).ring = s.ring := rfl
@[simp] theorem State.mapMem_mem (f : MemState → MemState) : (s.mapMem f).mem = f s.mem := rfl
@[simp] theorem State.mapMem_flash (f : MemState → MemState) : (s.mapMem f).flash = s.flash := rfl
@[simp] theorem State.mapMem_spare (f : MemState → MemState) : (s.mapMem f).spare = s.spare := rfl
@[simp] theorem State.mapMem_jrnl (f : MemState → MemState) : (s.mapMem f).jrnl = s.jrnl := rfl
@[simp] theorem State.mapMem_pwr (f : MemState → MemState) : (s.mapMem f).pwr = s.pwr := rfl
@[simp] theorem State.mapMem_load (f : MemState → MemState) : (s.mapMem f).load = s.load := rfl
@[simp] theorem State.mapMem_port (f : MemState → MemState) : (s.mapMem f).port = s.port := rfl
@[simp] theorem State.mapMem_ing (f : MemState → MemState) : (s.mapMem f).ing = s.ing := rfl
@[simp] theorem State.mapMem_stg (f : MemState → MemState) : (s.mapMem f).stg = s.stg := rfl
@[simp] theorem State.mapMem_bas (f : MemState → MemState) : (s.mapMem f).bas = s.bas := rfl
@[simp] theorem State.mapMem_dump (f : MemState → MemState) : (s.mapMem f).dump = s.dump := rfl
@[simp] theorem State.mapMem_beam (f : MemState → MemState) : (s.mapMem f).beam = s.beam := rfl
@[simp] theorem State.mapMem_filt (f : MemState → MemState) : (s.mapMem f).filt = s.filt := rfl
@[simp] theorem State.mapMem_split (f : MemState → MemState) : (s.mapMem f).split = s.split := rfl
@[simp] theorem State.mapMem_fr (f : MemState → MemState) : (s.mapMem f).fr = s.fr := rfl
@[simp] theorem State.mapMem_cap (f : MemState → MemState) : (s.mapMem f).cap = s.cap := rfl
@[simp] theorem State.mapMem_qz (f : MemState → MemState) : (s.mapMem f).qz = s.qz := rfl
@[simp] theorem State.mapMem_tile (f : MemState → MemState) : (s.mapMem f).tile = s.tile := rfl

@[simp] theorem State.mapSpare_pending (f : SpareState → SpareState) : (s.mapSpare f).pending = s.pending := rfl
@[simp] theorem State.mapSpare_ns (f : SpareState → SpareState) : (s.mapSpare f).ns = s.ns := rfl
@[simp] theorem State.mapSpare_draws (f : SpareState → SpareState) : (s.mapSpare f).draws = s.draws := rfl
@[simp] theorem State.mapSpare_wire (f : SpareState → SpareState) : (s.mapSpare f).wire = s.wire := rfl
@[simp] theorem State.mapSpare_own (f : SpareState → SpareState) : (s.mapSpare f).own = s.own := rfl
@[simp] theorem State.mapSpare_dev (f : SpareState → SpareState) : (s.mapSpare f).dev = s.dev := rfl
@[simp] theorem State.mapSpare_er (f : SpareState → SpareState) : (s.mapSpare f).er = s.er := rfl
@[simp] theorem State.mapSpare_mc (f : SpareState → SpareState) : (s.mapSpare f).mc = s.mc := rfl
@[simp] theorem State.mapSpare_ring (f : SpareState → SpareState) : (s.mapSpare f).ring = s.ring := rfl
@[simp] theorem State.mapSpare_mem (f : SpareState → SpareState) : (s.mapSpare f).mem = s.mem := rfl
@[simp] theorem State.mapSpare_flash (f : SpareState → SpareState) : (s.mapSpare f).flash = s.flash := rfl
@[simp] theorem State.mapSpare_spare (f : SpareState → SpareState) : (s.mapSpare f).spare = f s.spare := rfl
@[simp] theorem State.mapSpare_jrnl (f : SpareState → SpareState) : (s.mapSpare f).jrnl = s.jrnl := rfl
@[simp] theorem State.mapSpare_pwr (f : SpareState → SpareState) : (s.mapSpare f).pwr = s.pwr := rfl
@[simp] theorem State.mapSpare_load (f : SpareState → SpareState) : (s.mapSpare f).load = s.load := rfl
@[simp] theorem State.mapSpare_port (f : SpareState → SpareState) : (s.mapSpare f).port = s.port := rfl
@[simp] theorem State.mapSpare_ing (f : SpareState → SpareState) : (s.mapSpare f).ing = s.ing := rfl
@[simp] theorem State.mapSpare_stg (f : SpareState → SpareState) : (s.mapSpare f).stg = s.stg := rfl
@[simp] theorem State.mapSpare_bas (f : SpareState → SpareState) : (s.mapSpare f).bas = s.bas := rfl
@[simp] theorem State.mapSpare_dump (f : SpareState → SpareState) : (s.mapSpare f).dump = s.dump := rfl
@[simp] theorem State.mapSpare_beam (f : SpareState → SpareState) : (s.mapSpare f).beam = s.beam := rfl
@[simp] theorem State.mapSpare_filt (f : SpareState → SpareState) : (s.mapSpare f).filt = s.filt := rfl
@[simp] theorem State.mapSpare_split (f : SpareState → SpareState) : (s.mapSpare f).split = s.split := rfl
@[simp] theorem State.mapSpare_fr (f : SpareState → SpareState) : (s.mapSpare f).fr = s.fr := rfl
@[simp] theorem State.mapSpare_cap (f : SpareState → SpareState) : (s.mapSpare f).cap = s.cap := rfl
@[simp] theorem State.mapSpare_qz (f : SpareState → SpareState) : (s.mapSpare f).qz = s.qz := rfl
@[simp] theorem State.mapSpare_tile (f : SpareState → SpareState) : (s.mapSpare f).tile = s.tile := rfl

@[simp] theorem State.mapJrnl_pending (f : JrnlState → JrnlState) : (s.mapJrnl f).pending = s.pending := rfl
@[simp] theorem State.mapJrnl_ns (f : JrnlState → JrnlState) : (s.mapJrnl f).ns = s.ns := rfl
@[simp] theorem State.mapJrnl_draws (f : JrnlState → JrnlState) : (s.mapJrnl f).draws = s.draws := rfl
@[simp] theorem State.mapJrnl_wire (f : JrnlState → JrnlState) : (s.mapJrnl f).wire = s.wire := rfl
@[simp] theorem State.mapJrnl_own (f : JrnlState → JrnlState) : (s.mapJrnl f).own = s.own := rfl
@[simp] theorem State.mapJrnl_dev (f : JrnlState → JrnlState) : (s.mapJrnl f).dev = s.dev := rfl
@[simp] theorem State.mapJrnl_er (f : JrnlState → JrnlState) : (s.mapJrnl f).er = s.er := rfl
@[simp] theorem State.mapJrnl_mc (f : JrnlState → JrnlState) : (s.mapJrnl f).mc = s.mc := rfl
@[simp] theorem State.mapJrnl_ring (f : JrnlState → JrnlState) : (s.mapJrnl f).ring = s.ring := rfl
@[simp] theorem State.mapJrnl_mem (f : JrnlState → JrnlState) : (s.mapJrnl f).mem = s.mem := rfl
@[simp] theorem State.mapJrnl_flash (f : JrnlState → JrnlState) : (s.mapJrnl f).flash = s.flash := rfl
@[simp] theorem State.mapJrnl_spare (f : JrnlState → JrnlState) : (s.mapJrnl f).spare = s.spare := rfl
@[simp] theorem State.mapJrnl_jrnl (f : JrnlState → JrnlState) : (s.mapJrnl f).jrnl = f s.jrnl := rfl
@[simp] theorem State.mapJrnl_pwr (f : JrnlState → JrnlState) : (s.mapJrnl f).pwr = s.pwr := rfl
@[simp] theorem State.mapJrnl_load (f : JrnlState → JrnlState) : (s.mapJrnl f).load = s.load := rfl
@[simp] theorem State.mapJrnl_port (f : JrnlState → JrnlState) : (s.mapJrnl f).port = s.port := rfl
@[simp] theorem State.mapJrnl_ing (f : JrnlState → JrnlState) : (s.mapJrnl f).ing = s.ing := rfl
@[simp] theorem State.mapJrnl_stg (f : JrnlState → JrnlState) : (s.mapJrnl f).stg = s.stg := rfl
@[simp] theorem State.mapJrnl_bas (f : JrnlState → JrnlState) : (s.mapJrnl f).bas = s.bas := rfl
@[simp] theorem State.mapJrnl_dump (f : JrnlState → JrnlState) : (s.mapJrnl f).dump = s.dump := rfl
@[simp] theorem State.mapJrnl_beam (f : JrnlState → JrnlState) : (s.mapJrnl f).beam = s.beam := rfl
@[simp] theorem State.mapJrnl_filt (f : JrnlState → JrnlState) : (s.mapJrnl f).filt = s.filt := rfl
@[simp] theorem State.mapJrnl_split (f : JrnlState → JrnlState) : (s.mapJrnl f).split = s.split := rfl
@[simp] theorem State.mapJrnl_fr (f : JrnlState → JrnlState) : (s.mapJrnl f).fr = s.fr := rfl
@[simp] theorem State.mapJrnl_cap (f : JrnlState → JrnlState) : (s.mapJrnl f).cap = s.cap := rfl
@[simp] theorem State.mapJrnl_qz (f : JrnlState → JrnlState) : (s.mapJrnl f).qz = s.qz := rfl
@[simp] theorem State.mapJrnl_tile (f : JrnlState → JrnlState) : (s.mapJrnl f).tile = s.tile := rfl

@[simp] theorem State.mapPwr_pending (f : PowerState → PowerState) : (s.mapPwr f).pending = s.pending := rfl
@[simp] theorem State.mapPwr_ns (f : PowerState → PowerState) : (s.mapPwr f).ns = s.ns := rfl
@[simp] theorem State.mapPwr_draws (f : PowerState → PowerState) : (s.mapPwr f).draws = s.draws := rfl
@[simp] theorem State.mapPwr_wire (f : PowerState → PowerState) : (s.mapPwr f).wire = s.wire := rfl
@[simp] theorem State.mapPwr_own (f : PowerState → PowerState) : (s.mapPwr f).own = s.own := rfl
@[simp] theorem State.mapPwr_dev (f : PowerState → PowerState) : (s.mapPwr f).dev = s.dev := rfl
@[simp] theorem State.mapPwr_er (f : PowerState → PowerState) : (s.mapPwr f).er = s.er := rfl
@[simp] theorem State.mapPwr_mc (f : PowerState → PowerState) : (s.mapPwr f).mc = s.mc := rfl
@[simp] theorem State.mapPwr_ring (f : PowerState → PowerState) : (s.mapPwr f).ring = s.ring := rfl
@[simp] theorem State.mapPwr_mem (f : PowerState → PowerState) : (s.mapPwr f).mem = s.mem := rfl
@[simp] theorem State.mapPwr_flash (f : PowerState → PowerState) : (s.mapPwr f).flash = s.flash := rfl
@[simp] theorem State.mapPwr_spare (f : PowerState → PowerState) : (s.mapPwr f).spare = s.spare := rfl
@[simp] theorem State.mapPwr_jrnl (f : PowerState → PowerState) : (s.mapPwr f).jrnl = s.jrnl := rfl
@[simp] theorem State.mapPwr_pwr (f : PowerState → PowerState) : (s.mapPwr f).pwr = f s.pwr := rfl
@[simp] theorem State.mapPwr_load (f : PowerState → PowerState) : (s.mapPwr f).load = s.load := rfl
@[simp] theorem State.mapPwr_port (f : PowerState → PowerState) : (s.mapPwr f).port = s.port := rfl
@[simp] theorem State.mapPwr_ing (f : PowerState → PowerState) : (s.mapPwr f).ing = s.ing := rfl
@[simp] theorem State.mapPwr_stg (f : PowerState → PowerState) : (s.mapPwr f).stg = s.stg := rfl
@[simp] theorem State.mapPwr_bas (f : PowerState → PowerState) : (s.mapPwr f).bas = s.bas := rfl
@[simp] theorem State.mapPwr_dump (f : PowerState → PowerState) : (s.mapPwr f).dump = s.dump := rfl
@[simp] theorem State.mapPwr_beam (f : PowerState → PowerState) : (s.mapPwr f).beam = s.beam := rfl
@[simp] theorem State.mapPwr_filt (f : PowerState → PowerState) : (s.mapPwr f).filt = s.filt := rfl
@[simp] theorem State.mapPwr_split (f : PowerState → PowerState) : (s.mapPwr f).split = s.split := rfl
@[simp] theorem State.mapPwr_fr (f : PowerState → PowerState) : (s.mapPwr f).fr = s.fr := rfl
@[simp] theorem State.mapPwr_cap (f : PowerState → PowerState) : (s.mapPwr f).cap = s.cap := rfl
@[simp] theorem State.mapPwr_qz (f : PowerState → PowerState) : (s.mapPwr f).qz = s.qz := rfl
@[simp] theorem State.mapPwr_tile (f : PowerState → PowerState) : (s.mapPwr f).tile = s.tile := rfl

@[simp] theorem State.mapLoad_pending (f : LoadState → LoadState) : (s.mapLoad f).pending = s.pending := rfl
@[simp] theorem State.mapLoad_ns (f : LoadState → LoadState) : (s.mapLoad f).ns = s.ns := rfl
@[simp] theorem State.mapLoad_draws (f : LoadState → LoadState) : (s.mapLoad f).draws = s.draws := rfl
@[simp] theorem State.mapLoad_wire (f : LoadState → LoadState) : (s.mapLoad f).wire = s.wire := rfl
@[simp] theorem State.mapLoad_own (f : LoadState → LoadState) : (s.mapLoad f).own = s.own := rfl
@[simp] theorem State.mapLoad_dev (f : LoadState → LoadState) : (s.mapLoad f).dev = s.dev := rfl
@[simp] theorem State.mapLoad_er (f : LoadState → LoadState) : (s.mapLoad f).er = s.er := rfl
@[simp] theorem State.mapLoad_mc (f : LoadState → LoadState) : (s.mapLoad f).mc = s.mc := rfl
@[simp] theorem State.mapLoad_ring (f : LoadState → LoadState) : (s.mapLoad f).ring = s.ring := rfl
@[simp] theorem State.mapLoad_mem (f : LoadState → LoadState) : (s.mapLoad f).mem = s.mem := rfl
@[simp] theorem State.mapLoad_flash (f : LoadState → LoadState) : (s.mapLoad f).flash = s.flash := rfl
@[simp] theorem State.mapLoad_spare (f : LoadState → LoadState) : (s.mapLoad f).spare = s.spare := rfl
@[simp] theorem State.mapLoad_jrnl (f : LoadState → LoadState) : (s.mapLoad f).jrnl = s.jrnl := rfl
@[simp] theorem State.mapLoad_pwr (f : LoadState → LoadState) : (s.mapLoad f).pwr = s.pwr := rfl
@[simp] theorem State.mapLoad_load (f : LoadState → LoadState) : (s.mapLoad f).load = f s.load := rfl
@[simp] theorem State.mapLoad_port (f : LoadState → LoadState) : (s.mapLoad f).port = s.port := rfl
@[simp] theorem State.mapLoad_ing (f : LoadState → LoadState) : (s.mapLoad f).ing = s.ing := rfl
@[simp] theorem State.mapLoad_stg (f : LoadState → LoadState) : (s.mapLoad f).stg = s.stg := rfl
@[simp] theorem State.mapLoad_bas (f : LoadState → LoadState) : (s.mapLoad f).bas = s.bas := rfl
@[simp] theorem State.mapLoad_dump (f : LoadState → LoadState) : (s.mapLoad f).dump = s.dump := rfl
@[simp] theorem State.mapLoad_beam (f : LoadState → LoadState) : (s.mapLoad f).beam = s.beam := rfl
@[simp] theorem State.mapLoad_filt (f : LoadState → LoadState) : (s.mapLoad f).filt = s.filt := rfl
@[simp] theorem State.mapLoad_split (f : LoadState → LoadState) : (s.mapLoad f).split = s.split := rfl
@[simp] theorem State.mapLoad_fr (f : LoadState → LoadState) : (s.mapLoad f).fr = s.fr := rfl
@[simp] theorem State.mapLoad_cap (f : LoadState → LoadState) : (s.mapLoad f).cap = s.cap := rfl
@[simp] theorem State.mapLoad_qz (f : LoadState → LoadState) : (s.mapLoad f).qz = s.qz := rfl
@[simp] theorem State.mapLoad_tile (f : LoadState → LoadState) : (s.mapLoad f).tile = s.tile := rfl

@[simp] theorem State.mapIng_pending (f : IngestState → IngestState) : (s.mapIng f).pending = s.pending := rfl
@[simp] theorem State.mapIng_ns (f : IngestState → IngestState) : (s.mapIng f).ns = s.ns := rfl
@[simp] theorem State.mapIng_draws (f : IngestState → IngestState) : (s.mapIng f).draws = s.draws := rfl
@[simp] theorem State.mapIng_wire (f : IngestState → IngestState) : (s.mapIng f).wire = s.wire := rfl
@[simp] theorem State.mapIng_own (f : IngestState → IngestState) : (s.mapIng f).own = s.own := rfl
@[simp] theorem State.mapIng_dev (f : IngestState → IngestState) : (s.mapIng f).dev = s.dev := rfl
@[simp] theorem State.mapIng_er (f : IngestState → IngestState) : (s.mapIng f).er = s.er := rfl
@[simp] theorem State.mapIng_mc (f : IngestState → IngestState) : (s.mapIng f).mc = s.mc := rfl
@[simp] theorem State.mapIng_ring (f : IngestState → IngestState) : (s.mapIng f).ring = s.ring := rfl
@[simp] theorem State.mapIng_mem (f : IngestState → IngestState) : (s.mapIng f).mem = s.mem := rfl
@[simp] theorem State.mapIng_flash (f : IngestState → IngestState) : (s.mapIng f).flash = s.flash := rfl
@[simp] theorem State.mapIng_spare (f : IngestState → IngestState) : (s.mapIng f).spare = s.spare := rfl
@[simp] theorem State.mapIng_jrnl (f : IngestState → IngestState) : (s.mapIng f).jrnl = s.jrnl := rfl
@[simp] theorem State.mapIng_pwr (f : IngestState → IngestState) : (s.mapIng f).pwr = s.pwr := rfl
@[simp] theorem State.mapIng_load (f : IngestState → IngestState) : (s.mapIng f).load = s.load := rfl
@[simp] theorem State.mapIng_port (f : IngestState → IngestState) : (s.mapIng f).port = s.port := rfl
@[simp] theorem State.mapIng_ing (f : IngestState → IngestState) : (s.mapIng f).ing = f s.ing := rfl
@[simp] theorem State.mapIng_stg (f : IngestState → IngestState) : (s.mapIng f).stg = s.stg := rfl
@[simp] theorem State.mapIng_bas (f : IngestState → IngestState) : (s.mapIng f).bas = s.bas := rfl
@[simp] theorem State.mapIng_dump (f : IngestState → IngestState) : (s.mapIng f).dump = s.dump := rfl
@[simp] theorem State.mapIng_beam (f : IngestState → IngestState) : (s.mapIng f).beam = s.beam := rfl
@[simp] theorem State.mapIng_filt (f : IngestState → IngestState) : (s.mapIng f).filt = s.filt := rfl
@[simp] theorem State.mapIng_split (f : IngestState → IngestState) : (s.mapIng f).split = s.split := rfl
@[simp] theorem State.mapIng_fr (f : IngestState → IngestState) : (s.mapIng f).fr = s.fr := rfl
@[simp] theorem State.mapIng_cap (f : IngestState → IngestState) : (s.mapIng f).cap = s.cap := rfl
@[simp] theorem State.mapIng_qz (f : IngestState → IngestState) : (s.mapIng f).qz = s.qz := rfl
@[simp] theorem State.mapIng_tile (f : IngestState → IngestState) : (s.mapIng f).tile = s.tile := rfl

@[simp] theorem State.mapStg_pending (f : StagingState → StagingState) : (s.mapStg f).pending = s.pending := rfl
@[simp] theorem State.mapStg_ns (f : StagingState → StagingState) : (s.mapStg f).ns = s.ns := rfl
@[simp] theorem State.mapStg_draws (f : StagingState → StagingState) : (s.mapStg f).draws = s.draws := rfl
@[simp] theorem State.mapStg_wire (f : StagingState → StagingState) : (s.mapStg f).wire = s.wire := rfl
@[simp] theorem State.mapStg_own (f : StagingState → StagingState) : (s.mapStg f).own = s.own := rfl
@[simp] theorem State.mapStg_dev (f : StagingState → StagingState) : (s.mapStg f).dev = s.dev := rfl
@[simp] theorem State.mapStg_er (f : StagingState → StagingState) : (s.mapStg f).er = s.er := rfl
@[simp] theorem State.mapStg_mc (f : StagingState → StagingState) : (s.mapStg f).mc = s.mc := rfl
@[simp] theorem State.mapStg_ring (f : StagingState → StagingState) : (s.mapStg f).ring = s.ring := rfl
@[simp] theorem State.mapStg_mem (f : StagingState → StagingState) : (s.mapStg f).mem = s.mem := rfl
@[simp] theorem State.mapStg_flash (f : StagingState → StagingState) : (s.mapStg f).flash = s.flash := rfl
@[simp] theorem State.mapStg_spare (f : StagingState → StagingState) : (s.mapStg f).spare = s.spare := rfl
@[simp] theorem State.mapStg_jrnl (f : StagingState → StagingState) : (s.mapStg f).jrnl = s.jrnl := rfl
@[simp] theorem State.mapStg_pwr (f : StagingState → StagingState) : (s.mapStg f).pwr = s.pwr := rfl
@[simp] theorem State.mapStg_load (f : StagingState → StagingState) : (s.mapStg f).load = s.load := rfl
@[simp] theorem State.mapStg_port (f : StagingState → StagingState) : (s.mapStg f).port = s.port := rfl
@[simp] theorem State.mapStg_ing (f : StagingState → StagingState) : (s.mapStg f).ing = s.ing := rfl
@[simp] theorem State.mapStg_stg (f : StagingState → StagingState) : (s.mapStg f).stg = f s.stg := rfl
@[simp] theorem State.mapStg_bas (f : StagingState → StagingState) : (s.mapStg f).bas = s.bas := rfl
@[simp] theorem State.mapStg_dump (f : StagingState → StagingState) : (s.mapStg f).dump = s.dump := rfl
@[simp] theorem State.mapStg_beam (f : StagingState → StagingState) : (s.mapStg f).beam = s.beam := rfl
@[simp] theorem State.mapStg_filt (f : StagingState → StagingState) : (s.mapStg f).filt = s.filt := rfl
@[simp] theorem State.mapStg_split (f : StagingState → StagingState) : (s.mapStg f).split = s.split := rfl
@[simp] theorem State.mapStg_fr (f : StagingState → StagingState) : (s.mapStg f).fr = s.fr := rfl
@[simp] theorem State.mapStg_cap (f : StagingState → StagingState) : (s.mapStg f).cap = s.cap := rfl
@[simp] theorem State.mapStg_qz (f : StagingState → StagingState) : (s.mapStg f).qz = s.qz := rfl
@[simp] theorem State.mapStg_tile (f : StagingState → StagingState) : (s.mapStg f).tile = s.tile := rfl

@[simp] theorem State.mapBas_pending (f : BasaltState → BasaltState) : (s.mapBas f).pending = s.pending := rfl
@[simp] theorem State.mapBas_ns (f : BasaltState → BasaltState) : (s.mapBas f).ns = s.ns := rfl
@[simp] theorem State.mapBas_draws (f : BasaltState → BasaltState) : (s.mapBas f).draws = s.draws := rfl
@[simp] theorem State.mapBas_wire (f : BasaltState → BasaltState) : (s.mapBas f).wire = s.wire := rfl
@[simp] theorem State.mapBas_own (f : BasaltState → BasaltState) : (s.mapBas f).own = s.own := rfl
@[simp] theorem State.mapBas_dev (f : BasaltState → BasaltState) : (s.mapBas f).dev = s.dev := rfl
@[simp] theorem State.mapBas_er (f : BasaltState → BasaltState) : (s.mapBas f).er = s.er := rfl
@[simp] theorem State.mapBas_mc (f : BasaltState → BasaltState) : (s.mapBas f).mc = s.mc := rfl
@[simp] theorem State.mapBas_ring (f : BasaltState → BasaltState) : (s.mapBas f).ring = s.ring := rfl
@[simp] theorem State.mapBas_mem (f : BasaltState → BasaltState) : (s.mapBas f).mem = s.mem := rfl
@[simp] theorem State.mapBas_flash (f : BasaltState → BasaltState) : (s.mapBas f).flash = s.flash := rfl
@[simp] theorem State.mapBas_spare (f : BasaltState → BasaltState) : (s.mapBas f).spare = s.spare := rfl
@[simp] theorem State.mapBas_jrnl (f : BasaltState → BasaltState) : (s.mapBas f).jrnl = s.jrnl := rfl
@[simp] theorem State.mapBas_pwr (f : BasaltState → BasaltState) : (s.mapBas f).pwr = s.pwr := rfl
@[simp] theorem State.mapBas_load (f : BasaltState → BasaltState) : (s.mapBas f).load = s.load := rfl
@[simp] theorem State.mapBas_port (f : BasaltState → BasaltState) : (s.mapBas f).port = s.port := rfl
@[simp] theorem State.mapBas_ing (f : BasaltState → BasaltState) : (s.mapBas f).ing = s.ing := rfl
@[simp] theorem State.mapBas_stg (f : BasaltState → BasaltState) : (s.mapBas f).stg = s.stg := rfl
@[simp] theorem State.mapBas_bas (f : BasaltState → BasaltState) : (s.mapBas f).bas = f s.bas := rfl
@[simp] theorem State.mapBas_dump (f : BasaltState → BasaltState) : (s.mapBas f).dump = s.dump := rfl
@[simp] theorem State.mapBas_beam (f : BasaltState → BasaltState) : (s.mapBas f).beam = s.beam := rfl
@[simp] theorem State.mapBas_filt (f : BasaltState → BasaltState) : (s.mapBas f).filt = s.filt := rfl
@[simp] theorem State.mapBas_split (f : BasaltState → BasaltState) : (s.mapBas f).split = s.split := rfl
@[simp] theorem State.mapBas_fr (f : BasaltState → BasaltState) : (s.mapBas f).fr = s.fr := rfl
@[simp] theorem State.mapBas_cap (f : BasaltState → BasaltState) : (s.mapBas f).cap = s.cap := rfl
@[simp] theorem State.mapBas_qz (f : BasaltState → BasaltState) : (s.mapBas f).qz = s.qz := rfl
@[simp] theorem State.mapBas_tile (f : BasaltState → BasaltState) : (s.mapBas f).tile = s.tile := rfl

@[simp] theorem State.mapDump_pending (f : DumpState → DumpState) : (s.mapDump f).pending = s.pending := rfl
@[simp] theorem State.mapDump_ns (f : DumpState → DumpState) : (s.mapDump f).ns = s.ns := rfl
@[simp] theorem State.mapDump_draws (f : DumpState → DumpState) : (s.mapDump f).draws = s.draws := rfl
@[simp] theorem State.mapDump_wire (f : DumpState → DumpState) : (s.mapDump f).wire = s.wire := rfl
@[simp] theorem State.mapDump_own (f : DumpState → DumpState) : (s.mapDump f).own = s.own := rfl
@[simp] theorem State.mapDump_dev (f : DumpState → DumpState) : (s.mapDump f).dev = s.dev := rfl
@[simp] theorem State.mapDump_er (f : DumpState → DumpState) : (s.mapDump f).er = s.er := rfl
@[simp] theorem State.mapDump_mc (f : DumpState → DumpState) : (s.mapDump f).mc = s.mc := rfl
@[simp] theorem State.mapDump_ring (f : DumpState → DumpState) : (s.mapDump f).ring = s.ring := rfl
@[simp] theorem State.mapDump_mem (f : DumpState → DumpState) : (s.mapDump f).mem = s.mem := rfl
@[simp] theorem State.mapDump_flash (f : DumpState → DumpState) : (s.mapDump f).flash = s.flash := rfl
@[simp] theorem State.mapDump_spare (f : DumpState → DumpState) : (s.mapDump f).spare = s.spare := rfl
@[simp] theorem State.mapDump_jrnl (f : DumpState → DumpState) : (s.mapDump f).jrnl = s.jrnl := rfl
@[simp] theorem State.mapDump_pwr (f : DumpState → DumpState) : (s.mapDump f).pwr = s.pwr := rfl
@[simp] theorem State.mapDump_load (f : DumpState → DumpState) : (s.mapDump f).load = s.load := rfl
@[simp] theorem State.mapDump_port (f : DumpState → DumpState) : (s.mapDump f).port = s.port := rfl
@[simp] theorem State.mapDump_ing (f : DumpState → DumpState) : (s.mapDump f).ing = s.ing := rfl
@[simp] theorem State.mapDump_stg (f : DumpState → DumpState) : (s.mapDump f).stg = s.stg := rfl
@[simp] theorem State.mapDump_bas (f : DumpState → DumpState) : (s.mapDump f).bas = s.bas := rfl
@[simp] theorem State.mapDump_dump (f : DumpState → DumpState) : (s.mapDump f).dump = f s.dump := rfl
@[simp] theorem State.mapDump_beam (f : DumpState → DumpState) : (s.mapDump f).beam = s.beam := rfl
@[simp] theorem State.mapDump_filt (f : DumpState → DumpState) : (s.mapDump f).filt = s.filt := rfl
@[simp] theorem State.mapDump_split (f : DumpState → DumpState) : (s.mapDump f).split = s.split := rfl
@[simp] theorem State.mapDump_fr (f : DumpState → DumpState) : (s.mapDump f).fr = s.fr := rfl
@[simp] theorem State.mapDump_cap (f : DumpState → DumpState) : (s.mapDump f).cap = s.cap := rfl
@[simp] theorem State.mapDump_qz (f : DumpState → DumpState) : (s.mapDump f).qz = s.qz := rfl
@[simp] theorem State.mapDump_tile (f : DumpState → DumpState) : (s.mapDump f).tile = s.tile := rfl

@[simp] theorem State.mapFilt_pending (f : FilterState → FilterState) : (s.mapFilt f).pending = s.pending := rfl
@[simp] theorem State.mapFilt_ns (f : FilterState → FilterState) : (s.mapFilt f).ns = s.ns := rfl
@[simp] theorem State.mapFilt_draws (f : FilterState → FilterState) : (s.mapFilt f).draws = s.draws := rfl
@[simp] theorem State.mapFilt_wire (f : FilterState → FilterState) : (s.mapFilt f).wire = s.wire := rfl
@[simp] theorem State.mapFilt_own (f : FilterState → FilterState) : (s.mapFilt f).own = s.own := rfl
@[simp] theorem State.mapFilt_dev (f : FilterState → FilterState) : (s.mapFilt f).dev = s.dev := rfl
@[simp] theorem State.mapFilt_er (f : FilterState → FilterState) : (s.mapFilt f).er = s.er := rfl
@[simp] theorem State.mapFilt_mc (f : FilterState → FilterState) : (s.mapFilt f).mc = s.mc := rfl
@[simp] theorem State.mapFilt_ring (f : FilterState → FilterState) : (s.mapFilt f).ring = s.ring := rfl
@[simp] theorem State.mapFilt_mem (f : FilterState → FilterState) : (s.mapFilt f).mem = s.mem := rfl
@[simp] theorem State.mapFilt_flash (f : FilterState → FilterState) : (s.mapFilt f).flash = s.flash := rfl
@[simp] theorem State.mapFilt_spare (f : FilterState → FilterState) : (s.mapFilt f).spare = s.spare := rfl
@[simp] theorem State.mapFilt_jrnl (f : FilterState → FilterState) : (s.mapFilt f).jrnl = s.jrnl := rfl
@[simp] theorem State.mapFilt_pwr (f : FilterState → FilterState) : (s.mapFilt f).pwr = s.pwr := rfl
@[simp] theorem State.mapFilt_load (f : FilterState → FilterState) : (s.mapFilt f).load = s.load := rfl
@[simp] theorem State.mapFilt_port (f : FilterState → FilterState) : (s.mapFilt f).port = s.port := rfl
@[simp] theorem State.mapFilt_ing (f : FilterState → FilterState) : (s.mapFilt f).ing = s.ing := rfl
@[simp] theorem State.mapFilt_stg (f : FilterState → FilterState) : (s.mapFilt f).stg = s.stg := rfl
@[simp] theorem State.mapFilt_bas (f : FilterState → FilterState) : (s.mapFilt f).bas = s.bas := rfl
@[simp] theorem State.mapFilt_dump (f : FilterState → FilterState) : (s.mapFilt f).dump = s.dump := rfl
@[simp] theorem State.mapFilt_beam (f : FilterState → FilterState) : (s.mapFilt f).beam = s.beam := rfl
@[simp] theorem State.mapFilt_filt (f : FilterState → FilterState) : (s.mapFilt f).filt = f s.filt := rfl
@[simp] theorem State.mapFilt_split (f : FilterState → FilterState) : (s.mapFilt f).split = s.split := rfl
@[simp] theorem State.mapFilt_fr (f : FilterState → FilterState) : (s.mapFilt f).fr = s.fr := rfl
@[simp] theorem State.mapFilt_cap (f : FilterState → FilterState) : (s.mapFilt f).cap = s.cap := rfl
@[simp] theorem State.mapFilt_qz (f : FilterState → FilterState) : (s.mapFilt f).qz = s.qz := rfl
@[simp] theorem State.mapFilt_tile (f : FilterState → FilterState) : (s.mapFilt f).tile = s.tile := rfl

@[simp] theorem State.mapFr_pending (f : FreranState → FreranState) : (s.mapFr f).pending = s.pending := rfl
@[simp] theorem State.mapFr_ns (f : FreranState → FreranState) : (s.mapFr f).ns = s.ns := rfl
@[simp] theorem State.mapFr_draws (f : FreranState → FreranState) : (s.mapFr f).draws = s.draws := rfl
@[simp] theorem State.mapFr_wire (f : FreranState → FreranState) : (s.mapFr f).wire = s.wire := rfl
@[simp] theorem State.mapFr_own (f : FreranState → FreranState) : (s.mapFr f).own = s.own := rfl
@[simp] theorem State.mapFr_dev (f : FreranState → FreranState) : (s.mapFr f).dev = s.dev := rfl
@[simp] theorem State.mapFr_er (f : FreranState → FreranState) : (s.mapFr f).er = s.er := rfl
@[simp] theorem State.mapFr_mc (f : FreranState → FreranState) : (s.mapFr f).mc = s.mc := rfl
@[simp] theorem State.mapFr_ring (f : FreranState → FreranState) : (s.mapFr f).ring = s.ring := rfl
@[simp] theorem State.mapFr_mem (f : FreranState → FreranState) : (s.mapFr f).mem = s.mem := rfl
@[simp] theorem State.mapFr_flash (f : FreranState → FreranState) : (s.mapFr f).flash = s.flash := rfl
@[simp] theorem State.mapFr_spare (f : FreranState → FreranState) : (s.mapFr f).spare = s.spare := rfl
@[simp] theorem State.mapFr_jrnl (f : FreranState → FreranState) : (s.mapFr f).jrnl = s.jrnl := rfl
@[simp] theorem State.mapFr_pwr (f : FreranState → FreranState) : (s.mapFr f).pwr = s.pwr := rfl
@[simp] theorem State.mapFr_load (f : FreranState → FreranState) : (s.mapFr f).load = s.load := rfl
@[simp] theorem State.mapFr_port (f : FreranState → FreranState) : (s.mapFr f).port = s.port := rfl
@[simp] theorem State.mapFr_ing (f : FreranState → FreranState) : (s.mapFr f).ing = s.ing := rfl
@[simp] theorem State.mapFr_stg (f : FreranState → FreranState) : (s.mapFr f).stg = s.stg := rfl
@[simp] theorem State.mapFr_bas (f : FreranState → FreranState) : (s.mapFr f).bas = s.bas := rfl
@[simp] theorem State.mapFr_dump (f : FreranState → FreranState) : (s.mapFr f).dump = s.dump := rfl
@[simp] theorem State.mapFr_beam (f : FreranState → FreranState) : (s.mapFr f).beam = s.beam := rfl
@[simp] theorem State.mapFr_filt (f : FreranState → FreranState) : (s.mapFr f).filt = s.filt := rfl
@[simp] theorem State.mapFr_split (f : FreranState → FreranState) : (s.mapFr f).split = s.split := rfl
@[simp] theorem State.mapFr_fr (f : FreranState → FreranState) : (s.mapFr f).fr = f s.fr := rfl
@[simp] theorem State.mapFr_cap (f : FreranState → FreranState) : (s.mapFr f).cap = s.cap := rfl
@[simp] theorem State.mapFr_qz (f : FreranState → FreranState) : (s.mapFr f).qz = s.qz := rfl
@[simp] theorem State.mapFr_tile (f : FreranState → FreranState) : (s.mapFr f).tile = s.tile := rfl

@[simp] theorem State.mapCap_pending (f : CaptureState → CaptureState) : (s.mapCap f).pending = s.pending := rfl
@[simp] theorem State.mapCap_ns (f : CaptureState → CaptureState) : (s.mapCap f).ns = s.ns := rfl
@[simp] theorem State.mapCap_draws (f : CaptureState → CaptureState) : (s.mapCap f).draws = s.draws := rfl
@[simp] theorem State.mapCap_wire (f : CaptureState → CaptureState) : (s.mapCap f).wire = s.wire := rfl
@[simp] theorem State.mapCap_own (f : CaptureState → CaptureState) : (s.mapCap f).own = s.own := rfl
@[simp] theorem State.mapCap_dev (f : CaptureState → CaptureState) : (s.mapCap f).dev = s.dev := rfl
@[simp] theorem State.mapCap_er (f : CaptureState → CaptureState) : (s.mapCap f).er = s.er := rfl
@[simp] theorem State.mapCap_mc (f : CaptureState → CaptureState) : (s.mapCap f).mc = s.mc := rfl
@[simp] theorem State.mapCap_ring (f : CaptureState → CaptureState) : (s.mapCap f).ring = s.ring := rfl
@[simp] theorem State.mapCap_mem (f : CaptureState → CaptureState) : (s.mapCap f).mem = s.mem := rfl
@[simp] theorem State.mapCap_flash (f : CaptureState → CaptureState) : (s.mapCap f).flash = s.flash := rfl
@[simp] theorem State.mapCap_spare (f : CaptureState → CaptureState) : (s.mapCap f).spare = s.spare := rfl
@[simp] theorem State.mapCap_jrnl (f : CaptureState → CaptureState) : (s.mapCap f).jrnl = s.jrnl := rfl
@[simp] theorem State.mapCap_pwr (f : CaptureState → CaptureState) : (s.mapCap f).pwr = s.pwr := rfl
@[simp] theorem State.mapCap_load (f : CaptureState → CaptureState) : (s.mapCap f).load = s.load := rfl
@[simp] theorem State.mapCap_port (f : CaptureState → CaptureState) : (s.mapCap f).port = s.port := rfl
@[simp] theorem State.mapCap_ing (f : CaptureState → CaptureState) : (s.mapCap f).ing = s.ing := rfl
@[simp] theorem State.mapCap_stg (f : CaptureState → CaptureState) : (s.mapCap f).stg = s.stg := rfl
@[simp] theorem State.mapCap_bas (f : CaptureState → CaptureState) : (s.mapCap f).bas = s.bas := rfl
@[simp] theorem State.mapCap_dump (f : CaptureState → CaptureState) : (s.mapCap f).dump = s.dump := rfl
@[simp] theorem State.mapCap_beam (f : CaptureState → CaptureState) : (s.mapCap f).beam = s.beam := rfl
@[simp] theorem State.mapCap_filt (f : CaptureState → CaptureState) : (s.mapCap f).filt = s.filt := rfl
@[simp] theorem State.mapCap_split (f : CaptureState → CaptureState) : (s.mapCap f).split = s.split := rfl
@[simp] theorem State.mapCap_fr (f : CaptureState → CaptureState) : (s.mapCap f).fr = s.fr := rfl
@[simp] theorem State.mapCap_cap (f : CaptureState → CaptureState) : (s.mapCap f).cap = f s.cap := rfl
@[simp] theorem State.mapCap_qz (f : CaptureState → CaptureState) : (s.mapCap f).qz = s.qz := rfl
@[simp] theorem State.mapCap_tile (f : CaptureState → CaptureState) : (s.mapCap f).tile = s.tile := rfl

@[simp] theorem State.mapQz_pending (f : QuartzState → QuartzState) : (s.mapQz f).pending = s.pending := rfl
@[simp] theorem State.mapQz_ns (f : QuartzState → QuartzState) : (s.mapQz f).ns = s.ns := rfl
@[simp] theorem State.mapQz_draws (f : QuartzState → QuartzState) : (s.mapQz f).draws = s.draws := rfl
@[simp] theorem State.mapQz_wire (f : QuartzState → QuartzState) : (s.mapQz f).wire = s.wire := rfl
@[simp] theorem State.mapQz_own (f : QuartzState → QuartzState) : (s.mapQz f).own = s.own := rfl
@[simp] theorem State.mapQz_dev (f : QuartzState → QuartzState) : (s.mapQz f).dev = s.dev := rfl
@[simp] theorem State.mapQz_er (f : QuartzState → QuartzState) : (s.mapQz f).er = s.er := rfl
@[simp] theorem State.mapQz_mc (f : QuartzState → QuartzState) : (s.mapQz f).mc = s.mc := rfl
@[simp] theorem State.mapQz_ring (f : QuartzState → QuartzState) : (s.mapQz f).ring = s.ring := rfl
@[simp] theorem State.mapQz_mem (f : QuartzState → QuartzState) : (s.mapQz f).mem = s.mem := rfl
@[simp] theorem State.mapQz_flash (f : QuartzState → QuartzState) : (s.mapQz f).flash = s.flash := rfl
@[simp] theorem State.mapQz_spare (f : QuartzState → QuartzState) : (s.mapQz f).spare = s.spare := rfl
@[simp] theorem State.mapQz_jrnl (f : QuartzState → QuartzState) : (s.mapQz f).jrnl = s.jrnl := rfl
@[simp] theorem State.mapQz_pwr (f : QuartzState → QuartzState) : (s.mapQz f).pwr = s.pwr := rfl
@[simp] theorem State.mapQz_load (f : QuartzState → QuartzState) : (s.mapQz f).load = s.load := rfl
@[simp] theorem State.mapQz_port (f : QuartzState → QuartzState) : (s.mapQz f).port = s.port := rfl
@[simp] theorem State.mapQz_ing (f : QuartzState → QuartzState) : (s.mapQz f).ing = s.ing := rfl
@[simp] theorem State.mapQz_stg (f : QuartzState → QuartzState) : (s.mapQz f).stg = s.stg := rfl
@[simp] theorem State.mapQz_bas (f : QuartzState → QuartzState) : (s.mapQz f).bas = s.bas := rfl
@[simp] theorem State.mapQz_dump (f : QuartzState → QuartzState) : (s.mapQz f).dump = s.dump := rfl
@[simp] theorem State.mapQz_beam (f : QuartzState → QuartzState) : (s.mapQz f).beam = s.beam := rfl
@[simp] theorem State.mapQz_filt (f : QuartzState → QuartzState) : (s.mapQz f).filt = s.filt := rfl
@[simp] theorem State.mapQz_split (f : QuartzState → QuartzState) : (s.mapQz f).split = s.split := rfl
@[simp] theorem State.mapQz_fr (f : QuartzState → QuartzState) : (s.mapQz f).fr = s.fr := rfl
@[simp] theorem State.mapQz_cap (f : QuartzState → QuartzState) : (s.mapQz f).cap = s.cap := rfl
@[simp] theorem State.mapQz_qz (f : QuartzState → QuartzState) : (s.mapQz f).qz = f s.qz := rfl
@[simp] theorem State.mapQz_tile (f : QuartzState → QuartzState) : (s.mapQz f).tile = s.tile := rfl

@[simp] theorem State.mapTile_pending (f : TileState → TileState) : (s.mapTile f).pending = s.pending := rfl
@[simp] theorem State.mapTile_ns (f : TileState → TileState) : (s.mapTile f).ns = s.ns := rfl
@[simp] theorem State.mapTile_draws (f : TileState → TileState) : (s.mapTile f).draws = s.draws := rfl
@[simp] theorem State.mapTile_wire (f : TileState → TileState) : (s.mapTile f).wire = s.wire := rfl
@[simp] theorem State.mapTile_own (f : TileState → TileState) : (s.mapTile f).own = s.own := rfl
@[simp] theorem State.mapTile_dev (f : TileState → TileState) : (s.mapTile f).dev = s.dev := rfl
@[simp] theorem State.mapTile_er (f : TileState → TileState) : (s.mapTile f).er = s.er := rfl
@[simp] theorem State.mapTile_mc (f : TileState → TileState) : (s.mapTile f).mc = s.mc := rfl
@[simp] theorem State.mapTile_ring (f : TileState → TileState) : (s.mapTile f).ring = s.ring := rfl
@[simp] theorem State.mapTile_mem (f : TileState → TileState) : (s.mapTile f).mem = s.mem := rfl
@[simp] theorem State.mapTile_flash (f : TileState → TileState) : (s.mapTile f).flash = s.flash := rfl
@[simp] theorem State.mapTile_spare (f : TileState → TileState) : (s.mapTile f).spare = s.spare := rfl
@[simp] theorem State.mapTile_jrnl (f : TileState → TileState) : (s.mapTile f).jrnl = s.jrnl := rfl
@[simp] theorem State.mapTile_pwr (f : TileState → TileState) : (s.mapTile f).pwr = s.pwr := rfl
@[simp] theorem State.mapTile_load (f : TileState → TileState) : (s.mapTile f).load = s.load := rfl
@[simp] theorem State.mapTile_port (f : TileState → TileState) : (s.mapTile f).port = s.port := rfl
@[simp] theorem State.mapTile_ing (f : TileState → TileState) : (s.mapTile f).ing = s.ing := rfl
@[simp] theorem State.mapTile_stg (f : TileState → TileState) : (s.mapTile f).stg = s.stg := rfl
@[simp] theorem State.mapTile_bas (f : TileState → TileState) : (s.mapTile f).bas = s.bas := rfl
@[simp] theorem State.mapTile_dump (f : TileState → TileState) : (s.mapTile f).dump = s.dump := rfl
@[simp] theorem State.mapTile_beam (f : TileState → TileState) : (s.mapTile f).beam = s.beam := rfl
@[simp] theorem State.mapTile_filt (f : TileState → TileState) : (s.mapTile f).filt = s.filt := rfl
@[simp] theorem State.mapTile_split (f : TileState → TileState) : (s.mapTile f).split = s.split := rfl
@[simp] theorem State.mapTile_fr (f : TileState → TileState) : (s.mapTile f).fr = s.fr := rfl
@[simp] theorem State.mapTile_cap (f : TileState → TileState) : (s.mapTile f).cap = s.cap := rfl
@[simp] theorem State.mapTile_qz (f : TileState → TileState) : (s.mapTile f).qz = s.qz := rfl
@[simp] theorem State.mapTile_tile (f : TileState → TileState) : (s.mapTile f).tile = f s.tile := rfl

@[simp] theorem State.setDomain_pending (d : Nat) (v : Domain) : (s.setDomain d v).pending = s.pending := rfl
@[simp] theorem State.setDomain_ns (d : Nat) (v : Domain) : (s.setDomain d v).ns = s.ns := rfl
@[simp] theorem State.setDomain_draws (d : Nat) (v : Domain) : (s.setDomain d v).draws = s.draws := rfl
@[simp] theorem State.setDomain_wire (d : Nat) (v : Domain) : (s.setDomain d v).wire = s.wire := rfl
@[simp] theorem State.setDomain_own (d : Nat) (v : Domain) : (s.setDomain d v).own = s.own := rfl
@[simp] theorem State.setDomain_dev (d : Nat) (v : Domain) : (s.setDomain d v).dev = s.dev := rfl
@[simp] theorem State.setDomain_er (d : Nat) (v : Domain) : (s.setDomain d v).er = s.er := rfl
@[simp] theorem State.setDomain_mc (d : Nat) (v : Domain) : (s.setDomain d v).mc = s.mc := rfl
@[simp] theorem State.setDomain_ring (d : Nat) (v : Domain) : (s.setDomain d v).ring = s.ring := rfl
@[simp] theorem State.setDomain_mem (d : Nat) (v : Domain) : (s.setDomain d v).mem = s.mem := rfl
@[simp] theorem State.setDomain_flash (d : Nat) (v : Domain) : (s.setDomain d v).flash = s.flash := rfl
@[simp] theorem State.setDomain_spare (d : Nat) (v : Domain) : (s.setDomain d v).spare = s.spare := rfl
@[simp] theorem State.setDomain_jrnl (d : Nat) (v : Domain) : (s.setDomain d v).jrnl = s.jrnl := rfl
@[simp] theorem State.setDomain_load (d : Nat) (v : Domain) : (s.setDomain d v).load = s.load := rfl
@[simp] theorem State.setDomain_port (d : Nat) (v : Domain) : (s.setDomain d v).port = s.port := rfl
@[simp] theorem State.setDomain_ing (d : Nat) (v : Domain) : (s.setDomain d v).ing = s.ing := rfl
@[simp] theorem State.setDomain_stg (d : Nat) (v : Domain) : (s.setDomain d v).stg = s.stg := rfl
@[simp] theorem State.setDomain_bas (d : Nat) (v : Domain) : (s.setDomain d v).bas = s.bas := rfl
@[simp] theorem State.setDomain_dump (d : Nat) (v : Domain) : (s.setDomain d v).dump = s.dump := rfl
@[simp] theorem State.setDomain_beam (d : Nat) (v : Domain) : (s.setDomain d v).beam = s.beam := rfl
@[simp] theorem State.setDomain_filt (d : Nat) (v : Domain) : (s.setDomain d v).filt = s.filt := rfl
@[simp] theorem State.setDomain_split (d : Nat) (v : Domain) : (s.setDomain d v).split = s.split := rfl
@[simp] theorem State.setDomain_fr (d : Nat) (v : Domain) : (s.setDomain d v).fr = s.fr := rfl
@[simp] theorem State.setDomain_cap (d : Nat) (v : Domain) : (s.setDomain d v).cap = s.cap := rfl
@[simp] theorem State.setDomain_qz (d : Nat) (v : Domain) : (s.setDomain d v).qz = s.qz := rfl
@[simp] theorem State.setDomain_tile (d : Nat) (v : Domain) : (s.setDomain d v).tile = s.tile := rfl

@[simp] theorem State.setQueue_pending (q : Nat) (v : Queue) : (s.setQueue q v).pending = s.pending := rfl
@[simp] theorem State.setQueue_ns (q : Nat) (v : Queue) : (s.setQueue q v).ns = s.ns := rfl
@[simp] theorem State.setQueue_draws (q : Nat) (v : Queue) : (s.setQueue q v).draws = s.draws := rfl
@[simp] theorem State.setQueue_wire (q : Nat) (v : Queue) : (s.setQueue q v).wire = s.wire := rfl
@[simp] theorem State.setQueue_own (q : Nat) (v : Queue) : (s.setQueue q v).own = s.own := rfl
@[simp] theorem State.setQueue_dev (q : Nat) (v : Queue) : (s.setQueue q v).dev = s.dev := rfl
@[simp] theorem State.setQueue_er (q : Nat) (v : Queue) : (s.setQueue q v).er = s.er := rfl
@[simp] theorem State.setQueue_mc (q : Nat) (v : Queue) : (s.setQueue q v).mc = s.mc := rfl
@[simp] theorem State.setQueue_mem (q : Nat) (v : Queue) : (s.setQueue q v).mem = s.mem := rfl
@[simp] theorem State.setQueue_flash (q : Nat) (v : Queue) : (s.setQueue q v).flash = s.flash := rfl
@[simp] theorem State.setQueue_spare (q : Nat) (v : Queue) : (s.setQueue q v).spare = s.spare := rfl
@[simp] theorem State.setQueue_jrnl (q : Nat) (v : Queue) : (s.setQueue q v).jrnl = s.jrnl := rfl
@[simp] theorem State.setQueue_pwr (q : Nat) (v : Queue) : (s.setQueue q v).pwr = s.pwr := rfl
@[simp] theorem State.setQueue_load (q : Nat) (v : Queue) : (s.setQueue q v).load = s.load := rfl
@[simp] theorem State.setQueue_port (q : Nat) (v : Queue) : (s.setQueue q v).port = s.port := rfl
@[simp] theorem State.setQueue_ing (q : Nat) (v : Queue) : (s.setQueue q v).ing = s.ing := rfl
@[simp] theorem State.setQueue_stg (q : Nat) (v : Queue) : (s.setQueue q v).stg = s.stg := rfl
@[simp] theorem State.setQueue_bas (q : Nat) (v : Queue) : (s.setQueue q v).bas = s.bas := rfl
@[simp] theorem State.setQueue_dump (q : Nat) (v : Queue) : (s.setQueue q v).dump = s.dump := rfl
@[simp] theorem State.setQueue_beam (q : Nat) (v : Queue) : (s.setQueue q v).beam = s.beam := rfl
@[simp] theorem State.setQueue_filt (q : Nat) (v : Queue) : (s.setQueue q v).filt = s.filt := rfl
@[simp] theorem State.setQueue_split (q : Nat) (v : Queue) : (s.setQueue q v).split = s.split := rfl
@[simp] theorem State.setQueue_fr (q : Nat) (v : Queue) : (s.setQueue q v).fr = s.fr := rfl
@[simp] theorem State.setQueue_cap (q : Nat) (v : Queue) : (s.setQueue q v).cap = s.cap := rfl
@[simp] theorem State.setQueue_qz (q : Nat) (v : Queue) : (s.setQueue q v).qz = s.qz := rfl
@[simp] theorem State.setQueue_tile (q : Nat) (v : Queue) : (s.setQueue q v).tile = s.tile := rfl

@[simp] theorem State.setPort_pending (p : Nat) (v : Port) : (s.setPort p v).pending = s.pending := rfl
@[simp] theorem State.setPort_ns (p : Nat) (v : Port) : (s.setPort p v).ns = s.ns := rfl
@[simp] theorem State.setPort_draws (p : Nat) (v : Port) : (s.setPort p v).draws = s.draws := rfl
@[simp] theorem State.setPort_wire (p : Nat) (v : Port) : (s.setPort p v).wire = s.wire := rfl
@[simp] theorem State.setPort_own (p : Nat) (v : Port) : (s.setPort p v).own = s.own := rfl
@[simp] theorem State.setPort_dev (p : Nat) (v : Port) : (s.setPort p v).dev = s.dev := rfl
@[simp] theorem State.setPort_er (p : Nat) (v : Port) : (s.setPort p v).er = s.er := rfl
@[simp] theorem State.setPort_mc (p : Nat) (v : Port) : (s.setPort p v).mc = s.mc := rfl
@[simp] theorem State.setPort_ring (p : Nat) (v : Port) : (s.setPort p v).ring = s.ring := rfl
@[simp] theorem State.setPort_mem (p : Nat) (v : Port) : (s.setPort p v).mem = s.mem := rfl
@[simp] theorem State.setPort_flash (p : Nat) (v : Port) : (s.setPort p v).flash = s.flash := rfl
@[simp] theorem State.setPort_spare (p : Nat) (v : Port) : (s.setPort p v).spare = s.spare := rfl
@[simp] theorem State.setPort_jrnl (p : Nat) (v : Port) : (s.setPort p v).jrnl = s.jrnl := rfl
@[simp] theorem State.setPort_pwr (p : Nat) (v : Port) : (s.setPort p v).pwr = s.pwr := rfl
@[simp] theorem State.setPort_load (p : Nat) (v : Port) : (s.setPort p v).load = s.load := rfl
@[simp] theorem State.setPort_ing (p : Nat) (v : Port) : (s.setPort p v).ing = s.ing := rfl
@[simp] theorem State.setPort_stg (p : Nat) (v : Port) : (s.setPort p v).stg = s.stg := rfl
@[simp] theorem State.setPort_bas (p : Nat) (v : Port) : (s.setPort p v).bas = s.bas := rfl
@[simp] theorem State.setPort_dump (p : Nat) (v : Port) : (s.setPort p v).dump = s.dump := rfl
@[simp] theorem State.setPort_beam (p : Nat) (v : Port) : (s.setPort p v).beam = s.beam := rfl
@[simp] theorem State.setPort_filt (p : Nat) (v : Port) : (s.setPort p v).filt = s.filt := rfl
@[simp] theorem State.setPort_split (p : Nat) (v : Port) : (s.setPort p v).split = s.split := rfl
@[simp] theorem State.setPort_fr (p : Nat) (v : Port) : (s.setPort p v).fr = s.fr := rfl
@[simp] theorem State.setPort_cap (p : Nat) (v : Port) : (s.setPort p v).cap = s.cap := rfl
@[simp] theorem State.setPort_qz (p : Nat) (v : Port) : (s.setPort p v).qz = s.qz := rfl
@[simp] theorem State.setPort_tile (p : Nat) (v : Port) : (s.setPort p v).tile = s.tile := rfl

@[simp] theorem State.setTxq_pending (p : Nat) (l : List (FrameOwner × Frame)) : (s.setTxq p l).pending = s.pending := rfl
@[simp] theorem State.setTxq_ns (p : Nat) (l : List (FrameOwner × Frame)) : (s.setTxq p l).ns = s.ns := rfl
@[simp] theorem State.setTxq_draws (p : Nat) (l : List (FrameOwner × Frame)) : (s.setTxq p l).draws = s.draws := rfl
@[simp] theorem State.setTxq_wire (p : Nat) (l : List (FrameOwner × Frame)) : (s.setTxq p l).wire = s.wire := rfl
@[simp] theorem State.setTxq_own (p : Nat) (l : List (FrameOwner × Frame)) : (s.setTxq p l).own = s.own := rfl
@[simp] theorem State.setTxq_dev (p : Nat) (l : List (FrameOwner × Frame)) : (s.setTxq p l).dev = s.dev := rfl
@[simp] theorem State.setTxq_er (p : Nat) (l : List (FrameOwner × Frame)) : (s.setTxq p l).er = s.er := rfl
@[simp] theorem State.setTxq_mc (p : Nat) (l : List (FrameOwner × Frame)) : (s.setTxq p l).mc = s.mc := rfl
@[simp] theorem State.setTxq_ring (p : Nat) (l : List (FrameOwner × Frame)) : (s.setTxq p l).ring = s.ring := rfl
@[simp] theorem State.setTxq_mem (p : Nat) (l : List (FrameOwner × Frame)) : (s.setTxq p l).mem = s.mem := rfl
@[simp] theorem State.setTxq_flash (p : Nat) (l : List (FrameOwner × Frame)) : (s.setTxq p l).flash = s.flash := rfl
@[simp] theorem State.setTxq_spare (p : Nat) (l : List (FrameOwner × Frame)) : (s.setTxq p l).spare = s.spare := rfl
@[simp] theorem State.setTxq_jrnl (p : Nat) (l : List (FrameOwner × Frame)) : (s.setTxq p l).jrnl = s.jrnl := rfl
@[simp] theorem State.setTxq_pwr (p : Nat) (l : List (FrameOwner × Frame)) : (s.setTxq p l).pwr = s.pwr := rfl
@[simp] theorem State.setTxq_load (p : Nat) (l : List (FrameOwner × Frame)) : (s.setTxq p l).load = s.load := rfl
@[simp] theorem State.setTxq_ing (p : Nat) (l : List (FrameOwner × Frame)) : (s.setTxq p l).ing = s.ing := rfl
@[simp] theorem State.setTxq_stg (p : Nat) (l : List (FrameOwner × Frame)) : (s.setTxq p l).stg = s.stg := rfl
@[simp] theorem State.setTxq_bas (p : Nat) (l : List (FrameOwner × Frame)) : (s.setTxq p l).bas = s.bas := rfl
@[simp] theorem State.setTxq_dump (p : Nat) (l : List (FrameOwner × Frame)) : (s.setTxq p l).dump = s.dump := rfl
@[simp] theorem State.setTxq_beam (p : Nat) (l : List (FrameOwner × Frame)) : (s.setTxq p l).beam = s.beam := rfl
@[simp] theorem State.setTxq_filt (p : Nat) (l : List (FrameOwner × Frame)) : (s.setTxq p l).filt = s.filt := rfl
@[simp] theorem State.setTxq_split (p : Nat) (l : List (FrameOwner × Frame)) : (s.setTxq p l).split = s.split := rfl
@[simp] theorem State.setTxq_fr (p : Nat) (l : List (FrameOwner × Frame)) : (s.setTxq p l).fr = s.fr := rfl
@[simp] theorem State.setTxq_cap (p : Nat) (l : List (FrameOwner × Frame)) : (s.setTxq p l).cap = s.cap := rfl
@[simp] theorem State.setTxq_qz (p : Nat) (l : List (FrameOwner × Frame)) : (s.setTxq p l).qz = s.qz := rfl
@[simp] theorem State.setTxq_tile (p : Nat) (l : List (FrameOwner × Frame)) : (s.setTxq p l).tile = s.tile := rfl

@[simp] theorem State.setLane_pending (l : Nat) (v : Lane) : (s.setLane l v).pending = s.pending := rfl
@[simp] theorem State.setLane_ns (l : Nat) (v : Lane) : (s.setLane l v).ns = s.ns := rfl
@[simp] theorem State.setLane_draws (l : Nat) (v : Lane) : (s.setLane l v).draws = s.draws := rfl
@[simp] theorem State.setLane_wire (l : Nat) (v : Lane) : (s.setLane l v).wire = s.wire := rfl
@[simp] theorem State.setLane_own (l : Nat) (v : Lane) : (s.setLane l v).own = s.own := rfl
@[simp] theorem State.setLane_dev (l : Nat) (v : Lane) : (s.setLane l v).dev = s.dev := rfl
@[simp] theorem State.setLane_er (l : Nat) (v : Lane) : (s.setLane l v).er = s.er := rfl
@[simp] theorem State.setLane_mc (l : Nat) (v : Lane) : (s.setLane l v).mc = s.mc := rfl
@[simp] theorem State.setLane_ring (l : Nat) (v : Lane) : (s.setLane l v).ring = s.ring := rfl
@[simp] theorem State.setLane_mem (l : Nat) (v : Lane) : (s.setLane l v).mem = s.mem := rfl
@[simp] theorem State.setLane_flash (l : Nat) (v : Lane) : (s.setLane l v).flash = s.flash := rfl
@[simp] theorem State.setLane_spare (l : Nat) (v : Lane) : (s.setLane l v).spare = s.spare := rfl
@[simp] theorem State.setLane_jrnl (l : Nat) (v : Lane) : (s.setLane l v).jrnl = s.jrnl := rfl
@[simp] theorem State.setLane_pwr (l : Nat) (v : Lane) : (s.setLane l v).pwr = s.pwr := rfl
@[simp] theorem State.setLane_load (l : Nat) (v : Lane) : (s.setLane l v).load = s.load := rfl
@[simp] theorem State.setLane_ing (l : Nat) (v : Lane) : (s.setLane l v).ing = s.ing := rfl
@[simp] theorem State.setLane_stg (l : Nat) (v : Lane) : (s.setLane l v).stg = s.stg := rfl
@[simp] theorem State.setLane_bas (l : Nat) (v : Lane) : (s.setLane l v).bas = s.bas := rfl
@[simp] theorem State.setLane_dump (l : Nat) (v : Lane) : (s.setLane l v).dump = s.dump := rfl
@[simp] theorem State.setLane_beam (l : Nat) (v : Lane) : (s.setLane l v).beam = s.beam := rfl
@[simp] theorem State.setLane_filt (l : Nat) (v : Lane) : (s.setLane l v).filt = s.filt := rfl
@[simp] theorem State.setLane_split (l : Nat) (v : Lane) : (s.setLane l v).split = s.split := rfl
@[simp] theorem State.setLane_fr (l : Nat) (v : Lane) : (s.setLane l v).fr = s.fr := rfl
@[simp] theorem State.setLane_cap (l : Nat) (v : Lane) : (s.setLane l v).cap = s.cap := rfl
@[simp] theorem State.setLane_qz (l : Nat) (v : Lane) : (s.setLane l v).qz = s.qz := rfl
@[simp] theorem State.setLane_tile (l : Nat) (v : Lane) : (s.setLane l v).tile = s.tile := rfl

@[simp] theorem State.setInPort_pending (p : Nat) (v : InPort) : (s.setInPort p v).pending = s.pending := rfl
@[simp] theorem State.setInPort_ns (p : Nat) (v : InPort) : (s.setInPort p v).ns = s.ns := rfl
@[simp] theorem State.setInPort_draws (p : Nat) (v : InPort) : (s.setInPort p v).draws = s.draws := rfl
@[simp] theorem State.setInPort_wire (p : Nat) (v : InPort) : (s.setInPort p v).wire = s.wire := rfl
@[simp] theorem State.setInPort_own (p : Nat) (v : InPort) : (s.setInPort p v).own = s.own := rfl
@[simp] theorem State.setInPort_dev (p : Nat) (v : InPort) : (s.setInPort p v).dev = s.dev := rfl
@[simp] theorem State.setInPort_er (p : Nat) (v : InPort) : (s.setInPort p v).er = s.er := rfl
@[simp] theorem State.setInPort_mc (p : Nat) (v : InPort) : (s.setInPort p v).mc = s.mc := rfl
@[simp] theorem State.setInPort_ring (p : Nat) (v : InPort) : (s.setInPort p v).ring = s.ring := rfl
@[simp] theorem State.setInPort_mem (p : Nat) (v : InPort) : (s.setInPort p v).mem = s.mem := rfl
@[simp] theorem State.setInPort_flash (p : Nat) (v : InPort) : (s.setInPort p v).flash = s.flash := rfl
@[simp] theorem State.setInPort_spare (p : Nat) (v : InPort) : (s.setInPort p v).spare = s.spare := rfl
@[simp] theorem State.setInPort_jrnl (p : Nat) (v : InPort) : (s.setInPort p v).jrnl = s.jrnl := rfl
@[simp] theorem State.setInPort_pwr (p : Nat) (v : InPort) : (s.setInPort p v).pwr = s.pwr := rfl
@[simp] theorem State.setInPort_load (p : Nat) (v : InPort) : (s.setInPort p v).load = s.load := rfl
@[simp] theorem State.setInPort_port (p : Nat) (v : InPort) : (s.setInPort p v).port = s.port := rfl
@[simp] theorem State.setInPort_stg (p : Nat) (v : InPort) : (s.setInPort p v).stg = s.stg := rfl
@[simp] theorem State.setInPort_bas (p : Nat) (v : InPort) : (s.setInPort p v).bas = s.bas := rfl
@[simp] theorem State.setInPort_dump (p : Nat) (v : InPort) : (s.setInPort p v).dump = s.dump := rfl
@[simp] theorem State.setInPort_beam (p : Nat) (v : InPort) : (s.setInPort p v).beam = s.beam := rfl
@[simp] theorem State.setInPort_filt (p : Nat) (v : InPort) : (s.setInPort p v).filt = s.filt := rfl
@[simp] theorem State.setInPort_split (p : Nat) (v : InPort) : (s.setInPort p v).split = s.split := rfl
@[simp] theorem State.setInPort_fr (p : Nat) (v : InPort) : (s.setInPort p v).fr = s.fr := rfl
@[simp] theorem State.setInPort_cap (p : Nat) (v : InPort) : (s.setInPort p v).cap = s.cap := rfl
@[simp] theorem State.setInPort_qz (p : Nat) (v : InPort) : (s.setInPort p v).qz = s.qz := rfl
@[simp] theorem State.setInPort_tile (p : Nat) (v : InPort) : (s.setInPort p v).tile = s.tile := rfl

@[simp] theorem State.setInputCount_pending (i : Nat) (v : InputCount) : (s.setInputCount i v).pending = s.pending := rfl
@[simp] theorem State.setInputCount_ns (i : Nat) (v : InputCount) : (s.setInputCount i v).ns = s.ns := rfl
@[simp] theorem State.setInputCount_draws (i : Nat) (v : InputCount) : (s.setInputCount i v).draws = s.draws := rfl
@[simp] theorem State.setInputCount_wire (i : Nat) (v : InputCount) : (s.setInputCount i v).wire = s.wire := rfl
@[simp] theorem State.setInputCount_own (i : Nat) (v : InputCount) : (s.setInputCount i v).own = s.own := rfl
@[simp] theorem State.setInputCount_dev (i : Nat) (v : InputCount) : (s.setInputCount i v).dev = s.dev := rfl
@[simp] theorem State.setInputCount_er (i : Nat) (v : InputCount) : (s.setInputCount i v).er = s.er := rfl
@[simp] theorem State.setInputCount_mc (i : Nat) (v : InputCount) : (s.setInputCount i v).mc = s.mc := rfl
@[simp] theorem State.setInputCount_ring (i : Nat) (v : InputCount) : (s.setInputCount i v).ring = s.ring := rfl
@[simp] theorem State.setInputCount_mem (i : Nat) (v : InputCount) : (s.setInputCount i v).mem = s.mem := rfl
@[simp] theorem State.setInputCount_flash (i : Nat) (v : InputCount) : (s.setInputCount i v).flash = s.flash := rfl
@[simp] theorem State.setInputCount_spare (i : Nat) (v : InputCount) : (s.setInputCount i v).spare = s.spare := rfl
@[simp] theorem State.setInputCount_jrnl (i : Nat) (v : InputCount) : (s.setInputCount i v).jrnl = s.jrnl := rfl
@[simp] theorem State.setInputCount_pwr (i : Nat) (v : InputCount) : (s.setInputCount i v).pwr = s.pwr := rfl
@[simp] theorem State.setInputCount_load (i : Nat) (v : InputCount) : (s.setInputCount i v).load = s.load := rfl
@[simp] theorem State.setInputCount_port (i : Nat) (v : InputCount) : (s.setInputCount i v).port = s.port := rfl
@[simp] theorem State.setInputCount_stg (i : Nat) (v : InputCount) : (s.setInputCount i v).stg = s.stg := rfl
@[simp] theorem State.setInputCount_bas (i : Nat) (v : InputCount) : (s.setInputCount i v).bas = s.bas := rfl
@[simp] theorem State.setInputCount_dump (i : Nat) (v : InputCount) : (s.setInputCount i v).dump = s.dump := rfl
@[simp] theorem State.setInputCount_beam (i : Nat) (v : InputCount) : (s.setInputCount i v).beam = s.beam := rfl
@[simp] theorem State.setInputCount_filt (i : Nat) (v : InputCount) : (s.setInputCount i v).filt = s.filt := rfl
@[simp] theorem State.setInputCount_split (i : Nat) (v : InputCount) : (s.setInputCount i v).split = s.split := rfl
@[simp] theorem State.setInputCount_fr (i : Nat) (v : InputCount) : (s.setInputCount i v).fr = s.fr := rfl
@[simp] theorem State.setInputCount_cap (i : Nat) (v : InputCount) : (s.setInputCount i v).cap = s.cap := rfl
@[simp] theorem State.setInputCount_qz (i : Nat) (v : InputCount) : (s.setInputCount i v).qz = s.qz := rfl
@[simp] theorem State.setInputCount_tile (i : Nat) (v : InputCount) : (s.setInputCount i v).tile = s.tile := rfl

@[simp] theorem State.setBeamSet_pending (n : Nat) (v : BeamSet) : (s.setBeamSet n v).pending = s.pending := rfl
@[simp] theorem State.setBeamSet_ns (n : Nat) (v : BeamSet) : (s.setBeamSet n v).ns = s.ns := rfl
@[simp] theorem State.setBeamSet_draws (n : Nat) (v : BeamSet) : (s.setBeamSet n v).draws = s.draws := rfl
@[simp] theorem State.setBeamSet_wire (n : Nat) (v : BeamSet) : (s.setBeamSet n v).wire = s.wire := rfl
@[simp] theorem State.setBeamSet_own (n : Nat) (v : BeamSet) : (s.setBeamSet n v).own = s.own := rfl
@[simp] theorem State.setBeamSet_dev (n : Nat) (v : BeamSet) : (s.setBeamSet n v).dev = s.dev := rfl
@[simp] theorem State.setBeamSet_er (n : Nat) (v : BeamSet) : (s.setBeamSet n v).er = s.er := rfl
@[simp] theorem State.setBeamSet_mc (n : Nat) (v : BeamSet) : (s.setBeamSet n v).mc = s.mc := rfl
@[simp] theorem State.setBeamSet_ring (n : Nat) (v : BeamSet) : (s.setBeamSet n v).ring = s.ring := rfl
@[simp] theorem State.setBeamSet_mem (n : Nat) (v : BeamSet) : (s.setBeamSet n v).mem = s.mem := rfl
@[simp] theorem State.setBeamSet_flash (n : Nat) (v : BeamSet) : (s.setBeamSet n v).flash = s.flash := rfl
@[simp] theorem State.setBeamSet_spare (n : Nat) (v : BeamSet) : (s.setBeamSet n v).spare = s.spare := rfl
@[simp] theorem State.setBeamSet_jrnl (n : Nat) (v : BeamSet) : (s.setBeamSet n v).jrnl = s.jrnl := rfl
@[simp] theorem State.setBeamSet_pwr (n : Nat) (v : BeamSet) : (s.setBeamSet n v).pwr = s.pwr := rfl
@[simp] theorem State.setBeamSet_load (n : Nat) (v : BeamSet) : (s.setBeamSet n v).load = s.load := rfl
@[simp] theorem State.setBeamSet_port (n : Nat) (v : BeamSet) : (s.setBeamSet n v).port = s.port := rfl
@[simp] theorem State.setBeamSet_ing (n : Nat) (v : BeamSet) : (s.setBeamSet n v).ing = s.ing := rfl
@[simp] theorem State.setBeamSet_stg (n : Nat) (v : BeamSet) : (s.setBeamSet n v).stg = s.stg := rfl
@[simp] theorem State.setBeamSet_bas (n : Nat) (v : BeamSet) : (s.setBeamSet n v).bas = s.bas := rfl
@[simp] theorem State.setBeamSet_dump (n : Nat) (v : BeamSet) : (s.setBeamSet n v).dump = s.dump := rfl
@[simp] theorem State.setBeamSet_filt (n : Nat) (v : BeamSet) : (s.setBeamSet n v).filt = s.filt := rfl
@[simp] theorem State.setBeamSet_split (n : Nat) (v : BeamSet) : (s.setBeamSet n v).split = s.split := rfl
@[simp] theorem State.setBeamSet_fr (n : Nat) (v : BeamSet) : (s.setBeamSet n v).fr = s.fr := rfl
@[simp] theorem State.setBeamSet_cap (n : Nat) (v : BeamSet) : (s.setBeamSet n v).cap = s.cap := rfl
@[simp] theorem State.setBeamSet_qz (n : Nat) (v : BeamSet) : (s.setBeamSet n v).qz = s.qz := rfl
@[simp] theorem State.setBeamSet_tile (n : Nat) (v : BeamSet) : (s.setBeamSet n v).tile = s.tile := rfl

@[simp] theorem State.setChain_pending (n : Nat) (v : Chain) : (s.setChain n v).pending = s.pending := rfl
@[simp] theorem State.setChain_ns (n : Nat) (v : Chain) : (s.setChain n v).ns = s.ns := rfl
@[simp] theorem State.setChain_draws (n : Nat) (v : Chain) : (s.setChain n v).draws = s.draws := rfl
@[simp] theorem State.setChain_wire (n : Nat) (v : Chain) : (s.setChain n v).wire = s.wire := rfl
@[simp] theorem State.setChain_own (n : Nat) (v : Chain) : (s.setChain n v).own = s.own := rfl
@[simp] theorem State.setChain_dev (n : Nat) (v : Chain) : (s.setChain n v).dev = s.dev := rfl
@[simp] theorem State.setChain_er (n : Nat) (v : Chain) : (s.setChain n v).er = s.er := rfl
@[simp] theorem State.setChain_mc (n : Nat) (v : Chain) : (s.setChain n v).mc = s.mc := rfl
@[simp] theorem State.setChain_ring (n : Nat) (v : Chain) : (s.setChain n v).ring = s.ring := rfl
@[simp] theorem State.setChain_mem (n : Nat) (v : Chain) : (s.setChain n v).mem = s.mem := rfl
@[simp] theorem State.setChain_flash (n : Nat) (v : Chain) : (s.setChain n v).flash = s.flash := rfl
@[simp] theorem State.setChain_spare (n : Nat) (v : Chain) : (s.setChain n v).spare = s.spare := rfl
@[simp] theorem State.setChain_jrnl (n : Nat) (v : Chain) : (s.setChain n v).jrnl = s.jrnl := rfl
@[simp] theorem State.setChain_pwr (n : Nat) (v : Chain) : (s.setChain n v).pwr = s.pwr := rfl
@[simp] theorem State.setChain_load (n : Nat) (v : Chain) : (s.setChain n v).load = s.load := rfl
@[simp] theorem State.setChain_port (n : Nat) (v : Chain) : (s.setChain n v).port = s.port := rfl
@[simp] theorem State.setChain_ing (n : Nat) (v : Chain) : (s.setChain n v).ing = s.ing := rfl
@[simp] theorem State.setChain_stg (n : Nat) (v : Chain) : (s.setChain n v).stg = s.stg := rfl
@[simp] theorem State.setChain_bas (n : Nat) (v : Chain) : (s.setChain n v).bas = s.bas := rfl
@[simp] theorem State.setChain_dump (n : Nat) (v : Chain) : (s.setChain n v).dump = s.dump := rfl
@[simp] theorem State.setChain_beam (n : Nat) (v : Chain) : (s.setChain n v).beam = s.beam := rfl
@[simp] theorem State.setChain_split (n : Nat) (v : Chain) : (s.setChain n v).split = s.split := rfl
@[simp] theorem State.setChain_fr (n : Nat) (v : Chain) : (s.setChain n v).fr = s.fr := rfl
@[simp] theorem State.setChain_cap (n : Nat) (v : Chain) : (s.setChain n v).cap = s.cap := rfl
@[simp] theorem State.setChain_qz (n : Nat) (v : Chain) : (s.setChain n v).qz = s.qz := rfl
@[simp] theorem State.setChain_tile (n : Nat) (v : Chain) : (s.setChain n v).tile = s.tile := rfl

@[simp] theorem State.setInteg_pending (c : Nat) (v : Integ) : (s.setInteg c v).pending = s.pending := rfl
@[simp] theorem State.setInteg_ns (c : Nat) (v : Integ) : (s.setInteg c v).ns = s.ns := rfl
@[simp] theorem State.setInteg_draws (c : Nat) (v : Integ) : (s.setInteg c v).draws = s.draws := rfl
@[simp] theorem State.setInteg_wire (c : Nat) (v : Integ) : (s.setInteg c v).wire = s.wire := rfl
@[simp] theorem State.setInteg_own (c : Nat) (v : Integ) : (s.setInteg c v).own = s.own := rfl
@[simp] theorem State.setInteg_dev (c : Nat) (v : Integ) : (s.setInteg c v).dev = s.dev := rfl
@[simp] theorem State.setInteg_er (c : Nat) (v : Integ) : (s.setInteg c v).er = s.er := rfl
@[simp] theorem State.setInteg_mc (c : Nat) (v : Integ) : (s.setInteg c v).mc = s.mc := rfl
@[simp] theorem State.setInteg_ring (c : Nat) (v : Integ) : (s.setInteg c v).ring = s.ring := rfl
@[simp] theorem State.setInteg_mem (c : Nat) (v : Integ) : (s.setInteg c v).mem = s.mem := rfl
@[simp] theorem State.setInteg_flash (c : Nat) (v : Integ) : (s.setInteg c v).flash = s.flash := rfl
@[simp] theorem State.setInteg_spare (c : Nat) (v : Integ) : (s.setInteg c v).spare = s.spare := rfl
@[simp] theorem State.setInteg_jrnl (c : Nat) (v : Integ) : (s.setInteg c v).jrnl = s.jrnl := rfl
@[simp] theorem State.setInteg_pwr (c : Nat) (v : Integ) : (s.setInteg c v).pwr = s.pwr := rfl
@[simp] theorem State.setInteg_load (c : Nat) (v : Integ) : (s.setInteg c v).load = s.load := rfl
@[simp] theorem State.setInteg_port (c : Nat) (v : Integ) : (s.setInteg c v).port = s.port := rfl
@[simp] theorem State.setInteg_ing (c : Nat) (v : Integ) : (s.setInteg c v).ing = s.ing := rfl
@[simp] theorem State.setInteg_stg (c : Nat) (v : Integ) : (s.setInteg c v).stg = s.stg := rfl
@[simp] theorem State.setInteg_dump (c : Nat) (v : Integ) : (s.setInteg c v).dump = s.dump := rfl
@[simp] theorem State.setInteg_beam (c : Nat) (v : Integ) : (s.setInteg c v).beam = s.beam := rfl
@[simp] theorem State.setInteg_filt (c : Nat) (v : Integ) : (s.setInteg c v).filt = s.filt := rfl
@[simp] theorem State.setInteg_split (c : Nat) (v : Integ) : (s.setInteg c v).split = s.split := rfl
@[simp] theorem State.setInteg_fr (c : Nat) (v : Integ) : (s.setInteg c v).fr = s.fr := rfl
@[simp] theorem State.setInteg_cap (c : Nat) (v : Integ) : (s.setInteg c v).cap = s.cap := rfl
@[simp] theorem State.setInteg_qz (c : Nat) (v : Integ) : (s.setInteg c v).qz = s.qz := rfl
@[simp] theorem State.setInteg_tile (c : Nat) (v : Integ) : (s.setInteg c v).tile = s.tile := rfl

@[simp] theorem State.mapJob_pending (c n : Nat) (f : DumpJob → DumpJob) : (s.mapJob c n f).pending = s.pending := rfl
@[simp] theorem State.mapJob_ns (c n : Nat) (f : DumpJob → DumpJob) : (s.mapJob c n f).ns = s.ns := rfl
@[simp] theorem State.mapJob_draws (c n : Nat) (f : DumpJob → DumpJob) : (s.mapJob c n f).draws = s.draws := rfl
@[simp] theorem State.mapJob_wire (c n : Nat) (f : DumpJob → DumpJob) : (s.mapJob c n f).wire = s.wire := rfl
@[simp] theorem State.mapJob_own (c n : Nat) (f : DumpJob → DumpJob) : (s.mapJob c n f).own = s.own := rfl
@[simp] theorem State.mapJob_dev (c n : Nat) (f : DumpJob → DumpJob) : (s.mapJob c n f).dev = s.dev := rfl
@[simp] theorem State.mapJob_er (c n : Nat) (f : DumpJob → DumpJob) : (s.mapJob c n f).er = s.er := rfl
@[simp] theorem State.mapJob_mc (c n : Nat) (f : DumpJob → DumpJob) : (s.mapJob c n f).mc = s.mc := rfl
@[simp] theorem State.mapJob_ring (c n : Nat) (f : DumpJob → DumpJob) : (s.mapJob c n f).ring = s.ring := rfl
@[simp] theorem State.mapJob_mem (c n : Nat) (f : DumpJob → DumpJob) : (s.mapJob c n f).mem = s.mem := rfl
@[simp] theorem State.mapJob_flash (c n : Nat) (f : DumpJob → DumpJob) : (s.mapJob c n f).flash = s.flash := rfl
@[simp] theorem State.mapJob_spare (c n : Nat) (f : DumpJob → DumpJob) : (s.mapJob c n f).spare = s.spare := rfl
@[simp] theorem State.mapJob_jrnl (c n : Nat) (f : DumpJob → DumpJob) : (s.mapJob c n f).jrnl = s.jrnl := rfl
@[simp] theorem State.mapJob_pwr (c n : Nat) (f : DumpJob → DumpJob) : (s.mapJob c n f).pwr = s.pwr := rfl
@[simp] theorem State.mapJob_load (c n : Nat) (f : DumpJob → DumpJob) : (s.mapJob c n f).load = s.load := rfl
@[simp] theorem State.mapJob_port (c n : Nat) (f : DumpJob → DumpJob) : (s.mapJob c n f).port = s.port := rfl
@[simp] theorem State.mapJob_ing (c n : Nat) (f : DumpJob → DumpJob) : (s.mapJob c n f).ing = s.ing := rfl
@[simp] theorem State.mapJob_stg (c n : Nat) (f : DumpJob → DumpJob) : (s.mapJob c n f).stg = s.stg := rfl
@[simp] theorem State.mapJob_bas (c n : Nat) (f : DumpJob → DumpJob) : (s.mapJob c n f).bas = s.bas := rfl
@[simp] theorem State.mapJob_beam (c n : Nat) (f : DumpJob → DumpJob) : (s.mapJob c n f).beam = s.beam := rfl
@[simp] theorem State.mapJob_filt (c n : Nat) (f : DumpJob → DumpJob) : (s.mapJob c n f).filt = s.filt := rfl
@[simp] theorem State.mapJob_split (c n : Nat) (f : DumpJob → DumpJob) : (s.mapJob c n f).split = s.split := rfl
@[simp] theorem State.mapJob_fr (c n : Nat) (f : DumpJob → DumpJob) : (s.mapJob c n f).fr = s.fr := rfl
@[simp] theorem State.mapJob_cap (c n : Nat) (f : DumpJob → DumpJob) : (s.mapJob c n f).cap = s.cap := rfl
@[simp] theorem State.mapJob_qz (c n : Nat) (f : DumpJob → DumpJob) : (s.mapJob c n f).qz = s.qz := rfl
@[simp] theorem State.mapJob_tile (c n : Nat) (f : DumpJob → DumpJob) : (s.mapJob c n f).tile = s.tile := rfl

@[simp] theorem State.setTileInfo_pending (t : Nat) (v : TileInfo) : (s.setTileInfo t v).pending = s.pending := rfl
@[simp] theorem State.setTileInfo_ns (t : Nat) (v : TileInfo) : (s.setTileInfo t v).ns = s.ns := rfl
@[simp] theorem State.setTileInfo_draws (t : Nat) (v : TileInfo) : (s.setTileInfo t v).draws = s.draws := rfl
@[simp] theorem State.setTileInfo_wire (t : Nat) (v : TileInfo) : (s.setTileInfo t v).wire = s.wire := rfl
@[simp] theorem State.setTileInfo_own (t : Nat) (v : TileInfo) : (s.setTileInfo t v).own = s.own := rfl
@[simp] theorem State.setTileInfo_dev (t : Nat) (v : TileInfo) : (s.setTileInfo t v).dev = s.dev := rfl
@[simp] theorem State.setTileInfo_er (t : Nat) (v : TileInfo) : (s.setTileInfo t v).er = s.er := rfl
@[simp] theorem State.setTileInfo_mc (t : Nat) (v : TileInfo) : (s.setTileInfo t v).mc = s.mc := rfl
@[simp] theorem State.setTileInfo_ring (t : Nat) (v : TileInfo) : (s.setTileInfo t v).ring = s.ring := rfl
@[simp] theorem State.setTileInfo_mem (t : Nat) (v : TileInfo) : (s.setTileInfo t v).mem = s.mem := rfl
@[simp] theorem State.setTileInfo_flash (t : Nat) (v : TileInfo) : (s.setTileInfo t v).flash = s.flash := rfl
@[simp] theorem State.setTileInfo_jrnl (t : Nat) (v : TileInfo) : (s.setTileInfo t v).jrnl = s.jrnl := rfl
@[simp] theorem State.setTileInfo_pwr (t : Nat) (v : TileInfo) : (s.setTileInfo t v).pwr = s.pwr := rfl
@[simp] theorem State.setTileInfo_load (t : Nat) (v : TileInfo) : (s.setTileInfo t v).load = s.load := rfl
@[simp] theorem State.setTileInfo_port (t : Nat) (v : TileInfo) : (s.setTileInfo t v).port = s.port := rfl
@[simp] theorem State.setTileInfo_ing (t : Nat) (v : TileInfo) : (s.setTileInfo t v).ing = s.ing := rfl
@[simp] theorem State.setTileInfo_stg (t : Nat) (v : TileInfo) : (s.setTileInfo t v).stg = s.stg := rfl
@[simp] theorem State.setTileInfo_bas (t : Nat) (v : TileInfo) : (s.setTileInfo t v).bas = s.bas := rfl
@[simp] theorem State.setTileInfo_dump (t : Nat) (v : TileInfo) : (s.setTileInfo t v).dump = s.dump := rfl
@[simp] theorem State.setTileInfo_beam (t : Nat) (v : TileInfo) : (s.setTileInfo t v).beam = s.beam := rfl
@[simp] theorem State.setTileInfo_filt (t : Nat) (v : TileInfo) : (s.setTileInfo t v).filt = s.filt := rfl
@[simp] theorem State.setTileInfo_split (t : Nat) (v : TileInfo) : (s.setTileInfo t v).split = s.split := rfl
@[simp] theorem State.setTileInfo_fr (t : Nat) (v : TileInfo) : (s.setTileInfo t v).fr = s.fr := rfl
@[simp] theorem State.setTileInfo_cap (t : Nat) (v : TileInfo) : (s.setTileInfo t v).cap = s.cap := rfl
@[simp] theorem State.setTileInfo_qz (t : Nat) (v : TileInfo) : (s.setTileInfo t v).qz = s.qz := rfl
@[simp] theorem State.setTileInfo_tile (t : Nat) (v : TileInfo) : (s.setTileInfo t v).tile = s.tile := rfl

@[simp] theorem State.setSlot_pending (i : Nat) (v : Slot) : (s.setSlot i v).pending = s.pending := rfl
@[simp] theorem State.setSlot_ns (i : Nat) (v : Slot) : (s.setSlot i v).ns = s.ns := rfl
@[simp] theorem State.setSlot_draws (i : Nat) (v : Slot) : (s.setSlot i v).draws = s.draws := rfl
@[simp] theorem State.setSlot_wire (i : Nat) (v : Slot) : (s.setSlot i v).wire = s.wire := rfl
@[simp] theorem State.setSlot_own (i : Nat) (v : Slot) : (s.setSlot i v).own = s.own := rfl
@[simp] theorem State.setSlot_dev (i : Nat) (v : Slot) : (s.setSlot i v).dev = s.dev := rfl
@[simp] theorem State.setSlot_er (i : Nat) (v : Slot) : (s.setSlot i v).er = s.er := rfl
@[simp] theorem State.setSlot_mc (i : Nat) (v : Slot) : (s.setSlot i v).mc = s.mc := rfl
@[simp] theorem State.setSlot_ring (i : Nat) (v : Slot) : (s.setSlot i v).ring = s.ring := rfl
@[simp] theorem State.setSlot_mem (i : Nat) (v : Slot) : (s.setSlot i v).mem = s.mem := rfl
@[simp] theorem State.setSlot_flash (i : Nat) (v : Slot) : (s.setSlot i v).flash = s.flash := rfl
@[simp] theorem State.setSlot_spare (i : Nat) (v : Slot) : (s.setSlot i v).spare = s.spare := rfl
@[simp] theorem State.setSlot_jrnl (i : Nat) (v : Slot) : (s.setSlot i v).jrnl = s.jrnl := rfl
@[simp] theorem State.setSlot_pwr (i : Nat) (v : Slot) : (s.setSlot i v).pwr = s.pwr := rfl
@[simp] theorem State.setSlot_load (i : Nat) (v : Slot) : (s.setSlot i v).load = s.load := rfl
@[simp] theorem State.setSlot_port (i : Nat) (v : Slot) : (s.setSlot i v).port = s.port := rfl
@[simp] theorem State.setSlot_ing (i : Nat) (v : Slot) : (s.setSlot i v).ing = s.ing := rfl
@[simp] theorem State.setSlot_stg (i : Nat) (v : Slot) : (s.setSlot i v).stg = s.stg := rfl
@[simp] theorem State.setSlot_bas (i : Nat) (v : Slot) : (s.setSlot i v).bas = s.bas := rfl
@[simp] theorem State.setSlot_dump (i : Nat) (v : Slot) : (s.setSlot i v).dump = s.dump := rfl
@[simp] theorem State.setSlot_beam (i : Nat) (v : Slot) : (s.setSlot i v).beam = s.beam := rfl
@[simp] theorem State.setSlot_filt (i : Nat) (v : Slot) : (s.setSlot i v).filt = s.filt := rfl
@[simp] theorem State.setSlot_split (i : Nat) (v : Slot) : (s.setSlot i v).split = s.split := rfl
@[simp] theorem State.setSlot_fr (i : Nat) (v : Slot) : (s.setSlot i v).fr = s.fr := rfl
@[simp] theorem State.setSlot_cap (i : Nat) (v : Slot) : (s.setSlot i v).cap = s.cap := rfl
@[simp] theorem State.setSlot_qz (i : Nat) (v : Slot) : (s.setSlot i v).qz = s.qz := rfl

@[simp] theorem State.setDet_pending (n : Nat) (v : Detector) : (s.setDet n v).pending = s.pending := rfl
@[simp] theorem State.setDet_ns (n : Nat) (v : Detector) : (s.setDet n v).ns = s.ns := rfl
@[simp] theorem State.setDet_draws (n : Nat) (v : Detector) : (s.setDet n v).draws = s.draws := rfl
@[simp] theorem State.setDet_wire (n : Nat) (v : Detector) : (s.setDet n v).wire = s.wire := rfl
@[simp] theorem State.setDet_own (n : Nat) (v : Detector) : (s.setDet n v).own = s.own := rfl
@[simp] theorem State.setDet_dev (n : Nat) (v : Detector) : (s.setDet n v).dev = s.dev := rfl
@[simp] theorem State.setDet_er (n : Nat) (v : Detector) : (s.setDet n v).er = s.er := rfl
@[simp] theorem State.setDet_mc (n : Nat) (v : Detector) : (s.setDet n v).mc = s.mc := rfl
@[simp] theorem State.setDet_ring (n : Nat) (v : Detector) : (s.setDet n v).ring = s.ring := rfl
@[simp] theorem State.setDet_mem (n : Nat) (v : Detector) : (s.setDet n v).mem = s.mem := rfl
@[simp] theorem State.setDet_flash (n : Nat) (v : Detector) : (s.setDet n v).flash = s.flash := rfl
@[simp] theorem State.setDet_spare (n : Nat) (v : Detector) : (s.setDet n v).spare = s.spare := rfl
@[simp] theorem State.setDet_jrnl (n : Nat) (v : Detector) : (s.setDet n v).jrnl = s.jrnl := rfl
@[simp] theorem State.setDet_pwr (n : Nat) (v : Detector) : (s.setDet n v).pwr = s.pwr := rfl
@[simp] theorem State.setDet_load (n : Nat) (v : Detector) : (s.setDet n v).load = s.load := rfl
@[simp] theorem State.setDet_port (n : Nat) (v : Detector) : (s.setDet n v).port = s.port := rfl
@[simp] theorem State.setDet_ing (n : Nat) (v : Detector) : (s.setDet n v).ing = s.ing := rfl
@[simp] theorem State.setDet_stg (n : Nat) (v : Detector) : (s.setDet n v).stg = s.stg := rfl
@[simp] theorem State.setDet_bas (n : Nat) (v : Detector) : (s.setDet n v).bas = s.bas := rfl
@[simp] theorem State.setDet_dump (n : Nat) (v : Detector) : (s.setDet n v).dump = s.dump := rfl
@[simp] theorem State.setDet_beam (n : Nat) (v : Detector) : (s.setDet n v).beam = s.beam := rfl
@[simp] theorem State.setDet_filt (n : Nat) (v : Detector) : (s.setDet n v).filt = s.filt := rfl
@[simp] theorem State.setDet_split (n : Nat) (v : Detector) : (s.setDet n v).split = s.split := rfl
@[simp] theorem State.setDet_fr (n : Nat) (v : Detector) : (s.setDet n v).fr = s.fr := rfl
@[simp] theorem State.setDet_qz (n : Nat) (v : Detector) : (s.setDet n v).qz = s.qz := rfl
@[simp] theorem State.setDet_tile (n : Nat) (v : Detector) : (s.setDet n v).tile = s.tile := rfl

@[simp] theorem State.mapSegment_pending (n : Nat) (f : Segment → Segment) : (s.mapSegment n f).pending = s.pending := rfl
@[simp] theorem State.mapSegment_ns (n : Nat) (f : Segment → Segment) : (s.mapSegment n f).ns = s.ns := rfl
@[simp] theorem State.mapSegment_draws (n : Nat) (f : Segment → Segment) : (s.mapSegment n f).draws = s.draws := rfl
@[simp] theorem State.mapSegment_wire (n : Nat) (f : Segment → Segment) : (s.mapSegment n f).wire = s.wire := rfl
@[simp] theorem State.mapSegment_own (n : Nat) (f : Segment → Segment) : (s.mapSegment n f).own = s.own := rfl
@[simp] theorem State.mapSegment_dev (n : Nat) (f : Segment → Segment) : (s.mapSegment n f).dev = s.dev := rfl
@[simp] theorem State.mapSegment_er (n : Nat) (f : Segment → Segment) : (s.mapSegment n f).er = s.er := rfl
@[simp] theorem State.mapSegment_mc (n : Nat) (f : Segment → Segment) : (s.mapSegment n f).mc = s.mc := rfl
@[simp] theorem State.mapSegment_ring (n : Nat) (f : Segment → Segment) : (s.mapSegment n f).ring = s.ring := rfl
@[simp] theorem State.mapSegment_mem (n : Nat) (f : Segment → Segment) : (s.mapSegment n f).mem = s.mem := rfl
@[simp] theorem State.mapSegment_flash (n : Nat) (f : Segment → Segment) : (s.mapSegment n f).flash = s.flash := rfl
@[simp] theorem State.mapSegment_spare (n : Nat) (f : Segment → Segment) : (s.mapSegment n f).spare = s.spare := rfl
@[simp] theorem State.mapSegment_jrnl (n : Nat) (f : Segment → Segment) : (s.mapSegment n f).jrnl = s.jrnl := rfl
@[simp] theorem State.mapSegment_pwr (n : Nat) (f : Segment → Segment) : (s.mapSegment n f).pwr = s.pwr := rfl
@[simp] theorem State.mapSegment_load (n : Nat) (f : Segment → Segment) : (s.mapSegment n f).load = s.load := rfl
@[simp] theorem State.mapSegment_port (n : Nat) (f : Segment → Segment) : (s.mapSegment n f).port = s.port := rfl
@[simp] theorem State.mapSegment_ing (n : Nat) (f : Segment → Segment) : (s.mapSegment n f).ing = s.ing := rfl
@[simp] theorem State.mapSegment_stg (n : Nat) (f : Segment → Segment) : (s.mapSegment n f).stg = s.stg := rfl
@[simp] theorem State.mapSegment_bas (n : Nat) (f : Segment → Segment) : (s.mapSegment n f).bas = s.bas := rfl
@[simp] theorem State.mapSegment_dump (n : Nat) (f : Segment → Segment) : (s.mapSegment n f).dump = s.dump := rfl
@[simp] theorem State.mapSegment_beam (n : Nat) (f : Segment → Segment) : (s.mapSegment n f).beam = s.beam := rfl
@[simp] theorem State.mapSegment_filt (n : Nat) (f : Segment → Segment) : (s.mapSegment n f).filt = s.filt := rfl
@[simp] theorem State.mapSegment_split (n : Nat) (f : Segment → Segment) : (s.mapSegment n f).split = s.split := rfl
@[simp] theorem State.mapSegment_fr (n : Nat) (f : Segment → Segment) : (s.mapSegment n f).fr = s.fr := rfl
@[simp] theorem State.mapSegment_qz (n : Nat) (f : Segment → Segment) : (s.mapSegment n f).qz = s.qz := rfl
@[simp] theorem State.mapSegment_tile (n : Nat) (f : Segment → Segment) : (s.mapSegment n f).tile = s.tile := rfl

end

end Sys2Proof.Machine
end

