-- ==== Sys2Proof/Laws/Memory.lean ====
section
/-! SUPPORT. Sparse tables and memory: reads after writes, and that every operation keeps the canonical form. -/

namespace Sys2Proof.Machine

variable {α : Type} [DecidableEq α]

/-- Every key of a table is at least `k`. -/
def KeysFrom (k : Nat) (m : KV α) : Prop := ∀ e ∈ m, k ≤ e.1

theorem kvWf_cons (d : α) (a : Nat) (v : α) (t : KV α) :
    kvWf d ((a, v) :: t) = true ↔ v ≠ d ∧ KeysFrom (a + 1) t ∧ kvWf d t = true := by
  induction t generalizing a v with
  | nil => simp [kvWf, KeysFrom]
  | cons e t ih =>
    obtain ⟨b, w⟩ := e
    have h : kvWf d ((a, v) :: (b, w) :: t) = (decide (v ≠ d) && decide (a < b) && kvWf d ((b, w) :: t)) := rfl
    rw [h, Bool.and_eq_true, Bool.and_eq_true, decide_eq_true_iff, decide_eq_true_iff]
    constructor
    · rintro ⟨⟨hv, hab⟩, hw⟩
      refine ⟨hv, ?_, hw⟩
      obtain ⟨-, hk, -⟩ := (ih b w).mp hw
      intro x hx
      rcases List.mem_cons.mp hx with rfl | hx
      · exact hab
      · have := hk x hx; omega
    · rintro ⟨hv, hk, hw⟩
      exact ⟨⟨hv, hk (b, w) (List.mem_cons_self ..)⟩, hw⟩

omit [DecidableEq α] in
theorem kvGet_of_keysFrom (d : α) (m : KV α) {k j : Nat} (h : KeysFrom k m) (hj : j < k) : kvGet d m j = d := by
  cases m with
  | nil => rfl
  | cons e t =>
    have hk : k ≤ e.1 := h e (List.mem_cons_self ..)
    have h1 : e.1 ≠ j := by omega
    have h2 : j < e.1 := by omega
    simp [kvGet, h1, h2]

theorem kvSet_keysFrom (d : α) (m : KV α) (k j : Nat) (v : α) (h : KeysFrom j m) (hk : j ≤ k) : KeysFrom j (kvSet d m k v) := by
  induction m with
  | nil =>
    unfold kvSet
    split
    · exact h
    · intro e he
      rw [List.mem_singleton.mp he]; exact hk
  | cons e t ih =>
    have ht : KeysFrom j t := fun x hx => h x (List.mem_cons_of_mem _ hx)
    have he := h e (List.mem_cons_self ..)
    unfold kvSet
    split
    · split
      · exact h
      · intro x hx
        rcases List.mem_cons.mp hx with rfl | hx
        · exact hk
        · exact h x hx
    · split
      · split
        · exact ht
        · intro x hx
          rcases List.mem_cons.mp hx with rfl | hx
          · exact hk
          · exact ht x hx
      · intro x hx
        rcases List.mem_cons.mp hx with rfl | hx
        · exact he
        · exact ih ht x hx

/-- A write keeps the canonical form. -/
theorem kvSet_wf (d : α) (m : KV α) (k : Nat) (v : α) (h : kvWf d m = true) : kvWf d (kvSet d m k v) = true := by
  induction m with
  | nil =>
    unfold kvSet
    split
    · rfl
    · next hv => exact (kvWf_cons d k v []).mpr ⟨hv, fun _ hx => absurd hx (List.not_mem_nil), rfl⟩
  | cons e t ih =>
    obtain ⟨a, w⟩ := e
    obtain ⟨hw, hk, ht⟩ := (kvWf_cons d a w t).mp h
    unfold kvSet
    split
    · next hka =>
      split
      · exact h
      · next hv =>
        refine (kvWf_cons d k v _).mpr ⟨hv, ?_, h⟩
        intro x hx
        rcases List.mem_cons.mp hx with rfl | hx
        · show k + 1 ≤ a; omega
        · have := hk x hx; omega
    · next hka =>
      split
      · next hke =>
        split
        · exact ht
        · next hv =>
          have hke' : k = a := hke
          exact (kvWf_cons d k v t).mpr ⟨hv, hke' ▸ hk, ht⟩
      · next hke =>
        refine (kvWf_cons d a w _).mpr ⟨hw, ?_, ih ht⟩
        exact kvSet_keysFrom d t k (a + 1) v hk (by omega)

/-- A read after a write to the same key gives the value written. -/
theorem kvGet_kvSet_self (d : α) (m : KV α) (k : Nat) (v : α) (h : kvWf d m = true) : kvGet d (kvSet d m k v) k = v := by
  induction m with
  | nil =>
    unfold kvSet
    split
    · next hv => rw [hv]; rfl
    · simp [kvGet]
  | cons e t ih =>
    obtain ⟨a, w⟩ := e
    obtain ⟨-, hk, ht⟩ := (kvWf_cons d a w t).mp h
    unfold kvSet
    split
    · next hka =>
      have hka' : k < a := hka
      split
      · next hv =>
        have : a ≠ k := by omega
        simp [kvGet, this, hka', hv]
      · simp [kvGet]
    · next hka =>
      split
      · next hke =>
        split
        · next hv => rw [hv]; exact kvGet_of_keysFrom d t hk (by omega)
        · simp [kvGet]
      · next hke =>
        have h1 : a ≠ k := fun x => hke x.symm
        have h2 : ¬ k < a := hka
        simp [kvGet, h1, h2, ih ht]

/-- A write leaves every other key alone. -/
theorem kvGet_kvSet_other (d : α) (m : KV α) (k j : Nat) (v : α) (h : kvWf d m = true) (hjk : j ≠ k) :
    kvGet d (kvSet d m k v) j = kvGet d m j := by
  induction m with
  | nil =>
    unfold kvSet
    split
    · rfl
    · have : k ≠ j := fun x => hjk x.symm
      simp [kvGet, this]
  | cons e t ih =>
    obtain ⟨a, w⟩ := e
    obtain ⟨-, hk, ht⟩ := (kvWf_cons d a w t).mp h
    unfold kvSet
    split
    · next hka =>
      have hka' : k < a := hka
      split
      · rfl
      · have hkj : k ≠ j := fun x => hjk x.symm
        by_cases hlt : j < k
        · have h1 : a ≠ j := by omega
          have h2 : j < a := by omega
          simp [kvGet, hkj, hlt, h1, h2]
        · simp [kvGet, hkj, hlt]
    · next hka =>
      split
      · next hke =>
        have hke' : k = a := hke
        have hja : a ≠ j := fun x => hjk (hke'.trans x).symm
        split
        · by_cases hlt : j < a
          · simp only [kvGet, hja, hlt, if_true, if_false]
            exact kvGet_of_keysFrom d t hk (by omega)
          · simp [kvGet, hja, hlt]
        · have hkj : k ≠ j := fun x => hjk x.symm
          by_cases hlt : j < a
          · have : j < k := by omega
            simp [kvGet, hja, hkj, hlt, this]
          · have : ¬ j < k := by omega
            simp [kvGet, hja, hkj, hlt, this]
      · simp only [kvGet, ih ht]

/-- What is kept of a table in canonical form is in canonical form. -/
theorem kvWf_filter (d : α) (m : KV α) (p : Nat × α → Bool) (h : kvWf d m = true) : kvWf d (m.filter p) = true := by
  induction m with
  | nil => rfl
  | cons e t ih =>
    obtain ⟨a, w⟩ := e
    obtain ⟨hw, hk, ht⟩ := (kvWf_cons d a w t).mp h
    rw [List.filter_cons]
    split
    · exact (kvWf_cons d a w _).mpr ⟨hw, fun x hx => hk x (List.mem_filter.mp hx).1, ih ht⟩
    · exact ih ht

/-! ## Memory -/

theorem memWrite_wf (d : Byte) (m : Mem) (addr : Nat) (bs : List Byte) (h : Memory.wf d m = true) :
    Memory.wf d (memWrite d m addr bs) = true := by
  induction bs generalizing m addr with
  | nil => exact h
  | cons b bs ih => exact ih _ _ (kvSet_wf d m addr b h)

theorem memErase_wf (d : Byte) (m : Mem) (addr len : Nat) (h : Memory.wf d m = true) :
    Memory.wf d (memErase m addr len) = true := kvWf_filter d m _ h

theorem memory_reset : Memory.wf 0 State.reset.mem.hbm = true ∧ Memory.wf 0 State.reset.mem.sram = true ∧
    Memory.wf 0xFF State.reset.flash = true := ⟨rfl, rfl, rfl⟩

/-- A byte outside the run that was written reads as before. -/
theorem memWrite_other (d : Byte) (m : Mem) (addr a : Nat) (bs : List Byte) (h : Memory.wf d m = true)
    (ha : a < addr ∨ addr + bs.length ≤ a) : kvGet d (memWrite d m addr bs) a = kvGet d m a := by
  induction bs generalizing m addr with
  | nil => rfl
  | cons b bs ih =>
    have hl : (b :: bs).length = bs.length + 1 := rfl
    show kvGet d (memWrite d (kvSet d m addr b) (addr + 1) bs) a = _
    rw [ih _ _ (kvSet_wf d m addr b h) (by omega)]
    exact kvGet_kvSet_other d m addr a b h (by omega)

/-! ## Bytes -/

@[simp] theorem beBytes_length (size n : Nat) : (beBytes size n).length = size := by
  induction size with
  | zero => rfl
  | succ k ih => simp [beBytes, ih]

@[simp] theorem leBytes_length (size n : Nat) : (leBytes size n).length = size := by
  induction size generalizing n with
  | zero => rfl
  | succ k ih => simp [leBytes, ih]

@[simp] theorem zeros_length (n : Nat) : (zeros n).length = n := by simp [zeros]

@[simp] theorem beInstant_length (t : Instant) : (beInstant t).length = 12 := by simp [beInstant]

end Sys2Proof.Machine
end

