-- ==== Sys2Proof/Laws/Power.lean ====
section
/-! SUPPORT. What settling the power domains does (R513 to R517). -/

namespace Sys2Proof.Machine

/-- A domain after settling is the domain as its rule and mode have it follow. -/
theorem domain_settleDomains (s : State) (h : s.managed = true) {d : Nat} (hd : d < 96) :
    s.settleDomains.domain d = s.followed d := by
  simp [State.settleDomains, h, State.domain, hd]

/-- Settling keeps every mode. -/
theorem mode_followed (s : State) (d : Nat) : (s.followed d).mode = (s.domain d).mode := by
  unfold State.followed
  dsimp only
  split
  · split <;> rfl
  · split <;> rfl

/-- What the AUTO rules say depends on no domain's state. -/
theorem autoWants_domains (s : State) (v : Vector Domain 96) (d : Nat) :
    ({ s with pwr := { s.pwr with domains := v } } : State).autoWants d = s.autoWants d := by
  unfold State.autoWants
  rfl

theorem autoWants_settleDomains (s : State) (d : Nat) : s.settleDomains.autoWants d = s.autoWants d := by
  unfold State.settleDomains
  split
  · exact autoWants_domains s _ d
  · rfl

@[simp] theorem managed_settled (s t : State) : (s.settled t).managed = t.managed := by
  unfold State.settled State.settleDomains
  split <;> rfl

end Sys2Proof.Machine
end

