-- ==== Sys2Proof/Laws/Protocol.lean ====
section
/-! SUPPORT. What the one path of command packets does: the lemmas that claims about single commands cite. -/

namespace Sys2Proof.Machine

/-- An update of the ownership state leaves a time tag's index alone. -/
@[simp] theorem applyTag_mapOwn (s : State) (f : OwnState → OwnState) (c : Cmd) (row : OpRow) :
    (s.mapOwn f).applyTag c row = s.applyTag c row := rfl

/-- A well-formed command is stamped and taken into the command order, and the domains follow. -/
theorem submit_wf (s : State) (spec : OpSpec) (c : Cmd) (h : c.wf = true) :
    ∃ t, s.submit spec c = .next (s.settled t) := by
  unfold State.submit
  rw [if_pos h]
  exact ⟨_, rfl⟩

/-- A command that nothing can present faults. -/
theorem submit_illFormed (s : State) (spec : OpSpec) (c : Cmd) (h : c.wf = false) :
    s.submit spec c = .fault .illFormed := by
  unfold State.submit
  rw [h]
  rfl

/-- An event that can be presented leads to a next state. -/
theorem guarded_next (i : Instr) (s t : State) (h : i.wf = true) : guarded i s t = .next (s.settled t) := by
  unfold guarded
  rw [if_pos h]

theorem guarded_fault (i : Instr) (s t : State) (h : i.wf = false) : guarded i s t = .fault .illFormed := by
  unfold guarded
  rw [h]
  rfl

/-- What the checks of a command leave: its own state apart, nothing. -/
theorem checked_spec {s : State} {spec : OpSpec} {w : Waiting} {k : Taken} (h : s.checked spec w = some k) :
    k.what = w ∧ k.before = s ∧ ∃ params, k.cmd = { w.cmd with params := params } ∧
      s.judged spec.row w.cmd w.stamp = .ok (k.at_, params) ∧ s.serve spec w = s.perform spec w k.at_ params ∧
      s.cryptoWait spec.row w = false := by
  unfold State.checked at h
  split at h
  · next u params hj =>
    split at h
    · cases h
    · next hc =>
      have hk := Option.some.inj h
      subst hk
      refine ⟨rfl, rfl, params, rfl, hj, ?_, by simpa using hc⟩
      unfold State.serve
      rw [hj]
  · cases h

/-- What `takes` says of a command, taken apart. -/
theorem takes_spec {s : State} {spec : OpSpec} {c : Cmd} {k : Taken} (h : s.takes spec c = some k) :
    c.wf = true ∧ (c.v2 || spec.row.v1 ≠ 0) = true ∧ s.free = true ∧ s.own.order = [] ∧
    k.what = ⟨spec.row.code, c, if c.v2 then spec.row.code else spec.row.v1, none, s.ns⟩ ∧
    ∃ params, k.cmd = { c with params := params } ∧
      s.process (some spec) k.what = k.before.perform spec k.what k.at_ params := by
  unfold State.takes at h
  dsimp only at h
  split at h
  · next h0 =>
    simp only [Bool.and_eq_true, decide_eq_true_eq] at h0
    obtain ⟨⟨⟨hwf, hv⟩, hfree⟩, hord⟩ := h0
    split at h
    · next s2 he =>
      obtain ⟨hw, hb, params, hc, -, hs, hx⟩ := checked_spec h
      refine ⟨hwf, hv, hfree, hord, hw, params, hc, ?_⟩
      rw [hw, hb]
      unfold State.process
      dsimp only
      rw [he]
      dsimp only
      rw [hx, hs]
      rfl
    · cases h
  · cases h

/-- A command that is taken runs at once. -/
theorem submit_takes {s : State} {spec : OpSpec} {c : Cmd} {k : Taken} (h : s.takes spec c = some k) :
    ∃ params, k.cmd = { c with params := params } ∧
      s.submit spec c = .next (s.settled (k.before.perform spec k.what k.at_ params)) := by
  obtain ⟨hwf, hv, hfree, hord, hw, params, hc, hp⟩ := takes_spec h
  refine ⟨params, hc, ?_⟩
  unfold State.submit
  have hr : spec.reachable c.v2 = some spec := by
    unfold OpSpec.reachable
    rw [if_pos hv]
  rw [if_pos hwf, hr]
  simp only [Option.isSome_some, if_true, ← hw]
  have hx : s.isExecuting c = false := by
    unfold State.free at hfree
    unfold State.isExecuting
    simp only [Bool.and_eq_true, Option.isNone_iff_eq_none] at hfree
    rw [hfree.2]
  unfold State.arrive
  have hc1 : k.what.cmd = c := by rw [hw]
  have hv1 : k.what.verdict = none := by rw [hw]
  rw [hc1, hx, hv1, hfree, hord]
  simp [hp]

/-- A command that is not journalled, or whose execution is refused, is answered at once with what its execution comes to. -/
theorem submit_executes {s : State} {spec : OpSpec} {c : Cmd} {k : Taken} (h : s.takes spec c = some k)
    (hn : spec.records k.held.cmd k.before = []) (hf : spec.row.code ≠ 0x0E31) :
    s.submit spec c = .next (s.settled (State.answer k.before k.what spec.row (spec.body k.cmd k.at_))) := by
  obtain ⟨params, hc, hs⟩ := submit_takes h
  obtain ⟨-, -, -, -, hw, -⟩ := takes_spec h
  rw [hs]
  have hcmd : k.what.cmd = c := by rw [hw]
  have hrec : spec.records { k.what.cmd with params := params, tag := none } k.before = [] := by
    have : k.held.cmd = { k.what.cmd with params := params, tag := none } := by
      show { k.cmd with tag := none } = _
      rw [hc, hcmd]
    rw [← this]; exact hn
  unfold State.perform
  simp only [hrec]
  have hb : spec.body { k.what.cmd with params := params } k.at_ = spec.body k.cmd k.at_ := by rw [hc, hcmd]
  rw [hb]
  simp [hf]

/-- A journalled command that would succeed hands its records over. -/
theorem submit_journals {s : State} {spec : OpSpec} {c : Cmd} {k : Taken} (h : s.takes spec c = some k)
    (hg : (spec.body k.cmd k.at_).good = true) (hn : spec.records k.held.cmd k.before ≠ [])
    (hs : snapshotSize (spec.body k.cmd k.at_).st.snapshot ≤ 1048576) (hf : k.before.jrnl.full = false) :
    s.submit spec c = .next (s.settled (k.before.awaitGroup k.held (spec.records k.held.cmd k.before))) := by
  obtain ⟨params, hc, hp⟩ := submit_takes h
  obtain ⟨-, -, -, -, hw, -⟩ := takes_spec h
  rw [hp]
  have hcmd : k.what.cmd = c := by rw [hw]
  have hheld : k.held = { k.what with cmd := { k.what.cmd with params := params, tag := none } } := by
    show { k.what with cmd := { k.cmd with tag := none } } = _
    rw [hc, hcmd]
  have hb : spec.body { k.what.cmd with params := params } k.at_ = spec.body k.cmd k.at_ := by rw [hc, hcmd]
  have hlt : ¬ 1048576 < snapshotSize (spec.body k.cmd k.at_).st.snapshot := by omega
  rw [hheld] at hn ⊢
  unfold State.perform
  dsimp only at hn ⊢
  rw [hb, hg]
  simp [hn, hlt, hf]

theorem renewed_eq (s : State) (c : Client) (n : Nat) : s.renewed c n = { s with own := (s.renewed c n).own } := by
  unfold State.renewed
  split <;> rfl

/-- The checks that let a command through touch the ownership state alone. -/
theorem judged_ok {s : State} {row : OpRow} {c : Cmd} {n : Nat} {u : State} {params : List Byte}
    (h : s.judged row c n = .ok (u, params)) : u = { s with own := u.own } := by
  unfold State.judged at h
  dsimp only at h
  split at h
  · cases h
  · split at h
    · cases h
    · split at h
      · cases h
      · split at h
        · cases h
        · split at h
          · cases h
          · cases h
            unfold State.renewed
            split <;> rfl

/-- What the checks leave of the state before: only the ownership state is touched. -/
theorem takes_before {s : State} {spec : OpSpec} {c : Cmd} {k : Taken} (h : s.takes spec c = some k) :
    k.before = { s with own := k.before.own } ∧ k.at_ = { s with own := k.at_.own } := by
  unfold State.takes at h
  dsimp only at h
  split at h
  · split at h
    · next s2 he =>
      have h2 : s2 = { s with own := s2.own } := by
        unfold State.entered at he
        split at he
        · cases he
        · split at he
          · cases he
          · have hp : _ = s2 := congrArg Prod.fst (Option.some.inj he)
            rw [← hp]
            rfl
      obtain ⟨-, hb, params, -, hj, -, -⟩ := checked_spec h
      have hu := judged_ok hj
      rw [hb]
      constructor
      · rw [h2]
        rfl
      · rw [hu, h2]
        rfl
    · cases h
  · cases h

@[simp] theorem settled_pending (s t : State) : (s.settled t).pending = s.pending := rfl

@[simp] theorem noteRecorded_own (s : State) : s.noteRecorded.own = s.own := rfl
@[simp] theorem noteRecorded_mc (s : State) : s.noteRecorded.mc = s.mc := rfl

theorem maybeCompact_mc (s : State) : s.maybeCompact.mc = s.mc := by
  unfold State.maybeCompact
  dsimp only
  split <;> rfl

theorem appendRecords_mc (s : State) (rs : List JRecord) (failing : List Nat) : (s.appendRecords rs failing).1.mc = s.mc := by
  unfold State.appendRecords
  dsimp only
  split
  · rfl
  · rw [maybeCompact_mc]
    rfl

/-- A commit leaves the management cores alone. -/
theorem commitOldest_mc (s : State) (failing : List Nat) : (s.commitOldest failing).1.mc = s.mc := by
  unfold State.commitOldest
  split
  · rfl
  · dsimp only
    split <;> split <;> first | rfl | exact appendRecords_mc _ _ _

/-- A group of a command goes into flash, and the command takes effect. -/
theorem commit_applies {s : State} {w : Waiting} {g : JGroup} {rest : List JGroup} {failing : List Nat} {x : Nat}
    {d : List Byte} {spec : OpSpec} (hm : s.mayCommit = true) (hgap : s.mc.inGap = false) (hg : s.jrnl.groups = g :: rest) (hf : g.forCommand = true)
    (hs : specOf w.code = some spec) (hok : (s.commitOldest failing).2 = true)
    (hx : (s.commitOldest failing).1.own.executing = some ⟨w, .journal, x, d⟩) :
    exec (.journalCommitDone failing) s = .next (s.settled
      (State.answer (s.committed w failing) w spec.row (spec.body w.cmd (s.committed w failing))).resume) := by
  show guarded (.journalCommitDone failing) s (evJournalCommitDone failing s) = _
  rw [guarded_next _ _ _ rfl]
  have hsc : (s.commitOldest failing).1.noteRecorded.settleCommand true =
      State.answer (s.committed w failing) w spec.row (spec.body w.cmd (s.committed w failing)) := by
    have hn : (s.commitOldest failing).1.mc.inGap = false := by rw [commitOldest_mc]; exact hgap
    unfold State.settleCommand State.committed
    rw [noteRecorded_mc, hn, noteRecorded_own, hx]
    dsimp only
    rw [hs]
    rfl
  have hev : evJournalCommitDone failing s =
      (State.answer (s.committed w failing) w spec.row (spec.body w.cmd (s.committed w failing))).resume := by
    unfold evJournalCommitDone
    rw [hm, hg]
    dsimp only
    rw [hf, hok, hsc]
    rfl
  rw [hev]

/-- A command without journal records, from what its body does. -/
theorem executes_of {i : Cmd → Instr} {spec : OpSpec} {good : Cmd → State → Bool} {holds : Cmd → State → Res → Prop}
    (he : ∀ c s, exec (i c) s = s.submit spec c) (hr : ∀ c s, spec.records c s = []) (hf : spec.row.code ≠ 0x0E31)
    (h : ∀ c u, good c u = true → holds c u (spec.body c u)) : Executes i spec good holds := by
  intro s c k hk hg
  refine ⟨_, ?_, h _ _ hg⟩
  rw [he, submit_executes hk (hr _ _) hf]

/-- A command that is not good is answered at once, whether its opcode is journalled or not. -/
theorem executes_bad {i : Cmd → Instr} {spec : OpSpec} {bad : Cmd → State → Bool} {holds : Cmd → State → Res → Prop}
    (he : ∀ c s, exec (i c) s = s.submit spec c) (hb : ∀ c u, bad c u = true → (spec.body c u).good = false)
    (h : ∀ c u, bad c u = true → holds c u (spec.body c u)) : Executes i spec bad holds := by
  intro s c k hk hg
  refine ⟨_, ?_, h _ _ hg⟩
  obtain ⟨params, hc, hs⟩ := submit_takes hk
  obtain ⟨-, -, -, -, hw, -⟩ := takes_spec hk
  rw [he, hs]
  have hcmd : k.what.cmd = c := by rw [hw]
  have hbody : spec.body { k.what.cmd with params := params } k.at_ = spec.body k.cmd k.at_ := by rw [hc, hcmd]
  unfold State.perform
  simp only [hbody, hb _ _ hg]
  simp

/-- A journalled command, from its records and what its body does. -/
theorem journalled_of {i : Cmd → Instr} {spec : OpSpec} {good : Cmd → State → Bool} {holds : Cmd → State → Res → Prop}
    (he : ∀ c s, exec (i c) s = s.submit spec c) (hs : specOf spec.row.code = some spec)
    (hr : ∀ c s, spec.records c s ≠ []) (hg : ∀ c u, good c u = true → (spec.body c u).good = true)
    (h : ∀ c u, good c u = true → holds c u (spec.body c u)) : Journalled i spec good holds := by
  constructor
  · intro s c k hk hgood hsize hfull
    have hb : k.before.jrnl.full = false := by rw [(takes_before hk).1]; exact hfull
    rw [he, submit_journals hk (hg _ _ hgood) (hr _ _) hsize hb]
  · intro s w g rest failing x d hm hgap hgr hf hw hok hx hgood
    refine ⟨_, ?_, h _ _ hgood⟩
    exact commit_applies hm hgap hgr hf (by rw [hw]; exact hs) hok hx

end Sys2Proof.Machine
end

