-- ==== Sys2Proof/Tests/Slice0.lean ====
section
/-! SUPPORT. Tests: operands that are refused, the manual's worked examples, and a state and operands that meet the
hypotheses of every claim, clause by clause. -/

open Sys2Proof Sys2Proof.Machine

namespace Sys2Proof.Tests

set_option maxRecDepth 4000

/-! ## Small states -/

/-- the client that owns the device -/
def cli : Client := ⟨1, 4, 47200, beBytes 4 0x0A000001 ++ zeros 12⟩
/-- a device in SERVICE that cli owns, every domain ON, one slot -/
def ready : State :=
  { own := { mode := .owned, owner := some cli, leaseMs := 60000, leaseLeft := 60000000000 },
    mc := { token := some 0, claimed := true, coreA := { mode := .active, role := 2 } },
    pwr := { phase := 4, domains := Vector.replicate 96 { state := .on } },
    tile := { slots := [⟨some 0, false, 0, 0, 0⟩] } }
/-- the smallest layout -/
def tiny : CorrLayout := {}
/-- it is loaded -/
def laid : State := { ready with tile := { ready.tile with layout := some tiny, sched := .loaded } }
/-- its schedule runs -/
def live : State := { laid with tile := { laid.tile with sched := .running } }
/-- quad 0 is one Ethernet ingest port of four lanes at rate 1 -/
def eth : State := { ready with port := { ready.port with quads := [(0, { rate := 1, layout := 2 })] } }
/-- quad 0 is one duplex KLP port -/
def klp : State :=
  { ready with port := { ready.port with quads := [(0, { rate := 4, layout := 2, modes := [8, 0, 0, 0] })] } }
/-- nobody owns the device -/
def unowned : State := { ready with own := {} }
/-- another client owns it -/
def other : State := { ready with own := { ready.own with owner := some { cli with port := 5 } } }
/-- the other core is ready -/
def withStandby : State := { ready with mc := { ready.mc with coreB := { mode := .standby, role := 1 } } }
/-- a command of cli -/
def cmd (p : List Byte) : Cmd := { client := cli, params := p }
/-- the command passes the checks and meets the premise -/
def taken (spec : OpSpec) (good : Cmd → State → Bool) (s : State) (c : Cmd) : Bool :=
  (s.takes spec c).any fun k => good k.cmd k.at_
/-- A command that is taken, whose settings fit a half of the journal, and the same command when its group has committed. -/
def journalled (spec : OpSpec) (good : Cmd → State → Bool) (s : State) (c : Cmd) : Bool :=
  let w : Waiting := ⟨spec.row.code, c, spec.row.code, none, s.ns⟩
  let t : State := { s with own := { s.own with executing := some ⟨w, .journal, 0, []⟩ },
                            jrnl := { s.jrnl with groups := [⟨spec.records c s, true⟩] } }
  (s.takes spec c).any (fun k => good k.cmd k.at_ && decide (snapshotSize (spec.body k.cmd k.at_).st.snapshot ≤ 1048576)) &&
  !s.jrnl.full && t.mayCommit && (t.commitOldest []).2 &&
  decide ((t.commitOldest []).1.own.executing = some ⟨w, .journal, 0, []⟩) && good c (t.committed w [])
/-- ten seconds on -/
def later : State := { ready with ns := 10 ^ 10 }
/-- time as voted is about 4,398 s -/
def dated : State :=
  { ready with qz := { ready.qz with r0 := { ready.qz.r0 with time := 2 ^ 90 }, r1 := { ready.qz.r1 with time := 2 ^ 90 } } }
/-- MGMT-A is up and has addresses -/
def managed : State :=
  { ready with dev := { ready.dev with mgmtA := { ready.dev.mgmtA with link := true, mac := 0x020000000001, ipv4 := 0x0A000009 } } }
/-- the PCIe link is up -/
def linked : State := { ready with pwr := { ready.pwr with pcieGen := 5 } }
/-- lane 0 of it -/
def ethLane (v : Lane) : State := { eth with port := { eth.port with lanes := [(0, v)] } }
/-- port 0 of it -/
def ethPort (v : Port) : State := { eth with port := { eth.port with ports := [(0, v)] } }
/-- lane 0 of it -/
def klpLane (v : Lane) : State := { klp with port := { klp.port with lanes := [(0, v)] } }
/-- port 0 of it -/
def klpPort (v : Port) : State := { klp with port := { klp.port with ports := [(0, v)] } }
/-- a dump that has handed over all its frames -/
def job : DumpJob :=
  { channel := 0, seq := 0, dest := 0, dst := { kind := 1 }, half := 0, integStart := 0, layout := tiny, coding := 0, order := 0,
    weightMode := 0, processed := 1, entries := [], limits := [], visFrames := 0, weightFrames := 0, frames := [] }
/-- a UDP datagram of four bytes to 10.0.0.9, port 47201 -/
def udpTo : Frame :=
  ⟨0x020000000001, 4, [], 0x0800,
    [0x45, 0, 0, 32, 0, 0, 0, 0, 64, 17, 0x66, 0xC4,
     10, 0, 0, 1, 10, 0, 0, 9, 0, 7, 0xB8, 0x61, 0, 12, 0, 0, 1, 2, 3, 4]⟩
/-- a combiner whose port 0 is UP -/
def combiner : State := { ethPort { Port.init with state := 2 } with
  bas := { ready.bas with combine := { ready.bas.combine with role := 2 } },
  ing := { ready.ing with ports := [(0, { InPort.init with mac := 0x020000000001, ipv4 := 0x0A000009 })] } }
/-- a Freran message of a kind, zeros otherwise -/
def frBytes (k : Nat) : List Byte := let h := beBytes 1 (16 + k) ++ zeros 31; h ++ beBytes 4 (crc32c h)

/-! ## Operands that nothing can present are refused -/

/-- R387: an address of 16 bytes, a port in range, and the family and queue number that the endpoint allows. -/
theorem test_client_wf :
    Client.wf { cli with addr := [] } = false ∧ Client.wf { cli with port := 65536 } = false ∧
    Client.wf { cli with family := 5 } = false ∧ Client.wf { cli with addr := List.replicate 16 1 } = false ∧
    Client.wf ⟨0, 0, 4096, zeros 16⟩ = false ∧ Client.wf ⟨0, 4, 0, zeros 16⟩ = false ∧ Client.wf ⟨3, 0, 1, zeros 16⟩ = false ∧
    Client.wf cli = true := by decide

set_option maxRecDepth 20000 in
/-- R383 to R385: lengths, header fields, tags and signatures. -/
theorem test_cmd_wf :
    (cmd (zeros 1281)).wf = false ∧ ({ cmd [] with client := { cli with port := 65536 } } : Cmd).wf = false ∧
    ({ cmd [] with seq := 2 ^ 32 } : Cmd).wf = false ∧ ({ cmd [] with v2 := false, seq := 65536 } : Cmd).wf = false ∧
    ({ cmd [] with v2 := false, tag := some ⟨0, 0, 0⟩ } : Cmd).wf = false ∧
    ({ cmd [] with tag := some ⟨2 ^ 48, 0, 0⟩ } : Cmd).wf = false ∧ ({ cmd [] with sig := some ⟨256, 0, 0⟩ } : Cmd).wf = false ∧
    ({ cmd [] with ignored := { (cmd []).ignored with verNibble := 16 } } : Cmd).wf = false ∧
    ({ cmd [] with via := 2 ^ 48 } : Cmd).wf = false ∧ (cmd (zeros 1280)).wf = true := by decide

/-- R58: a frame's fields and its 9,216 bytes. -/
theorem test_frame_wf :
    Frame.wf ⟨2 ^ 48, 0, [], 0, []⟩ = false ∧ Frame.wf ⟨0, 2 ^ 48, [], 0, []⟩ = false ∧ Frame.wf ⟨0, 0, [65536], 0, []⟩ = false ∧
    Frame.wf ⟨0, 0, [], 65536, []⟩ = false ∧ Frame.wf ⟨0, 0, [], 65535, zeros 46⟩ = true := by decide

/-- Register offsets and values, masters, queue numbers, blocks, instants and reports. -/
theorem test_event_wf :
    (Instr.smbusBlockWrite ⟨128, 0xC0⟩ [] none).wf = false ∧ (Instr.smbusBlockRead ⟨128, 0xC1⟩).wf = false ∧
    (Instr.smbusBlockWrite ⟨0x58, 0xC0⟩ (zeros 256) none).wf = false ∧ (Instr.commandQueueRead 4096 none).wf = false ∧
    (Instr.qzSnapTake (2 ^ 64)).wf = false ∧ (Instr.erSwFire (2 ^ 64)).wf = false ∧ (Instr.erCfire (2 ^ 64)).wf = false ∧
    (Instr.erConfigWrite 65536 0).wf = false ∧ (Instr.mxCtrlRemap 0 3).wf = false ∧ (Instr.rqDb 4096 0).wf = false ∧
    (Instr.rqCfgEnable 0 (2 ^ 64)).wf = false ∧ (Instr.btRecData (2 ^ 64)).wf = false ∧ (Instr.btRecGo (2 ^ 64)).wf = false ∧
    (Instr.hcInjAddr 0 (2 ^ 64)).wf = false ∧ (Instr.csrWrite 0 0 2).wf = false ∧ (Instr.pcieInboundRead ⟨.hbm, 0⟩ 4097).wf = false ∧
    (Instr.pcieInboundRead ⟨.csr, 0xFFFFFFF⟩ 2).wf = false ∧
    (Instr.pcieInboundWrite ⟨.hbm, (2 ^ 37 - 1)⟩ (zeros 2)).wf = false ∧ (Instr.sfmReceive 0 []).wf = false ∧
    (Instr.eyeScanDone 0 [2 ^ 37]).wf = false ∧ (Instr.ppsEdge 16).wf = false ∧
    (Instr.replicaDissent 0 (.delay 4096)).wf = false ∧ (Instr.freranMessageReceive 0 ⟨[], 0⟩).wf = false ∧
    (Instr.freranMessageReceive 0 ⟨(zeros 36), 65536⟩).wf = false ∧ (Instr.freranEchoSend ⟨0, 65536⟩).wf = false ∧
    (Instr.evtEdge 0 ⟨true, 16⟩).wf = false ∧
    (Instr.serviceBringUp { badTiles := [272] }).wf = false ∧ (Instr.bistDone 0 true [512]).wf = false ∧
    (Instr.challengeExpiry { cli with addr := [] }).wf = false ∧ (Instr.coreFault ⟨0, some (1, 1)⟩).wf = false ∧
    (Instr.coreFault ⟨0, some (0, 16)⟩).wf = false ∧ (Instr.coreFault ⟨0, some (0x400000, 1)⟩).wf = false ∧
    (Instr.domainFence 95 [⟨true, 2 ^ 48, 1⟩]).wf = false ∧ (Instr.domainFence 95 [⟨true, 0, 257⟩]).wf = false ∧
    (Instr.powerOnReset ⟨0, 0, some ([], true)⟩).wf = false := by decide

/-- No word spells a command: the table gives no row any bits. -/
theorem test_decode : decodeTableWord 32 0x0C10 = none ∧ ready.withFetchWord 32 0x0C10 = ready := by decide

/-! ## The worked examples of the manual -/

/-- The example array (01, "Worked example"). -/
def array : CorrLayout := { n := 3584, dwell := 16384, channels := 300, rate := 500000 }

/-- 06, "the example array": 1,596 blocks; 7 per slot on 260 and on 228 slots, 8 on 227 (09, beam slots). -/
theorem test_blocks : array.blocks = 1596 ∧ bMax 1596 260 = 7 ∧ bMax 1596 228 = 7 ∧ bMax 1596 227 = 8 := by decide

/-- 08, "Worked example" steps 1 and 2: VIS frames, their bodies, and W. -/
theorem test_dump_volume : visVolume array 1 8192 = (3239, 26500320) ∧
    dumpWire array { period := 62, coding := 1 } { kind := 1, family := 4 } false = 52873828 := by decide

/-- 08, step 7: e = 8, and components 19,531 and -4,823. -/
theorem test_block_float :
    (codeBlockFloat [(5000000, -1234567)]).take 8 = [8, 0, 0, 0] ++ beBytes 2 19531 ++ beBytes 2 (65536 - 4823) := by decide

/-- 07, "one rotated visit". -/
theorem test_rotation : rotateSum 1610627088 1073741312 (12345, -6789) = (62859, -216477) := by decide

/-- 11, step 1: the index of a time tag, and its instant. -/
theorem test_mapping :
    let m : Mapping := ⟨983040000, 1900000000 * 1000000000 * 65536, 500000, 1⟩
    m.index ((1900000002 * 1000000000 + 1) * 65536) = some 984040001 ∧
    m.instant 984040001 = (1900000002 * 1000000000 + 2000) * 65536 := by decide

/-- 11, step 3: the phase of a delay at a visit's midpoint. -/
theorem test_fringe : fringePhase (1350000000 * 65536) 344675090432 500000 1 = 2115371008 := by decide

/-- 10, "smoothing Stokes I for triggers": M_tot, GD2 and the label of the first output. -/
theorem test_chain :
    let c : Chain := { Chain.init with stages := [⟨64, 8, 0⟩, ⟨32, 4, 0⟩], anchor := some 983040000 }
    c.mTot = 32 ∧ c.gd2 = 311 ∧ c.support = 312 ∧ c.centre2 320 256 = 2 * 983082112 := by decide

/-- 15, "Worked example", 40 ms: the error detail record of a claim that meets the HANDOVER of EP0. -/
theorem test_error_detail :
    State.errorDetail { ready with own := { ready.own with mode := .handover, owner := some (queueClient 0), leaseLeft := 1960000000 } }
      0xFFFF = [0xFF, 0xFF, 0, 2] ++ beBytes 4 1960 := by decide

/-! ## Published values of the algorithms that the manual names -/

/-- The check value of CRC-32C. -/
theorem test_crc32c : crc32c [0x31, 0x32, 0x33, 0x34, 0x35, 0x36, 0x37, 0x38, 0x39] = 0xE3069283 := by decide

/-! ## Every statement's hypotheses are met -/

/-- A heartbeat from this very moment leaves no interval missed, wherever the sampling grid of R477 lies. -/
theorem missed_none (r : Fin 2) (n : Nat) : missedSince r n n = 0 := by simp [missedSince]

/-- A core that was last heard 1 s ago has missed more than 12 intervals. -/
theorem missed_many (r : Fin 2) : 12 ≤ missedSince r 0 1000000000 := by
  unfold missedSince gridIndex
  have h : Config.samplePhase r.val % 100000 < 100000 := Nat.mod_lt _ (by decide)
  omega

/-- Whatever the grid, the last sample before 1 s lies after 1 ms. -/
theorem sampled (r : Fin 2) : 1000000 ≤ lastSample r 1000000000 := by
  unfold lastSample gridIndex
  have h : Config.samplePhase r.val % 100000 < 100000 := Nat.mod_lt _ (by decide)
  omega

/-- MC_REHEARSE with a ready standby. -/
theorem witness_CoreAndSpareCommandsAct_rehearse :
    ∃ k, withStandby.takes specMcRehearse (cmd [1, 0, 0, 0, 0, 0, 0, 0]) = some k ∧
      (decide (fld k.cmd.params 0 1 ≤ 1) && k.at_.standbyReady && k.at_.mc.rehearsal.isNone) = true := by
  refine ⟨_, rfl, ?_⟩
  rw [show ∀ a b c : Bool, (a && b && c) = true ↔ a = true ∧ b = true ∧ c = true from by decide]
  refine ⟨by decide, ?_, by decide⟩
  unfold State.standbyReady
  show (decide (CoreMode.standby = .standby) && decide (1 = 1) && decide (missedSince 0 0 0 < 12) &&
    decide (missedSince 0 0 0 < 12)) = true
  rw [missed_none]; decide

/-- The gap: the token is free, and the standby has heard nothing for a second. -/
def gap (a b : McCore) : State := { ready with ns := 1000000000, mc := { token := none, claimed := true, coreA := a, coreB := b } }

theorem witness_CoresShareTheToken_takeover0 :
    (gap { mode := .standby, role := 1 } { mode := .failed }).expireToken.takeoverDue 0 = true := by
  rw [show ∀ a b, (gap a b).expireToken = gap a b from fun _ _ => rfl]
  unfold State.takeoverDue
  simp [gap, State.core, otherCore, missed_many, sampled]

theorem witness_CoresShareTheToken_takeover1 :
    (gap { mode := .failed } { mode := .standby, role := 1 }).expireToken.takeoverDue 0 = false ∧
    (gap { mode := .failed } { mode := .standby, role := 1 }).expireToken.takeoverDue 1 = true := by
  rw [show ∀ a b, (gap a b).expireToken = gap a b from fun _ _ => rfl]
  constructor
  · unfold State.takeoverDue; simp [gap, State.core]
  · unfold State.takeoverDue; simp [gap, State.core, otherCore, missed_many, sampled]

/-- An Announce whose source identity has no FF FE in its middle is another clock's. -/
def announce : List Byte := [0x0B, 2, 0, 34] ++ zeros 30

theorem witness_ReferencesDisciplineTime_message :
    (fun (s : State) (p : PtpPort) (b : List Byte) (m : PtpMsg) => b.length ≤ 1500 ∧ (s.ptpPort (portNumber p)).role ≠ 0 ∧
      s.ptpUp (portNumber p) = true ∧ s.serving = true ∧ ptpParse b = some m ∧ m.domain = s.qz.ptp.domain ∧
      m.source.take 8 ≠ clockIdentity)
    { managed with qz := { ready.qz with ptp := { ready.qz.ptp with ports := [(128, { PtpPortCfg.init with role := 1 })] } } }
    (.mgmt 0) announce ⟨11, 0, 0, 0, zeros 10, 0, []⟩ := by
  refine ⟨by decide, by decide, by decide, by decide, by decide, by decide, ?_⟩
  intro h
  have h3 : (clockIdentity.getD 3 0) = 0xFF := by simp [clockIdentity, beBytes]
  rw [← h] at h3
  exact absurd h3 (by decide)

/-- A command queue whose element, read from the host, holds DEV_GET_INFO in version 1 form. -/
def queued : State :=
  { linked with ring := { ready.ring with queues :=
      [(9, { Queue.init with enable := true, kind := 0, esize := 5, base := 0x10000000000, pair := 11, prod := 1 }),
       (11, { Queue.init with enable := true, kind := 1 })] } }
def element : List Byte := [0x43, 0x10, 0x10, 0, 0, 1, 0, 0] ++ zeros 24

theorem witness_TransportsCarryPackets_queue :
    ∃ (code : Nat) (c : Cmd), 9 < 4096 ∧ element.length ≤ 16384 ∧ queued.elementDue 9 = true ∧
      (queued.readElement (queued.queue 9) (queued.queue 9).cons (some element)).2 = some element ∧
      readPacket (queueClient 9) (queued.queue 9).cons false element = .cmd code c :=
  ⟨_, _, by decide, by decide, by decide, by decide, rfl⟩

/-- A queue of one element that is full. -/
theorem witness_DumpsAndFramesLeave_full :
    (fun (s : State) (p : Nat) (f : Frame) => ∃ u : State, 80 ≤ p ∧ s.txq p = [(.own, f)] ∧ s.push (p - 80) 4 f.payload = (u, .full))
    { ready with port := { ready.port with txq := [(80, [(.own, ⟨0, 0, [], 0, [1]⟩)])] },
                 ring := { ready.ring with queues := [(0, { Queue.init with enable := true, kind := 4, esize := 5, prod := 1 })] } }
    80 ⟨0, 0, [], 0, [1]⟩ :=
  ⟨_, by decide, by decide, rfl⟩

theorem witness_EveryStepKeepsTheMemory :
    (fun (s : State) => s.memoryWf = true ∧ ∃ t, step s = .next t)
    { ready with pending := [.btRecData 5], pwr := { ready.pwr with phase := 5 } } := ⟨by decide, _, rfl⟩

/-- The last 32 bytes of HBM. -/
theorem witness_HbmReadsBackWhatWasWritten :
    (fun (s : State) (off : Nat) (bs : List Byte) => bs ≠ [] ∧ off % 256 + bs.length ≤ 256 ∧ off + bs.length ≤ 0x1800000000 ∧
      s.memoryWf = true ∧ s.domainOn (76 + stackOf off) = true ∧
      (∀ c ∈ cuts 32 off bs.length, kvGet 0 s.mem.bad (c.1 / 32 * 32) = 0 ∧
        kvGet 0 (s.mem.hc (stackOf (c.1 / 32 * 32))).parity (c.1 / 32 * 32) = 0) ∧
      (∀ a, off ≤ a → a < off + bs.length → s.bankAt a = none ∧ s.areaAt a = none))
    ready 0x17FFFFFFE0 (1 :: zeros 31) :=
  ⟨by decide, by decide, by decide, by decide, by decide, by decide, fun _ _ _ => ⟨rfl, rfl⟩⟩

/-- A managed device right after its image was loaded, with its domains settled. -/
def loaded : State := State.settleDomains { State.reset with pwr := { State.reset.pwr with phase := 2 } }

theorem witness_DomainsFollowTheirRules : loaded.managed = true ∧ loaded.DomainsFollow ∧ ∃ t, step loaded = .next t := by
  refine ⟨rfl, ?_, ⟨_, rfl⟩⟩
  intro _; decide

theorem witness_RecoveryWritesEightBytes :
    (fun (s : State) (v : Nat) => v < 2 ^ 64 ∧ s.pwr.phase = 5 ∧ s.pwr.recAddr + 8 ≤ 0x400000 ∧ s.memoryWf = true)
    { ready with pwr := { ready.pwr with phase := 5, recAddr := 0x3FFFF8 } } (2 ^ 64 - 1) := by decide

theorem witness_KeepaliveOnlyRenews_takes : (ready.takes specOwnKeepalive (cmd [])).isSome = true := by decide

theorem witness_FilterCommandsAct_configured :
    (doFiltSetChain (cmd [31, 0, 3, 0, 0, 6, 63, 1, 1, 1, 15, 0, 1, 0, 64, 40, 0, 0, 0, 0, 0, 0, 0, 0, 0, 0, 0, 0, 0, 0, 0, 0])
      { ready with beam := { ready.beam with sets := [(3, { BeamSet.init with enable := true, groups := 1, chan0 := 5, chanCount := 2 })] } }).status
      = stOk := by decide

/-- A datagram to the command port of MGMT-A, with the checksum of RFC 768. -/
def command : Frame :=
  ⟨0x020000000001, 4, [], 0x0800,
    [0x45, 0, 0, 32, 0, 0, 0, 0, 64, 17, 0x66, 0xC4,
     10, 0, 0, 1, 10, 0, 0, 9, 0, 7, 0xB7, 0xFC, 0, 12, 0x2F, 0xC3, 1, 2, 3, 4]⟩

theorem witness_TransportsCarryPackets_datagram :
    (fun (s : State) (port : Fin 2) (f : Frame) (ip : Ip) (u : Udp) => f.wf = true ∧ (s.mgmt port.val).mode ≠ 0 ∧
      (s.mgmt port.val).link = true ∧ s.domainOn 86 = true ∧ vlanOk (s.mgmtAddresses port.val).vlan f = true ∧
      f.dst = (s.mgmtAddresses port.val).mac ∧
      ptpTo (kvGet {} s.qz.ptp.ports (128 + port.val)) (s.mgmtAddresses port.val) f = false ∧
      arpReply (s.mgmtAddresses port.val) f = none ∧
      parseIp f.etherType f.payload = some ip ∧ neighbourReply (s.mgmtAddresses port.val) f ip = none ∧
      (if ip.v6 then (s.mgmtAddresses port.val).ipv6.contains ip.dst
        else (s.mgmtAddresses port.val).ipv4 ≠ 0 && beNat ip.dst = (s.mgmtAddresses port.val).ipv4) = true ∧
      echoReply (s.mgmtAddresses port.val) f ip = none ∧ ip.proto = 17 ∧ ip.fragment = false ∧ parseUdp ip = some u ∧
      u.dst = 47100 ∧ u.sumOk = true)
    managed 0 command
    ⟨false, [10, 0, 0, 1], [10, 0, 0, 9], 17, 64, command.payload.drop 20, false, false⟩ ⟨7, 47100, [1, 2, 3, 4], true, false⟩ := by decide

/-- A frame bound for a queue that is not enabled. -/
theorem witness_DumpsAndFramesLeave_absent :
    (fun (s : State) (p : Nat) (f : Frame) => ∃ u : State, 80 ≤ p ∧ s.txq p = [(.own, f)] ∧ s.push (p - 80) 4 f.payload = (u, .absent))
    { ready with port := { ready.port with txq := [(80, [(.own, ⟨0, 0, [], 0, [1]⟩)])] } }
    80 ⟨0, 0, [], 0, [1]⟩ :=
  ⟨_, by decide, by decide, rfl⟩

/-- A queue with a free element. -/
def roomy : State :=
  { linked with port := { ready.port with txq := [(80, [(.own, ⟨0, 0, [], 0, [1]⟩)])] },
                ring := { ready.ring with queues :=
                  [(0, { Queue.init with enable := true, kind := 4, esize := 5, base := 0x10000000000 })] } }
theorem witness_DumpsAndFramesLeave_done :
    (fun (s : State) (p : Nat) (f : Frame) => ∃ (u : State) (lost : Bool),
      80 ≤ p ∧ s.txq p = [(.own, f)] ∧ s.push (p - 80) 4 f.payload = (u, .done lost))
    roomy 80 ⟨0, 0, [], 0, [1]⟩ :=
  ⟨_, _, by decide, by decide, rfl⟩

/-- An export whose frames have gone, to queue 0. -/
def exported : Segment := ⟨.exporting, 0, ⟨0, 0, 0, 0⟩, 0, 1, 0, 0, 0, 0, 0, [], 0, 0, false, { kind := 2 }⟩

theorem witness_CaptureEventsAct_queue :
    (fun (s : State) (x : Segment) => ∃ (u : State) (lost : Bool), s.cap.segs = [x] ∧ x.mode = .exporting ∧ x.inFlight = 0 ∧
      x.dest.kind ≠ 1 ∧ s.push x.dest.queue 4 (s.segmentEndFrame x.dest x) = (u, .done lost))
    { roomy with cap := { ready.cap with segs := [exported] } } exported :=
  ⟨_, _, by decide, by decide, by decide, by decide, rfl⟩

theorem witness_StepTakesTheFront : (
    (fun (s : State) => decide (s.pending = [])) ready) = true := by decide

theorem witness_EveryCommandCompletes : (
    (fun (i : Instr) (_s : State) => decide (i.wf = true)) (.corrStart (cmd (zeros 8))) ready &&
    (fun (i : Instr) (_s : State) => decide (i.wf = false)) (.rqDb 4096 0) ready) = true := by decide

theorem witness_AnsweringKeepsTheDataPath : (
    (fun (_before : State) (_w : Waiting) (_row : OpRow) (r : Res) => decide (r.st.pwr.fwReset = false))
      ready (⟨0, cmd [], 0, none, 0⟩) rowOwnRelease (⟨0, 0xFFFF, [], ready⟩) &&
    (fun (before : State) (w : Waiting) (row : OpRow) (r : Res) => decide (r.st.pwr.fwReset = true ∧
        (State.answer before w row r).own.executing = none))
      ({ ready with pwr := { ready.pwr with fwReset := true } }) (⟨0, cmd [], 0, none, 0⟩) rowOwnRelease (⟨0, 0xFFFF, [], { ready with pwr := { ready.pwr with fwReset := true } }⟩)) = true := by decide

theorem witness_ChecksComeInOrder : (
    (fun (s : State) (row : OpRow) (c : Cmd) (n : Nat) => decide ((s.mapOwn fun o => { o with stamp := n }).authOk c row n = false))
      ({ ready with pwr := { ready.pwr with signMask := 4 } }) rowOwnRelease (cmd []) 0 &&
    (fun (s : State) (row : OpRow) (c : Cmd) (n : Nat) => decide ((s.mapOwn fun o => { o with stamp := n }).authOk c row n = true ∧
        row.access = .owner ∧ s.own.isOwner c.client = false))
      other rowOwnRelease (cmd []) 0 &&
    (fun (s : State) (row : OpRow) (c : Cmd) (n : Nat) => decide ((s.mapOwn fun o => { o with stamp := n }).authOk c row n = true ∧
        row.access ≠ .read ∧ c.client.ep = 3))
      other rowOwnClaim ({ client := { cli with ep := 3 }, params := zeros 16 }) 0 &&
    (fun (s : State) (row : OpRow) (c : Cmd) (n : Nat) (off : Nat) => decide ((s.mapOwn fun o => { o with stamp := n }).authOk c row n = true ∧
        row.access = .read ∧ c.tag = none ∧ row.layout.lengthError c.params = some off))
      ready rowPwrGetOp (cmd [1]) 0 0 &&
    (fun (s : State) (row : OpRow) (c : Cmd) (n : Nat) => decide ((s.mapOwn fun o => { o with stamp := n }).authOk c row n = true ∧
        row.access = .owner ∧ s.own.isOwner c.client = true ∧ c.client.ep ≠ 3 ∧ c.tag = none ∧
        s.pwr.phase = 7 ∧ quiescedAllows row c.params = false))
      ({ ready with pwr := { ready.pwr with phase := 7 } }) rowOwnRelease (cmd []) 0 &&
    (fun (spec : OpSpec) => decide (spec.row.v1 = 0)) specCorrSetShed &&
    (fun (s : State) (u : State) (_spec : Option OpSpec) (w : Waiting) (packet : List Byte) => decide (w.verdict = none ∧
        (s.counted w).entered w = some (u, .duplicate packet)))
      ({ ready with own := { ready.own with clients := [{ key := cli, h2 := some 7, cache2 := [(7, [9])] }] } }) (((({ ready with own := { ready.own with clients := [{ key := cli, h2 := some 7, cache2 := [(7, [9])] }] } }).counted ⟨0x0202, { client := cli, v2 := true, seq := 7 }, 0x0202, none, 0⟩).entered ⟨0x0202, { client := cli, v2 := true, seq := 7 }, 0x0202, none, 0⟩).elim ready Prod.fst) none (⟨0x0202, { client := cli, v2 := true, seq := 7 }, 0x0202, none, 0⟩) ([9]) &&
    (fun (s : State) (u : State) (_spec : Option OpSpec) (w : Waiting) => decide (w.verdict = none ∧
        (s.counted w).entered w = some (u, .stale)))
      ({ ready with own := { ready.own with clients := [{ key := cli, h2 := some 7, cache2 := [(7, [9])] }] } }) (((({ ready with own := { ready.own with clients := [{ key := cli, h2 := some 7, cache2 := [(7, [9])] }] } }).counted ⟨0x0202, { client := cli, v2 := true, seq := 6 }, 0x0202, none, 0⟩).entered ⟨0x0202, { client := cli, v2 := true, seq := 6 }, 0x0202, none, 0⟩).elim ready Prod.fst) none (⟨0x0202, { client := cli, v2 := true, seq := 6 }, 0x0202, none, 0⟩) &&
    (fun (s : State) (_spec : Option OpSpec) (w : Waiting) => decide (w.verdict = none ∧
        (s.counted w).entered w = none))
      ({ ready with own := { ready.own with clients := (List.range 256).map fun i => { key := { cli with port := i }, challenge := some ([1], 0) } } }) none (⟨0x0202, { client := cli, v2 := true, seq := 1 }, 0x0202, none, 0⟩) &&
    (fun (s : State) (u : State) (w : Waiting) => decide (w.verdict = none ∧
        (s.counted w).entered w = some (u, .fresh)))
      ready (((ready.counted ⟨0x0202, { client := cli, v2 := true, seq := 1 }, 0x0202, none, 0⟩).entered ⟨0x0202, { client := cli, v2 := true, seq := 1 }, 0x0202, none, 0⟩).elim ready Prod.fst) (⟨0x0202, { client := cli, v2 := true, seq := 1 }, 0x0202, none, 0⟩) &&
    (fun (s : State) (u : State) (spec : OpSpec) (w : Waiting) (r : Res) => decide (w.verdict = none ∧
        (s.counted w).entered w = some (u, .fresh) ∧ (u.advanced w).cryptoWait spec.row w = false ∧
        (match (u.advanced w).judged spec.row w.cmd w.stamp with | .error x => decide (x = r) | .ok _ => false) = true))
      other (((other.counted ⟨0x0202, { client := cli, v2 := true, seq := 1 }, 0x0202, none, 0⟩).entered ⟨0x0202, { client := cli, v2 := true, seq := 1 }, 0x0202, none, 0⟩).elim ready Prod.fst) specOwnRelease (⟨0x0202, { client := cli, v2 := true, seq := 1 }, 0x0202, none, 0⟩) (match (State.advanced (((other.counted ⟨0x0202, { client := cli, v2 := true, seq := 1 }, 0x0202, none, 0⟩).entered ⟨0x0202, { client := cli, v2 := true, seq := 1 }, 0x0202, none, 0⟩).elim ready Prod.fst) ⟨0x0202, { client := cli, v2 := true, seq := 1 }, 0x0202, none, 0⟩).judged specOwnRelease.row (⟨0x0202, { client := cli, v2 := true, seq := 1 }, 0x0202, none, 0⟩ : Waiting).cmd 0 with | .error r => r | .ok _ => ⟨0, 0, [], ready⟩) &&
    (fun (_s : State) (_spec : Option OpSpec) (w : Waiting) (st : Nat) => decide (w.verdict = some st))
      ready none (⟨0, cmd [], 0, some stVersion, 0⟩) stVersion) = true := by decide

theorem witness_OperatingPointIsDeclared : (
    journalled specPwrSetOp
      (fun c u => decide (1 ≤ fld c.params 0 1 ∧ fld c.params 0 1 ≤ 5) && !u.replaying &&
        (u.mapLoad fun l => { l with op := fld c.params 0 1, source := 2 }).admitted)
      ready (cmd [5, 0, 0, 0]) &&
    taken specPwrSetOp (fun c _ => decide (fld c.params 0 1 = 0 ∨ 5 < fld c.params 0 1)) ready (cmd [6, 0, 0, 0]) &&
    taken specPwrSetOp
      (fun c u => decide (1 ≤ fld c.params 0 1 ∧ fld c.params 0 1 ≤ 5) && !u.replaying &&
        !(u.mapLoad fun l => { l with op := fld c.params 0 1, source := 2 }).admitted)
      ({ laid with tile := { laid.tile with layout := some { tiny with rate := 1450000000, channels := 4096 } } }) (cmd [1, 0, 0, 0])) = true := by decide

theorem witness_OverloadCommandsAct : (
    taken specPwrGetOp (fun _ _ => true) ready (cmd []) &&
    taken specCorrSetShed
      (fun c _ => decide (fld c.params 0 1 ≤ 1 ∧ fld c.params 1 1 ≤ 1 ∧ 1 ≤ fld c.params 2 1 ∧ 1 ≤ fld c.params 3 1 ∧
        16 ≤ fld c.params 4 2 ∧ fld c.params 4 2 ≤ 4096 ∧ 1 ≤ fld c.params 6 1 ∧ fld c.params 6 1 ≤ 8))
      ready (cmd [1, 1, 1, 255, 16, 0, 8, 0]) &&
    taken specCorrGetLoad (fun _ _ => true) ready (cmd [])) = true := by decide

theorem witness_ShapeCommandsAct : (
    journalled specCorrSetLayout
      (fun c u => (firstBad (layoutChecks (fld c.params 0 1) (layoutAt c.params))).isNone &&
        (firstBad (u.settingChecks (layoutAt c.params))).isNone && !u.schedLive && !u.hbmAway && !u.replaying &&
        (u.loadLayout (layoutAt c.params)).slotsSuffice && (u.loadLayout (layoutAt c.params)).admitted)
      ready (cmd ([0, 0, 0, 1, 0, 0, 0, 0, 0, 0, 0, 0, 0, 0, 1, 0, 0, 1, 0, 0, 0, 0, 0, 1] ++ zeros 8)) &&
    taken specCorrSetLayout
      (fun c u => (firstBad (layoutChecks (fld c.params 0 1) (layoutAt c.params))).isNone &&
        (firstBad (u.settingChecks (layoutAt c.params))).isNone && u.schedLive)
      live (cmd ([0, 0, 0, 1, 0, 0, 0, 0, 0, 0, 0, 0, 0, 0, 1, 0, 0, 1, 0, 0, 0, 0, 0, 1] ++ zeros 8)) &&
    journalled specCorrSetSplit
      (fun c u => let k := u.bas.combine
        [1, 2, 4, 8].contains (fld c.params 0 1) && decide (fld c.params 1 1 < fld c.params 0 1) &&
        decide ((k.role ≠ 0 → fld c.params 0 1 = k.parts) ∧ (k.role = 1 → fld c.params 1 1 = k.part) ∧
          (k.role = 2 → k.localLeaf ≠ 0xFF → fld c.params 1 1 = k.localLeaf)) &&
        decide (fld c.params 8 4 ≤ 16384) && !u.schedLive && (decide (fld c.params 8 4 = 0) || !u.hbmAway) && !u.replaying &&
        ({ u with split := { parts := fld c.params 0 1, index := fld c.params 1 1, group := fld c.params 2 2,
                             psxUdp := fld c.params 4 2, mib := fld c.params 8 4 } } : State).admitted)
      eth (cmd [8, 7, 0, 0, 0, 0, 0, 0, 0, 0, 64, 0, 0, 0, 0, 0]) &&
    journalled specCapSetRing
      (fun c u => decide (fld c.params 0 2 ≤ 8192 ∧ fld c.params 2 2 < u.loadedN ∧ 1 ≤ fld c.params 4 2 ∧
          fld c.params 4 2 ≤ 4096 ∧ fld c.params 2 2 + fld c.params 4 2 ≤ u.loadedN ∧ fld c.params 6 2 < u.loadedChannels ∧
          1 ≤ fld c.params 8 2 ∧ fld c.params 8 2 ≤ 4096 ∧ fld c.params 6 2 + fld c.params 8 2 ≤ u.loadedChannels) &&
        !u.schedLive && decide (u.cap.segs = []) && (decide (fld c.params 0 2 = 0) || !u.hbmAway) &&
        (u.replaying || (u.mapCap fun d => { d with
          sel := ⟨fld c.params 0 2, fld c.params 2 2, fld c.params 4 2, fld c.params 6 2, fld c.params 8 2⟩,
          blocks := [], reused := [] }).admitted))
      eth (cmd [0, 8, 0, 0, 0, 1, 0, 0, 0, 1, 0, 0, 0, 0, 0, 0]) &&
    journalled specMemSetHost
      (fun c u => decide (fld c.params 0 4 % 64 = 0 ∧ fld c.params 0 4 ≤ 65536) && u.residualsIn (fld c.params 0 4) &&
        u.queueOk (fld c.params 4 2) 5 &&
        (decide (fld c.params 0 4 = u.mem.hostMib) || (!u.schedLive && (decide (fld c.params 0 4 = 0) || !u.hbmAway))) &&
        (u.replaying || ({ u with mem := { u.mem with hostMib := fld c.params 0 4, logQueue := fld c.params 4 2 } } : State).memoryFits))
      eth (cmd [0, 1, 0, 0, 255, 255, 0, 0])) = true := by decide

theorem witness_PortSettingsAct : (
    journalled specPortSetQuad
      (fun c _ => decide (fld c.params 0 1 ≤ 19 ∧ fld c.params 1 1 ≤ 4 ∧ fld c.params 2 1 ≤ 2 ∧ fld c.params 3 1 ≤ 3) &&
        (decide (fld c.params 1 1 = 0) ||
          (badPortEntry (fld c.params 1 1) (fld c.params 2 1) c.params (layoutPorts (fld c.params 3 1))).isNone))
      ready (cmd [19, 4, 0, 2, 8, 0, 0, 0, 0, 0, 0, 0]) &&
    taken specPortSetQuad
      (fun c _ => decide (fld c.params 0 1 ≤ 19 ∧ 1 ≤ fld c.params 1 1 ∧ fld c.params 1 1 ≤ 4 ∧ fld c.params 2 1 ≤ 2 ∧
          fld c.params 3 1 ≤ 3) &&
        (badPortEntry (fld c.params 1 1) (fld c.params 2 1) c.params (layoutPorts (fld c.params 3 1))).isSome)
      ready (cmd [0, 4, 0, 0, 99, 0, 0, 0, 0, 0, 0, 0]) &&
    journalled specPortSetLane
      (fun c u => decide (fld c.params 0 1 ≤ 79 ∧ fld c.params 1 1 ≤ 2 ∧ fld c.params 2 1 ≤ 2 ∧ fld c.params 3 1 ≤ 15 ∧
          fld c.params 4 1 ≤ 2 ∧ fld c.params 5 1 ≤ 2) &&
        (decide (fld c.params 2 1 ≠ 0) ||
          (match u.portOfLane (fld c.params 0 1) with | some (_, k) => decide (k.mode = 8) | none => false)))
      eth (cmd [79, 2, 2, 15, 2, 2, 0, 0]) &&
    journalled specPortSetKlp
      (fun c u => (match u.portCfg (fld c.params 0 1) with | some k => decide (k.mode = 8) | none => false) &&
        decide (fld c.params 0 1 ≤ 79 ∧ fld c.params 1 1 ≤ 1 ∧ 1 ≤ fld c.params 2 1 ∧ fld c.params 2 1 ≤ 8))
      klp (cmd [0, 1, 8, 0]) &&
    journalled specPortSetKlp
      (fun c u => (match u.portCfg (fld c.params 0 1) with | some k => decide (k.mode = 9) | none => false) &&
        decide (fld c.params 0 1 ≤ 79 ∧ fld c.params 1 1 ≤ 1 ∧ 1 ≤ fld c.params 2 1 ∧ fld c.params 2 1 ≤ 8))
      ({ ready with port := { ready.port with quads := [(0, { rate := 4, layout := 2, modes := [9, 0, 0, 0] })] } }) (cmd [0, 1, 8, 0]) &&
    taken specPortSetKlp
      (fun c u => match u.portCfg (fld c.params 0 1) with | some k => decide (k.mode ≠ 8 ∧ k.mode ≠ 9) | none => true)
      eth (cmd [0, 1, 8, 0])) = true := by decide

theorem witness_PortAndIngestReportsAct : (
    taken specPortGetStatus (fun c _ => decide (fld c.params 0 1 ≤ 79)) eth (cmd [79]) &&
    taken specPortGetLane
      (fun c u => decide (fld c.params 0 1 ≤ 79 ∧ (u.quad (fld c.params 0 1 / 4)).rate ≠ 0))
      eth (cmd [0]) &&
    taken specPortGetLane
      (fun c u => decide (fld c.params 0 1 ≤ 79 ∧ (u.quad (fld c.params 0 1 / 4)).rate = 0))
      ready (cmd [79]) &&
    taken specPortEyeScan
      (fun c u => let p := c.params
        let rate := (u.quad (fld p 0 1 / 4)).rate
        decide (fld p 0 1 ≤ 79 ∧ 1 ≤ rate ∧ rate ≤ 4 ∧ (if rate ≤ 2 then fld p 1 1 = 0 else 1 ≤ fld p 1 1 ∧ fld p 1 1 ≤ 3) ∧
          -32 ≤ sfld p 2 1 ∧ sfld p 2 1 ≤ sfld p 3 1 ∧
          sfld p 3 1 ≤ 31 ∧ 1 ≤ sfld p 4 1 ∧ sfld p 4 1 ≤ 16 ∧ -63 ≤ sfld p 5 1 ∧ sfld p 5 1 ≤ sfld p 6 1 ∧ sfld p 6 1 ≤ 63 ∧
          1 ≤ sfld p 7 1 ∧ sfld p 7 1 ≤ 16 ∧ 20 ≤ fld p 8 1 ∧ fld p 8 1 ≤ 36) &&
        u.port.scans.all fun e => e.1 / 4 ≠ fld p 0 1 / 4 || !e.2.running)
      eth (cmd [0, 0, 224, 31, 16, 193, 63, 16, 36, 0, 0, 0]) &&
    taken specPortEyeScan
      (fun c u => let p := c.params
        let rate := (u.quad (fld p 0 1 / 4)).rate
        decide (fld p 0 1 ≤ 79 ∧ 1 ≤ rate ∧ rate ≤ 4 ∧ (if rate ≤ 2 then fld p 1 1 = 0 else 1 ≤ fld p 1 1 ∧ fld p 1 1 ≤ 3) ∧
          -32 ≤ sfld p 2 1 ∧ sfld p 2 1 ≤ sfld p 3 1 ∧
          sfld p 3 1 ≤ 31 ∧ 1 ≤ sfld p 4 1 ∧ sfld p 4 1 ≤ 16 ∧ -63 ≤ sfld p 5 1 ∧ sfld p 5 1 ≤ sfld p 6 1 ∧ sfld p 6 1 ≤ 63 ∧
          1 ≤ sfld p 7 1 ∧ sfld p 7 1 ≤ 16 ∧ 20 ≤ fld p 8 1 ∧ fld p 8 1 ≤ 36) &&
        u.port.scans.any fun e => decide (e.1 / 4 = fld p 0 1 / 4) && e.2.running)
      ({ eth with port := { eth.port with scans := [(0, ⟨true, false, 0, 4, 8, 36, 1, 0, []⟩)] } }) (cmd [0, 0, 224, 31, 16, 193, 63, 16, 36, 0, 0, 0]) &&
    taken specPortEyeRead
      (fun c u => decide (fld c.params 0 1 ≤ 79) && (u.port.scans.find? (·.1 = fld c.params 0 1)).isNone)
      ready (cmd [79, 0, 0, 0]) &&
    taken specPortEyeRead
      (fun c u => decide (fld c.params 0 1 ≤ 79) && (u.port.scans.find? (·.1 = fld c.params 0 1)).isSome)
      ({ eth with port := { eth.port with scans := [(0, ⟨true, false, 0, 4, 8, 36, 1, 0, []⟩)] } }) (cmd [0, 0, 0, 0]) &&
    taken specIngestGetPort (fun c _ => decide (fld c.params 0 1 ≤ 79)) ready (cmd [79]) &&
    taken specIngestGetInput (fun c _ => decide (fld c.params 0 2 < 4096)) ready (cmd [15, 255]) &&
    taken specIngestGetInput (fun c _ => decide (4096 ≤ fld c.params 0 2)) ready (cmd [16, 0]) &&
    taken specCorrGetStaging (fun c _ => decide (fld c.params 0 2 < 4096)) ready (cmd [15, 255])) = true := by decide

theorem witness_IngestSettingsAct : (
    journalled specIngestSetPort
      (fun c u => decide (fld c.params 0 1 ≤ 79 ∧ fld c.params 2 2 ≤ 4094) &&
        match u.portCfg (fld c.params 0 1) with | some k => !k.klp | none => false)
      eth (cmd ([0, 0, 15, 254, 184, 96] ++ zeros 26)) &&
    journalled specIngestMcast
      (fun c u => decide (fld c.params 0 1 ≤ 79 ∧ fld c.params 1 1 = 1 ∧ (fld c.params 2 1 = 4 ∨ fld c.params 2 1 = 6) ∧
          fld c.params 3 1 ≤ 4) &&
        (match u.portCfg (fld c.params 0 1) with | some k => decide (k.role = 0) | none => false) &&
        ((u.inPort (fld c.params 0 1)).groups.any (·.isFor (groupAt c.params)) ||
          decide ((u.inPort (fld c.params 0 1)).groups.length < 64)))
      eth (cmd ([0, 1, 4, 0, 232, 0, 0, 1] ++ zeros 76)) &&
    journalled specIngestMcast
      (fun c u => decide (fld c.params 0 1 ≤ 79 ∧ fld c.params 1 1 = 0 ∧ (fld c.params 2 1 = 4 ∨ fld c.params 2 1 = 6) ∧
          fld c.params 3 1 ≤ 4) &&
        (match u.portCfg (fld c.params 0 1) with | some k => decide (k.role = 0) | none => false) &&
        (u.inPort (fld c.params 0 1)).groups.any (·.isFor (groupAt c.params)))
      ({ eth with ing := { eth.ing with ports := [(0, { InPort.init with groups := [⟨4, [232, 0, 0, 1], []⟩] })] } }) (cmd ([0, 0, 4, 0, 232, 0, 0, 1] ++ zeros 76)) &&
    taken specIngestMcast
      (fun c u => decide (fld c.params 0 1 ≤ 79 ∧ fld c.params 1 1 = 1 ∧ (fld c.params 2 1 = 4 ∨ fld c.params 2 1 = 6) ∧
          fld c.params 3 1 ≤ 4 ∧ 64 ≤ (u.inPort (fld c.params 0 1)).groups.length) &&
        (u.inPort (fld c.params 0 1)).groups.all (fun g => !g.isFor (groupAt c.params)) &&
        match u.portCfg (fld c.params 0 1) with | some k => decide (k.role = 0) | none => false)
      ({ eth with ing := { eth.ing with ports := [(0, { InPort.init with groups := List.replicate 64 ⟨6, zeros 16, []⟩ })] } }) (cmd ([0, 1, 4, 0, 232, 0, 0, 1] ++ zeros 76)) &&
    journalled specIngestSetSource
      (fun c _ => decide (fld c.params 1 1 ≤ 1 ∧ fld c.params 2 1 ≤ 79 ∧
        (fld c.params 3 1 = 0 ∨ fld c.params 3 1 = 4 ∨ fld c.params 3 1 = 6) ∧ fld c.params 4 2 ≠ 0xFFFF))
      ready (cmd ([255, 1, 79, 6, 255, 254] ++ zeros 18)) &&
    journalled specIngestSetTiming
      (fun c _ => decide (10 ≤ fld c.params 0 4 ∧ fld c.params 0 4 ≤ 10000))
      ready (cmd [0, 0, 39, 16, 0, 0, 0, 0])) = true := by decide

theorem witness_IngestTablesLoadAndApply : (
    taken specIngestLoadMap
      (fun c _ => decide (1 ≤ fld c.params 2 2 ∧ fld c.params 2 2 ≤ 64 ∧ fld c.params 0 2 + fld c.params 2 2 ≤ 4096) &&
        (List.range (fld c.params 2 2)).all fun e =>
          decide (1 ≤ fld c.params (8 + 16 * e) 2 ∧ fld c.params (8 + 16 * e) 2 ≤ 4096 ∧
            1 ≤ fld c.params (14 + 16 * e) 2 ∧ fld c.params (14 + 16 * e) 2 ≤ 4096))
      ready (cmd [15, 255, 0, 1, 0, 0, 0, 0, 16, 0, 0, 0, 0, 0, 16, 0, 0, 0, 0, 0]) &&
    journalled specIngestApplyMap
      (fun c u => decide (fld c.params 0 2 ≤ 4096) &&
        mapOk u.loadedN u.loadedChannels (u.loadMapEntries (fld c.params 0 2)) && !u.schedLive)
      ready (cmd (zeros 16)) &&
    journalled specIngestApplyMap
      (fun c u => decide (fld c.params 0 2 ≤ 4096) &&
        mapOk u.loadedN u.loadedChannels (u.loadMapEntries (fld c.params 0 2)) && u.schedLive &&
        (decide (fld c.params 8 8 = noIndex) || !u.mapPassed (fld c.params 8 8)))
      live (cmd [0, 0, 0, 0, 0, 0, 0, 0, 255, 255, 255, 255, 255, 255, 255, 255]) &&
    taken specIngestApplyMap
      (fun c u => decide (fld c.params 0 2 ≤ 4096) && !mapOk u.loadedN u.loadedChannels (u.loadMapEntries (fld c.params 0 2)))
      ({ laid with ing := { laid.ing with loadMap := [(0, ⟨0, 0, 4096, 0, 0, 1, 0⟩)] } }) (cmd ([0, 1] ++ zeros 14)) &&
    taken specIngestLoadGain
      (fun c u => decide (fld c.params 0 2 < 4096 ∧ 1 ≤ fld c.params 4 2 ∧ fld c.params 4 2 ≤ 256 ∧ fld c.params 2 2 + fld c.params 4 2 ≤ 4096) &&
        !u.gainPending)
      ready (cmd [15, 255, 15, 255, 0, 1, 0, 0, 0, 0]) &&
    taken specIngestLoadGain
      (fun c u => decide (fld c.params 0 2 < 4096 ∧ 1 ≤ fld c.params 4 2 ∧ fld c.params 4 2 ≤ 256 ∧ fld c.params 2 2 + fld c.params 4 2 ≤ 4096) &&
        u.gainPending)
      ({ live with ing := { live.ing with gain := ⟨[], [(.idx 99999, [])]⟩ } }) (cmd [0, 0, 0, 0, 0, 1, 0, 0, 0, 0]) &&
    taken specIngestApplyGain (fun _ u => !u.schedLive) ready (cmd (zeros 8)) &&
    taken specIngestApplyGain
      (fun c u => u.schedLive && (decide (fld c.params 0 8 = noIndex) || !u.gainWhenPassed (.idx (fld c.params 0 8))))
      live (cmd (zeros 8)) &&
    taken specIngestApplyGain
      (fun c u => u.schedLive && decide (fld c.params 0 8 ≠ noIndex) && u.gainWhenPassed (.idx (fld c.params 0 8)))
      ({ live with stg := { live.stg with chans := [(0, { written := 512 })] } }) (cmd (zeros 8)) &&
    taken specCorrLoadCoarse
      (fun c u => decide (1 ≤ fld c.params 2 2 ∧ fld c.params 2 2 ≤ 256 ∧ fld c.params 0 2 + fld c.params 2 2 ≤ u.loadedN) &&
        (List.range (fld c.params 2 2)).all (fun e => decide (fld c.params (8 + 2 * e) 2 ≤
          match u.tile.layout with | some l => dCap l.n l.dwell | none => 4096)) && !u.schedPending u.stg.coarse)
      ready (cmd [15, 255, 0, 1, 0, 0, 0, 0, 16, 0]) &&
    journalled specCorrApplyCoarse (fun _ u => u.coarseOk && !u.schedLive) eth (cmd (zeros 8)) &&
    journalled specCorrApplyCoarse
      (fun c u => u.coarseOk && u.schedLive && !u.indexPast (fld c.params 0 8))
      live (cmd (zeros 8)) &&
    taken specCorrApplyCoarse
      (fun _ u => !u.coarseOk)
      ({ laid with stg := { laid.stg with coarseLoad := [(0, 4096)] } }) (cmd (zeros 8))) = true := by decide

theorem witness_ScheduleCommandsAct : (
    taken specCorrStart
      (fun c u => u.tile.layout.isSome && decide (fld c.params 0 8 % 256 = 0 ∧ fld c.params 0 8 ≠ noIndex) && !u.schedLive &&
        match u.instantOfIndex (fld c.params 0 8) with | some t => decide (u.now < t) | none => u.qz.mapping.isNone)
      laid (cmd [0, 0, 0, 0, 0, 0, 1, 0]) &&
    taken specCorrStart
      (fun c u => u.tile.layout.isSome && decide (fld c.params 0 8 % 256 = 0 ∧ fld c.params 0 8 ≠ noIndex) && !u.schedLive &&
        match u.instantOfIndex (fld c.params 0 8) with | some t => decide (t ≤ u.now) | none => false)
      ({ laid with qz := { laid.qz with mapping := some ⟨0, 0, 1, 1⟩ } }) (cmd (zeros 8)) &&
    taken specCorrStop
      (fun c u => decide (u.tile.sched = .running) && (decide (fld c.params 0 8 = noIndex) || !u.takenPast (.idx (fld c.params 0 8))))
      live (cmd [255, 255, 255, 255, 255, 255, 255, 255]) &&
    taken specCorrStop (fun _ u => decide (u.tile.sched ≠ .running)) laid (cmd (zeros 8)) &&
    taken specCorrStart (fun _ u => u.tile.layout.isNone) ready (cmd (zeros 8)) &&
    taken specCorrGetLayout (fun _ u => u.tile.layout.isSome) laid (cmd []) &&
    taken specCorrGetLayout (fun _ u => u.tile.layout.isNone) eth (cmd []) &&
    taken specCorrGetTiles (fun c u => (u.tile.slots[fld c.params 0 2]?).isSome) eth (cmd [0, 0])) = true := by decide

theorem witness_BasaltCommandsAct : (
    journalled specCorrSetPreload
      (fun c u => let p := c.params
        decide (fld p 0 2 ≤ 4095 ∧ 1 ≤ fld p 2 2 ∧ fld p 0 2 + fld p 2 2 ≤ 4096 ∧ fld p 4 1 ≤ 2 ∧
          (fld p 4 1 = 1 → (toSigned 48 (fld p 8 6)).natAbs ≤ 2 ^ 46 ∧ (toSigned 48 (fld p 14 6)).natAbs ≤ 2 ^ 46)) &&
        (decide (fld p 4 1 ≠ 2) || (decide (fld p 24 8 % 4096 = 0) &&
          u.inHost (fld p 24 8) ((fld p 2 2 - 1) * imageStride u.loadedBaselines + 12 * u.loadedBaselines))) &&
        !u.indexPast (fld p 32 8))
      eth (cmd ([15, 255, 0, 1, 1, 0, 0, 0, 64, 0, 0, 0, 0, 0, 192] ++ zeros 25)) &&
    taken specCorrSetPreload
      (fun c _ => decide (fld c.params 0 2 ≤ 4095 ∧ fld c.params 2 2 = 1 ∧ fld c.params 4 1 = 1 ∧
        2 ^ 46 < (toSigned 48 (fld c.params 8 6)).natAbs))
      ready (cmd ([0, 0, 0, 1, 1, 0, 0, 0, 64, 0, 0, 0, 0, 1] ++ zeros 26)) &&
    taken specCorrSetPreload
      (fun c u => decide (fld c.params 0 2 ≤ 4095 ∧ fld c.params 2 2 = 1 ∧ fld c.params 4 1 = 2) &&
        !(decide (fld c.params 24 8 % 4096 = 0) && u.inHost (fld c.params 24 8) (12 * u.loadedBaselines)))
      laid (cmd ([0, 0, 0, 1, 2, 0, 0, 0, 0, 0, 0, 0, 0, 0, 0, 0, 0, 0, 0, 0, 0, 0, 0, 0, 0, 0, 0, 39, 255, 255, 255, 244] ++ zeros 8)) &&
    taken specCorrLoadFringe
      (fun c u => decide (fld c.params 0 1 = 0 ∧ fld c.params 2 2 ≤ 4095 ∧ 1 ≤ fld c.params 4 2 ∧ fld c.params 4 2 ≤ 64 ∧
        fld c.params 2 2 + fld c.params 4 2 ≤ 4096) && !u.schedPending u.bas.fringe)
      ready (cmd ([0, 0, 15, 255, 0, 1] ++ zeros 10)) &&
    taken specCorrLoadFringe
      (fun c u => decide (fld c.params 0 1 = 1 ∧ fld c.params 2 2 ≤ 4095 ∧ 1 ≤ fld c.params 4 2 ∧ fld c.params 4 2 ≤ 256 ∧
        fld c.params 2 2 + fld c.params 4 2 ≤ 4096) && !u.schedPending u.bas.fringe)
      ready (cmd [1, 0, 15, 255, 0, 1, 0, 0, 0, 0, 0, 0]) &&
    journalled specCorrSetRotation
      (fun c u => decide (fld c.params 0 1 ≤ 1) && !u.indexPast (fld c.params 8 8) &&
        (decide (fld c.params 0 1 = 0) || u.replaying || (match u.tile.layout with | some l => l.phasesFit | none => true)))
      eth (cmd ([1] ++ zeros 15)) &&
    taken specCorrSetRotation
      (fun c u => decide (fld c.params 0 1 = 1) && !u.replaying && (match u.tile.layout with | some l => !l.phasesFit | none => false))
      ({ laid with tile := { laid.tile with layout := some { tiny with rate := 1450000000, channels := 4096 } } }) (cmd ([1] ++ zeros 15)) &&
    journalled specCorrSetCombine
      (fun c u => decide (fld c.params 0 1 ≤ 2 ∧ 1 ≤ fld c.params 1 1 ∧ fld c.params 1 1 ≤ 8 ∧
        (fld c.params 0 1 = 1 → fld c.params 2 1 < fld c.params 1 1) ∧
        (fld c.params 0 1 = 2 → (fld c.params 3 1 < fld c.params 1 1 ∨ fld c.params 3 1 = 0xFF) ∧
          100 ≤ fld c.params 4 4 ∧ fld c.params 4 4 ≤ 1000000)) && !u.schedLive)
      ready (cmd [2, 8, 0, 255, 0, 15, 66, 64]) &&
    taken specCorrGetAccum (fun c _ => decide (fld c.params 0 2 ≤ 4095)) ready (cmd [15, 255])) = true := by decide

theorem witness_DumpCommandsAct : (
    journalled specCorrSetDump
      (fun c u => let d : DumpSet := ⟨fld c.params 0 4, decide (fld c.params 4 1 = 1), fld c.params 5 1, fld c.params 6 1,
          fld c.params 7 1⟩
        decide (d.period ≤ 16777215 ∧ fld c.params 4 1 ≤ 1 ∧ d.coding ≤ 2 ∧ d.order ≤ 1 ∧ d.weightMode ≤ 1 ∧
          16 ≤ fld c.params 8 2 ∧ fld c.params 8 2 ≤ 512) && (!u.schedLive || decide (fld c.params 8 2 = u.dump.bufferMib)) &&
        u.dumpsFit d (fld c.params 8 2) u.dump.map u.dump.dests && !u.indexPast (fld c.params 16 8))
      eth (cmd ([0, 255, 255, 255, 1, 2, 1, 1, 2] ++ zeros 15)) &&
    journalled specCorrDumpAt
      (fun c u => decide (1 ≤ fld c.params 2 2 ∧
          fld c.params 0 2 + fld c.params 2 2 ≤ 4096 ∧ (u.dump.scheduled.filter (·.counted)).length < 64) &&
        !u.indexPast (fld c.params 8 8))
      ready (cmd ([15, 255, 0, 1] ++ zeros 12)) &&
    taken specCorrDumpAt
      (fun c u => decide (1 ≤ fld c.params 2 2 ∧
        fld c.params 0 2 + fld c.params 2 2 ≤ 4096 ∧ 64 ≤ (u.dump.scheduled.filter (·.counted)).length))
      ({ ready with dump := { ready.dump with scheduled := List.replicate 64 ⟨0, 1, .idx 0, true, 0⟩ } }) (cmd ([0, 0, 0, 1] ++ zeros 12)) &&
    journalled specCorrMapDest
      (fun c u => decide (fld c.params 0 2 ≤ 4095 ∧ 1 ≤ fld c.params 2 2 ∧ fld c.params 0 2 + fld c.params 2 2 ≤ 4096 ∧
          fld c.params 4 1 ≤ 15) &&
        u.dumpsFit u.lastDumpSet u.dump.bufferMib ((List.range (fld c.params 2 2)).foldl
          (fun m i => kvSet 0 m (fld c.params 0 2 + i) (fld c.params 4 1)) u.dump.map) u.dump.dests)
      ready (cmd [15, 255, 0, 1, 15, 0, 0, 0]) &&
    taken specCorrGetDump (fun c _ => decide (fld c.params 0 2 ≤ 4095)) eth (cmd [15, 255])) = true := by decide

theorem witness_DestinationCommandsAct : (
    journalled specCorrSetDest
      (fun c u => (u.badDest c.params 256 15).isNone)
      ready (cmd ([15, 0, 0, 0, 0, 0, 0, 0, 0, 0, 0, 0, 32] ++ zeros 51)) &&
    journalled specBeamSetDest
      (fun c u => (u.badDest c.params 1024 15).isNone &&
        u.beamsFit u.beam.sets u.liveChains
          (kvSet Dest.init u.beam.dests (fld c.params 0 1) (destAt c.params)))
      eth (cmd ([15, 0, 0, 0, 0, 0, 0, 0, 0, 0, 0, 0, 32] ++ zeros 51)) &&
    journalled specCapSetDest
      (fun c u => (u.badDest c.params 1024 15).isNone)
      eth (cmd ([15, 0, 0, 0, 0, 0, 0, 0, 0, 0, 0, 0, 4] ++ zeros 51)) &&
    taken specCorrSetDest
      (fun c u => (u.badDest c.params 256 15).isSome)
      ready (cmd ([16, 0, 0, 0, 0, 0, 0, 0, 0, 0, 0, 0, 32] ++ zeros 51)) &&
    taken specBeamSetDest
      (fun c u => (u.badDest c.params 1024 15).isSome)
      ready (cmd ([16, 0, 0, 0, 0, 0, 0, 0, 0, 0, 0, 0, 4] ++ zeros 51))) = true := by decide

theorem witness_BeamCommandsAct : (
    journalled specBeamSetConfig
      (fun c u => let t := u.setBeamSet (fld c.params 0 1) ((u.beamSet (fld c.params 0 1)).configured c.params)
        (firstBad (u.beamChecks c.params)).isNone && !u.schedLive && (decide (fld c.params 1 1 ≠ 1) || !u.hbmAway) && !u.replaying &&
        (t.slotsSuffice || decide (t.bMaxNow ≤ u.bMaxNow)) && t.beamsFit t.beam.sets t.liveChains t.beam.dests && t.admitted)
      ({ ready with tile := { ready.tile with slots := [⟨some 0, false, 0, 0, 0⟩, ⟨some 1, false, 0, 0, 0⟩] } }) (cmd [15, 1, 1, 8, 0, 0, 0, 0, 0, 0, 16, 0, 0, 0, 0, 0, 15, 255, 0, 0]) &&
    taken specBeamLoadWeights
      (fun c u => let b := u.beamSet (fld c.params 0 1)
        decide (fld c.params 0 1 ≤ 15 ∧ fld c.params 1 1 ≤ 63 ∧ 64 * b.firstGroup ≤ fld c.params 4 2 ∧
          1 ≤ fld c.params 6 2 ∧ fld c.params 6 2 ≤ 512 ∧
          fld c.params 4 2 + fld c.params 6 2 ≤ 64 * b.firstGroup + 64 * b.groups ∧ b.swap = none ∧ b.owed = false) && (b.entryFor (fld c.params 2 2)).isSome)
      ({ ready with beam := { ready.beam with sets := [(3, { BeamSet.init with enable := true, groups := 1, shared := true, chan0 := 5, chanCount := 2 })] } }) (cmd [3, 63, 0, 0, 0, 63, 0, 1, 0, 0]) &&
    taken specBeamLoadWeights
      (fun c u => let b := u.beamSet (fld c.params 0 1)
        decide (fld c.params 0 1 ≤ 15 ∧ fld c.params 1 1 ≤ 63 ∧ 64 * b.firstGroup ≤ fld c.params 4 2 ∧
          1 ≤ fld c.params 6 2 ∧ fld c.params 6 2 ≤ 512 ∧
          fld c.params 4 2 + fld c.params 6 2 ≤ 64 * b.firstGroup + 64 * b.groups ∧ (b.swap ≠ none ∨ b.owed = true)) && (b.entryFor (fld c.params 2 2)).isSome)
      ({ ready with beam := { ready.beam with sets := [(3, { BeamSet.init with enable := true, groups := 1, shared := true, chan0 := 5, chanCount := 2, swap := some (.idx 0) })] } }) (cmd [3, 63, 0, 0, 0, 63, 0, 1, 0, 0]) &&
    taken specBeamLoadScale
      (fun c u => let b := u.beamSet (fld c.params 0 1)
        decide (fld c.params 0 1 ≤ 15 ∧ 1 ≤ fld c.params 4 2 ∧ fld c.params 1 1 + fld c.params 4 2 ≤ 64 ∧
          b.swap = none ∧ b.owed = false) && (b.entryFor (fld c.params 2 2)).isSome)
      ({ ready with beam := { ready.beam with sets := [(3, { BeamSet.init with enable := true, groups := 1, shared := true, chan0 := 5, chanCount := 2 })] } }) (cmd [3, 63, 0, 0, 0, 1, 0, 0, 0, 0, 0, 0]) &&
    taken specBeamApply
      (fun c u => (bitsOf 16 (fld c.params 0 2)).all (fun n => (u.beamSet n).enable) && !u.schedLive)
      ({ ready with beam := { ready.beam with sets := [(3, { BeamSet.init with enable := true, groups := 1, shared := true, chan0 := 5, chanCount := 2 })] } }) (cmd ([0, 8] ++ zeros 14)) &&
    taken specBeamApply
      (fun c u => (bitsOf 16 (fld c.params 0 2)).all (fun n => (u.beamSet n).enable) && u.schedLive &&
        (decide (fld c.params 8 8 = noIndex) || (bitsOf 16 (fld c.params 0 2)).all fun n =>
          (u.beamSet n).channels.all fun ch => !u.sampleTaken (.idx (fld c.params 8 8)) ch))
      ({ live with beam := { live.beam with sets := [(3, { BeamSet.init with enable := true, groups := 1, shared := true, chan0 := 5, chanCount := 2 })] } }) (cmd [0, 8, 0, 0, 0, 0, 0, 0, 255, 255, 255, 255, 255, 255, 255, 255]) &&
    taken specBeamApply
      (fun c u => (bitsOf 16 (fld c.params 0 2)).any fun n => !(u.beamSet n).enable)
      ({ ready with beam := { ready.beam with sets := [(3, { BeamSet.init with enable := true, groups := 1, shared := true, chan0 := 5, chanCount := 2 })] } }) (cmd ([0, 4] ++ zeros 14)) &&
    taken specBeamGetSet (fun c _ => decide (fld c.params 0 1 ≤ 15 ∧ fld c.params 1 1 ≤ 63)) ready (cmd [15, 63]) &&
    (fun (s : State) (_n : Nat) (_idx : Nat) => decide (s.schedLive = true)) live 0 0) = true := by decide

theorem witness_FilterCommandsAct : (
    journalled specFiltSetChain
      (fun c u => let p := c.params
        let x := chainAt p
        (firstBad (u.chainChecks p)).isNone && !u.chainOn (u.chain (fld p 0 1)) &&
        (u.tile.layout.isNone || decide ((u.chainDemand x).1 ≤ 16 * stepRate u.load.op * (u.chainDemand x).2)) &&
        u.beamsFit u.beam.sets (kvSet Chain.init u.liveChains (fld p 0 1) x) u.beam.dests)
      ({ ready with beam := { ready.beam with sets := [(3, { BeamSet.init with enable := true, groups := 1, shared := true, chan0 := 5, chanCount := 2 })] } }) (cmd ([31, 0, 3, 0, 0, 6, 63, 1, 1, 1, 15, 0, 1, 0, 64, 40] ++ zeros 16)) &&
    taken specFiltSetChain
      (fun c u => (firstBad (u.chainChecks c.params)).isNone && u.chainOn (u.chain (fld c.params 0 1)))
      ({ ready with beam := { ready.beam with sets := [(3, { BeamSet.init with enable := true, groups := 1, shared := true, chan0 := 5, chanCount := 2 })] }, filt := { ready.filt with chains := [(31, { Chain.init with configured := true, enable := ⟨true, []⟩ })] } }) (cmd ([31, 0, 3, 0, 0, 6, 63, 1, 1, 1, 15, 0, 1, 0, 64, 40] ++ zeros 16)) &&
    taken specFiltEnable
      (fun c u => decide (fld c.params 4 1 ≤ 1) &&
        (decide (fld c.params 4 1 = 0) || u.beamsFit u.beam.sets
          (u.filt.chains.filter fun e => e.2.configured && (u.chainEnabled e.2 || (bitsOf 32 (fld c.params 0 4)).contains e.1))
            u.beam.dests) &&
        !u.schedLive)
      ({ ready with filt := { ready.filt with chains := [(0, { Chain.init with configured := true })] } }) (cmd ([0, 0, 0, 1] ++ zeros 12)) &&
    taken specFiltEnable
      (fun c u => decide (fld c.params 4 1 ≤ 1) &&
        (decide (fld c.params 4 1 = 0) || u.beamsFit u.beam.sets
          (u.filt.chains.filter fun e => e.2.configured && (u.chainEnabled e.2 || (bitsOf 32 (fld c.params 0 4)).contains e.1))
            u.beam.dests) &&
        u.schedLive && !u.chainsTaken (fld c.params 0 4) (fld c.params 8 8))
      ({ live with filt := { live.filt with chains := [(0, { Chain.init with configured := true })] } }) (cmd [0, 0, 0, 1, 0, 0, 0, 0, 255, 255, 255, 255, 255, 255, 255, 255]) &&
    taken specFiltEnable (fun c _ => decide (1 < fld c.params 4 1)) ready (cmd ([0, 0, 0, 1, 2] ++ zeros 11)) &&
    taken specFiltSync
      (fun _ u => decide (u.filt.syncs.length + (u.er.raised.filter (·.producer = 187)).length < 16))
      ready (cmd (zeros 8)) &&
    taken specFiltSync
      (fun _ u => decide (16 ≤ u.filt.syncs.length + (u.er.raised.filter (·.producer = 187)).length))
      ({ ready with filt := { ready.filt with chains := [(0, { Chain.init with configured := true })], syncs := List.replicate 16 0 } }) (cmd (zeros 8)) &&
    taken specFiltLoadCoef
      (fun c u => decide (fld c.params 0 1 ≤ 31 ∧ fld c.params 1 1 ≤ 2 ∧ 1 ≤ fld c.params 4 2 ∧
          fld c.params 2 2 + fld c.params 4 2 ≤ 256 ∧ (u.chain (fld c.params 0 1)).swap = none) &&
        u.filt.owed.all (fun m => !bit m (fld c.params 0 1)) &&
        (List.range (fld c.params 4 2)).all fun i =>
          decide (-131072 ≤ sfld c.params (8 + 4 * i) 4 ∧ sfld c.params (8 + 4 * i) 4 ≤ 131071))
      ready (cmd [31, 2, 0, 255, 0, 1, 0, 0, 255, 254, 0, 0]) &&
    journalled specFiltApply (fun _ u => !u.schedLive) ready (cmd (zeros 16)) &&
    journalled specFiltApply
      (fun c u => u.schedLive && !u.chainsTaken (fld c.params 0 4) (fld c.params 8 8))
      live (cmd (zeros 16)) &&
    taken specFiltGetChain (fun c _ => decide (fld c.params 0 1 ≤ 31)) ready (cmd [31])) = true := by decide

theorem witness_TimeSourceCommandsAct : (
    journalled specTimeSetSource
      (fun c _ => let p := c.params
        decide (fld p 0 1 ≤ 1 ∧ fld p 1 1 ≤ 2 ∧ fld p 2 1 ≤ 1 ∧ 100 ≤ fld p 8 4 ∧ fld p 8 4 ≤ 1000000000 ∧ 10 ≤ fld p 12 4 ∧
          fld p 12 4 ≤ 1000000000 ∧ 10 ≤ fld p 16 2 ∧ fld p 16 2 ≤ 1000 ∧ 1 ≤ fld p 18 2 ∧
          (toSigned 40 (fld p 20 5)).natAbs ≤ 2 ^ 38))
      ready (cmd [1, 2, 1, 0, 0, 0, 0, 0, 59, 154, 202, 0, 0, 0, 0, 10, 3, 232, 0, 1, 192, 0, 0, 0, 0, 0, 0, 0]) &&
    taken specTimeSet
      (fun c u => decide (fld c.params 6 4 ≤ 999999999 ∧ fld c.params 12 1 = 1 ∧ u.qz.source.mode ≠ 2))
      ready (cmd [0, 0, 0, 0, 0, 0, 59, 154, 201, 255, 0, 0, 1, 0, 0, 0]) &&
    taken specTimeSet
      (fun c u => decide (fld c.params 6 4 ≤ 999999999 ∧ fld c.params 12 1 = 0 ∧ u.qz.source.mode ≠ 2))
      ready (cmd [0, 0, 0, 0, 0, 0, 59, 154, 201, 255, 0, 0, 0, 0, 0, 0]) &&
    taken specTimeSet
      (fun c u => decide (fld c.params 6 4 ≤ 999999999 ∧ fld c.params 12 1 ≤ 1 ∧ u.qz.source.mode = 2))
      ({ ready with qz := { ready.qz with source := { ready.qz.source with mode := 2 } } }) (cmd (zeros 16)) &&
    taken specTimeResync (fun c _ => decide (fld c.params 0 1 ≤ 3)) eth (cmd [2, 0, 0, 0, 0, 0, 0, 0]) &&
    taken specTimeResync (fun c _ => decide (3 < fld c.params 0 1)) ready (cmd [4, 0, 0, 0, 0, 0, 0, 0]) &&
    taken specTimeGetStatus (fun _ _ => true) ready (cmd []) &&
    (fun (s : State) (src : Nat) => decide (s.qz.resync = some src ∧ src ≤ 2))
      ({ ready with qz := { ready.qz with resync := some 2 } }) 2 &&
    (fun (s : State) => decide (s.qz.resync = some 3)) ({ ready with qz := { ready.qz with resync := some 3 } })) = true := by decide

theorem witness_TimePortCommandsAct : (
    journalled specTimeSetPtp
      (fun c _ => let p := c.params
        decide (fld p 0 1 ≤ 2 ∧ fld p 1 1 ≤ 127 ∧ -7 ≤ sfld p 2 1 ∧ sfld p 2 1 ≤ 1 ∧ -3 ≤ sfld p 3 1 ∧ sfld p 3 1 ≤ 3 ∧
          -7 ≤ sfld p 4 1 ∧ sfld p 4 1 ≤ 5 ∧ 2 ≤ fld p 5 1 ∧ fld p 5 1 ≤ 10 ∧ fld p 6 1 ≤ 1))
      ready (cmd [2, 127, 249, 253, 5, 10, 1, 0]) &&
    journalled specTimeSetPtpPort
      (fun c u => let p := c.params
        decide ((fld p 0 1 ≤ 79 ∨ fld p 0 1 = 0x80 ∨ fld p 0 1 = 0x81) ∧ fld p 1 1 ≤ 2 ∧ fld p 2 1 ≤ 2 ∧
          (fld p 1 1 = 0 ∨ (u.qz.ptp.ports.filter fun e => e.1 ≠ fld p 0 1 && e.2.role ≠ 0).length < 16)) && u.ptpAble (fld p 0 1))
      eth (cmd ([129, 2, 2] ++ zeros 13)) &&
    journalled specTimeSetPulse
      (fun c u => let p := c.params
        decide (fld p 0 1 ≤ 7 ∧ fld p 1 1 ≤ 3 ∧ fld p 4 4 < 2 ^ 18 ∧ (fld p 1 1 = 1 → fld p 14 4 ≤ 999999999) ∧
          (fld p 1 1 = 3 → 100 ≤ fld p 20 4 ∧ fld p 20 4 ≤ 1000000000) ∧ 4 ≤ fld p 40 4 ∧
          (fld p 32 8 = 0 ∨ fld p 40 4 * 65536 < fld p 32 8)) &&
        ((List.range 16).all fun n => !bit (fld p 4 4) (n + 2) || (u.evtPin n).output) &&
        (decide (fld p 1 1 ≠ 1) || decide (u.now + 1000 * 65536 < (instantAt p 8).units)) &&
        (decide (fld p 1 1 ≠ 2) || (match u.instantOfIndex (fld p 24 8) with
          | some t => decide (u.now + 1000 * 65536 < t)
          | none => false)))
      eth (cmd [7, 1, 0, 0, 0, 0, 0, 3, 0, 0, 0, 0, 0, 0, 59, 154, 201, 255, 0, 0, 0, 0, 0, 0, 0, 0, 0, 0, 0, 0, 0, 0, 0, 0, 0, 0, 0, 5, 0, 0, 0, 0, 0, 4, 0, 0, 0, 0]) &&
    taken specTimeSetPulse
      (fun c u => let p := c.params
        decide (fld p 0 1 ≤ 7 ∧ fld p 1 1 = 1 ∧ fld p 4 4 < 4 ∧ fld p 14 4 ≤ 999999999 ∧ 4 ≤ fld p 40 4 ∧
          (fld p 32 8 = 0 ∨ fld p 40 4 * 65536 < fld p 32 8) ∧ (instantAt p 8).units ≤ u.now + 1000 * 65536) && !u.replaying)
      ({ ready with qz := { ready.qz with r0 := { ready.qz.r0 with time := 2 ^ 90 }, r1 := { ready.qz.r1 with time := 2 ^ 90 } } }) (cmd [7, 1, 0, 0, 0, 0, 0, 3, 0, 0, 0, 0, 0, 0, 59, 154, 201, 255, 0, 0, 0, 0, 0, 0, 0, 0, 0, 0, 0, 0, 0, 0, 0, 0, 0, 0, 0, 5, 0, 0, 0, 0, 0, 4, 0, 0, 0, 0]) &&
    journalled specTimeSetEvt
      (fun c u => decide (fld c.params 0 1 ≤ 15 ∧ fld c.params 1 1 ≤ 1 ∧ 1 ≤ fld c.params 2 1 ∧ fld c.params 2 1 ≤ 3) &&
        u.queueOk (fld c.params 4 2) 6 && (decide (fld c.params 1 1 = 1) || !(u.evtPin (fld c.params 0 1)).output))
      eth (cmd [15, 1, 3, 0, 255, 255, 0, 0]) &&
    journalled specTimeSetEvt
      (fun c u => decide (fld c.params 0 1 ≤ 15 ∧ fld c.params 1 1 = 0 ∧ 1 ≤ fld c.params 2 1 ∧ fld c.params 2 1 ≤ 3) &&
        u.queueOk (fld c.params 4 2) 6 && (u.evtPin (fld c.params 0 1)).output)
      ({ ready with qz := { ready.qz with evt := [(15, { EvtPin.init with output := true })] } }) (cmd [15, 0, 3, 0, 255, 255, 0, 0])) = true := by decide

theorem witness_MappingCommandsAct : (
    journalled specTimeSetMapping
      (fun c u => let p := c.params
        decide (fld p 14 4 ≤ 999999999 ∧ 1 ≤ fld p 20 4 ∧ 1 ≤ fld p 24 8 ∧ fld p 24 8 ≤ 2 ^ 48 ∧ fld p 20 4 ≤ fld p 24 8 ∧
          fld p 24 8 ≤ 1450000000 * fld p 20 4) &&
        (!u.schedLive || (match u.qz.mapping with
          | some m => decide (m.num * fld p 20 4 = fld p 24 8 * m.den)
          | none => false)))
      eth (cmd [0, 0, 0, 0, 0, 0, 0, 0, 0, 0, 0, 0, 0, 0, 59, 154, 201, 255, 0, 0, 0, 0, 0, 1, 0, 0, 0, 0, 86, 109, 62, 128]) &&
    journalled specTimeSetMapping
      (fun c u => decide (fld c.params 14 4 ≤ 999999999 ∧ 1 ≤ fld c.params 20 4 ∧ fld c.params 24 8 = 0) &&
        (!u.schedLive || u.qz.mapping.isNone))
      eth (cmd ([0, 0, 0, 0, 0, 0, 0, 0, 0, 0, 0, 0, 0, 0, 0, 0, 0, 0, 0, 0, 0, 0, 0, 1] ++ zeros 8)) &&
    taken specTimeSetMapping
      (fun c u => decide (fld c.params 14 4 ≤ 999999999 ∧ 1 ≤ fld c.params 20 4 ∧ fld c.params 24 8 = 0) && u.schedLive &&
        u.qz.mapping.isSome)
      ({ live with qz := { live.qz with mapping := some ⟨0, 0, 1, 1⟩ } }) (cmd ([0, 0, 0, 0, 0, 0, 0, 0, 0, 0, 0, 0, 0, 0, 0, 0, 0, 0, 0, 0, 0, 0, 0, 1] ++ zeros 8)) &&
    taken specTimeConvert (fun c u => decide (fld c.params 0 1 = 0) && !u.qz.convFail) eth (cmd (zeros 24)) &&
    taken specTimeConvert
      (fun c u => decide (fld c.params 0 1 = 1 ∧ fld c.params 18 4 ≤ 999999999) && !u.qz.convFail)
      eth (cmd [1, 0, 0, 0, 0, 0, 0, 0, 0, 0, 0, 0, 0, 0, 0, 0, 0, 1, 0, 0, 0, 0, 0, 0]) &&
    taken specTimeConvert
      (fun c u => decide (fld c.params 0 1 ≤ 1 ∧ (fld c.params 0 1 = 0 ∨ fld c.params 18 4 ≤ 999999999)) && u.qz.convFail)
      ({ ready with qz := { ready.qz with convFail := true } }) (cmd (zeros 24)) &&
    journalled specTimeSetEpoch
      (fun c u => !u.schedLive && epochLenOk (fld c.params 0 8) (u.tile.layout.map (·.dwell)))
      laid (cmd [0, 0, 0, 0, 1, 0, 0, 0]) &&
    taken specTimeSetEpoch
      (fun c u => !epochLenOk (fld c.params 0 8) (u.tile.layout.map (·.dwell)))
      laid (cmd [0, 0, 0, 0, 1, 0, 1, 0]) &&
    taken specTimeLoadDelay
      (fun c u => decide (fld c.params 0 2 < 4096 ∧ 1 ≤ fld c.params 2 2 ∧ fld c.params 2 2 ≤ 26 ∧
          fld c.params 0 2 + fld c.params 2 2 ≤ 4096) &&
        (List.range (fld c.params 2 2)).all (fun e => decide (fld c.params (8 + 48 * e) 1 ≤ 1)) && !u.schedPending u.qz.delay)
      ready (cmd ([15, 255, 0, 1, 0, 0, 0, 0, 1] ++ zeros 47)) &&
    taken specTimeApplyDelay (fun _ u => !u.schedLive) ready (cmd (zeros 8)) &&
    taken specTimeApplyDelay
      (fun c u => u.schedLive && (decide (fld c.params 0 8 = noIndex) ||
        (decide (u.tile.start ≤ fld c.params 0 8 ∧ (fld c.params 0 8 - u.tile.start) % u.epochSpan = 0) &&
          !u.indexPast (fld c.params 0 8))))
      live (cmd (zeros 8)) &&
    taken specTimeApplyDelay
      (fun c u => u.schedLive && decide (fld c.params 0 8 ≠ noIndex ∧ u.tile.start ≤ fld c.params 0 8 ∧
        (fld c.params 0 8 - u.tile.start) % u.epochSpan ≠ 0))
      live (cmd [0, 0, 0, 0, 0, 0, 0, 1])) = true := by decide

theorem witness_FreranCommandsAct : (
    journalled specFreranSetNode
      (fun c _ => decide (fld c.params 0 1 ≤ 2 ∧ (fld c.params 0 1 = 1 → fld c.params 1 1 ≤ 7) ∧ fld c.params 3 1 ≤ 1 ∧
        65536 ≤ fld c.params 4 4 ∧ 1 ≤ fld c.params 8 4 ∧ fld c.params 8 4 ≤ 10000000))
      ready (cmd [2, 255, 0, 1, 0, 1, 0, 0, 0, 152, 150, 128]) &&
    journalled specFreranSetPort
      (fun c _ => decide (fld c.params 0 1 ≤ 1 ∧ fld c.params 1 1 = 1))
      eth (cmd [0, 1, 0, 0, 0, 0, 0, 0]) &&
    journalled specFreranSetPort
      (fun c _ => decide (fld c.params 0 1 ≤ 1 ∧ fld c.params 1 1 = 0))
      eth (cmd [1, 0, 0, 0, 0, 0, 0, 0]) &&
    taken specFreranArm
      (fun c u => u.frMaster && decide (fld c.params 0 1 = 1 ∧ u.fr.gen < fld c.params 4 4))
      ({ ready with fr := { ready.fr with mode := 1, node := 0, master := 0, gen := 7 } }) (cmd [1, 0, 0, 0, 0, 0, 0, 8]) &&
    taken specFreranArm
      (fun c u => u.frMaster && decide (fld c.params 0 1 = 1 ∧ fld c.params 4 4 ≤ u.fr.gen))
      ({ ready with fr := { ready.fr with mode := 1, node := 0, master := 0, gen := 7 } }) (cmd [1, 0, 0, 0, 0, 0, 0, 7]) &&
    taken specFreranArm (fun _ u => !u.frMaster) ready (cmd [1, 0, 0, 0, 0, 0, 0, 0]) &&
    taken specFreranArm
      (fun c u => u.frMaster && decide (fld c.params 0 1 = 0))
      ({ ready with fr := { ready.fr with mode := 1, node := 0, master := 0, gen := 7 } }) (cmd (zeros 8)) &&
    taken specFreranArm
      (fun c u => u.frMaster && decide (1 < fld c.params 0 1))
      ({ ready with fr := { ready.fr with mode := 1, node := 0, master := 0, gen := 7 } }) (cmd [2, 0, 0, 0, 0, 0, 0, 0]) &&
    taken specFreranGetStatus (fun _ _ => true) ready (cmd []) &&
    (fun (s : State) (_g : Nat) => decide (s.fr.windows = [])) ready 0 &&
    (fun (s : State) (g : Nat) (h : Nat) (x : Nat) (l : List Fire) => decide (s.fr.windows = [(h, x, l)] ∧
        h ≠ g))
      ({ ready with fr := { ready.fr with windows := [(1, 5, [])] } }) 0 1 5 ([])) = true := by decide

theorem witness_CaptureCommandsAct : (
    journalled specCapSetSegment
      (fun c u => let p := c.params
        decide (fld p 0 1 ≤ 2 ∧ fld p 2 2 ≤ 1000 ∧ fld p 4 4 ≤ 2 ^ 24 ∧ fld p 4 4 % 256 = 0 ∧ 256 ≤ fld p 8 4 ∧
          fld p 8 4 ≤ 2 ^ 24 ∧ fld p 8 4 % 256 = 0 ∧ fld p 12 4 ≤ 2 ^ 24 ∧ fld p 12 4 % 256 = 0 ∧
          (fld p 0 1 = 2 → 256 ≤ fld p 16 4)) && decide (u.cap.mode = .disarmed) &&
        (u.tile.layout.isNone || u.cap.sel.fits u.ringReserve (fld p 4 4) (fld p 8 4)))
      ready (cmd ([2, 0, 3, 232, 1, 0, 0, 0, 1, 0, 0, 0, 1, 0, 0, 0, 0, 0, 1] ++ zeros 13)) &&
    taken specCapSetSegment
      (fun c u => let p := c.params
        decide (fld p 0 1 ≤ 2 ∧ fld p 2 2 ≤ 1000 ∧ fld p 4 4 ≤ 2 ^ 24 ∧ fld p 4 4 % 256 = 0 ∧ 256 ≤ fld p 8 4 ∧
          fld p 8 4 ≤ 2 ^ 24 ∧ fld p 8 4 % 256 = 0 ∧ fld p 12 4 ≤ 2 ^ 24 ∧ fld p 12 4 % 256 = 0 ∧
          (fld p 0 1 = 2 → 256 ≤ fld p 16 4)) && decide (u.cap.mode ≠ .disarmed))
      ({ ready with cap := { ready.cap with mode := .armed } }) (cmd ([1, 0, 3, 232, 1, 0, 0, 0, 1, 0, 0, 0, 1, 0, 0, 0, 0, 0, 1] ++ zeros 13)) &&
    taken specCapSetSegment
      (fun c u => let p := c.params
        decide (fld p 0 1 ≤ 2 ∧ fld p 2 2 ≤ 1000 ∧ fld p 4 4 ≤ 2 ^ 24 ∧ fld p 4 4 % 256 = 0 ∧ 256 ≤ fld p 8 4 ∧
          fld p 8 4 ≤ 2 ^ 24 ∧ fld p 8 4 % 256 = 0 ∧ fld p 12 4 ≤ 2 ^ 24 ∧ fld p 12 4 % 256 = 0 ∧
          (fld p 0 1 = 2 → 256 ≤ fld p 16 4)) && decide (u.cap.mode = .disarmed) && u.tile.layout.isSome && !u.replaying &&
        !u.cap.sel.fits u.ringReserve (fld p 4 4) (fld p 8 4))
      ({ laid with cap := { laid.cap with sel := ⟨1, 0, 1, 0, 1⟩ } }) (cmd ([2, 0, 3, 232, 1, 0, 0, 0, 1, 0, 0, 0, 1, 0, 0, 0, 0, 0, 1] ++ zeros 13)) &&
    journalled specCapSetDetector
      (fun c u => let p := c.params
        let chain := u.chain (fld p 2 1)
        let pin := u.evtPin (fld p 4 1)
        decide (fld p 0 1 ≤ 63 ∧ fld p 1 1 ≤ 2 ∧ fld p 2 1 ≤ 31 ∧ fld p 4 1 ≤ 15 ∧ fld p 5 1 ≤ 1 ∧ fld p 6 1 ≤ 1) &&
        (decide (fld p 1 1 ≠ 1) || (chain.configured && chain.detected && chain.toFlint &&
          decide (fld p 3 1 < chain.series ∧ sfld p 8 8 < sfld p 16 8))) &&
        (decide (fld p 1 1 ≠ 2) || (!pin.output &&
          (if fld p 5 1 = 1 then decide (pin.edges = 3) else bit pin.edges (fld p 6 1)))))
      ({ ready with filt := { ready.filt with chains := [(31, { Chain.init with configured := true, detected := true, toFlint := true, series := 4 })] } }) (cmd ([63, 1, 31, 3, 0, 0, 0, 0, 255, 255, 255, 255, 255, 255, 255, 255] ++ zeros 16)) &&
    taken specCapArm (fun c u => decide (fld c.params 0 1 = 1 ∧ u.cap.mode = .disarmed)) eth (cmd ([1] ++ zeros 15)) &&
    taken specCapArm
      (fun c u => decide (fld c.params 0 1 = 1 ∧ u.cap.mode ≠ .disarmed))
      ({ ready with cap := { ready.cap with mode := .armed } }) (cmd ([1] ++ zeros 15)) &&
    taken specCapArm
      (fun c u => decide (fld c.params 0 1 = 0 ∧ u.cap.mode = .armed))
      ({ ready with cap := { ready.cap with mode := .armed } }) (cmd (zeros 16)) &&
    taken specCapArm (fun c u => decide (fld c.params 0 1 = 0 ∧ u.cap.mode = .disarmed)) eth (cmd (zeros 16)) &&
    taken specCapArm
      (fun c u => decide (fld c.params 0 1 = 0 ∧ (u.cap.mode = .deciding ∨ u.cap.mode = .capturing)))
      ({ ready with cap := { ready.cap with mode := .deciding } }) (cmd (zeros 16)) &&
    taken specCapArm (fun c _ => decide (1 < fld c.params 0 1)) ready (cmd ([2] ++ zeros 15)) &&
    taken specCapTrigger
      (fun c u => decide (fld c.params 0 1 = 0 ∧ fld c.params 8 8 ≠ noIndex ∧ u.cap.mode = .disarmed))
      eth (cmd [0, 0, 0, 0, 0, 0, 0, 0, 255, 255, 255, 255, 255, 255, 255, 254]) &&
    taken specCapTrigger
      (fun c u => decide (fld c.params 0 1 = 0 ∧ fld c.params 8 8 ≠ noIndex ∧ u.cap.mode ≠ .disarmed ∧ fld c.params 8 8 < u.cap.rearm))
      ({ ready with cap := { ready.cap with mode := .armed, rearm := 10 } }) (cmd [0, 0, 0, 0, 0, 0, 0, 0, 0, 0, 0, 0, 0, 0, 0, 9]) &&
    taken specCapTrigger
      (fun c u => decide (fld c.params 0 1 = 0 ∧ fld c.params 8 8 ≠ noIndex ∧ u.cap.mode ≠ .disarmed ∧ u.cap.rearm ≤ fld c.params 8 8) &&
        (match u.cap.disarmAt with | some x => decide (x ≤ fld c.params 8 8) | none => false))
      ({ ready with cap := { ready.cap with mode := .armed, disarmAt := some 5 } }) (cmd [0, 0, 0, 0, 0, 0, 0, 0, 0, 0, 0, 0, 0, 0, 0, 5]) &&
    taken specCapTrigger
      (fun c u => decide (fld c.params 0 1 = 0 ∧ fld c.params 8 8 ≠ noIndex ∧ u.cap.mode ≠ .disarmed ∧ u.cap.rearm ≤ fld c.params 8 8) &&
        (match u.cap.disarmAt with | some x => decide (fld c.params 8 8 < x) | none => true))
      ({ ready with cap := { ready.cap with mode := .armed } }) (cmd [0, 0, 0, 0, 0, 0, 0, 0, 0, 0, 0, 0, 0, 0, 0, 5]) &&
    taken specCapTrigger (fun c _ => decide (fld c.params 0 1 ≠ 0)) ready (cmd ([1] ++ zeros 15)) &&
    taken specCapTrigger
      (fun c _ => decide (fld c.params 0 1 = 0 ∧ fld c.params 8 8 = noIndex))
      ready (cmd [0, 0, 0, 0, 0, 0, 0, 0, 255, 255, 255, 255, 255, 255, 255, 255]) &&
    taken specCapGetStatus (fun c _ => decide (fld c.params 0 1 ≤ 63)) ready (cmd [63])) = true := by decide

theorem witness_EventCommandsAct : (
    journalled specEventSetRoute
      (fun c _ => decide (fld c.params 0 1 ≤ 127 ∧ fld c.params 2 1 ≤ 15))
      ready (cmd [127, 255, 15, 0]) &&
    journalled specEventSetMode (fun c _ => decide (fld c.params 0 1 ≤ 1)) ready (cmd [1]) &&
    taken specEventSetMode (fun c _ => decide (1 < fld c.params 0 1)) ready (cmd [2]) &&
    taken specEventFire (fun c _ => decide (fld c.params 0 1 ≤ 15)) ready (cmd ([15] ++ zeros 15)) &&
    journalled specEventSetQueue
      (fun c u => u.queueOk (fld c.params 2 2) 6 && decide (fld c.params 2 2 < 4096 ∨ fld c.params 2 2 = 0xFFFF))
      ready (cmd [0, 0, 255, 255]) &&
    taken specEventGetStatus (fun c _ => decide (fld c.params 1 1 ≤ 127)) ready (cmd [255, 127])) = true := by decide

theorem witness_OwnershipCommandsAct : (
    taken specOwnClaim
      (fun c u => decide ((fld c.params 0 4 = 0 ∨ 100 ≤ fld c.params 0 4 ∧ fld c.params 0 4 ≤ 60000) ∧ u.own.mode = .unowned) &&
        bit u.own.policy.epMask c.client.ep.val)
      unowned (cmd ([0, 0, 0, 100] ++ zeros 12)) &&
    taken specOwnClaim
      (fun c u => decide ((fld c.params 0 4 = 0 ∨ 100 ≤ fld c.params 0 4 ∧ fld c.params 0 4 ≤ 60000) ∧ u.own.mode ≠ .unowned ∧
        u.own.owner = some c.client) && bit u.own.policy.epMask c.client.ep.val)
      eth (cmd ([0, 0, 0, 100] ++ zeros 12)) &&
    taken specOwnClaim
      (fun c u => decide (100 ≤ fld c.params 0 4 ∧ fld c.params 0 4 ≤ 60000 ∧ u.own.mode = .owned ∧
        u.own.owner ≠ some c.client ∧ u.own.successor = none) && !bit (fld c.params 4 1) 0)
      other (cmd ([0, 0, 0, 100] ++ zeros 12)) &&
    taken specOwnClaim
      (fun c u => decide (100 ≤ fld c.params 0 4 ∧ fld c.params 0 4 ≤ 60000 ∧ u.own.mode = .handover ∧
          u.own.owner ≠ some c.client ∧ u.own.successor = some (c.client, fld c.params 8 8)) &&
        bit u.own.policy.epMask c.client.ep.val && !bit (fld c.params 4 1) 0)
      ({ other with own := { other.own with mode := .handover, successor := some (cli, 9) } }) (cmd [0, 0, 0, 100, 0, 0, 0, 0, 0, 0, 0, 0, 0, 0, 0, 9]) &&
    taken specOwnRelease (fun _ _ => true) ready (cmd []) &&
    taken specOwnHandover
      (fun c u => decide (fld c.params 0 1 ≤ 2 ∧ (fld c.params 0 1 = 0 → fld c.params 1 1 = 0 ∧ fld c.params 2 2 < 4096) ∧
        (fld c.params 0 1 ≠ 0 → fld c.params 1 1 = 4 ∨ fld c.params 1 1 = 6) ∧ fld c.params 24 8 ≠ 0 ∧
        u.own.owner ≠ some (successorOf c.params)))
      ready (cmd [0, 0, 15, 255, 0, 0, 0, 0, 0, 0, 0, 0, 0, 0, 0, 0, 0, 0, 0, 0, 0, 0, 0, 0, 0, 0, 0, 0, 0, 0, 0, 1]) &&
    taken specOwnHandover
      (fun c _ => decide (fld c.params 0 1 = 0 ∧ fld c.params 1 1 = 0 ∧ fld c.params 2 2 < 4096 ∧ fld c.params 24 8 = 0))
      ready (cmd ([0, 0, 15, 255] ++ zeros 28)) &&
    taken specOwnSetLease
      (fun c _ => decide (100 ≤ fld c.params 0 4 ∧ fld c.params 0 4 ≤ 60000))
      ready (cmd [0, 0, 234, 96]) &&
    taken specOwnSetLease
      (fun c _ => decide (fld c.params 0 4 < 100 ∨ 60000 < fld c.params 0 4))
      ready (cmd [0, 0, 234, 97]) &&
    journalled specOwnSetPolicy
      (fun c _ => decide (fld c.params 1 1 ≤ 1 ∧ fld c.params 2 1 ≤ 1 ∧ 100 ≤ fld c.params 4 4 ∧ fld c.params 4 4 ≤ 60000))
      ready (cmd [255, 1, 1, 0, 0, 0, 234, 96]) &&
    taken specOwnClaim
      (fun c u => decide (fld c.params 0 4 = 0 ∨ 100 ≤ fld c.params 0 4 ∧ fld c.params 0 4 ≤ 60000) &&
        decide (u.own.mode = .handover ∧ u.own.owner ≠ some c.client) && bit u.own.policy.epMask c.client.ep.val &&
        !bit (fld c.params 4 1) 0 && u.own.successor.any fun x => decide (x.1 ≠ c.client))
      ({ other with own := { other.own with mode := .handover, successor := some ({ cli with port := 6 }, 9) } }) (cmd ([0, 0, 0, 100] ++ zeros 12)) &&
    taken specOwnClaim
      (fun c u => decide (fld c.params 0 4 = 0 ∨ 100 ≤ fld c.params 0 4 ∧ fld c.params 0 4 ≤ 60000) &&
        decide (u.own.mode = .handover ∧ u.own.owner ≠ some c.client) && bit u.own.policy.epMask c.client.ep.val &&
        !bit (fld c.params 4 1) 0 && u.own.successor.any fun x => decide (x.1 = c.client ∧ x.2 ≠ fld c.params 8 8))
      ({ other with own := { other.own with mode := .handover, successor := some (cli, 9) } }) (cmd ([0, 0, 0, 100] ++ zeros 12)) &&
    taken specOwnClaim
      (fun c u => decide (fld c.params 0 4 = 0 ∨ 100 ≤ fld c.params 0 4 ∧ fld c.params 0 4 ≤ 60000) &&
        !bit u.own.policy.epMask c.client.ep.val)
      ({ unowned with own := { unowned.own with policy := { unowned.own.policy with epMask := 5 } } }) (cmd ([0, 0, 0, 100] ++ zeros 12)) &&
    taken specOwnClaim
      (fun c u => decide (fld c.params 0 4 = 0 ∨ 100 ≤ fld c.params 0 4 ∧ fld c.params 0 4 ≤ 60000) &&
        decide (u.own.mode = .owned ∧ u.own.owner ≠ some c.client ∧ u.own.successor = none) && bit (fld c.params 4 1) 0 &&
        (!u.own.policy.preempt || c.sig.isNone))
      other (cmd ([0, 0, 0, 100, 1] ++ zeros 11)) &&
    taken specOwnGetChallenge (fun _ _ => true) ready (cmd []) &&
    taken specOwnGetStatus (fun c _ => decide (fld c.params 0 1 ≤ 3)) ready (cmd [3]) &&
    taken specOwnGetStatus (fun c _ => decide (3 < fld c.params 0 1)) ready (cmd [4]) &&
    (fun (u : State) (c : Cmd) => decide ((fld c.params 0 4 = 0 ∨ 100 ≤ fld c.params 0 4 ∧
        fld c.params 0 4 ≤ 60000) ∧ u.own.mode ≠ .unowned ∧ u.own.owner ≠ some c.client ∧
        bit u.own.policy.epMask c.client.ep.val = true ∧ bit (fld c.params 4 1) 0 = true ∧
        u.own.policy.preempt = true ∧ c.sig.isSome = true))
      ({ other with own := { other.own with policy := { other.own.policy with preempt := true } } }) ({ cmd ([0, 0, 0, 100, 1] ++ zeros 11) with sig := some ⟨0, 0, 0⟩ })) = true := by decide

theorem witness_KeepaliveOnlyRenews : (
    taken specOwnKeepalive (fun _ _ => true) ready (cmd []) &&
    (fun (p : List Byte) => decide (p ≠ [])) ([0])) = true := by decide

theorem witness_DeviceCommandsAct : (
    taken specDevGetInfo (fun _ _ => true) ready (cmd []) &&
    taken specDevGetStatus (fun _ _ => true) ready (cmd []) &&
    taken specDevQueryOpcode
      (fun c _ => decide (1 ≤ fld c.params 2 1 ∧ fld c.params 2 1 ≤ 2) &&
        (if fld c.params 2 1 = 1 then rowOfV1 (fld c.params 0 2 % 256) else rowOf (fld c.params 0 2)).isNone)
      eth (cmd [255, 255, 2, 0]) &&
    taken specDevQueryOpcode
      (fun c _ => decide (1 ≤ fld c.params 2 1 ∧ fld c.params 2 1 ≤ 2) &&
        (if fld c.params 2 1 = 1 then rowOfV1 (fld c.params 0 2 % 256) else rowOf (fld c.params 0 2)).isSome)
      ready (cmd [1, 2, 2, 0]) &&
    taken specDevQueryOpcode
      (fun c _ => decide (fld c.params 2 1 < 1 ∨ 2 < fld c.params 2 1))
      ready (cmd [0, 0, 3, 0]) &&
    journalled specDevSetMgmt
      (fun c u => decide (fld c.params 0 1 ≤ 1 ∧ fld c.params 1 1 ≤ 2 ∧ fld c.params 2 2 ≤ 4094 ∧
        fld c.params 4 6 / 2 ^ 40 % 2 = 0) && ipv6Settable (slice c.params 16 16) && !u.replaying)
      ready (cmd ([1, 2, 15, 254] ++ zeros 28)) &&
    taken specDevGetMgmt (fun c _ => decide (fld c.params 0 1 ≤ 1)) ready (cmd [1]) &&
    taken specDevGetMgmt (fun c _ => decide (1 < fld c.params 0 1)) ready (cmd [2]) &&
    journalled specDevSetLabel (fun _ _ => true) ready (cmd (zeros 32))) = true := by decide

theorem witness_EchoReturnsItsParameters : (
    taken specDiagEcho (fun _ _ => true) ready (cmd [1, 2, 3])) = true := by decide

theorem witness_DiagnosticCommandsAct : (
    taken specDiagReadCsr
      (fun c _ => (badCsrRange (fld c.params 0 8) (fld c.params 8 2)).isNone)
      ready (cmd [0, 0, 0, 0, 143, 255, 255, 248, 0, 1, 0, 0, 0, 0, 0, 0]) &&
    taken specDiagWriteCsr
      (fun c _ => (badCsrRange (fld c.params 0 8) (fld c.params 8 2)).isNone)
      ready (cmd ([0, 0, 0, 0, 143, 255, 255, 248, 0, 1] ++ zeros 14)) &&
    taken specDiagReadMem
      (fun c u => (u.badMemRange (fld c.params 0 8) (fld c.params 8 2)).isNone)
      ready (cmd [0, 0, 0, 16, 0, 0, 0, 0, 4, 0, 0, 0, 0, 0, 0, 0]) &&
    taken specDiagWriteMem
      (fun c u => (u.badMemRange (fld c.params 0 8) (fld c.params 8 2)).isNone)
      ready (cmd [0, 0, 0, 16, 0, 0, 0, 0, 0, 1, 0, 0, 0, 0, 0, 0, 0]) &&
    taken specDiagBatch
      (fun c _ => match batchEntries c.params (fld c.params 0 1) 8 with
        | .ok (_, fin) => decide (fin = c.params.length) && decide (1 ≤ fld c.params 0 1 ∧ fld c.params 0 1 ≤ 16) &&
          decide (8 ≤ c.params.length)
        | .error _ => false)
      ready (cmd [1, 0, 0, 0, 0, 0, 0, 0, 1, 2, 0, 0])) = true := by decide

theorem witness_MemoryIsReportedAndScrubbed : (
    taken specMemGetErrors (fun _ _ => true) ready (cmd []) &&
    taken specMemGetStats (fun c _ => decide (fld c.params 0 1 ≤ 3)) ready (cmd [3]) &&
    taken specMemGetStats (fun c _ => decide (3 < fld c.params 0 1)) ready (cmd [4]) &&
    (fun (s : State) (h : Fin 4) => decide (s.domainOn (76 + h.val) = true ∧
        kvGet 0 (s.mem.hc h.val).parity (scrubUnit h.val (s.mem.hc h.val).scrubPos) = 0 ∧
        kvGet 0 s.mem.bad (scrubUnit h.val (s.mem.hc h.val).scrubPos) = 0 ∧
        (s.mem.hc h.val).scrubPos + 1 < stackUnits))
      ready 3 &&
    (fun (s : State) (h : Fin 4) => decide (s.domainOn (76 + h.val) = true ∧
        kvGet 0 (s.mem.hc h.val).parity (scrubUnit h.val (s.mem.hc h.val).scrubPos) = 0 ∧
        kvGet 0 s.mem.bad (scrubUnit h.val (s.mem.hc h.val).scrubPos) = 0 ∧
        (s.mem.hc h.val).scrubPos + 1 = stackUnits))
      ({ ready with mem := { ready.mem with hc3 := { ready.mem.hc3 with scrubPos := stackUnits - 1 } } }) 3 &&
    (fun (s : State) (h : Fin 4) => let unit : Nat := scrubUnit h.val (s.mem.hc h.val).scrubPos; let bad : Nat := kvGet 0 s.mem.bad unit; let _u : State := (((s.grant 15).bumpHc h.val fun c => { c with reads := c.reads + 1, scrubPos := (s.mem.hc h.val).scrubPos + 1, scrubPasses := c.scrubPasses + 0 }).bumpHc h.val fun c => { c with ceCount := c.ceCount + (bitsOf 4 (bad % 16)).length }).countWrite unit; decide (s.domainOn (76 + h.val) = true ∧
        kvGet 0 (s.mem.hc h.val).parity unit = 0 ∧ bad % 16 ≠ 0 ∧ bad / 16 % 16 = 0 ∧
        (s.mem.hc h.val).scrubPos + 1 < stackUnits))
      ({ ready with mem := { ready.mem with bad := [(scrubUnit 3 0, 5)] } }) 3 &&
    (fun (s : State) (h : Fin 4) => let unit : Nat := scrubUnit h.val (s.mem.hc h.val).scrubPos; let bad : Nat := kvGet 0 s.mem.bad unit; decide (s.domainOn (76 + h.val) = true ∧
        kvGet 0 (s.mem.hc h.val).parity unit = 0 ∧ bad / 16 % 16 ≠ 0 ∧
        (s.mem.hc h.val).scrubPos + 1 < stackUnits))
      ({ ready with mem := { ready.mem with bad := [(scrubUnit 3 0, 17)] } }) 3 &&
    (fun (s : State) (h : Fin 4) => decide (s.domainOn (76 + h.val) = false)) (State.reset) 0 &&
    (fun (s : State) (h : Fin 4) => let unit : Nat := scrubUnit h.val (s.mem.hc h.val).scrubPos; let n : Nat := kvGet 0 (s.mem.hc h.val).parity unit; decide (s.domainOn (76 + h.val) = true ∧
        stackOf unit = h.val ∧ 0 < n))
      ({ ready with mem := { ready.mem with hc3 := { ready.mem.hc3 with parity := [(scrubUnit 3 0, 1)] } } }) 3) = true := by decide

theorem witness_RingAndDmaCommandsAct : (
    taken specRingCreate
      (fun c u => decide (((8 ≤ fld c.params 0 2 ∧ fld c.params 0 2 < 4096) ∨ fld c.params 0 2 = 0xFFFF) ∧
          fld c.params 2 1 ≤ 6 ∧ 1 ≤ fld c.params 4 1 ∧ fld c.params 4 1 ≤ 16 ∧
          ((16 ≤ fld c.params 8 2 ∧ fld c.params 8 2 < 2048) ∨ fld c.params 8 2 = 0xFFFF) ∧
          fld c.params 24 8 % 8 = 0 ∧ fld c.params 24 8 < 2 ^ 48) &&
        esizeOk (fld c.params 2 1) (fld c.params 3 1) && u.baseOk (fld c.params 16 8) &&
        (decide (fld c.params 2 1 ≠ 0) || u.pairOk (fld c.params 0 2) (fld c.params 6 2) (fld c.params 4 1)) &&
        (u.queuePlace (fld c.params 0 2)).any fun n => !(u.queue n).enable)
      ready (cmd [15, 255, 1, 11, 16, 0, 0, 0, 7, 255, 0, 0, 0, 0, 0, 0, 0, 0, 1, 0, 0, 0, 0, 0, 0, 0, 255, 255, 255, 255, 255, 248]) &&
    taken specRingDelete
      (fun c u => decide (8 ≤ fld c.params 0 2 ∧ fld c.params 0 2 < 4096) && (u.queue (fld c.params 0 2)).enable &&
        !u.queueNamed (fld c.params 0 2) && !(decide (c.client.ep = 0) && decide (c.client.port = fld c.params 0 2)) &&
        u.own.owner.all fun o => !(decide (o.ep = 0) && decide (o.port = fld c.params 0 2)))
      ({ ready with ring := { ready.ring with queues := [(4095, { Queue.init with enable := true, kind := 6 })] } }) (cmd [15, 255]) &&
    taken specRingDelete
      (fun c u => decide (fld c.params 0 2 < 8 ∨ 4096 ≤ fld c.params 0 2) || !(u.queue (fld c.params 0 2)).enable)
      ready (cmd [0, 7]) &&
    taken specDmaSetChannel
      (fun c u => decide (fld c.params 1 1 = 1 ∧ fld c.params 2 1 ≤ 1 ∧ (fld c.params 2 1 = 1 → fld c.params 0 1 < 64)) &&
        u.isQueue (fld c.params 4 2) 2 && u.isQueue (fld c.params 6 2) 3 &&
        decide ((u.dma (fld c.params 0 1)).mode = .off ∨ (u.dma (fld c.params 0 1)).mode = .stopped) &&
        u.ring.channels.all fun e =>
          decide (e.1 = fld c.params 0 1 ∨ e.2.mode = .off ∨ e.2.descQ ≠ fld c.params 4 2))
      ({ ready with ring := { ready.ring with queues := [(10, { Queue.init with enable := true, kind := 2 }), (11, { Queue.init with enable := true, kind := 3 })] } }) (cmd [63, 1, 1, 0, 0, 10, 0, 11]) &&
    taken specDmaSetChannel
      (fun c u => let v := u.dma (fld c.params 0 1)
        decide (fld c.params 1 1 = 1 ∧ fld c.params 2 1 ≤ 1 ∧ (fld c.params 2 1 = 1 → fld c.params 0 1 < 64)) &&
        u.isQueue (fld c.params 4 2) 2 && u.isQueue (fld c.params 6 2) 3 &&
        decide (v.mode ≠ .off ∧ v.mode ≠ .stopped ∧ v.descQ = fld c.params 4 2 ∧ v.complQ = fld c.params 6 2 ∧
          v.eventStart = decide (fld c.params 2 1 = 1)) &&
        u.ring.channels.all fun e =>
          decide (e.1 = fld c.params 0 1 ∨ e.2.mode = .off ∨ e.2.descQ ≠ fld c.params 4 2))
      ({ ready with ring := { ready.ring with queues := [(10, { Queue.init with enable := true, kind := 2 }), (11, { Queue.init with enable := true, kind := 3 })], channels := [(63, { DmaChannel.init with mode := .idle, descQ := 10, complQ := 11, eventStart := true })] } }) (cmd [63, 1, 1, 0, 0, 10, 0, 11]) &&
    taken specDmaSetChannel
      (fun c u => let v := u.dma (fld c.params 0 1)
        decide (fld c.params 1 1 = 0 ∧ fld c.params 2 1 ≤ 1 ∧ (fld c.params 2 1 = 1 → fld c.params 0 1 < 64)) &&
        u.isQueue (fld c.params 4 2) 2 && u.isQueue (fld c.params 6 2) 3 &&
        decide (v.mode = .off ∨ v.mode = .stopped ∨ (v.mode = .idle ∧ v.descQ = fld c.params 4 2 ∧ v.complQ = fld c.params 6 2 ∧
          v.eventStart = decide (fld c.params 2 1 = 1))) &&
        u.ring.channels.all fun e =>
          decide (e.1 = fld c.params 0 1 ∨ e.2.mode = .off ∨ e.2.descQ ≠ fld c.params 4 2))
      ({ ready with ring := { ready.ring with queues := [(10, { Queue.init with enable := true, kind := 2 }), (11, { Queue.init with enable := true, kind := 3 })] } }) (cmd [63, 0, 1, 0, 0, 10, 0, 11]) &&
    taken specDmaStop
      (fun c u => decide ((u.dma (fld c.params 0 1)).mode ≠ .off ∧ (u.dma (fld c.params 0 1)).mode ≠ .stopped ∧
        (u.dma (fld c.params 0 1)).mode ≠ .stopping) && (u.dma (fld c.params 0 1)).running.isSome)
      ({ ready with ring := { ready.ring with channels := [(255, { DmaChannel.init with mode := .running, running := some ⟨0, none⟩ })] } }) (cmd [255]) &&
    taken specDmaStop
      (fun c u => decide ((u.dma (fld c.params 0 1)).mode = .stopping))
      ({ ready with ring := { ready.ring with channels := [(255, { DmaChannel.init with mode := .stopping })] } }) (cmd [255]) &&
    taken specDmaStop
      (fun c u => decide ((u.dma (fld c.params 0 1)).mode ≠ .off ∧ (u.dma (fld c.params 0 1)).mode ≠ .stopped ∧
        (u.dma (fld c.params 0 1)).mode ≠ .stopping) && (u.dma (fld c.params 0 1)).running.isNone)
      ({ ready with ring := { ready.ring with channels := [(255, { DmaChannel.init with mode := .idle })] } }) (cmd [255]) &&
    taken specDmaStop
      (fun c u => decide ((u.dma (fld c.params 0 1)).mode = .off ∨ (u.dma (fld c.params 0 1)).mode = .stopped))
      ready (cmd [255]) &&
    taken specRingGetStatus (fun c _ => decide (fld c.params 0 2 < 4096)) ready (cmd [15, 255]) &&
    taken specDmaGetStatus (fun _ _ => true) ready (cmd [0])) = true := by decide

theorem witness_CoreAndSpareCommandsAct : (
    taken specMcRehearse (fun c _ => decide (1 < fld c.params 0 1)) ready (cmd [2, 0, 0, 0, 0, 0, 0, 0]) &&
    taken specMcRehearse
      (fun c u => decide (fld c.params 0 1 ≤ 1) && !(u.standbyReady && u.mc.rehearsal.isNone))
      ready (cmd (zeros 8)) &&
    taken specMcGetStatus (fun _ _ => true) ready (cmd []) &&
    journalled specSpareSetAudit
      (fun c _ => decide (fld c.params 0 4 = 0 ∨ (10 ≤ fld c.params 0 4 ∧ fld c.params 0 4 ≤ 86400)))
      ready (cmd [0, 1, 81, 128]) &&
    taken specSpareSetAudit
      (fun c _ => decide ((0 < fld c.params 0 4 ∧ fld c.params 0 4 < 10) ∨ 86400 < fld c.params 0 4))
      ready (cmd [0, 1, 81, 129]) &&
    journalled specSpareRetire
      (fun c u => decide (fld c.params 0 2 ≤ 271 ∧ fld c.params 2 1 = 0) &&
        decide ((u.tileInfo (fld c.params 0 2)).mode = .ready))
      ({ ready with spare := { ready.spare with tiles := [(271, { TileInfo.init with mode := .ready })] } }) (cmd [1, 15, 0, 0]) &&
    journalled specSpareRetire
      (fun c u => decide (fld c.params 0 2 ≤ 271 ∧ fld c.params 2 1 = 0) &&
        (decide ((u.tileInfo (fld c.params 0 2)).mode = .testing) ||
          decide ((u.tileInfo (fld c.params 0 2)).mode = .backing) && u.readyTile.isSome))
      ({ ready with spare := { ready.spare with tiles := [(270, { TileInfo.init with mode := .ready })] } }) (cmd [1, 15, 0, 0]) &&
    taken specSpareRetire
      (fun c u => decide (fld c.params 0 2 ≤ 271 ∧ fld c.params 2 1 = 0) &&
        decide ((u.tileInfo (fld c.params 0 2)).mode = .backing) && u.readyTile.isNone)
      ready (cmd [1, 15, 0, 0]) &&
    taken specSpareRetire
      (fun c u => decide (fld c.params 0 2 ≤ 271 ∧ fld c.params 2 1 = 0) &&
        decide ((u.tileInfo (fld c.params 0 2)).mode = .retired))
      ({ ready with spare := { ready.spare with tiles := [(271, { TileInfo.init with mode := .retired, reason := 3 })] } }) (cmd [1, 15, 0, 0]) &&
    taken specSpareRetire
      (fun c u => decide (fld c.params 0 2 ≤ 271 ∧ fld c.params 2 1 = 1) &&
        decide ((u.tileInfo (fld c.params 0 2)).mode = .retired ∧ (u.tileInfo (fld c.params 0 2)).reason = 3))
      ({ ready with spare := { ready.spare with tiles := [(271, { TileInfo.init with mode := .retired, reason := 3 })] } }) (cmd [1, 15, 1, 0]) &&
    taken specSpareRetire
      (fun c u => decide (271 < fld c.params 0 2) || decide (fld c.params 2 1 = 1) &&
        !decide ((u.tileInfo (fld c.params 0 2)).mode = .retired ∧ (u.tileInfo (fld c.params 0 2)).reason = 3))
      eth (cmd [1, 15, 1, 0]) &&
    taken specSpareRetire
      (fun c _ => decide (fld c.params 0 2 ≤ 271 ∧ 1 < fld c.params 2 1))
      ready (cmd [1, 15, 2, 0]) &&
    taken specSpareGetStatus (fun c _ => decide (271 < fld c.params 0 2)) ready (cmd [1, 16]) &&
    taken specSpareGetStatus (fun c _ => decide (fld c.params 0 2 ≤ 271)) ready (cmd [1, 15])) = true := by decide

theorem witness_JournalKeepsItsRecords : (
    taken specJrnlGetStatus (fun _ _ => true) ready (cmd []) &&
    taken specJrnlCompact (fun _ u => decide (u.jrnl.step = 0) && !u.jrnl.degraded) ready (cmd []) &&
    taken specJrnlCompact
      (fun _ u => decide (u.jrnl.step ≠ 0) || u.jrnl.degraded)
      ({ ready with jrnl := { ready.jrnl with step := 1 } }) (cmd []) &&
    taken specJrnlRead
      (fun c _ => decide (fld c.params 0 1 ≤ 1 ∧ 1 ≤ fld c.params 2 2 ∧ fld c.params 2 2 ≤ 1024 ∧
        fld c.params 4 4 + fld c.params 2 2 ≤ halfBytes))
      ready (cmd [1, 0, 4, 0, 0, 0, 0, 0]) &&
    (fun (s : State) (g : JGroup) (rest : List JGroup) (_f : List Nat) => decide (s.mayCommit = true ∧
        s.jrnl.groups = g :: rest ∧ g.forCommand = false))
      ({ ready with jrnl := { ready.jrnl with groups := [⟨[(0x0C10, zeros 4)], false⟩] } }) (⟨[(0x0C10, zeros 4)], false⟩) ([]) ([]) &&
    (fun (s : State) (_f : List Nat) => decide (s.mayCommit = false)) ready ([]) &&
    (fun (s : State) (_f : List Nat) => decide (s.domainOn 95 = true ∧ s.pwr.phase ≠ 7)) ready ([]) &&
    (fun (s : State) (_f : List Nat) => decide ((s.domainOn 95 = false ∨ s.pwr.phase = 7))) (State.reset) ([]) &&
    (fun (_s : State) (f : List Nat) => decide (f.contains 0 = false)) ready ([])) = true := by decide

theorem witness_PowerCommandsAct : (
    journalled specPwrSetDomain
      (fun c u => decide (fld c.params 0 1 ≤ 95 ∧ fld c.params 0 1 ≠ 87 ∧ fld c.params 0 1 ≠ 88) &&
        modeAccepted (fld c.params 0 1) (fld c.params 1 1) &&
        !(decide (fld c.params 1 1 = 2) && u.offBusy (fld c.params 0 1)))
      ready (cmd [94, 2, 0, 0]) &&
    taken specPwrSetDomain
      (fun c u => decide (fld c.params 0 1 = 87 ∨ fld c.params 0 1 = 88) && decide (fld c.params 1 1 = 1 ∨ fld c.params 1 1 = 2) &&
        !(decide (fld c.params 1 1 = 2) && decide (u.activeId.val = fld c.params 0 1 - 87)))
      ready (cmd [88, 2, 0, 0]) &&
    taken specPwrSetDomain
      (fun c u => decide (fld c.params 0 1 ≤ 95) && modeAccepted (fld c.params 0 1) (fld c.params 1 1) &&
        decide (fld c.params 1 1 = 2) && u.offBusy (fld c.params 0 1))
      ready (cmd [86, 2, 0, 0]) &&
    taken specPwrGetDomains (fun _ _ => true) ready (cmd []) &&
    taken specPwrQuiesce
      (fun c u => decide (fld c.params 0 1 = 0 ∧ 100 ≤ fld c.params 4 4 ∧ fld c.params 4 4 ≤ 60000 ∧ u.pwr.phase = 4))
      ready (cmd [0, 0, 0, 0, 0, 0, 234, 96]) &&
    taken specPwrQuiesce
      (fun c u => decide (fld c.params 0 1 = 0 ∧ 100 ≤ fld c.params 4 4 ∧ fld c.params 4 4 ≤ 60000 ∧ 5 ≤ u.pwr.phase))
      ({ ready with pwr := { ready.pwr with phase := 6 } }) (cmd [0, 0, 0, 0, 0, 0, 234, 96]) &&
    taken specPwrQuiesce
      (fun c u => decide (fld c.params 0 1 = 1 ∧ 100 ≤ fld c.params 4 4 ∧ fld c.params 4 4 ≤ 60000 ∧ u.pwr.phase ≠ 7) &&
        u.pwr.quiesce.active)
      ({ ready with pwr := { ready.pwr with phase := 6, quiesce := { ready.pwr.quiesce with active := true } } }) (cmd [1, 0, 0, 0, 0, 0, 234, 96]) &&
    taken specPwrQuiesce
      (fun c u => decide (fld c.params 0 1 = 1 ∧ 100 ≤ fld c.params 4 4 ∧ fld c.params 4 4 ≤ 60000 ∧ u.pwr.phase = 7) &&
        u.pwr.quiesce.active && decide (u.pwr.quiesce.ack = .low) && (!u.pwr.quiesce.byPin || !u.pwr.quiesce.pinLow))
      ({ ready with pwr := { ready.pwr with phase := 7, quiesce := { ready.pwr.quiesce with active := true, ack := .low } } }) (cmd [1, 0, 0, 0, 0, 0, 234, 96]) &&
    taken specPwrQuiesce
      (fun c u => decide (fld c.params 0 1 = 1 ∧ 100 ≤ fld c.params 4 4 ∧ fld c.params 4 4 ≤ 60000) && !u.pwr.quiesce.active)
      eth (cmd [1, 0, 0, 0, 0, 0, 234, 96]) &&
    taken specPwrQuiesce (fun c _ => decide (2 < fld c.params 0 1)) ready (cmd [3, 0, 0, 0, 0, 0, 234, 96]) &&
    taken specPwrQuiesce
      (fun c _ => decide (fld c.params 0 1 ≤ 2 ∧ (fld c.params 4 4 < 100 ∨ 60000 < fld c.params 4 4)))
      ready (cmd [2, 0, 0, 0, 0, 0, 0, 99]) &&
    journalled specPwrQuiesce
      (fun c _ => decide (fld c.params 0 1 = 2 ∧ 100 ≤ fld c.params 4 4 ∧ fld c.params 4 4 ≤ 60000))
      ready (cmd [2, 0, 0, 0, 0, 0, 234, 96]) &&
    taken specPwrReset (fun c _ => decide (fld c.params 0 1 = 0)) ready (cmd [0, 0, 0, 0]) &&
    taken specPwrReset (fun c _ => decide (fld c.params 0 1 = 1)) ready (cmd [1, 0, 0, 0]) &&
    taken specPwrReset
      (fun c u => decide (fld c.params 0 1 = 2) && decide ((u.core u.standbyId).mode ≠ .off))
      ready (cmd [2, 0, 0, 0]) &&
    taken specPwrReset
      (fun c u => decide (fld c.params 0 1 = 2) && decide ((u.core u.standbyId).mode = .off))
      ({ ready with mc := { ready.mc with coreB := { mode := .off } } }) (cmd [2, 0, 0, 0]) &&
    taken specPwrReset (fun c _ => decide (2 < fld c.params 0 1)) ready (cmd [3, 0, 0, 0])) = true := by decide

theorem witness_SecurityCommandsAct : (
    taken specSecGetIdentity (fun _ _ => true) ready (cmd []) &&
    taken specSecAttest (fun _ _ => true) ready (cmd (zeros 32)) &&
    journalled specSecSetCmdKey
      (fun c u => decide (fld c.params 0 1 ≤ 7 ∧ fld c.params 1 1 = 1) && (pointOf (slice c.params 4 97)).isSome &&
        decide (kvGet [] u.pwr.cmdKeys (fld c.params 0 1) = []))
      ready (cmd [7, 1, 0, 0, 4, 29, 28, 100, 240, 104, 207, 69, 255, 162, 166, 58, 129, 183, 193, 63, 107, 136, 71, 163, 231, 126, 241, 79, 227, 219, 127, 202, 254, 12, 189, 16, 232, 232, 38, 224, 52, 54, 214, 70, 170, 239, 135, 178, 226, 71, 212, 175, 30, 138, 190, 29, 117, 32, 249, 194, 164, 92, 177, 235, 142, 149, 207, 213, 82, 98, 183, 11, 41, 254, 236, 88, 100, 225, 156, 5, 79, 249, 145, 41, 40, 14, 70, 70, 33, 119, 145, 129, 17, 66, 130, 3, 65, 38, 60, 83, 21, 0, 0, 0]) &&
    journalled specSecSetCmdKey
      (fun c u => decide (fld c.params 0 1 ≤ 7 ∧ fld c.params 1 1 = 0) &&
        !(decide (kvGet [] u.pwr.cmdKeys (fld c.params 0 1) ≠ [] ∧ u.pwr.cmdKeys.length = 1) &&
          (decide (u.pwr.signMask ≠ 0) || u.own.policy.claimAuth)))
      ready (cmd ([7] ++ zeros 103)) &&
    journalled specSecSetSignPolicy
      (fun c u => decide (fld c.params 0 2 < 2 ∨ u.pwr.cmdKeys ≠ []))
      ready (cmd [0, 1, 0, 0]) &&
    taken specSecSetSignPolicy
      (fun c u => decide (2 ≤ fld c.params 0 2 ∧ u.pwr.cmdKeys = []))
      ready (cmd [0, 2, 0, 0]) &&
    taken specSecOtpRotate
      (fun c u => decide (fld c.params 0 1 ≤ 2 ∧ fld c.params 1 1 ≤ 2) && decide ((u.pwr.otp (fld c.params 0 1)).code = 0))
      ready (cmd (zeros 248)) &&
    taken specSecOtpRotate
      (fun c u => decide (fld c.params 0 1 ≤ 2 ∧ fld c.params 1 1 ≤ 2) &&
        !u.authorised (fld c.params 1 1) 1 (fld c.params 0 1) (slice c.params 4 48) (slice c.params 52 97) (slice c.params 152 96))
      ready (cmd (zeros 248)) &&
    taken specSecOtpRevoke
      (fun c u => decide (fld c.params 0 1 ≤ 2 ∧ fld c.params 1 1 ≤ 2) &&
        !u.authorised (fld c.params 1 1) 2 (fld c.params 0 1) (zeros 48) (slice c.params 4 97) (slice c.params 104 96))
      eth (cmd (zeros 200)) &&
    taken specSecOtpRevoke
      (fun c u => decide (fld c.params 0 1 ≤ 2 ∧ fld c.params 1 1 ≤ 2) && decide ((u.pwr.otp (fld c.params 0 1)).code = 1) &&
        decide (2 ≤ ((List.range 3).filter fun n => (u.pwr.otp n).isActive).length))
      ({ ready with pwr := { ready.pwr with otp0 := ⟨[1], true, false⟩, otp1 := ⟨[2], true, false⟩ } }) (cmd (zeros 200)) &&
    taken specSecFwStage
      (fun c u => decide (1 ≤ fld c.params 4 2 ∧ fld c.params 4 2 ≤ 1024 ∧ fld c.params 0 4 + fld c.params 4 2 ≤ 0x400000) &&
        (decide (fld c.params 0 4 = 0) || u.pwr.staged.any fun e => decide (e ≤ fld c.params 0 4)))
      ready (cmd [0, 0, 0, 0, 0, 1, 0, 0, 0]) &&
    taken specSecFwStage
      (fun c u => !(decide (fld c.params 0 4 = 0) || u.pwr.staged.any fun e => decide (e ≤ fld c.params 0 4)))
      ready (cmd [0, 0, 0, 64, 0, 1, 0, 0, 0]) &&
    taken specSecFwActivate
      (fun c u => decide (fld c.params 0 1 ≤ 3) && u.pwr.staged.isSome && decide (u.jrnl.step < 2 ∨ 4 < u.jrnl.step))
      ({ ready with pwr := { ready.pwr with staged := some 64 } }) (cmd (zeros 8)) &&
    taken specSecFwActivate (fun c u => decide (fld c.params 0 1 ≤ 3) && u.pwr.staged.isNone) eth (cmd (zeros 8)) &&
    taken specSecOtpRotate
      (fun c u => decide (fld c.params 0 1 ≤ 2 ∧ fld c.params 1 1 ≤ 2) && decide ((u.pwr.otp (fld c.params 0 1)).code ≠ 0))
      ({ ready with pwr := { ready.pwr with otp0 := ⟨[1], true, false⟩ } }) (cmd (zeros 248)) &&
    taken specSecOtpRevoke
      (fun c u => decide (fld c.params 0 1 ≤ 2 ∧ fld c.params 1 1 ≤ 2) && decide ((u.pwr.otp (fld c.params 0 1)).code ≠ 1))
      ready (cmd (zeros 200)) &&
    taken specSecOtpRevoke
      (fun c u => decide (fld c.params 0 1 ≤ 2 ∧ fld c.params 1 1 ≤ 2) && decide ((u.pwr.otp (fld c.params 0 1)).code = 1) &&
        decide (((List.range 3).filter fun n => (u.pwr.otp n).isActive).length ≤ 1))
      ({ ready with pwr := { ready.pwr with otp0 := ⟨[1], true, false⟩ } }) (cmd (zeros 200)) &&
    (fun (u : State) (c : Cmd) => decide (fld c.params 0 1 ≤ 7 ∧ fld c.params 1 1 = 1 ∧
        (pointOf (slice c.params 4 97)).isSome = true ∧ kvGet [] u.pwr.cmdKeys (fld c.params 0 1) ≠ []))
      ({ ready with pwr := { ready.pwr with cmdKeys := [(7, [4])] } }) (cmd ([7, 1, 0, 0, 4, 29, 28, 100, 240, 104, 207, 69, 255, 162, 166, 58, 129, 183, 193, 63, 107, 136, 71, 163, 231, 126, 241, 79, 227, 219, 127, 202, 254, 12, 189, 16, 232, 232, 38, 224, 52, 54, 214, 70, 170, 239, 135, 178, 226, 71, 212, 175, 30, 138, 190, 29, 117, 32, 249, 194, 164, 92, 177, 235, 142, 149, 207, 213, 82, 98, 183, 11, 41, 254, 236, 88, 100, 225, 156, 5, 79, 249, 145, 41, 40, 14, 70, 70, 33, 119, 145, 129, 17, 66, 130, 3, 65, 38, 60, 83, 21, 0, 0, 0])) &&
    (fun (u : State) (c : Cmd) => decide (fld c.params 0 1 ≤ 7 ∧ fld c.params 1 1 = 0 ∧
        kvGet [] u.pwr.cmdKeys (fld c.params 0 1) ≠ [] ∧ u.pwr.cmdKeys.length = 1 ∧
        (u.pwr.signMask ≠ 0 ∨ u.own.policy.claimAuth = true)))
      ({ ready with pwr := { ready.pwr with cmdKeys := [(7, [4])], signMask := 2 } }) (cmd ([7] ++ zeros 103)) &&
    (fun (s : State) (c : Cmd) (k : Taken) => decide (s.takes specSecFwActivate c = some k ∧
        2 ≤ s.jrnl.step ∧ s.jrnl.step ≤ 4 ∧
        snapshotSize (doSecFwActivate k.cmd k.at_).st.snapshot ≤ 1048576))
      ({ ready with jrnl := { ready.jrnl with step := 3 }, pwr := { ready.pwr with staged := some 64 } }) (cmd (zeros 8)) ((State.takes { ready with jrnl := { ready.jrnl with step := 3 }, pwr := { ready.pwr with staged := some 64 } } specSecFwActivate (cmd (zeros 8))).getD ⟨⟨0, cmd [], 0, none, 0⟩, ready, cmd [], ready⟩)) = true := by decide

theorem witness_TransportsCarryPackets : (
    (fun (s : State) (port : Fin 2) (f : Frame) => decide (f.wf = true ∧ (s.mgmt port.val).mode ≠ 0 ∧
        (s.mgmt port.val).link = true ∧ s.domainOn 86 = true ∧ f.dst ≠ (s.mgmtAddresses port.val).mac ∧
        f.dst / 2 ^ 40 % 2 = 0))
      managed 0 (⟨0x020000000002, 4, [], 0x0800, zeros 46⟩) &&
    (fun (s : State) (port : Fin 2) (f : Frame) (r : Frame) => decide (f.wf = true ∧
        (s.mgmt port.val).mode ≠ 0 ∧ (s.mgmt port.val).link = true ∧ s.domainOn 86 = true ∧
        vlanOk (s.mgmtAddresses port.val).vlan f = true ∧ f.dst = 0xFFFFFFFFFFFF ∧ f.etherType = 0x0806 ∧
        arpReply (s.mgmtAddresses port.val) f = some r))
      managed 0 (⟨0xFFFFFFFFFFFF, 4, [], 0x0806, [0, 1, 8, 0, 6, 4, 0, 1, 0, 0, 0, 0, 0, 4, 10, 0, 0, 1] ++ zeros 6 ++ [10, 0, 0, 9] ++ zeros 18⟩) ((arpReply (managed.mgmtAddresses 0) ⟨0xFFFFFFFFFFFF, 4, [], 0x0806, [0, 1, 8, 0, 6, 4, 0, 1, 0, 0, 0, 0, 0, 4, 10, 0, 0, 1] ++ zeros 6 ++ [10, 0, 0, 9] ++ zeros 18⟩).getD default) &&
    (fun (s : State) (b : Byte) (part : List Byte) => decide (s.smbusAddress < 128 ∧ part.length ≤ 254 ∧
        b.toNat < 128 ∧ (b.toNat = 0 ∨ b.toNat = s.own.smbusNext)))
      ({ ready with own := { ready.own with smbusIn := [0x43], smbusNext := 127 } }) 127 (zeros 254) &&
    (fun (s : State) (b : Byte) (part : List Byte) => decide (s.smbusAddress < 128 ∧ part.length ≤ 254 ∧
        128 ≤ b.toNat ∧ (b.toNat = 128 ∨ b.toNat = 128 + s.own.smbusNext)))
      ({ ready with own := { ready.own with smbusIn := [0x43], smbusNext := 1 } }) 129 (zeros 254) &&
    (fun (s : State) (a : Nat) (_code : Byte) (data : List Byte) (_pec : Option Byte) => decide (a < 128 ∧
        data.length ≤ 255 ∧ a ≠ s.smbusAddress))
      ready 0x59 0xC0 (zeros 255) none &&
    (fun (s : State) (code : Byte) (data : List Byte) (pec : Option Byte) => decide (s.smbusAddress < 128 ∧
        data.length ≤ 255 ∧ pec ≠ some (smbusPec (smbusWriteBytes s.smbusAddress code data))))
      ready 0xC0 (zeros 255) none &&
    (fun (s : State) => decide (s.smbusAddress < 128 ∧ s.own.smbusOut = none)) ready &&
    (fun (s : State) (p : List Byte) => decide (s.smbusAddress < 128 ∧ s.own.smbusOut = some p ∧
        p.length ≤ 254 * (s.own.smbusRead + 1)))
      ({ ready with own := { ready.own with smbusOut := some (zeros 254) } }) (zeros 254) &&
    (fun (s : State) (p : List Byte) => decide (s.smbusAddress < 128 ∧ s.own.smbusOut = some p ∧
        254 * (s.own.smbusRead + 1) < p.length))
      ({ ready with own := { ready.own with smbusOut := some (zeros 255) } }) (zeros 255) &&
    (fun (s : State) (q : Nat) (e : Option (List Byte)) => decide (q < 4096 ∧
        (∀ b ∈ e, b.length ≤ 16384) ∧ s.elementDue q = false))
      ready 4095 (some (zeros 8)) &&
    (fun (s : State) (port : Fin 2) (f : Frame) (ip : Ip) => decide (f.wf = true ∧
        (s.mgmt port.val).mode ≠ 0 ∧ (s.mgmt port.val).link = true ∧ s.domainOn 86 = true ∧
        vlanOk (s.mgmtAddresses port.val).vlan f = true ∧ f.dst = (s.mgmtAddresses port.val).mac ∧
        ptpTo (kvGet {} s.qz.ptp.ports (128 + port.val)) (s.mgmtAddresses port.val) f = false ∧
        arpReply (s.mgmtAddresses port.val) f = none ∧ parseIp f.etherType f.payload = some ip ∧
        ip.fragment = true ∧
        (if ip.v6 then (s.mgmtAddresses port.val).ipv6.contains ip.dst else (s.mgmtAddresses port.val).ipv4 ≠ 0 && beNat ip.dst = (s.mgmtAddresses port.val).ipv4) = true))
      managed 0 (⟨0x020000000001, 4, [], 0x0800, [0x45, 0, 0, 32, 0, 0, 0x20, 0, 64, 17, 0x46, 0xC4, 10, 0, 0, 1, 10, 0, 0, 9, 0, 7, 0xB7, 0xFC, 0, 12, 0, 0, 1, 2, 3, 4]⟩) ((parseIp 0x0800 [0x45, 0, 0, 32, 0, 0, 0x20, 0, 64, 17, 0x46, 0xC4, 10, 0, 0, 1, 10, 0, 0, 9, 0, 7, 0xB7, 0xFC, 0, 12, 0, 0, 1, 2, 3, 4]).getD ⟨false, [], [], 0, 0, [], false, false⟩)) = true := by decide

theorem witness_RegisterWritesAct : (
    (fun (_s : State) (v : Nat) => decide (v < 2 ^ 64 ∧ bit v 0 = true)) ready 1 &&
    (fun (_s : State) (v : Nat) => decide (v < 2 ^ 64 ∧ bit v 0 = false)) ready 2 &&
    (fun (_s : State) (v : Nat) => decide (v < 2 ^ 64)) ready 1 &&
    (fun (_s : State) (v : Nat) => decide (v < 2 ^ 64 ∧ bit v 7 = true)) ready 255 &&
    (fun (_s : State) (v : Nat) => decide (v < 2 ^ 64 ∧ bit v 7 = false)) ready 127 &&
    (fun (_s : State) (v : Nat) => decide (v < 2 ^ 64)) ready 1 &&
    (fun (_s : State) (n : Nat) (v : Nat) => decide (n < 128 ∧ v < 2 ^ 64)) ready 127 255 &&
    (fun (s : State) (v : Nat) (m : Nat) => decide (v < 2 ^ 64 ∧ m ≤ 2 ∧ s.coreMayWrite m = true)) ready 1 0 &&
    (fun (s : State) (v : Nat) (m : Nat) => decide (v < 2 ^ 64 ∧ m ≤ 2 ∧ s.coreMayWrite m = false)) ready 1 1 &&
    (fun (s : State) (q : Nat) (v : Nat) => decide (q < 4096 ∧ v < 2 ^ 64 ∧ s.domainOn 85 = true ∧
        (s.queue q).doorbellOk (v % 2 ^ 32) = true))
      ({ ready with ring := { ready.ring with queues := [(9, { Queue.init with enable := true, kind := 0, entries := 1 })] } }) 9 2 &&
    (fun (s : State) (q : Nat) (v : Nat) => decide (q < 4096 ∧ v < 2 ^ 64 ∧ s.domainOn 85 = true ∧
        (s.queue q).doorbellOk (v % 2 ^ 32) = false))
      ({ ready with ring := { ready.ring with queues := [(9, { Queue.init with enable := true, kind := 0, entries := 1 })] } }) 9 3 &&
    (fun (s : State) (q : Nat) (v : Nat) => let _n : Queue := { s.queue q with kind := v % 8, esize := v / 16 % 16, entries := v / 2 ^ 16 % 32, pair := v / 2 ^ 32 % 4096, vector := v / 2 ^ 48 % 65536 }; decide (q < 8 ∧
        v < 2 ^ 64 ∧ s.domainOn 85 = true ∧ (s.queue q).enable = false))
      ready 7 8 &&
    (fun (s : State) (q : Nat) (v : Nat) => decide (q < 8 ∧ v < 2 ^ 64 ∧ s.domainOn 85 = true ∧
        (s.queue q).enable = true))
      ({ ready with ring := { ready.ring with queues := [(7, { Queue.init with enable := true })] } }) 7 8 &&
    (fun (s : State) (q : Nat) (v : Nat) => decide (8 ≤ q ∧ q < 4096 ∧ v < 2 ^ 64 ∧ s.domainOn 85 = true)) ready 8 0 &&
    (fun (s : State) (v : Nat) => decide (v < 2 ^ 64 ∧ s.pwr.phase = 5))
      ({ ready with pwr := { ready.pwr with phase := 5 } }) 0 &&
    (fun (s : State) (v : Nat) => decide (v < 2 ^ 64 ∧ s.pwr.phase ≠ 5)) ready 0 &&
    (fun (_s : State) (v : Nat) => decide (v < 2 ^ 64 ∧ bit v 0 = false)) ready 2 &&
    (fun (s : State) (v : Nat) => decide (v < 2 ^ 64 ∧ s.pwr.phase = 5 ∧ bit v 0 = true))
      ({ ready with pwr := { ready.pwr with phase := 5 } }) 1 &&
    (fun (s : State) (h : Fin 4) (v : Nat) => decide (v < 2 ^ 48 ∧ 0x1000000000 ≤ v ∧ v < 0x2800000000 ∧
        stackOf ((v - 0x1000000000) / 32 * 32) = h.val ∧ s.domainOn (76 + h.val) = true ∧
        (s.mem.hc h.val).injMode = 3))
      ({ ready with mem := { ready.mem with hc0 := { ready.mem.hc0 with injMode := 3 } } }) 0 0x1000000000 &&
    (fun (s : State) (h : Fin 4) (v : Nat) => decide (v < 2 ^ 48 ∧
        (v < 0x1000000000 ∨ 0x2800000000 ≤ v ∨ stackOf ((v - 0x1000000000) / 32 * 32) ≠ h.val ∨ s.domainOn (76 + h.val) = false ∨ (s.mem.hc h.val).injMode = 0)))
      ready 3 (2 ^ 48 - 1) &&
    (fun (s : State) (h : Fin 4) (v : Nat) => decide (v < 2 ^ 48 ∧ 0x1000000000 ≤ v ∧ v < 0x2800000000 ∧
        stackOf ((v - 0x1000000000) / 32 * 32) = h.val ∧ s.domainOn (76 + h.val) = true ∧
        (s.mem.hc h.val).injMode = 1 ∨ (s.mem.hc h.val).injMode = 2))
      ({ ready with mem := { ready.mem with hc0 := { ready.mem.hc0 with injMode := 2 } } }) 0 0x1000000000 &&
    (fun (s : State) (q : Nat) (v : Nat) => decide (q < 4096 ∧ v < 2 ^ 64 ∧ s.domainOn 85 = false))
      (State.reset) 4095 8 &&
    (fun (_s : State) (_v : Nat) (n : Nat) => decide (n < 256)) ready 5 255 &&
    (fun (_s : State) (_h : Nat) (v : Nat) => decide (v % 4 ≠ 0)) ready 3 7 &&
    (fun (s : State) (q : Nat) (_v : Nat) => decide (q < 8 ∧ (s.queue q).enable = false)) ready 7 (2 ^ 48 - 64) &&
    (fun (s : State) (q : Nat) (_v : Nat) => decide (q < 4096 ∧ (8 ≤ q ∨ (s.queue q).enable = true))) ready 4095 1 &&
    (fun (_s : State) (q : Nat) (_v : Nat) => decide (q < 4096)) ready 4095 1) = true := by decide

theorem witness_BusAccessesAct : (
    (fun (s : State) (a : Nat) (v : Nat) (m : Nat) => decide (0x80000000 ≤ a ∧ a < 0x90000000 ∧
        v < 2 ^ 64 ∧ m ≤ 2 ∧ a % 8 = 0 ∧ s.coreMayWrite m = true ∧ csrAt a ≠ .none))
      ready 0x80000000 0 2 &&
    (fun (s : State) (a : Nat) (v : Nat) (m : Nat) => decide (0x80000000 ≤ a ∧ a < 0x90000000 ∧
        v < 2 ^ 64 ∧ m ≤ 2 ∧ (a % 8 ≠ 0 ∨ s.coreMayWrite m = false)))
      ready 0x80000001 0 2 &&
    (fun (s : State) (a : Nat) (v : Nat) (m : Nat) => decide (0x80000000 ≤ a ∧ a < 0x90000000 ∧
        v < 2 ^ 64 ∧ m ≤ 2 ∧ a % 8 = 0 ∧ s.coreMayWrite m = true ∧ csrAt a = .none))
      ready 0x8FFFFFF8 0 2 &&
    (fun (s : State) (off : Nat) (n : Nat) => decide (off + n ≤ 2 ^ 37 ∧ n ≤ 4096 ∧ s.linkUp = true ∧
        s.pwr.phase ≠ 5))
      linked (2 ^ 37 - 4096) 4096 &&
    (fun (s : State) (off : Nat) (n : Nat) => decide (off + n ≤ 0x10000000 ∧ n ≤ 4096 ∧ n ≠ 8 ∧
        s.linkUp = true))
      linked 0xFFFFFFC 4 &&
    (fun (s : State) (off : Nat) => decide (off + 8 ≤ 0x10000000 ∧ s.linkUp = true ∧ s.pwr.phase ≠ 5))
      linked 0xFFFFFF8 &&
    (fun (s : State) (off : Nat) (d : List Byte) => decide (off + 8 ≤ 0x10000000 ∧ d.length = 8 ∧
        s.linkUp = true ∧ s.pwr.phase ≠ 5))
      linked 0xFFFFFF8 (zeros 8) &&
    (fun (s : State) (off : Nat) (d : List Byte) => decide (off + d.length ≤ 2 ^ 37 ∧ d.length ≤ 4096 ∧
        s.linkUp = true ∧ s.pwr.phase ≠ 5))
      linked (2 ^ 37 - 8) (zeros 8) &&
    (fun (s : State) (bar : Bar) (off : Nat) (d : List Byte) => decide (off + d.length ≤ bar.size ∧
        d.length ≤ 4096 ∧ s.linkUp = false))
      ready (.csr) 0 (zeros 8) &&
    (fun (s : State) (q : Nat) => decide (inOutbound ((s.queue q).element (s.queue q).cons) = true))
      ({ ready with ring := { ready.ring with queues := [(9, { Queue.init with base := 0x10000000000 })] } }) 9 &&
    (fun (s : State) (n : Nat) (off : Nat) (x : Nat) (b : List Byte) => decide ((s.dma n).running = some ⟨x, some b⟩ ∧
        (descOf b).bad = false ∧ off < (descOf b).length ∧
        ((descOf b).op ≠ 2 && inOutbound (descOf b).src || (descOf b).op = 3 && inOutbound (descOf b).dst) = true))
      ({ ready with ring := { ready.ring with channels := [(255, { DmaChannel.init with mode := .running, running := some ⟨0, some ([1, 0, 0, 0, 8, 0, 0, 0, 0, 0, 0, 0, 0, 1, 0, 0, 0, 0, 0, 0, 16, 0, 0, 0] ++ zeros 16)⟩ })] } }) 255 7 0 (([1, 0, 0, 0, 8, 0, 0, 0, 0, 0, 0, 0, 0, 1, 0, 0, 0, 0, 0, 0, 16, 0, 0, 0] ++ zeros 16)) &&
    (fun (s : State) (n : Nat) (off : Nat) (x : Nat) (b : List Byte) => decide ((s.dma n).running = some ⟨x, some b⟩ ∧
        (descOf b).bad = false ∧ off < (descOf b).length ∧
        ((descOf b).op ≠ 3 && inOutbound (descOf b).dst) = true))
      ({ ready with ring := { ready.ring with channels := [(255, { DmaChannel.init with mode := .running, running := some ⟨0, some ([2, 0, 0, 0, 8, 0, 0, 0, 0, 0, 0, 0, 0, 0, 0, 0, 0, 0, 0, 0, 0, 1, 0, 0] ++ zeros 16)⟩ })] } }) 255 7 0 (([2, 0, 0, 0, 8, 0, 0, 0, 0, 0, 0, 0, 0, 0, 0, 0, 0, 0, 0, 0, 0, 1, 0, 0] ++ zeros 16))) = true := by decide

theorem witness_LanesComeUpAndGo : (
    (fun (s : State) (l : Fin 80) (p : Nat) (c : PortCfg) => decide (s.portOfLane l.val = some (p, c) ∧
        s.serdesOn (l.val / 4) = true ∧ (s.lane l.val).rxState = 0 ∧ (s.lane l.val).cdr = false))
      eth 0 0 (⟨4, 0, 0⟩) &&
    (fun (s : State) (l : Fin 80) (p : Nat) (c : PortCfg) => decide (s.portOfLane l.val = some (p, c) ∧
        s.serdesOn (l.val / 4) = true ∧ (s.lane l.val).rxState = 0 ∧ (s.lane l.val).cdr = true ∧
        (s.lane l.val).block = false))
      (ethLane { Lane.init with cdr := true }) 0 0 (⟨4, 0, 0⟩) &&
    (fun (s : State) (l : Fin 80) (p : Nat) (id : Nat) (c : PortCfg) => decide (s.portOfLane l.val = some (p, c) ∧
        s.serdesOn (l.val / 4) = true ∧ (s.lane l.val).rxState = 0 ∧ (s.lane l.val).block = true ∧
        (s.lane l.val).align = false ∧ (c.klp = true → id < c.width)))
      (ethLane { Lane.init with block := true }) 0 0 7 (⟨4, 0, 0⟩) &&
    (fun (s : State) (l : Fin 80) => decide ((s.lane l.val).rxPol = 0 ∧ (s.lane l.val).cdr = true ∧
        (s.lane l.val).block = false ∧ (s.lane l.val).tryAt + 2000000 ≤ s.ns))
      ({ ethLane { Lane.init with cdr := true } with ns := 2000000 }) 0 &&
    (fun (s : State) (l : Fin 80) => decide (s.ns < (s.lane l.val).tryAt + 2000000)) eth 0 &&
    (fun (s : State) (l : Fin 80) (p : Nat) (c : PortCfg) => decide (s.portOfLane l.val = some (p, c) ∧
        (s.lane l.val).block = false ∧ (s.lane l.val).rxState = 0 ∧
        (s.lane l.val).retryAt + 10000000 ≤ s.ns))
      ({ eth with ns := 10000000 }) 0 0 (⟨4, 0, 0⟩) &&
    (fun (s : State) (l : Fin 80) (p : Nat) (c : PortCfg) => decide (s.portOfLane l.val = some (p, c) ∧
        (s.lane l.val).inLock c = false ∧ (s.lane l.val).block = true ∧ (s.lane l.val).rxState = 0 ∧
        (s.lane l.val).retryAt + 10000000 ≤ s.ns))
      ({ ethLane { Lane.init with block := true } with ns := 10000000 }) 0 0 (⟨4, 0, 0⟩) &&
    (fun (s : State) (l : Fin 80) => decide (s.ns < (s.lane l.val).retryAt + 10000000)) eth 0 &&
    (fun (s : State) (l : Fin 80) (p : Nat) (c : PortCfg) => decide (s.portOfLane l.val = some (p, c) ∧
        (s.lane l.val).signal = true))
      (ethLane { Lane.init with signal := true }) 0 0 (⟨4, 0, 0⟩) &&
    (fun (s : State) (l : Fin 80) (p : Nat) (c : PortCfg) => decide (s.portOfLane l.val = some (p, c) ∧
        (s.lane l.val).cdr = true))
      (ethLane { Lane.init with cdr := true }) 0 0 (⟨4, 0, 0⟩) &&
    (fun (s : State) (l : Fin 80) (p : Nat) (c : PortCfg) => decide (s.portOfLane l.val = some (p, c) ∧
        (s.lane l.val).block = true))
      (ethLane { Lane.init with block := true }) 0 0 (⟨4, 0, 0⟩) &&
    (fun (s : State) (l : Fin 80) (p : Nat) (c : PortCfg) => decide (s.portOfLane l.val = some (p, c) ∧
        (s.lane l.val).align = true ∧ (c.klp = true ∨ 1 < c.width)))
      (ethLane { Lane.init with align := true }) 0 0 (⟨4, 0, 0⟩) &&
    (fun (s : State) (l : Fin 80) => decide ((s.lane l.val).signal = false)) eth 0 &&
    (fun (s : State) (l : Fin 80) => decide ((s.lane l.val).cdr = false)) eth 0 &&
    (fun (s : State) (l : Fin 80) => decide ((s.lane l.val).block = false)) eth 0 &&
    (fun (s : State) (l : Fin 80) (p : Nat) (c : PortCfg) => decide (s.portOfLane l.val = some (p, c) ∧
        (c.klp = true ∨ 1 < c.width) ∧ (s.lane l.val).align = false))
      eth 0 0 (⟨4, 0, 0⟩) &&
    (fun (s : State) (l : Fin 80) (_cause : LossCause) => decide (s.portOfLane l.val = none)) ready 79 (.signal) &&
    (fun (s : State) (p : Fin 80) (c : PortCfg) => decide (s.portCfg p.val = some c ∧
        ((s.portAt p.val).pendingSheds.any fun x => x.reported && decide ((s.portAt p.val).agreeSf ≤ x.sent)) = true))
      (klpPort { Port.init with pendingSheds := [⟨0, true, 3⟩] }) 0 (⟨4, 8, 0⟩) &&
    (fun (s : State) (p : Fin 80) => decide ((s.portAt p.val).pendingSheds = [])) eth 0 &&
    (fun (s : State) (l : Fin 80) (p : Nat) (_n : Nat) (c : PortCfg) => decide (s.portOfLane l.val = some (p, c) ∧
        (s.lane l.val).block = true))
      (ethLane { Lane.init with block := true }) 0 0 5 (⟨4, 0, 0⟩) &&
    (fun (s : State) (l : Fin 80) (_n : Nat) => decide ((s.lane l.val).block = false)) eth 0 0 &&
    (fun (s : State) (l : Fin 80) (errors : List Nat) => decide ((errors.all fun x => decide (x < 2 ^ 37)) = true ∧
        (∀ e ∈ s.port.scans.find? (fun x : Nat × EyeScan => decide (x.1 = l.val)), e.2.running = false ∨ e.2.done s.ns ≠ e.2.total)))
      eth 0 ([2 ^ 37 - 1]) &&
    (fun (s : State) (l : Fin 80) (e : EyeScan) (errors : List Nat) => decide ((errors.all fun x => decide (x < 2 ^ 37)) = true ∧
        s.port.scans.find? (fun x => decide (x.1 = l.val)) = some (l.val, e) ∧ e.running = true ∧
        e.done s.ns = e.total))
      ({ eth with ns := 10 ^ 9, port := { eth.port with scans := [(0, ⟨true, false, 0, 1, 1, 20, 1, 0, []⟩)] } }) 0 (⟨true, false, 0, 1, 1, 20, 1, 0, []⟩) ([2 ^ 37 - 1]) &&
    (fun (s : State) (l : Fin 80) (p : Nat) (c : PortCfg) => decide (s.portOfLane l.val = some (p, c) ∧
        c.klp = false ∧ c.width = 1 ∧ (s.lane l.val).block = true))
      ({ ready with port := { ready.port with quads := [(0, { rate := 1 })], lanes := [(0, { Lane.init with block := true })] } }) 0 0 (⟨1, 0, 0⟩) &&
    (fun (s : State) (l : Fin 80) (p : Nat) (c : PortCfg) (b : List Byte) => let _u : State := s.setPort p { s.portAt p with partnerSeen := true, partnerFlags := fld b 2 1, partnerGood := fld b 8 1, partnerActive := fld b 9 1, partnerSf := some (fld b 4 4) }; decide (b.length = 32 ∧
        s.portOfLane l.val = some (p, c) ∧ c.klp = true ∧ (s.lane l.val).inLock c = true ∧
        fld b 0 1 = 0x78 ∧ fld b 1 1 = 1))
      (klpLane { Lane.init with signal := true, cdr := true, block := true, align := true }) 0 0 (⟨4, 8, 0⟩) ([0x78, 1, 0, 0, 0, 0, 0, 9] ++ zeros 24) &&
    (fun (s : State) (l : Fin 80) (p : Nat) (c : PortCfg) (b : List Byte) => decide (b.length = 32 ∧
        s.portOfLane l.val = some (p, c) ∧
        (c.klp = false ∨ (s.lane l.val).inLock c = false ∨ fld b 0 1 ≠ 0x78 ∨ fld b 1 1 ≠ 1)))
      eth 0 0 (⟨4, 0, 0⟩) ([0x78, 1, 0, 0, 0, 0, 0, 9] ++ zeros 24) &&
    (fun (s : State) (l : Fin 80) (b : List Byte) => decide (b.length = 32 ∧ s.portOfLane l.val = none))
      ready 0 ([0x78, 1, 0, 0, 0, 0, 0, 9] ++ zeros 24) &&
    (fun (s : State) (p : Fin 80) (c : PortCfg) => let klp : Bool × Nat := (s.portAt p.val).nextKlp.getD ((s.portAt p.val).shed, (s.portAt p.val).agreeSf); let _u : State := s.setPort p.val { s.portAt p.val with rxGood := s.goodIds p.val c, txActive := (s.portLanes p.val c).foldl (fun acc l => if decide ((s.lane l).txState = 0) && bit (s.portAt p.val).partnerGood (l - p.val) then withBit acc (l - p.val) true else acc) 0, sfAt := s.ns, sfCount := ((s.portAt p.val).sfCount + 1) % 2 ^ 32, shed := klp.1, agreeSf := klp.2, nextKlp := none, pendingSheds := (s.portAt p.val).pendingSheds.filterMap fun x => if x.reported then some { x with sent := x.sent + 1 } else if bit (s.goodIds p.val c) x.laneId then none else some { x with reported := true } }; decide (s.portCfg p.val = some c ∧
        c.duplex = true ∧ s.serdesOn (p.val / 4) = true ∧ s.txAwake p.val c = true ∧
        ((s.portAt p.val).sfAt = 0 ∨ (s.portAt p.val).sfAt + 1048576 ≤ s.ns)))
      klp 0 (⟨4, 8, 0⟩) &&
    (fun (s : State) (p : Fin 80) => decide ((s.portAt p.val).sfAt ≠ 0 ∧
        s.ns < (s.portAt p.val).sfAt + 1048576))
      (klpPort { Port.init with sfAt := 1 }) 0 &&
    (fun (s : State) (p : Fin 80) (c : PortCfg) => decide (s.portCfg p.val = some c ∧ c.duplex = false))
      eth 0 (⟨4, 0, 0⟩)) = true := by decide

theorem witness_IngestEventsAct : (
    (fun (s : State) (p : Fin 80) (f : Frame) (c : PortCfg) => decide (f.wf = true ∧
        s.portCfg p.val = some c ∧ c.klp = false ∧ 2 ≤ (s.portAt p.val).state ∧ f.etherType ≠ 0x8808 ∧
        (vlanOk (s.inPort p.val).vlan f = false ∨ ((s.inPort p.val).mac = 0 ∨ f.dst ≠ (s.inPort p.val).mac) ∧
        f.dst / 2 ^ 40 % 2 = 0)))
      (ethPort { Port.init with state := 2 }) 0 (⟨0x020000000001, 4, [], 0x0800, zeros 46⟩) (⟨4, 0, 0⟩) &&
    (fun (s : State) (p : Fin 80) (f : Frame) (c : PortCfg) => decide (f.wf = true ∧
        s.portCfg p.val = some c ∧ c.klp = false ∧ 2 ≤ (s.portAt p.val).state ∧ f.etherType = 0x8808))
      (ethPort { Port.init with state := 2 }) 0 (⟨0x0180C2000001, 4, [], 0x8808, zeros 46⟩) (⟨4, 0, 0⟩) &&
    (fun (s : State) (p : Fin 80) (f : Frame) (c : PortCfg) => decide (f.wf = true ∧
        s.portCfg p.val = some c ∧ c.klp = false ∧ 2 ≤ (s.portAt p.val).state ∧ c.role = 0 ∧
        (s.inPort p.val).mac ≠ 0 ∧ f.dst = (s.inPort p.val).mac ∧ vlanOk (s.inPort p.val).vlan f = true ∧
        ptpTo (kvGet {} s.qz.ptp.ports p.val) (s.inPort p.val).addresses f = false ∧
        arpReply (s.inPort p.val).addresses f = none ∧
        ((parseIp f.etherType f.payload).bind fun x => neighbourReply (s.inPort p.val).addresses f x) = none ∧
        (parseIp f.etherType f.payload).bind queryOf = none ∧
        (parseIp f.etherType f.payload).any unheeded = false ∧
        (f.etherType = 0x0800 ∨ f.etherType = 0x86DD)))
      ({ ethPort { Port.init with state := 2 } with ing := { eth.ing with ports := [(0, { InPort.init with mac := 0x020000000001, ipv4 := 0x0A000009 })] } }) 0 (⟨0x020000000001, 4, [], 0x0800, zeros 46⟩) (⟨4, 0, 0⟩) &&
    (fun (s : State) (p : Fin 80) (f : Frame) (r : Frame) (c : PortCfg) => decide (f.wf = true ∧
        s.portCfg p.val = some c ∧ c.klp = false ∧ 2 ≤ (s.portAt p.val).state ∧ f.etherType = 0x0806 ∧
        (s.inPort p.val).mac ≠ 0 ∧ (f.dst = (s.inPort p.val).mac ∨ f.dst = 0xFFFFFFFFFFFF) ∧
        vlanOk (s.inPort p.val).vlan f = true ∧ arpReply (s.inPort p.val).addresses f = some r))
      ({ ethPort { Port.init with state := 2 } with ing := { eth.ing with ports := [(0, { InPort.init with mac := 0x020000000001, ipv4 := 0x0A000009 })] } }) 0 (⟨0xFFFFFFFFFFFF, 4, [], 0x0806, [0, 1, 8, 0, 6, 4, 0, 1, 0, 0, 0, 0, 0, 4, 10, 0, 0, 1] ++ zeros 6 ++ [10, 0, 0, 9] ++ zeros 18⟩) ((arpReply (InPort.addresses { InPort.init with mac := 0x020000000001, ipv4 := 0x0A000009 }) ⟨0xFFFFFFFFFFFF, 4, [], 0x0806, [0, 1, 8, 0, 6, 4, 0, 1, 0, 0, 0, 0, 0, 4, 10, 0, 0, 1] ++ zeros 6 ++ [10, 0, 0, 9] ++ zeros 18⟩).getD default) (⟨4, 0, 0⟩) &&
    (fun (s : State) (p : Fin 80) (f : Frame) (c : PortCfg) (q : McastQuery) => decide (f.wf = true ∧
        s.portCfg p.val = some c ∧ c.klp = false ∧ 2 ≤ (s.portAt p.val).state ∧ f.etherType ≠ 0x8808 ∧
        c.role = 0 ∧ f.dst / 2 ^ 40 % 2 = 1 ∧ vlanOk (s.inPort p.val).vlan f = true ∧
        ptpTo (kvGet {} s.qz.ptp.ports p.val) (s.inPort p.val).addresses f = false ∧
        arpReply (s.inPort p.val).addresses f = none ∧
        ((parseIp f.etherType f.payload).bind fun x => neighbourReply (s.inPort p.val).addresses f x) = none ∧
        (parseIp f.etherType f.payload).bind queryOf = some q))
      (ethPort { Port.init with state := 2 }) 0 (⟨0x01005E000001, 4, [], 0x0800, [0x45, 0, 0, 32, 0, 0, 0, 0, 1, 2, 0xCF, 0xDA, 10, 0, 0, 1, 224, 0, 0, 1, 0x11, 0, 0xEE, 0x82, 0, 0, 0, 0, 0, 125, 0, 0]⟩) (⟨4, 0, 0⟩) (⟨4, none, []⟩) &&
    (fun (s : State) (p : Fin 80) (f : Frame) => decide (f.wf = true ∧ (s.portAt p.val).state < 2))
      eth 0 (⟨0x020000000001, 4, [], 0x0800, zeros 46⟩) &&
    (fun (s : State) (p : Fin 80) (b : List Byte) (c : PortCfg) => decide (64 ≤ b.length ∧
        b.length ≤ 9216 ∧ s.portCfg p.val = some c ∧ c.klp = true ∧ 2 ≤ (s.portAt p.val).state))
      (klpPort { Port.init with state := 2 }) 0 (zeros 64) (⟨4, 8, 0⟩) &&
    (fun (_s : State) (_p : Fin 80) (b : List Byte) => decide (b.length < 64)) klp 0 (zeros 63) &&
    (fun (s : State) (p : Fin 80) (b : List Byte) => decide (b.length ≤ 9216 ∧
        (s.portAt p.val).state < 2))
      klp 0 (zeros 64) &&
    (fun (s : State) (p : Part) (rest : List HeldItem) => decide (s.ing.held = .part p :: rest ∧
        (s.noVisit p.index || s.releasedSomewhere (s.visitOf p.index)) = true))
      ({ ready with ing := { ready.ing with held := [.part ⟨0, 0, 0, 1, 0, 1, false, false, 0, 1, [0]⟩] } }) (⟨0, 0, 0, 1, 0, 1, false, false, 0, 1, [0]⟩) ([]) &&
    (fun (s : State) (p : Piece) (rest : List HeldItem) => decide (s.ing.held = .piece p :: rest ∧
        s.noVisit p.index = true))
      ({ ready with ing := { ready.ing with held := [.piece ⟨0, 0, 0, false, false, 0, 1, []⟩] } }) (⟨0, 0, 0, false, false, 0, 1, []⟩) ([]) &&
    (fun (s : State) (p : Piece) (rest : List HeldItem) => decide (s.ing.held = .piece p :: rest ∧
        s.noVisit p.index = false ∧ (s.chan p.channel).released p.visit = true))
      ({ live with ing := { live.ing with held := [.piece ⟨0, 0, 0, false, false, 0, 1, []⟩] } }) (⟨0, 0, 0, false, false, 0, 1, []⟩) ([]) &&
    (fun (s : State) => decide (s.ing.held = [])) ready &&
    (fun (s : State) (c : Nat) (k : Nat) => decide (s.visitExists c k = true ∧
        (s.chan c).released k = true ∧ (s.chan c).closed k = false ∧ s.holdExpired c k = true))
      ({ live with ns := 10 ^ 9, stg := { live.stg with chans := [(0, { Chan.init with visits := [(0, {}), (1, { Visit.init with accepted := some 0 }), (2, { Visit.init with accepted := some 0 })] })] } }) 0 0 &&
    (fun (s : State) (c : Nat) (k : Nat) => decide (s.holdExpired c k = false)) live 0 0 &&
    (fun (s : State) (p : Fin 80) => decide ((s.inPort p.val).queries = [])) eth 0 &&
    (fun (s : State) (p : Fin 80) (q : McastQuery) (rest : List McastQuery) => decide ((s.inPort p.val).queries = q :: rest))
      ({ eth with ns := 10 ^ 9, ing := { eth.ing with ports := [(0, { InPort.init with repeats := [], queries := [⟨4, some [232, 0, 0, 1], []⟩], groups := [⟨4, [232, 0, 0, 1], []⟩] })] } }) 0 (⟨4, some [232, 0, 0, 1], []⟩) ([])) = true := by decide

theorem witness_MicaTakesUpVisits : (
    (fun (s : State) (c : Nat) (k : Nat) (b : Nat) => decide (s.tile.sched = .running ∧
        s.tile.stop = none ∧ s.candidate = some (c, k) ∧ s.freeBank = some b ∧ s.stg.loading = none ∧
        s.visitExists c k = true ∧ k < s.load.toBegin ∧ s.stagingOn b = true))
      ({ { live with ns := 10 ^ 9, stg := { live.stg with chans := [(0, { Chan.init with visits := [(0, { Visit.init with closed := true }), (1, { Visit.init with accepted := some 0 }), (2, { Visit.init with accepted := some 0 })] })] } } with load := { live.load with toBegin := 1 } }) 0 0 0 &&
    (fun (s : State) => decide (s.tryStop = s ∧ s.stg.loading.isSome = true))
      ({ ready with stg := { ready.stg with loading := some ⟨0, 0, 0, 0, []⟩ } }) &&
    (fun (s : State) (l : Loading) => decide (s.stg.loading = some l))
      ({ live with stg := { live.stg with loading := some ⟨0, 0, 0, 0, []⟩ } }) (⟨0, 0, 0, 0, []⟩) &&
    (fun (s : State) => decide (s.stg.loading = none)) ready &&
    (fun (s : State) (c : Nat) (k : Nat) => decide (s.visitExists c k = true ∧
        (s.chan c).eligible k = true ∧ (s.load.round k).plan.contains c = true ∧
        (∀ l ∈ s.stg.loading, l.channel ≠ c ∨ l.visit ≠ k)))
      ({ { live with ns := 10 ^ 9, stg := { live.stg with chans := [(0, { Chan.init with visits := [(0, { Visit.init with closed := true }), (1, { Visit.init with accepted := some 0 }), (2, { Visit.init with accepted := some 0 })] })] } } with load := { live.load with rounds := [{ k := 0, plan := [0] }] } }) 0 0 &&
    (fun (s : State) (c : Nat) (k : Nat) (l : Loading) => decide (s.stg.loading = some l ∧ l.channel = c ∧
        l.visit = k))
      ({ live with stg := { live.stg with loading := some ⟨0, 0, 0, 0, []⟩ } }) 0 0 (⟨0, 0, 0, 0, []⟩) &&
    (fun (s : State) (c : Nat) (k : Nat) => decide ((s.load.round k).plan.contains c = false)) live 0 0 &&
    (fun (s : State) (b : Nat) (c : Nat) (k : Nat) => decide (s.stg.working = none ∧ s.nextBank = some b ∧
        (s.bank b).visit = (c, k) ∧ s.deadlinePassed c k true = false ∧ s.liveSlots.all s.slotOn = true))
      ({ live with stg := { live.stg with bank1 := { live.stg.bank1 with full := true } } }) 1 0 0 &&
    (fun (s : State) => decide (s.stg.working.isSome = true))
      ({ live with stg := { live.stg with working := some (0, ⟨0, 0, [], [], [], [], [], 0⟩) } }) &&
    (fun (s : State) => decide (s.nextBank = none)) live &&
    (fun (s : State) (b : Nat) (c : Nat) (k : Nat) => decide (s.nextBank = some b ∧
        (s.bank b).visit = (c, k) ∧ s.deadlinePassed c k true = true))
      ({ live with ns := 10 ^ 9, stg := { live.stg with chans := [(0, { Chan.init with visits := [(0, {}), (1, { Visit.init with accepted := some 0 }), (2, { Visit.init with accepted := some 0 })] })], bank1 := { live.stg.bank1 with full := true } } }) 1 0 0 &&
    (fun (s : State) (c : Nat) (k : Nat) => decide (s.dropState c k ≠ .started ∧
        s.visitExists c k = true ∧ s.deadlinePassed c k false = true ∧ s.stopsAt k = false))
      ({ live with ns := 10 ^ 9, stg := { live.stg with chans := [(0, { Chan.init with visits := [(0, {}), (1, { Visit.init with accepted := some 0 }), (2, { Visit.init with accepted := some 0 })] })] } }) 0 0 &&
    (fun (s : State) (c : Nat) (k : Nat) => decide ((s.dropState c k = .started ∨ s.deadlinePassed c k false = false)))
      live 0 0 &&
    (fun (s : State) (c : Nat) (k : Nat) (x : Nat) => decide (s.dropState c k ≠ .started ∧
        s.visitExists c k = true ∧ s.deadlinePassed c k false = true ∧ s.tile.sched = .running ∧
        s.tile.stop = some x ∧ x ≤ s.firstIndex k))
      ({ live with ns := 10 ^ 9, tile := { live.tile with stop := some 0 }, stg := { live.stg with chans := [(0, { Chan.init with visits := [(0, {}), (1, { Visit.init with accepted := some 0 }), (2, { Visit.init with accepted := some 0 })] })] } }) 0 0 0 &&
    (fun (s : State) (c : Nat) (k : Nat) => decide (s.tile.sched = .running ∧ s.tile.stop = none ∧
        s.candidate = some (c, k) ∧ s.freeBank.isSome = true ∧ s.stg.loading = none ∧
        s.visitExists c k = true))
      ({ live with ns := 10 ^ 9, stg := { live.stg with chans := [(0, { Chan.init with visits := [(0, { Visit.init with closed := true }), (1, { Visit.init with accepted := some 0 }), (2, { Visit.init with accepted := some 0 })] })] } }) 0 0 &&
    (fun (s : State) (c : Nat) (k : Nat) (_fuel : Nat) => decide (s.candidate = some (c, k) ∧
        s.load.toBegin ≤ k))
      ({ live with ns := 10 ^ 9, stg := { live.stg with chans := [(0, { Chan.init with visits := [(0, { Visit.init with closed := true }), (1, { Visit.init with accepted := some 0 }), (2, { Visit.init with accepted := some 0 })] })] } }) 0 0 0 &&
    (fun (s : State) (b : Nat) => decide (s.readyLoad = s ∧ s.freeBank = some b ∧ s.stagingOn b = false))
      ({ live with ns := 10 ^ 9, load := { live.load with toBegin := 1 }, pwr := { live.pwr with domains := Vector.replicate 96 {} }, stg := { live.stg with chans := [(0, { Chan.init with visits := [(0, { Visit.init with closed := true }), (1, { Visit.init with accepted := some 0 }), (2, { Visit.init with accepted := some 0 })] })] } }) 0 &&
    (fun (s : State) => decide (s.liveSlots.all s.slotOn = false))
      ({ live with pwr := { live.pwr with domains := Vector.replicate 96 {} } })) = true := by decide

theorem witness_TilesAndBasaltWork : (
    (fun (s : State) (i : Nat) (b : Nat) (tile : Nat) (w : TileWork) (ups : List Upset) => let u : State := ((s.setSlot i { s.slotAt i with done := true, visits := (s.slotAt i).visits + b2n (s.slotWorks i w.channel) }).mapTile fun t => { t with tileVisits := t.tileVisits + b2n (s.slotWorks i w.channel) }); let _v : State := (if s.blocksOf i = [] then u else u.setTileInfo tile ((u.tileInfo tile).afterVisit w s.layout (s.blocksOf i) (ups.filter fun x => (s.blocksOf i).contains (upsetBlock x)))); decide (s.stg.working = some (b, w) ∧
        (s.slotAt i).tile = some tile ∧ (s.slotAt i).done = false ∧ s.stg.inbox = none ∧
        s.slotOn i = true))
      ({ live with tile := { live.tile with slots := [⟨some 0, false, 0, 0, 0⟩, ⟨some 1, false, 0, 0, 0⟩] }, stg := { live.stg with working := some (0, ⟨0, 0, [], [], [], [], [], 0⟩) } }) 0 0 0 (⟨0, 0, [], [], [], [], [], 0⟩) ([.cell 0 0 0 1 1]) &&
    (fun (s : State) (_i : Nat) (_u : List Upset) => decide (s.stg.working = none)) live 0 ([]) &&
    (fun (s : State) (i : Nat) (_u : List Upset) => decide ((s.slotAt i).done = true))
      ({ live with tile := { live.tile with slots := [⟨some 0, true, 0, 0, 0⟩] } }) 0 ([]) &&
    (fun (s : State) (i : Nat) (_u : List Upset) => decide ((s.slotAt i).tile = none ∨ s.stg.inbox.isSome = true ∨ s.slotOn i = false))
      ({ live with tile := { live.tile with slots := [⟨none, false, 0, 0, 0⟩] } }) 0 ([]) &&
    (fun (s : State) (w : TileWork) => decide (s.stg.inbox = some w ∧ s.basaltOn w = true))
      ({ live with stg := { live.stg with inbox := some ⟨0, 0, [], [], [], [], [], 0⟩ } }) (⟨0, 0, [], [], [], [], [], 0⟩) &&
    (fun (s : State) => decide (s.stg.inbox = none)) live &&
    (fun (s : State) (r : Round) => decide (s.load.rounds = [r] ∧ s.schedLive = true ∧ r.ended = false ∧
        r.started + r.dropped.length + r.shed.length = s.layout.channels ∧ r.running ≠ 0 ∧
        r.awaiting = [] ∧ s.load.shed = false ∧ s.load.policy.auto = false ∧ s.load.nextPolicy = none))
      ({ live with load := { live.load with rounds := [{ k := 0, started := 1, running := 1 }], policy := { live.load.policy with auto := false } } }) ({ k := 0, started := 1, running := 1 }) &&
    (fun (s : State) (r : Round) => decide (s.load.rounds = [r] ∧ s.schedLive = true ∧ r.ended = true ∧
        r.awaiting = [] ∧ s.roundOver r = true))
      ({ live with ns := 10 ^ 9, load := { live.load with rounds := [{ k := 0, started := 1, ended := true }] }, stg := { live.stg with chans := [(0, { Chan.init with visits := [(1, { Visit.init with accepted := some 0 }), (2, { Visit.init with accepted := some 0 })] })] } }) ({ k := 0, started := 1, ended := true }) &&
    (fun (s : State) => decide (s.load.rounds = [])) live &&
    (fun (s : State) (w : TileWork) => decide (s.stg.inbox = some w ∧ s.basaltOn w = false))
      ({ State.reset with stg := { State.reset.stg with inbox := some ⟨0, 0, [], [], [], [], [], 0⟩ } }) (⟨0, 0, [], [], [], [], [], 0⟩)) = true := by decide

theorem witness_DumpsAndFramesLeave : (
    (fun (s : State) (c : Nat) => decide (c < s.layout.channels ∧ s.integEnds c = true ∧ s.pwr.phase ≠ 6))
      ({ laid with tile := { laid.tile with stop := some 256 }, bas := { laid.bas with integs := [(0, { Integ.init with next := 1, processed := 1 })] } }) 0 &&
    (fun (s : State) (c : Nat) => decide (s.integEnds c = false)) live 0 &&
    (fun (s : State) (c : Nat) (j : DumpJob) => decide (s.dump.jobs.find? (fun x => decide (x.channel = c)) = some j ∧
        j.first s.dump.jobs = true ∧ j.frames = [] ∧ j.inFlight = 0 ∧ j.weightsDone = false))
      ({ ready with dump := { ready.dump with jobs := [job] } }) 0 job &&
    (fun (s : State) (_c : Nat) => decide (s.dump.jobs = [])) ready 0 &&
    (fun (s : State) (c : Nat) (j : DumpJob) => decide (s.dump.jobs = [j] ∧ j.channel = c ∧
        j.first [j] = true ∧ j.weightsDone = true ∧ j.due ≤ s.ns ∧ j.inFlight = 0 ∧ j.dst.kind = 1 ∧
        s.portTransmits j.dst.port = true))
      ({ ready with port := { ready.port with quads := [(0, { rate := 1, role := 1, layout := 2 })], ports := [(0, { Port.init with state := 2 })] }, dump := { ready.dump with jobs := [{ job with weightsDone := true }] } }) 0 ({ job with weightsDone := true }) &&
    (fun (s : State) (p : Fin 80) (f : Frame) (b : List Byte) => decide (f.wf = true ∧
        s.partialPayload p.val f = some b))
      combiner 0 udpTo ((combiner.partialPayload 0 udpTo).getD []) &&
    (fun (s : State) (p : Fin 80) (f : Frame) => decide (f.wf = true ∧ s.partialPayload p.val f = none))
      eth 0 (⟨0x020000000001, 4, [], 0x0800, zeros 46⟩) &&
    (fun (s : State) (c : Nat) (x : Collect) => decide (s.bas.collects = [x] ∧ x.channel = c ∧
        x.startedAt + s.bas.combine.timeoutUs * 1000 ≤ s.ns))
      ({ ready with ns := 10 ^ 9, bas := { ready.bas with collects := [⟨0, 0, 0, [], [], none, none, 0⟩] } }) 0 (⟨0, 0, 0, [], [], none, none, 0⟩) &&
    (fun (s : State) (c : Nat) => decide ((∀ x ∈ s.bas.collects, x.channel = c → s.ns < x.startedAt + s.bas.combine.timeoutUs * 1000)))
      ({ ready with bas := { ready.bas with collects := [⟨0, 0, 0, [], [], none, none, 0⟩] } }) 0 &&
    (fun (s : State) (p : Nat) (o : FrameOwner) (f : Frame) (rest : List (FrameOwner × Frame)) => decide (p < 80 ∧
        s.txq p = (o, f) :: rest))
      ({ ready with port := { ready.port with txq := [(79, [(.own, ⟨0x020000000001, 4, [], 0x0800, zeros 46⟩)])] } }) 79 (.own) (⟨0x020000000001, 4, [], 0x0800, zeros 46⟩) ([]) &&
    (fun (s : State) (p : Nat) => decide (s.txq p = [])) ready 80 &&
    (fun (s : State) (_c : Nat) (j : DumpJob) => decide (s.dump.jobs = [j] ∧ s.ns < j.due))
      ({ ready with dump := { ready.dump with jobs := [{ job with due := 5 }] } }) 0 ({ job with due := 5 })) = true := by decide

theorem witness_SwapsAndChainsAct : (
    (fun (s : State) (n : Fin 16) => decide (s.ns < (s.beamSet n.val).doneAt))
      ({ ready with beam := { ready.beam with sets := [(15, { BeamSet.init with doneAt := 1 })] } }) 15 &&
    (fun (s : State) (n : Fin 16) (w : When) => let u : State := s.setBeamSet n.val { s.beamSet n.val with active := (s.beamSet n.val).load, swap := (s.beamSet n.val).nextSwap, nextSwap := none, owed := true }; let _v : State := u.setBeamSet n.val { u.beamSet n.val with owed := false }; decide ((s.beamSet n.val).doneAt ≤ s.ns ∧
        (s.beamSet n.val).owed = false ∧ (s.beamSet n.val).swap = some w ∧
        ((s.beamSet n.val).channels.all fun c => s.swapPassed w c) = true))
      ({ ready with beam := { ready.beam with sets := [(15, { BeamSet.init with swap := some (.idx 0) })] } }) 15 (.idx 0) &&
    (fun (s : State) (n : Fin 16) => let _u : State := s.setBeamSet n.val { s.beamSet n.val with owed := false }; decide ((s.beamSet n.val).doneAt ≤ s.ns ∧
        (s.beamSet n.val).owed = true))
      ({ ready with beam := { ready.beam with sets := [(15, { BeamSet.init with owed := true })] } }) 15 &&
    (fun (s : State) (n : Fin 16) => decide ((s.beamSet n.val).owed = false ∧
        (∀ w ∈ (s.beamSet n.val).swap, ((s.beamSet n.val).channels.all fun c => s.swapPassed w c) = false)))
      ready 15 &&
    (fun (s : State) (n : Fin 32) (x : ChainInput) (rest : List ChainInput) => decide ((s.chain n.val).input = x :: rest ∧
        x.gap = true ∧ s.chainWaits n.val x.visit = false ∧ s.domainOn (91 + n.val / 16) = true))
      ({ ready with filt := { ready.filt with chains := [(31, { Chain.init with on := true, input := [⟨0, true, []⟩] })] } }) 31 (⟨0, true, []⟩) ([]) &&
    (fun (s : State) (n : Fin 32) (x : ChainInput) (rest : List ChainInput) => decide ((s.chain n.val).input = x :: rest ∧
        x.gap = false ∧ s.chainWaits n.val x.visit = false ∧ s.domainOn (91 + n.val / 16) = true))
      ({ ready with filt := { ready.filt with chains := [(31, { Chain.init with input := [⟨0, false, []⟩] })] } }) 31 (⟨0, false, []⟩) ([]) &&
    (fun (s : State) (n : Fin 32) => decide ((∀ x ∈ (s.chain n.val).input.head?, s.chainWaits n.val x.visit = true ∨ s.domainOn (91 + n.val / 16) = false)))
      ready 31 &&
    (fun (s : State) (m : Nat) => decide (s.filt.doneAt ≤ s.ns ∧ s.filt.owed = [] ∧ s.filt.applies = [m] ∧
        ((bitsOf 32 m).all fun n => s.chainSwapped (s.chain n)) = true))
      ({ ready with filt := { ready.filt with applies := [2 ^ 31] } }) (2 ^ 31) &&
    (fun (s : State) (m : Nat) (rest : List Nat) => decide (s.filt.doneAt ≤ s.ns ∧
        s.filt.owed = m :: rest))
      ({ ready with filt := { ready.filt with owed := [1] } }) 1 ([]) &&
    (fun (s : State) => decide (s.filt.applies = [] ∧ (s.filt.owed = [] ∨ s.ns < s.filt.doneAt))) ready) = true := by decide

theorem witness_TilesMoveAndAreTested : (
    (fun (s : State) => decide (s.spare.auditS ≠ 0 ∧ s.spare.due = false ∧ s.tile.slots ≠ [] ∧
        s.spare.lastStep + s.spare.auditS * secUnits ≤ s.now))
      ({ dated with spare := { dated.spare with auditS := 10 } }) &&
    (fun (s : State) => decide (s.spare.auditS = 0)) ({ ready with spare := { ready.spare with auditS := 0 } }) &&
    (fun (s : State) (i : Nat) (x : Nat) => decide (s.auditReady = true ∧ s.auditSlot = some i ∧
        s.readyTile = some x ∧ s.domainOn (x / 4) = true))
      ({ ready with spare := { ready.spare with due := true, tiles := [(5, { TileInfo.init with mode := .ready })] } }) 0 5 &&
    (fun (s : State) => decide (s.auditReady = true ∧ s.readyTile = none))
      ({ ready with spare := { ready.spare with due := true } }) &&
    (fun (s : State) => decide (s.auditReady = false)) ready &&
    (fun (s : State) (i : Nat) (x : Nat) => decide (s.atBoundary = true ∧ s.faultySlot = some i ∧
        s.readyTile = some x ∧ s.domainOn (x / 4) = true ∧ s.moveFirst (s.faultDue i) = true))
      ({ ready with spare := { ready.spare with tiles := [(0, { TileInfo.init with reported := true }), (5, { TileInfo.init with mode := .ready })] } }) 0 5 &&
    (fun (s : State) (i : Nat) => decide ((s.faultTurn i = false ∨ s.atBoundary = false))) ready 0 &&
    (fun (s : State) (i : Nat) (x : Nat) => decide (s.readyTile = some x ∧ s.faultySlot = none ∧
        s.auditSlot = some i ∧ s.auditReady = true ∧ s.domainOn (x / 4) = true))
      ({ ready with spare := { ready.spare with due := true, tiles := [(5, { TileInfo.init with mode := .ready })] } }) 0 5 &&
    (fun (s : State) (_i : Nat) (x : Nat) => decide (s.readyTile ≠ some x)) ready 0 5 &&
    (fun (s : State) (x : Leaving) (due : Nat) (rest : List Leaving) => decide (s.atBoundary = true ∧
        s.tile.leaving = x :: rest ∧ x.due = some due ∧ s.moveFirst due = true))
      ({ ready with tile := { ready.tile with leaving := [⟨0, 0, some 0⟩] } }) (⟨0, 0, some 0⟩) 0 ([]) &&
    (fun (s : State) (i : Nat) => decide ((∀ x ∈ s.tile.leaving, x.slot = i → x.due = none)))
      ({ ready with tile := { ready.tile with leaving := [⟨0, 0, none⟩] } }) 0 &&
    (fun (s : State) (t : Nat) => decide (t < 272 ∧ (s.tileInfo t).mode = .testing ∧
        (s.tileInfo t).doom = 0 ∧ s.domainOn (t / 4) = true))
      ({ ready with spare := { ready.spare with tiles := [(271, { TileInfo.init with mode := .testing, fails := 0 })] } }) 271 &&
    (fun (s : State) (t : Nat) => decide (t < 272 ∧ (s.tileInfo t).mode = .testing ∧
        (s.tileInfo t).doom = 0 ∧ s.domainOn (t / 4) = true ∧ (s.tileInfo t).fails ≠ 0))
      ({ ready with spare := { ready.spare with tiles := [(271, { TileInfo.init with mode := .testing, fails := 1 })] } }) 271 &&
    (fun (s : State) (t : Nat) => decide (t < 272 ∧ (s.tileInfo t).mode = .testing ∧
        (s.tileInfo t).doom = 0 ∧ s.domainOn (t / 4) = true ∧ (s.tileInfo t).fails = 0))
      ({ ready with spare := { ready.spare with tiles := [(271, { TileInfo.init with mode := .testing, fails := 0 })] } }) 271 &&
    (fun (s : State) (t : Nat) (_pass : Bool) => decide (t < 272 ∧ (s.tileInfo t).mode = .testing ∧
        (s.tileInfo t).doom ≠ 0 ∧ s.domainOn (t / 4) = true))
      ({ ready with spare := { ready.spare with tiles := [(271, { TileInfo.init with mode := .testing, doom := 2 })] } }) 271 true &&
    (fun (s : State) (t : Nat) (rows : List Nat) => decide (t < 272 ∧ (∀ x ∈ rows, x < 512) ∧
        (s.tileInfo t).mode = .testing ∧ (s.tileInfo t).doom = 0 ∧ s.domainOn (t / 4) = true))
      ({ ready with spare := { ready.spare with tiles := [(271, { TileInfo.init with mode := .testing, fails := 0 })] } }) 271 ([511]) &&
    (fun (s : State) (t : Nat) (_pass : Bool) (rows : List Nat) => decide ((∀ x ∈ rows, x < 512) ∧
        (272 ≤ t ∨ (s.tileInfo t).mode ≠ .testing ∨ s.domainOn (t / 4) = false)))
      ready 271 true ([511]) &&
    (fun (s : State) (i : Nat) (t : Nat) => decide (s.atBoundary = true ∧ s.readyTile = none ∧
        s.liveSlots.contains i = true ∧ s.slotFaulty i = true ∧ s.moveFirst (s.faultDue i) = true ∧
        (s.slotAt i).tile = some t ∧ (s.tileInfo t).doom ≠ 0 ∧
        ((List.range 272).any fun x => (s.tileInfo x).mode = .testing) = false))
      ({ ready with spare := { ready.spare with tiles := [(0, { TileInfo.init with doom := 2, reported := true })] } }) 0 0) = true := by decide

theorem witness_ReferencesDisciplineTime : (
    (fun (s : State) => decide (s.qz.refLostAt = none)) ready &&
    (fun (s : State) (x : Nat) => decide (s.qz.refLostAt = some x))
      ({ ready with qz := { ready.qz with refLostAt := some 7 } }) 7 &&
    (fun (s : State) (phase : Nat) (x : Nat) => let _ts : Int := (s.stampAt phase : Int) - s.qz.source.ppsDelay; decide (phase < 16 ∧
        s.qz.pendingSet = some x ∧ s.qz.source.mode ≠ 1))
      ({ ready with qz := { ready.qz with pendingSet := some 5 } }) 15 5 &&
    (fun (s : State) (phase : Nat) => decide (phase < 16 ∧ s.qz.pendingSet = none ∧ s.qz.source.mode ≠ 1)) ready 15 &&
    (fun (s : State) (phase : Nat) => decide (phase < 16 ∧ s.qz.pendingSet = none ∧ s.qz.source.mode = 1))
      ({ ready with qz := { ready.qz with source := { ready.qz.source with mode := 1 } } }) 15 &&
    (fun (s : State) => decide (s.qz.source.mode = 1 ∧ s.qz.lastPpsAt + 1500000000 ≤ s.ns))
      ({ later with qz := { later.qz with source := { ready.qz.source with mode := 1 } } }) &&
    (fun (s : State) => decide (s.ns < s.qz.lastPpsAt + 1500000000)) ready &&
    (fun (s : State) => decide (s.mc.inGap = false ∧ s.qz.source.mode = 2 ∧ s.qz.ptp.slave = none ∧
        s.qz.ptp.ex.syncAt + 3 * interval s.qz.ptp.logSync ≤ s.ns))
      ({ ready with ns := 10 ^ 10, qz := { ready.qz with source := { ready.qz.source with mode := 2 } } }) &&
    (fun (s : State) (n : Nat) => decide (s.mc.inGap = false ∧ s.qz.source.mode = 2 ∧
        s.qz.ptp.slave = some n ∧
        ((s.portBest n).isNone = true ∨ s.qz.ptp.ex.syncAt + 3 * interval s.qz.ptp.logSync ≤ s.ns)))
      ({ ready with qz := { ready.qz with disc := 2, source := { ready.qz.source with mode := 2 }, ptp := { ready.qz.ptp with slave := some 128 } } }) 128 &&
    (fun (s : State) => decide ((s.mc.inGap = true ∨ s.qz.source.mode ≠ 2))) ready &&
    (fun (s : State) (x : Nat) => decide (s.qz.refLostAt = some x ∧
        x + s.qz.source.holdoverS * 1000000000 < s.ns ∧ s.qz.discLostAt = none))
      ({ ready with ns := 10 ^ 12, qz := { ready.qz with refLostAt := some 0 } }) 0 &&
    (fun (s : State) (x : Nat) => decide (s.qz.discLostAt = some x ∧
        x + s.qz.source.holdoverS * 1000000000 < s.ns ∧ s.qz.refLostAt = none))
      ({ ready with ns := 10 ^ 12, qz := { ready.qz with discLostAt := some 0 } }) 0 &&
    (fun (s : State) => decide (s.qz.refLostAt = none ∧ s.qz.discLostAt = none)) ready &&
    (fun (s : State) (p : PtpPort) (b : List Byte) => decide (b.length ≤ 1500 ∧
        (s.ptpPort (portNumber p)).role = 0))
      ready (.mgmt 0) ([]) &&
    (fun (s : State) (p : PtpPort) (_k : PtpSend) => decide ((s.ptpPort (portNumber p)).role ≠ 0 ∧
        s.ptpMaySend (portNumber p) = true ∧ s.serving = true))
      ({ managed with qz := { managed.qz with ptp := { ready.qz.ptp with ports := [(128, { PtpPortCfg.init with role := 1 })] } } }) (.mgmt 0) (.sync) &&
    (fun (s : State) (p : PtpPort) (_k : PtpSend) => decide ((s.serving = false ∨ s.ptpMaySend (portNumber p) = false)))
      (State.reset) (.mgmt 0) (.sync)) = true := by decide

theorem witness_PulsesAndPinsAct : (
    (fun (s : State) (g : Fin 8) (t : Nat) => decide ((s.pulse g.val).edge (s.pulse g.val).next = some t ∧
        (s.pulse g.val).spent = false ∧ t ≤ s.now ∧ s.majority = true ∧ s.qz.held = false))
      ({ ready with qz := { ready.qz with pulses := [(7, { PulseGen.init with start := some 0 })] } }) 7 0 &&
    (fun (s : State) (g : Fin 8) (t : Nat) => decide ((s.pulse g.val).edge (s.pulse g.val).next = some t ∧
        (s.pulse g.val).spent = false ∧ t ≤ s.now ∧ (s.majority = false ∨ s.qz.held = true)))
      ({ ready with qz := { ready.qz with pulses := [(7, { PulseGen.init with start := some 0 })], held := true } }) 7 0 &&
    (fun (s : State) (g : Fin 8) => decide ((∀ t ∈ (s.pulse g.val).edge (s.pulse g.val).next, (s.pulse g.val).spent = true ∨ s.now < t)))
      ({ ready with qz := { ready.qz with pulses := [(7, { PulseGen.init with start := some 1 })] } }) 7 &&
    (fun (s : State) (g : Fin 8) (t : Nat) => decide ((s.pulse g.val).high = some t ∧
        t + (s.pulse g.val).width * 65536 ≤ s.now))
      ({ dated with qz := { dated.qz with pulses := [(7, { PulseGen.init with high := some 0 })] } }) 7 0 &&
    (fun (s : State) (g : Fin 8) => decide ((∀ t ∈ (s.pulse g.val).high, s.now < t + (s.pulse g.val).width * 65536)))
      ready 7 &&
    (fun (s : State) (n : Fin 16) (r : Bool) (phase : Nat) => decide (phase < 16 ∧
        (s.evtPin n.val).output = false ∧ (s.evtPin n.val).level ≠ some r ∧
        bit (s.evtPin n.val).edges (if r then 0 else 1) = true ∧
        (∀ x ∈ (s.evtPin n.val).lastEdge, s.stampAt phase < x ∨ x + 4 * 65536 ≤ s.stampAt phase)))
      ({ ready with qz := { ready.qz with evt := [(15, { EvtPin.init with edges := 1 })] } }) 15 true 15 &&
    (fun (s : State) (n : Fin 16) (r : Bool) (phase : Nat) (x : Nat) => decide (phase < 16 ∧
        (s.evtPin n.val).output = false ∧ (s.evtPin n.val).level ≠ some r ∧
        bit (s.evtPin n.val).edges (if r then 0 else 1) = true ∧ (s.evtPin n.val).lastEdge = some x ∧
        x ≤ s.stampAt phase ∧ s.stampAt phase < x + 4 * 65536))
      ({ ready with qz := { ready.qz with evt := [(15, { EvtPin.init with edges := 3, lastEdge := some 0 })] } }) 15 true 15 0 &&
    (fun (s : State) (n : Fin 16) (r : Bool) (phase : Nat) => decide (phase < 16 ∧
        (s.evtPin n.val).output = false ∧ (s.evtPin n.val).level ≠ some r ∧
        bit (s.evtPin n.val).edges (if r then 0 else 1) = false))
      ({ ready with qz := { ready.qz with evt := [(15, { EvtPin.init with edges := 2 })] } }) 15 true 15 &&
    (fun (s : State) (n : Fin 16) (r : Bool) (phase : Nat) => decide (phase < 16 ∧
        ((s.evtPin n.val).output = true ∨ (s.evtPin n.val).level = some r)))
      ({ ready with qz := { ready.qz with evt := [(15, { EvtPin.init with output := true })] } }) 15 true 15 &&
    (fun (s : State) => decide (s.schedLive = true ∧ s.majority = true ∧ s.qz.held = false ∧
        s.epochReached (s.epochIndex s.qz.nextEpoch) = true))
      ({ live with qz := { live.qz with mapping := some ⟨0, 0, 1, 1⟩ } }) &&
    (fun (s : State) => decide ((s.majority = false ∨ s.qz.held = true ∨ s.schedLive = false ∨ s.epochReached (s.epochIndex s.qz.nextEpoch) = false)))
      ({ ready with qz := { ready.qz with r0 := { ready.qz.r0 with inVote := false }, r1 := { ready.qz.r1 with inVote := false } } })) = true := by decide

theorem witness_ReplicasVote : (
    (fun (s : State) (r : Fin 3) (v : Nat) => decide (v < 2 ^ 48 * 1000000000 * 2 ^ 48 ∧
        (s.replica r).inVote = true ∧
        (s.setReplica r { s.replica r with time := v }).othersAgree r = true ∧
        votedRaw (s.setReplica r { s.replica r with time := v }).replicas ≠ some v))
      ready 0 1 &&
    (fun (s : State) (r : Fin 3) => decide (s.othersAgree r = true)) ready 2 &&
    (fun (s : State) (r : Fin 3) (v : Nat) => decide (v < 2 ^ 48 * 1000000000 * 2 ^ 48 ∧
        (s.replica r).inVote = true ∧
        (s.setReplica r { s.replica r with time := v }).othersAgree r = false ∧
        (s.setReplica r { s.replica r with time := v }).majority = false))
      ({ ready with qz := { ready.qz with r1 := { ready.qz.r1 with time := 5 } } }) 0 7 &&
    (fun (s : State) (r : Fin 3) (i : Nat) => decide (i < 4096 ∧ (s.replica r).inVote = true ∧
        s.othersAgree r = false))
      ({ ready with qz := { ready.qz with r1 := { ready.qz.r1 with time := 5 } } }) 0 4095 &&
    (fun (s : State) (r : Fin 3) => decide ((s.replica r).inVote = true ∧ s.othersAgree r = true)) ready 2 &&
    (fun (s : State) (r : Fin 3) => decide ((s.replica r).inVote = true ∧ s.othersAgree r = false))
      ({ ready with qz := { ready.qz with r0 := { ready.qz.r0 with inVote := false } } }) 2 &&
    (fun (s : State) (r : Fin 3) (x : Nat) => decide (votedRaw s.replicas = some x ∧
        (s.replica r).inVote = false ∧ (s.replica r).fenced = false ∧
        (s.replica r).outSec < s.now / secUnits))
      ({ dated with qz := { dated.qz with r2 := { ready.qz.r2 with inVote := false } } }) 2 (2 ^ 90) &&
    (fun (s : State) (r : Fin 3) => decide ((s.replica r).fenced = true))
      ({ ready with qz := { ready.qz with r0 := { ready.qz.r0 with fenced := true } } }) 0 &&
    (fun (s : State) => decide (s.qz.held = true ∧ s.majority = true ∧
        s.qz.heldSec ≠ some (s.now / secUnits)))
      ({ ready with qz := { ready.qz with held := true } }) &&
    (fun (s : State) => decide ((s.majority = false ∨ s.qz.held = false ∨ s.qz.heldSec = some (s.now / secUnits))))
      ({ ready with qz := { ready.qz with r0 := { ready.qz.r0 with inVote := false }, r1 := { ready.qz.r1 with inVote := false } } })) = true := by decide

theorem witness_FreranLinksAct : (
    (fun (s : State) (p : Fin 2) (b : List Byte) (ph : Nat) => decide (b.length = 36 ∧ ph < 65536 ∧
        (s.frPort p).enable = true ∧ frParse b = none))
      ({ ready with ns := 0, fr := { ready.fr with port1 := { ready.fr.port1 with enable := true } } }) 1 (zeros 36) 65535 &&
    (fun (s : State) (p : Fin 2) (b : List Byte) (ph : Nat) (m : FrMsg) => let _u : State := s.setFrPort p { s.frPort p with heardAt := s.ns }; decide (b.length = 36 ∧
        ph < 65536 ∧ (s.frPort p).enable = true ∧ frParse b = some m))
      ({ ready with ns := 0, fr := { ready.fr with port1 := { ready.fr.port1 with enable := true } } }) 1 (frBytes 6) 65535 ((frParse (frBytes 6)).getD ⟨0, 0, 0, 0, 0, 0, 0, 0⟩) &&
    (fun (s : State) (p : Fin 2) (b : List Byte) (ph : Nat) => decide (b.length = 36 ∧ ph < 65536 ∧
        (s.frPort p).enable = false))
      ready 1 (zeros 36) 65535 &&
    (fun (s : State) (p : Fin 2) (ph : Nat) => decide (ph < 65536 ∧ (s.frPort p).enable = true ∧
        (s.frPort p).sentAt + 1000000 ≤ s.ns))
      ({ ready with ns := 1000000, fr := { ready.fr with port1 := { ready.fr.port1 with enable := true } } }) 1 65535 &&
    (fun (s : State) (p : Fin 2) (ph : Nat) => decide (ph < 65536 ∧ s.ns < (s.frPort p).sentAt + 1000000)) ready 1 0 &&
    (fun (s : State) (p : Fin 2) => decide ((s.frPort p).heardAt + 10000000 ≤ s.ns))
      ({ ready with ns := 10000000, fr := { ready.fr with port1 := { ready.fr.port1 with enable := true } } }) 1 &&
    (fun (s : State) (p : Fin 2) => decide (s.ns < (s.frPort p).heardAt + 10000000)) ready 1 &&
    (fun (s : State) (g : Nat) (at_ : Nat) (fires : List Fire) => decide (s.fr.windows = [(g, at_, fires)] ∧
        at_ * 65536 + 2 * s.fr.maxLatency ≤ s.ns * 65536))
      ({ ready with ns := 10 ^ 9, fr := { ready.fr with windows := [(3, 0, [])] } }) 3 0 ([]) &&
    (fun (s : State) => decide ((∀ w ∈ s.fr.windows, s.ns * 65536 < w.2.1 * 65536 + 2 * s.fr.maxLatency)))
      ({ ready with ns := 10 ^ 9, fr := { ready.fr with windows := [(3, 10 ^ 9, [])] } }) &&
    (fun (s : State) (x : Nat) (g : Nat) (rest : List (Nat × Nat)) => decide (s.fr.rearmAt = (x, g) :: rest ∧
        x ≤ s.ns))
      ({ ready with ns := 10 ^ 9, fr := { ready.fr with mode := 1, rearm := true, rearmAt := [(5, 9)] } }) 5 9 ([]) &&
    (fun (s : State) => decide ((∀ x ∈ s.fr.rearmAt.head?, s.ns < x.1)))
      ({ ready with ns := 10 ^ 9, fr := { ready.fr with rearmAt := [(10 ^ 9 + 1, 0)] } })) = true := by decide

theorem witness_CaptureEventsAct : (
    (fun (s : State) (x : Trigger) (rest : List Trigger) => let u : State := (if s.cap.segs.head?.any (fun y => decide (y.mode = .exporting ∧
        y.inFlight = 0)) then evSegmentDone s else s); decide (s.cap.mode = .deciding ∧
        s.cap.openedAt + s.cap.mergeUs * 1000 ≤ s.ns ∧ u.cap.mode = .deciding ∧
        u.cap.openedAt + u.cap.mergeUs * 1000 ≤ u.ns ∧
        (u.cap.window.filter fun e => !(decide (e.source = 3) && u.cap.window.any fun y => decide (y.source ≠ 3) && decide (y.index = e.index))) = x :: rest))
      ({ ready with ns := 10 ^ 9, cap := { ready.cap with mode := .deciding, window := [⟨0, 0, 0, 0⟩], segs := [{ (⟨.exporting, 0, ⟨0, 0, 0, 0⟩, 0, 1, 0, 0, 0, 0, 0, [], 0, 0, false, {}⟩ : Segment) with dest := { kind := 1 } }] } }) (⟨0, 0, 0, 0⟩) ([]) &&
    (fun (s : State) => decide ((s.cap.mode ≠ .deciding ∨ s.ns < s.cap.openedAt + s.cap.mergeUs * 1000))) ready &&
    (fun (s : State) => decide (s.cap.segMode = 2 ∧ s.cap.autoSpent = false ∧
        (s.cap.mode = .armed ∨ s.cap.mode = .deciding) ∧
        (match s.qz.mapping with | none => decide (s.cap.armGen ≤ s.cap.gen ∧
        s.cap.rearm + s.cap.autoLen < s.cap.top) | some _ => (s.instantOfIndex (s.cap.rearm + s.cap.autoLen)).any fun x => decide (x + s.cap.mergeUs * 1000 * 65536 ≤ s.now)) = true))
      ({ ready with ns := 10 ^ 9, cap := { ready.cap with segMode := 2, mode := .armed, top := 1 } }) &&
    (fun (s : State) => decide ((s.cap.segMode ≠ 2 ∨ s.cap.autoSpent = true))) ready &&
    (fun (s : State) (x : Segment) => let _u : State := (s.mapSegment x.seq fun y => { y with mode := .waiting, lost := y.lost ++ [] }).mapCap (fun c => { c with lostGranules := c.lostGranules + 0 }); decide (s.cap.segs = [x] ∧
        x.mode = .capturing ∧ s.cap.mode = .capturing ∧ s.segmentEnded x = true ∧ x.stopped = false))
      ({ live with tile := { live.tile with start := 512 }, cap := { live.cap with mode := .capturing, segs := [(⟨.capturing, 0, ⟨0, 0, 0, 0⟩, 0, 1, 0, 0, 0, 0, 0, [], 0, 0, false, {}⟩ : Segment)] } }) ((⟨.capturing, 0, ⟨0, 0, 0, 0⟩, 0, 1, 0, 0, 0, 0, 0, [], 0, 0, false, {}⟩ : Segment)) &&
    (fun (s : State) (x : Segment) => let gone : List Nat := ((List.range x.count).filter fun i => !x.lost.contains i && (s.blockFor x i).isNone); let _u : State := (s.mapSegment x.seq fun y => { y with mode := .waiting, lost := y.lost ++ gone }).mapCap (fun c => { c with lostGranules := c.lostGranules + gone.length }); decide (s.cap.segs = [x] ∧
        x.mode = .capturing ∧ s.cap.mode = .capturing ∧ x.stopped = true ∧ s.cap.segMode = 0))
      ({ ready with cap := { ready.cap with mode := .capturing, segs := [{ (⟨.capturing, 0, ⟨0, 0, 0, 0⟩, 0, 1, 0, 0, 0, 0, 0, [], 0, 0, false, {}⟩ : Segment) with stopped := true }] } }) ({ (⟨.capturing, 0, ⟨0, 0, 0, 0⟩, 0, 1, 0, 0, 0, 0, 0, [], 0, 0, false, {}⟩ : Segment) with stopped := true }) &&
    (fun (s : State) => decide (s.cap.mode ≠ .capturing)) ready &&
    (fun (s : State) => decide (s.cap.segs = [])) ready &&
    (fun (s : State) (x : Segment) (rest : List Segment) => decide (s.cap.segs = x :: rest ∧
        x.mode = .exporting ∧ x.inFlight = 0 ∧ x.dest.kind = 1))
      ({ ready with cap := { ready.cap with segs := [{ (⟨.exporting, 0, ⟨0, 0, 0, 0⟩, 0, 1, 0, 0, 0, 0, 0, [], 0, 0, false, {}⟩ : Segment) with dest := { kind := 1 } }] } }) ({ (⟨.exporting, 0, ⟨0, 0, 0, 0⟩, 0, 1, 0, 0, 0, 0, 0, [], 0, 0, false, {}⟩ : Segment) with dest := { kind := 1 } }) ([]) &&
    (fun (s : State) (x : Segment) (rest : List Segment) => decide (s.cap.segs = x :: rest ∧
        (x.mode ≠ .exporting ∨ x.inFlight ≠ 0)))
      ({ ready with cap := { ready.cap with segs := [(⟨.capturing, 0, ⟨0, 0, 0, 0⟩, 0, 1, 0, 0, 0, 0, 0, [], 0, 0, false, {}⟩ : Segment)] } }) ((⟨.capturing, 0, ⟨0, 0, 0, 0⟩, 0, 1, 0, 0, 0, 0, 0, [], 0, 0, false, {}⟩ : Segment)) ([])) = true := by decide

theorem witness_RouterAndDmaAct : (
    (fun (s : State) (e : EventRec) (rest : List EventRec) => decide (s.er.raised = e :: rest ∧
        e.at_ + 8 ≤ s.ns))
      ({ ready with ns := 8, er := { ready.er with raised := [⟨1, 0, 0, false, false, ⟨0, 0, 0⟩, 0, 0⟩] } }) (⟨1, 0, 0, false, false, ⟨0, 0, 0⟩, 0, 0⟩) ([]) &&
    (fun (s : State) (e : EventRec) => decide (s.er.raised = [e] ∧ e.at_ + 8 ≤ s.ns))
      ({ ready with ns := 8, er := { ready.er with raised := [⟨1, 0, 0, false, false, ⟨0, 0, 0⟩, 0, 0⟩] } }) (⟨1, 0, 0, false, false, ⟨0, 0, 0⟩, 0, 0⟩) &&
    (fun (s : State) (e : EventRec) (rest : List EventRec) => decide (s.er.raised = e :: rest ∧
        s.ns < e.at_ + 8))
      ({ ready with er := { ready.er with raised := [⟨1, 0, 0, false, false, ⟨0, 0, 0⟩, 0, 0⟩] } }) (⟨1, 0, 0, false, false, ⟨0, 0, 0⟩, 0, 0⟩) ([]) &&
    (fun (s : State) => decide (s.er.raised = [])) ready &&
    (fun (s : State) (n : Nat) (_x : Option (List Byte)) => decide (n < 256 ∧ (s.dma n).mode = .idle ∧
        (s.dma n).running = none ∧ s.domainOn 94 = true ∧ s.descWaiting (s.dma n) = true ∧
        (s.dma n).eventStart = false ∧ s.complRoom (s.dma n).complQ = true))
      ({ ready with ring := { ready.ring with channels := [(255, { DmaChannel.init with mode := .idle, descQ := 10, complQ := 11 })], queues := [(10, { Queue.init with enable := true, prod := 1 }), (11, { Queue.init with enable := true })] } }) 255 none &&
    (fun (s : State) (n : Nat) (_x : Option (List Byte)) => decide ((256 ≤ n ∨ s.domainOn 94 = false ∨ s.descWaiting (s.dma n) = false ∨ s.complRoom (s.dma n).complQ = false)))
      (State.reset) 0 none &&
    (fun (s : State) (n : Nat) (r : RunningDesc) (_x : DmaOutcome) => decide ((s.dma n).running = some r ∧
        (s.dma n).doneAt ≤ s.ns))
      ({ ready with ring := { ready.ring with channels := [(255, { DmaChannel.init with running := some ⟨0, none⟩ })], queues := [] } }) 255 (⟨0, none⟩) ({}) &&
    (fun (s : State) (n : Nat) (_x : DmaOutcome) => decide (((s.dma n).running = none ∨ s.ns < (s.dma n).doneAt)))
      ready 255 ({}) &&
    (fun (s : State) (q : Nat) (t : Nat) => decide ((s.queue q).raisedAt = some t ∧
        (s.queue q).owed = true ∧ t + (s.queue q).coal * 1000 ≤ s.ns))
      ({ ready with ring := { ready.ring with channels := [], queues := [(9, { Queue.init with raisedAt := some 0, owed := true })] } }) 9 0 &&
    (fun (s : State) (q : Nat) => decide ((s.queue q).owed = false)) ready 9 &&
    (fun (s : State) => decide ((s.domain 94).state = .draining ∧ (s.domain 94).since + 90000 ≤ s.ns))
      ({ ready with ns := 90000, pwr := { ready.pwr with domains := Vector.replicate 96 { state := .draining } } }) &&
    (fun (s : State) => decide (((s.domain 94).state ≠ .draining ∨ s.ns < (s.domain 94).since + 90000))) ready) = true := by decide

theorem witness_CoresShareTheToken : (
    (fun (s : State) (h : Fin 2) => decide (s.tokenLapsed = false ∧
        max (s.core h).wireAt (s.core h).mailAt + 100000 ≤ s.ns ∧ (s.core h).mode = .standby))
      ({ withStandby with ns := 100000 }) 1 &&
    (fun (s : State) (h : Fin 2) => decide (s.tokenLapsed = false ∧
        max (s.core h).wireAt (s.core h).mailAt + 100000 ≤ s.ns ∧ (s.core h).mode = .active ∧
        s.mc.rehearsal = none ∧ s.mc.token = some h))
      ({ ready with ns := 100000 }) 0 &&
    (fun (s : State) (h : Fin 2) => decide (s.ns < max (s.core h).wireAt (s.core h).mailAt + 100000)) ready 0 &&
    (fun (s : State) => decide (s.mc.token.isSome = true ∧ s.mc.tokenAt + 1000000 ≤ s.ns)) later &&
    (fun (s : State) => decide ((s.mc.token = none ∨ s.ns < s.mc.tokenAt + 1000000))) ready &&
    (fun (s : State) (h : Fin 2) => decide ((s.core h).mode = .active)) ready 0 &&
    (fun (s : State) (h : Fin 2) => decide ((s.core h).mode ≠ .active)) ready 1 &&
    (fun (s : State) => let u : State := s.expireToken; decide (u.takeoverDue 0 = false ∧
        u.takeoverDue 1 = false))
      ready &&
    (fun (s : State) (h : Fin 2) => let u : State := s.expireToken; decide (u.claimDue h = true ∧
        (h = 1 → u.claimDue 0 = false) ∧ s.mc.claimed = false ∧ s.pwr.phase = 2))
      ({ ready with mc := { ready.mc with token := none, claimed := false, coreA := { mode := .standby, bootedAt := some 0 } }, pwr := { ready.pwr with phase := 2 } }) 0 &&
    (fun (s : State) (h : Fin 2) => let u : State := s.expireToken; decide (u.claimDue h = false ∧
        u.claimDue 0 = false))
      ready 1 &&
    (fun (_s : State) (c : Client) => decide (c.wf = true)) ready cli &&
    (fun (s : State) (h : Fin 2) (unit : Nat) (words : Nat) => let _u : State := (s.mapMem fun m => { m with sramBad := kvSet 0 m.sramBad unit words }).sramError h.val unit words false (0x40000000 + unit); decide (unit % 32 = 0 ∧
        unit < 0x400000 ∧ 0 < words ∧ words < 16 ∧ (s.core h).mode = .active))
      ready 0 0x3FFFE0 15 &&
    (fun (s : State) (h : Fin 2) => decide (s.mc.token = some h ∧ s.tokenLapsed = true ∧
        (s.core h).mode = .active ∧ max (s.core h).wireAt (s.core h).mailAt + 100000 ≤ s.ns))
      later 0) = true := by decide

theorem witness_ResetsAndBootAct : (
    (fun (s : State) (t : Nat) => decide (s.pwr.resetAt = some t ∧ t ≤ s.ns))
      ({ ready with pwr := { ready.pwr with resetAt := some 0 } }) 0 &&
    (fun (s : State) => decide ((∀ x ∈ s.pwr.resetAt, s.ns < x))) ready &&
    (fun (_s : State) (x : InboundCut) => decide (x.wf = true)) ready ({}) &&
    (fun (_s : State) (k : PcieResetKind) (x : InboundCut) => decide (x.wf = true ∧ k ≠ .function))
      ready (.removal) ({}) &&
    (fun (s : State) (_g : Nat) (_w : Nat) => decide (s.domainOn 85 = true)) ready 5 16 &&
    (fun (s : State) (_g : Nat) (_w : Nat) => decide (s.domainOn 85 = false)) (State.reset) 5 16 &&
    (fun (s : State) (p : Fin 2) (_up : Bool) => decide (s.domainOn 86 = true ∧ (s.mgmt p.val).mode ≠ 0))
      managed 1 true &&
    (fun (s : State) (p : Fin 2) => decide (((s.mgmt p.val).mode = 0 ∨ s.domainOn 86 = false)))
      ({ ready with dev := { ready.dev with mgmtB := { ready.dev.mgmtB with mode := 0 } } }) 1 &&
    (fun (s : State) => decide (s.pwr.phase = 0 ∧ s.slotCommitted 0 = false ∧ s.slotCommitted 1 = false))
      (State.reset) &&
    (fun (s : State) => decide (s.pwr.phase = 0)) (State.reset) &&
    (fun (s : State) => decide (s.pwr.phase = 0)) (State.reset) &&
    (fun (s : State) (h : Fin 2) => decide (s.pwr.phase ≠ 0 ∧ s.pwr.phase ≠ 5 ∧
        (s.core h).mode = .booting ∧ s.domainOn (87 + h.val) = true ∧ s.mc.claimed = false))
      ({ ready with mc := { ready.mc with claimed := false, coreB := { mode := .booting } }, pwr := { ready.pwr with phase := 2, measure := [] } }) 1 &&
    (fun (s : State) (h : Fin 2) => decide (s.pwr.phase ≠ 0 ∧ s.pwr.phase ≠ 5 ∧
        (s.core h).mode = .booting ∧ s.domainOn (87 + h.val) = true ∧ s.mc.claimed = true ∧
        s.copyIntact = false))
      ({ ready with mc := { ready.mc with claimed := true, coreB := { mode := .booting } }, pwr := { ready.pwr with phase := 4, measure := [] } }) 1 &&
    (fun (s : State) (r : BootReport) => decide (r.badTiles.all (decide <| · < 272) = true ∧
        (r.badRows.all fun x => decide (x.1 < 65536) && decide (x.2 < 65536)) = true ∧ s.pwr.phase ≠ 3))
      ready ({ badTiles := [271] }) &&
    (fun (s : State) (h : Fin 2) (r : BootReport) => let x : State × List JParsed := s.recoverJournal r.failingBlocks; let _u : State := (x.2.foldl State.replay ((((r.badRows.foldl State.bootRow (x.2.foldl State.applyRecord x.1)).bootHbm r.failedHbm).bootBist r.badTiles).assignSlots)).restoreLoadMap; decide (r.badTiles.all (decide <| · < 272) = true ∧
        (r.badRows.all fun x => decide (x.1 < 65536) && decide (x.2 < 65536)) = true ∧
        s.mc.token = some h ∧ (s.core h).mode = .active ∧ s.pwr.phase = 3))
      ({ ready with pwr := { ready.pwr with phase := 3 } }) 0 ({ badTiles := [271], failingBlocks := [1] }) &&
    (fun (_s : State) (_c : Fin 2) (_x : Fin 8) (p : List Byte) (_fuse : Bool) => decide (p.length = 248))
      ready 1 7 (zeros 248) true) = true := by decide

theorem witness_DomainsAndQuiesceAct : (
    (fun (s : State) (d : Fin 96) => decide ((s.domain d.val).state = .poweringUp))
      ({ ready with ns := 0, pwr := { ready.pwr with domains := Vector.replicate 96 { state := .poweringUp } } }) 95 &&
    (fun (s : State) (d : Fin 96) => decide ((s.domain d.val).state = .poweringUp))
      ({ ready with ns := 0, pwr := { ready.pwr with domains := Vector.replicate 96 { state := .poweringUp } } }) 95 &&
    (fun (s : State) (d : Fin 96) => decide ((s.domain d.val).state ≠ .poweringUp)) ready 95 &&
    (fun (s : State) (d : Fin 96) (l : List FencePiece) => decide ((Instr.domainFence d l).wf = true ∧
        (s.domain d.val).state = .draining ∧ (s.domain d.val).since + 100000 ≤ s.ns))
      ({ ready with ns := 100000, pwr := { ready.pwr with domains := Vector.replicate 96 { state := .draining } } }) 95 ([⟨true, 0x1000000000, 256⟩]) &&
    (fun (s : State) (d : Fin 96) (l : List FencePiece) => decide ((Instr.domainFence d l).wf = true ∧
        ((s.domain d.val).state ≠ .draining ∨ s.ns < (s.domain d.val).since + 100000)))
      ready 95 ([]) &&
    (fun (s : State) => decide (s.pwr.phase = 4)) ready &&
    (fun (s : State) => decide (s.pwr.phase < 4)) (State.reset) &&
    (fun (s : State) => decide (4 ≤ s.pwr.phase ∧ s.pwr.phase ≠ 7)) ready &&
    (fun (s : State) => decide (s.pwr.phase < 4)) (State.reset) &&
    (fun (s : State) => decide (s.pwr.phase = 7 ∧ s.pwr.quiesce.ack = .low ∧
        s.pwr.quiesce.byCommand = false))
      ({ ready with pwr := { ready.pwr with phase := 7, quiesce := { ready.pwr.quiesce with ack := .low } } }) &&
    (fun (s : State) => decide (s.pwr.phase = 6 ∧ s.pwr.quiesce.step = 4 ∧ s.journalQuiet = true ∧
        s.pwr.quiesce.thenReset = false ∧ s.pwr.quiesce.byPin = true ∧ s.pwr.quiesce.pinLow = true))
      ({ ready with pwr := { ready.pwr with phase := 6, quiesce := { ready.pwr.quiesce with step := 4, byPin := true, pinLow := true } } }) &&
    (fun (s : State) => decide (s.pwr.phase ≠ 6)) ready &&
    (fun (s : State) => decide (s.pwr.phase = 6 ∧ s.pwr.quiesce.step < 4 ∧
        s.pwr.quiesce.startedAt + s.pwr.quiesce.limitMs * 1000000 ≤ s.ns))
      ({ later with pwr := { ready.pwr with phase := 6, quiesce := { ready.pwr.quiesce with step := 1 } } }) &&
    (fun (s : State) (x : Nat) => decide (s.pwr.quiesce.ack = .pulse x ∧ x + 10000 ≤ s.ns ∧
        s.pwr.quiesce.over = true))
      ({ later with pwr := { ready.pwr with quiesce := { ready.pwr.quiesce with ack := .pulse 0 } } }) 0 &&
    (fun (s : State) => decide (s.pwr.quiesce.ack = .low))
      ({ ready with pwr := { ready.pwr with quiesce := { ready.pwr.quiesce with ack := .low } } })) = true := by decide

theorem witness_KlpFramingKeepsPackets : (
    (fun (b : List Byte) => decide (klpLength b.length = true)) (zeros 64) &&
    (fun (b : List Byte) => decide (klpLength b.length = true)) (zeros 64) &&
    (fun (b : List Byte) (blocks : List KlpBlock) => decide (klpLength b.length = true ∧
        blocks.filter (fun k => !k.marker) = klpBlocks b))
      (zeros 64) (klpAm 1 4 19 :: (klpBlocks (zeros 64)).take 2 ++ [⟨false, 0x78 :: zeros 31⟩] ++ (klpBlocks (zeros 64)).drop 2) &&
    (fun (_id : Nat) (_width : Nat) (_n : Nat) (sfm : List Byte) => decide (sfm.length = 32)) 0 4 1023 (zeros 32)) = true := by decide

end Sys2Proof.Tests
end

section
/-! What the bus accesses do, case by case: the CSR writes of a bus master (R14, R400, R430, R432, R436), the accesses of a
PCIe host through its windows (R428), and the accesses to host memory that are never answered (R429). The claim of
O43 is put together from them. -/

namespace Sys2Proof.Machine

/-! ## Events -/

/-- An event that can be presented happens as its meaning says. -/
theorem happens_of_guarded {i : Instr} {s t : State} (hexec : exec i s = guarded i s t) (hwf : i.wf = true) :
    Happens i s t := hexec.trans (guarded_next i s t hwf)

/-! ## CSR writes -/

theorem grant_csrServed (s : State) (req addr : Nat) : (s.grant req).csrServed addr = s.csrServed addr := rfl

/-- A register that is served takes the value; a register of a domain that is not ON answers an error (R437). -/
theorem csrStore_register {s : State} {req addr value : Nat} (hreq : req ≤ 2) (halign : addr % 8 = 0)
    (hmay : s.coreMayWrite req = true) (hblock : csrAt addr ≠ .none) (hvalue : value < 2 ^ 64) :
    (s.csrStore req addr value).1 =
      if (s.grant req).csrServed addr then (s.grant req).writeReg addr value else (s.grant req).errResp := by
  have hmaster : ¬ 2 < req := by omega
  have hcond : ¬ (addr % 8 ≠ 0 || !s.coreMayWrite req) = true := by simp [halign, hmay]
  rw [State.csrStore, if_neg hmaster, if_neg hcond, if_neg hblock, Nat.mod_eq_of_lt hvalue, grant_csrServed]
  cases s.csrServed addr <;> rfl

/-- A write that is not aligned, and one of a core that may not write, meet an error (R14, R432). -/
theorem csrStore_refused {s : State} {req addr value : Nat} (hreq : req ≤ 2)
    (hbad : addr % 8 ≠ 0 ∨ s.coreMayWrite req = false) : (s.csrStore req addr value).1 = (s.grant req).errResp := by
  have hmaster : ¬ 2 < req := by omega
  have hcond : (addr % 8 ≠ 0 || !s.coreMayWrite req) = true := by simpa using hbad
  rw [State.csrStore, if_neg hmaster, if_pos hcond]

/-- Where no block lies, the default target answers (R430, R436). -/
theorem csrStore_unmapped {s : State} {req addr value : Nat} (hreq : req ≤ 2) (halign : addr % 8 = 0)
    (hmay : s.coreMayWrite req = true) (hblock : csrAt addr = .none) :
    (s.csrStore req addr value).1 = (s.grant req).decErr req addr true := by
  have hmaster : ¬ 2 < req := by omega
  simp [State.csrStore, hmaster, halign, hmay, hblock]

theorem happens_csrWrite (s : State) {addr value master : Nat} (hlow : 0x80000000 ≤ addr) (hhigh : addr < 0x90000000)
    (hvalue : value < 2 ^ 64) (hmaster : master ≤ 2) :
    Happens (.csrWrite addr value master) s (s.csrStore master addr value).1 := by
  have hwf : (Instr.csrWrite addr value master).wf = true := by
    simp only [Instr.wf, Bool.and_eq_true, decide_eq_true_eq]
    exact ⟨⟨⟨hlow, hhigh⟩, hvalue⟩, hmaster⟩
  exact happens_of_guarded rfl hwf

/-! ## PCIe inbound -/

theorem inboundBoot_of_phase {s : State} (addr : Nat) (hphase : s.pwr.phase ≠ 5) : s.inboundBoot addr = true := by
  simp [State.inboundBoot, hphase]

theorem inboundRead_hbm {s : State} (off len : Nat) (hlink : s.linkUp = true) (hphase : s.pwr.phase ≠ 5) :
    evPcieInboundRead ⟨.hbm, off⟩ len s =
      (s.readRange 2 (0x1000000000 + off) len).st.completeRead
        (match (s.readRange 2 (0x1000000000 + off) len).fail with | some (_, r) => r | none => .ok)
        (s.readRange 2 (0x1000000000 + off) len).data := by
  have hup : ¬ (!s.linkUp) = true := by simp [hlink]
  exact (if_neg hup).trans (if_neg hphase)

theorem inboundRead_csr_length {s : State} (off : Nat) {len : Nat} (hlink : s.linkUp = true) (hlen : len ≠ 8) :
    evPcieInboundRead ⟨.csr, off⟩ len s = (s.grant 2).errResp.emit .readAbort := by
  simp [evPcieInboundRead, hlink, hlen, State.completeRead]

theorem inboundRead_csr {s : State} (off : Nat) (hlink : s.linkUp = true) (hphase : s.pwr.phase ≠ 5) :
    evPcieInboundRead ⟨.csr, off⟩ 8 s =
      (s.csrRead 2 (0x80000000 + off)).1.completeRead (s.csrRead 2 (0x80000000 + off)).2.1
        (leBytes 8 (s.csrRead 2 (0x80000000 + off)).2.2) := by
  simp [evPcieInboundRead, hlink, inboundBoot_of_phase _ hphase, Bar.address]

theorem inboundRead_noLink {s : State} (place : BarPlace) (len : Nat) (hlink : s.linkUp = false) :
    evPcieInboundRead place len s = s := by
  simp [evPcieInboundRead, hlink]

theorem inboundWrite_csr {s : State} (off : Nat) {data : List Byte} (hlen : data.length = 8) (hlink : s.linkUp = true)
    (hphase : s.pwr.phase ≠ 5) :
    evPcieInboundWrite ⟨.csr, off⟩ data s = (s.csrStore 2 (0x80000000 + off) (leNat data)).1 := by
  simp [evPcieInboundWrite, hlink, inboundBoot_of_phase _ hphase, hlen, Bar.address]

theorem inboundWrite_hbm {s : State} (off : Nat) (data : List Byte) (hlink : s.linkUp = true) (hphase : s.pwr.phase ≠ 5) :
    evPcieInboundWrite ⟨.hbm, off⟩ data s =
      (cuts 256 (0x1000000000 + off) data.length).foldl
        (fun u c => u.inboundPiece c.1 (slice data (c.1 - (0x1000000000 + off)) c.2)) s := by
  simp [evPcieInboundWrite, hlink, hphase, Bar.address]

theorem inboundWrite_noLink {s : State} (place : BarPlace) (data : List Byte) (hlink : s.linkUp = false) :
    evPcieInboundWrite place data s = s := by
  simp [evPcieInboundWrite, hlink]

theorem happens_inboundRead (s : State) {place : BarPlace} {len : Nat} (hfits : place.off + len ≤ place.bar.size)
    (hlen : len ≤ 4096) : Happens (.pcieInboundRead place len) s (evPcieInboundRead place len s) := by
  have hwf : (Instr.pcieInboundRead place len).wf = true := by simp [Instr.wf, hfits, hlen]
  exact happens_of_guarded rfl hwf

theorem happens_inboundWrite (s : State) {place : BarPlace} {data : List Byte}
    (hfits : place.off + data.length ≤ place.bar.size) (hlen : data.length ≤ 4096) :
    Happens (.pcieInboundWrite place data) s (evPcieInboundWrite place data s) := by
  have hwf : (Instr.pcieInboundWrite place data).wf = true := by simp [Instr.wf, hfits, hlen]
  exact happens_of_guarded rfl hwf

/-! ## Host memory that never answers -/

theorem outboundTimeout_element {s : State} {q : Nat} (hhost : inOutbound ((s.queue q).element (s.queue q).cons) = true) :
    evPcieOutboundTimeout (.commandElement q) s = evCommandQueueRead q none s := by
  simp [evPcieOutboundTimeout, hhost]

/-- The bytes before the first missing beat arrived; the beats from there on have an error response. -/
theorem outboundTimeout_read {s : State} {n off x : Nat} {b : List Byte} (hrun : (s.dma n).running = some ⟨x, some b⟩)
    (hgood : (descOf b).bad = false) (hoff : off < (descOf b).length)
    (hhost : ((descOf b).op ≠ 2 && inOutbound (descOf b).src || (descOf b).op = 3 && inOutbound (descOf b).dst) = true) :
    evPcieOutboundTimeout (.descriptor n true off) s =
      evDmaDescriptorComplete n { src := (List.range off).map (Config.freeByte s.draws),
                                  dst := (List.range off).map (Config.freeByte (s.draws + 1)) } s.draw.draw := by
  have hrest : ((descOf b).bad || decide ((descOf b).length ≤ off)) = false := by simp [hgood, hoff]
  simp only [evPcieOutboundTimeout, hrun, hrest, hhost, Bool.false_eq_true, if_false, if_true, Nat.add_zero]

theorem outboundTimeout_write {s : State} {n off x : Nat} {b : List Byte} (hrun : (s.dma n).running = some ⟨x, some b⟩)
    (hgood : (descOf b).bad = false) (hoff : off < (descOf b).length)
    (hhost : ((descOf b).op ≠ 3 && inOutbound (descOf b).dst) = true) :
    evPcieOutboundTimeout (.descriptor n false off) s =
      evDmaDescriptorComplete n { src := (List.range (descOf b).length).map (Config.freeByte s.draws), writeErr := some off }
        s.draw.draw := by
  have hrest : ((descOf b).bad || decide ((descOf b).length ≤ off)) = false := by simp [hgood, hoff]
  simp only [evPcieOutboundTimeout, hrun, hrest, hhost, Bool.false_eq_true, if_false, if_true, Nat.add_zero]

theorem happens_outboundTimeout (user : OutboundUser) (s : State) :
    Happens (.pcieOutboundTimeout user) s (evPcieOutboundTimeout user s) := happens_of_guarded rfl rfl

/-! ## The claim -/

/-- Settles O43: each access happens as its meaning says, and the lemma for its case says what that leads to. -/
theorem busAccessesAct : Obligations.BusAccessesAct := by
  unfold Obligations.BusAccessesAct
  refine ⟨?register, ?refused, ?unmapped, ?readHbm, ?readLength, ?readCsr, ?writeCsr, ?writeHbm, ?noLink, ?element,
    ?descRead, ?descWrite⟩
  case register =>
    intro s a v m hlow hhigh hv hm halign hmay hblock
    exact csrStore_register hm halign hmay hblock hv ▸ happens_csrWrite s hlow hhigh hv hm
  case refused =>
    intro s a v m hlow hhigh hv hm hbad
    exact csrStore_refused hm hbad ▸ happens_csrWrite s hlow hhigh hv hm
  case unmapped =>
    intro s a v m hlow hhigh hv hm halign hmay hblock
    exact csrStore_unmapped hm halign hmay hblock ▸ happens_csrWrite s hlow hhigh hv hm
  case readHbm =>
    intro s off n hfits hn hlink hphase
    exact inboundRead_hbm off n hlink hphase ▸ happens_inboundRead s (place := ⟨.hbm, off⟩) hfits hn
  case readLength =>
    intro s off n hfits hn hne hlink
    exact inboundRead_csr_length off hlink hne ▸ happens_inboundRead s (place := ⟨.csr, off⟩) hfits hn
  case readCsr =>
    intro s off hfits hlink hphase
    exact inboundRead_csr off hlink hphase ▸ happens_inboundRead s (place := ⟨.csr, off⟩) hfits (by decide)
  case writeCsr =>
    intro s off d hfits hd hlink hphase
    exact inboundWrite_csr off hd hlink hphase ▸
      happens_inboundWrite s (place := ⟨.csr, off⟩) (hd ▸ hfits) (hd ▸ by decide)
  case writeHbm =>
    intro s off d hfits hd hlink hphase
    exact inboundWrite_hbm off d hlink hphase ▸ happens_inboundWrite s (place := ⟨.hbm, off⟩) hfits hd
  case noLink =>
    intro s bar off d hfits hd hlink
    have hwrite := happens_inboundWrite s (place := ⟨bar, off⟩) hfits hd
    have hread := happens_inboundRead s (place := ⟨bar, off⟩) hfits hd
    rw [inboundWrite_noLink _ _ hlink] at hwrite
    rw [inboundRead_noLink _ _ hlink] at hread
    exact ⟨hwrite, hread⟩
  case element =>
    intro s q hhost
    exact outboundTimeout_element hhost ▸ happens_outboundTimeout (.commandElement q) s
  case descRead =>
    intro s n off x b hrun hgood hoff hhost
    exact outboundTimeout_read hrun hgood hoff hhost ▸ happens_outboundTimeout (.descriptor n true off) s
  case descWrite =>
    intro s n off x b hrun hgood hoff hhost
    exact outboundTimeout_write hrun hgood hoff hhost ▸ happens_outboundTimeout (.descriptor n false off) s

end Sys2Proof.Machine
end

section
/-! What the settings and tables of ingest and the coarse delays do when their commands are accepted, command by command
(R91 to R119, R139, R140). The claims of O16 and O17 are put together from them. -/

namespace Sys2Proof.Machine

/-! ## Claims from bodies -/

/-- The checks of a command pass when each of them does. -/
theorem firstBad_eq_none {l : List (Bool × Nat)} : firstBad l = none ↔ l.all (·.1) = true := by
  induction l with
  | nil => simp [firstBad]
  | cons e t ih =>
    obtain ⟨ok, off⟩ := e
    cases ok <;> simp [firstBad, ih]

theorem ownRecord_ne_nil (code : Nat) (c : Cmd) (s : State) : ownRecord code c s ≠ [] := List.cons_ne_nil _ _

theorem mapRecords_ne_nil (c : Cmd) (s : State) : mapRecords c s ≠ [] :=
  List.append_ne_nil_of_right_ne_nil _ (List.cons_ne_nil _ _)

theorem coarseRecords_ne_nil (c : Cmd) (s : State) : coarseRecords c s ≠ [] :=
  List.append_ne_nil_of_right_ne_nil _ (List.cons_ne_nil _ _)

section Claims
variable {i : Cmd → Instr} {spec : OpSpec} {good : Cmd → State → Bool} {after : Cmd → State → State}

/-- A command without records whose body answers OK is a setting. -/
theorem sets_of (he : ∀ c s, exec (i c) s = s.submit spec c) (hr : ∀ c s, spec.records c s = [])
    (hf : spec.row.code ≠ 0x0E31) (h : ∀ c u, good c u = true → spec.body c u = .ok (after c u)) :
    Sets i spec good after :=
  executes_of he hr hf fun c u hg => h c u hg ▸ ⟨rfl, rfl, rfl⟩

/-- A command with records whose body answers OK is journalled, and what holds of that answer holds of its commit. -/
theorem journalled_ok {holds : Cmd → State → Res → Prop} (he : ∀ c s, exec (i c) s = s.submit spec c)
    (hs : specOf spec.row.code = some spec) (hr : ∀ c s, spec.records c s ≠ [])
    (h : ∀ c u, good c u = true → ∃ t, spec.body c u = .ok t ∧ holds c u (.ok t)) : Journalled i spec good holds := by
  refine journalled_of he hs hr (fun c u hg => ?_) fun c u hg => ?_
  all_goals obtain ⟨t, hbody, hholds⟩ := h c u hg; rw [hbody]
  · rfl
  · exact hholds

/-- A command with records whose body answers OK is a journalled setting. -/
theorem setsJournalled_of (he : ∀ c s, exec (i c) s = s.submit spec c) (hs : specOf spec.row.code = some spec)
    (hr : ∀ c s, spec.records c s ≠ []) (h : ∀ c u, good c u = true → spec.body c u = .ok (after c u)) :
    SetsJournalled i spec good after :=
  journalled_ok he hs hr fun c u hg => ⟨_, h c u hg, rfl, rfl, rfl⟩

/-- A command whose body answers BAD_PARAM at a field is rejected there. -/
theorem rejects_of {off : Nat} (he : ∀ c s, exec (i c) s = s.submit spec c)
    (h : ∀ c u, good c u = true → spec.body c u = .bad off u) : Rejects i spec good stBadParam off :=
  executes_bad he (fun c u hg => h c u hg ▸ rfl) fun c u hg => h c u hg ▸ ⟨rfl, rfl, rfl⟩

/-- A command whose body answers a failure applies nothing. -/
theorem executes_fail {status : Nat} (he : ∀ c s, exec (i c) s = s.submit spec c) (hst : 1 < status)
    (h : ∀ c u, good c u = true → spec.body c u = .fail status u) :
    Executes i spec good fun _ u r => r.status = status ∧ r.st = u :=
  executes_bad he (fun c u hg => by rw [h c u hg]; exact decide_eq_false (Nat.not_le.mpr hst))
    fun c u hg => h c u hg ▸ ⟨rfl, rfl⟩

end Claims

/-! ## Settings of ingest (R91, R112 to R114, R118) -/

theorem doIngestSetPort_ok {c : Cmd} {s : State} {k : PortCfg} (hport : fld c.params 0 1 ≤ 79)
    (hcfg : s.portCfg (fld c.params 0 1) = some k) (heth : k.klp = false) (hvlan : fld c.params 2 2 ≤ 4094) :
    doIngestSetPort c s = .ok (s.setInPort (fld c.params 0 1) { s.inPort (fld c.params 0 1) with
      vlan := fld c.params 2 2, klpUdp := fld c.params 4 2, mac := fld c.params 6 6, ipv4 := fld c.params 12 4,
      ipv6 := fld c.params 16 16 }) := by
  simp [doIngestSetPort, firstBad, hport, hcfg, heth, hvlan]

/-- The parameters of an INGEST_MCAST pass the checks of R113: the port takes ingest, and action, family and count are in
range. -/
structure McastValid (p : List Byte) (s : State) : Prop where
  port : fld p 0 1 ≤ 79
  ingest : ∃ k, s.portCfg (fld p 0 1) = some k ∧ k.role = 0
  action : fld p 1 1 ≤ 1
  family : fld p 2 1 = 4 ∨ fld p 2 1 = 6
  sources : fld p 3 1 ≤ 4

section Mcast
variable {c : Cmd} {s : State} (hvalid : McastValid c.params s)
include hvalid

/-- A membership of a group that the port is in takes the place of the old one. -/
theorem doIngestMcast_replace (hjoin : fld c.params 1 1 = 1)
    (hin : (s.inPort (fld c.params 0 1)).groups.any (·.isFor (groupAt c.params)) = true) :
    doIngestMcast c s = .ok ((s.setInPort (fld c.params 0 1) { s.inPort (fld c.params 0 1) with
      groups := (s.inPort (fld c.params 0 1)).groups.map fun g =>
        if g.isFor (groupAt c.params) then groupAt c.params else g }).reportChange
      (fld c.params 0 1) (groupAt c.params) false) := by
  obtain ⟨hport, ⟨k, hcfg, hrole⟩, -, hfam, hsrc⟩ := hvalid
  obtain ⟨old, hold⟩ := Option.isSome_iff_exists.mp (List.find?_isSome.mpr (List.any_eq_true.mp hin))
  simp [doIngestMcast, firstBad, hport, hcfg, hrole, hfam, hsrc, hjoin, hold]

/-- A membership of a group that the port is not in is added to its fewer than 64. -/
theorem doIngestMcast_add (hjoin : fld c.params 1 1 = 1)
    (hout : (s.inPort (fld c.params 0 1)).groups.any (·.isFor (groupAt c.params)) = false)
    (hroom : (s.inPort (fld c.params 0 1)).groups.length < 64) :
    doIngestMcast c s = .ok ((s.setInPort (fld c.params 0 1) { s.inPort (fld c.params 0 1) with
      groups := (s.inPort (fld c.params 0 1)).groups ++ [groupAt c.params] }).reportChange
      (fld c.params 0 1) (groupAt c.params) false) := by
  obtain ⟨hport, ⟨k, hcfg, hrole⟩, -, hfam, hsrc⟩ := hvalid
  have hnone : (s.inPort (fld c.params 0 1)).groups.find? (·.isFor (groupAt c.params)) = none := by simpa using hout
  have hlt : ¬ 64 ≤ (s.inPort (fld c.params 0 1)).groups.length := by omega
  simp [doIngestMcast, firstBad, hport, hcfg, hrole, hfam, hsrc, hjoin, hnone, hlt]

theorem doIngestMcast_full (hjoin : fld c.params 1 1 = 1)
    (hout : (s.inPort (fld c.params 0 1)).groups.any (·.isFor (groupAt c.params)) = false)
    (hfull : 64 ≤ (s.inPort (fld c.params 0 1)).groups.length) : doIngestMcast c s = .fail stResource s := by
  obtain ⟨hport, ⟨k, hcfg, hrole⟩, -, hfam, hsrc⟩ := hvalid
  have hnone : (s.inPort (fld c.params 0 1)).groups.find? (·.isFor (groupAt c.params)) = none := by simpa using hout
  simp [doIngestMcast, firstBad, hport, hcfg, hrole, hfam, hsrc, hjoin, hnone, hfull]

/-- The membership of the group is removed, and the report is about that one. -/
theorem doIngestMcast_remove (hleave : fld c.params 1 1 = 0)
    (hin : (s.inPort (fld c.params 0 1)).groups.any (·.isFor (groupAt c.params)) = true) :
    ∃ old ∈ (s.inPort (fld c.params 0 1)).groups, old.isFor (groupAt c.params) = true ∧
      doIngestMcast c s = .ok ((s.setInPort (fld c.params 0 1) { s.inPort (fld c.params 0 1) with
        groups := (s.inPort (fld c.params 0 1)).groups.filter fun g => !g.isFor (groupAt c.params) }).reportChange
        (fld c.params 0 1) old true) := by
  obtain ⟨hport, ⟨k, hcfg, hrole⟩, -, hfam, hsrc⟩ := hvalid
  obtain ⟨old, hold⟩ := Option.isSome_iff_exists.mp (List.find?_isSome.mpr (List.any_eq_true.mp hin))
  refine ⟨old, List.mem_of_find?_eq_some hold, List.find?_some (p := (Membership.isFor · (groupAt c.params))) hold, ?_⟩
  simp [doIngestMcast, firstBad, hport, hcfg, hrole, hfam, hsrc, hleave, hold]

end Mcast

theorem doIngestSetSource_ok {c : Cmd} (s : State) (hvalid : fld c.params 1 1 ≤ 1) (hport : fld c.params 2 1 ≤ 79)
    (hfam : fld c.params 3 1 = 0 ∨ fld c.params 3 1 = 4 ∨ fld c.params 3 1 = 6) (hsource : fld c.params 4 2 ≠ 0xFFFF) :
    doIngestSetSource c s = .ok (s.mapIng fun g => { g with
      sources := kvSet SourceEntry.init s.ing.sources (fld c.params 0 1)
        { valid := decide (fld c.params 1 1 = 1), port := fld c.params 2 1, family := fld c.params 3 1,
          source := fld c.params 4 2, udp := fld c.params 6 2, addr := slice c.params 8 16 } }) := by
  have hfam' : (fld c.params 3 1 = 0 || fld c.params 3 1 = 4 || fld c.params 3 1 = 6) = true := by
    simpa [or_assoc] using hfam
  simp [doIngestSetSource, firstBad, hvalid, hport, hfam', hsource, State.mapIng]

theorem doIngestSetTiming_ok {c : Cmd} (s : State) (hlow : 10 ≤ fld c.params 0 4) (hhigh : fld c.params 0 4 ≤ 10000) :
    doIngestSetTiming c s = .ok (s.mapIng fun g => { g with holdUs := fld c.params 0 4 }) := by
  have hrange : ¬ (fld c.params 0 4 < 10 || 10000 < fld c.params 0 4) = true := by simp; omega
  rw [doIngestSetTiming, if_neg hrange]

/-- Settles O16: each command is journalled under its own opcode, and its body does as claimed once its checks pass. That a
membership of a group already joined takes the new sources is the model's choice (log entry 18). -/
theorem ingestSettingsAct : Obligations.IngestSettingsAct := by
  unfold Obligations.IngestSettingsAct
  refine ⟨?port, ?join, ?leave, ?full, ?source, ?timing⟩
  case port =>
    refine setsJournalled_of (fun _ _ => rfl) rfl (ownRecord_ne_nil _) fun c u hgood => ?_
    cases hcfg : u.portCfg (fld c.params 0 1) with
    | none => simp [hcfg] at hgood
    | some k =>
      simp only [hcfg, Bool.and_eq_true, decide_eq_true_eq, Bool.not_eq_true'] at hgood
      obtain ⟨⟨hport, hvlan⟩, heth⟩ := hgood
      exact doIngestSetPort_ok hport hcfg heth hvlan
  case join =>
    refine setsJournalled_of (fun _ _ => rfl) rfl (ownRecord_ne_nil _) fun c u hgood => ?_
    cases hcfg : u.portCfg (fld c.params 0 1) with
    | none => simp [hcfg] at hgood
    | some k =>
      simp only [hcfg, Bool.and_eq_true, Bool.or_eq_true, decide_eq_true_eq] at hgood
      obtain ⟨⟨⟨hport, hjoin, hfam, hsrc⟩, hrole⟩, hplace⟩ := hgood
      have hvalid : McastValid c.params u := ⟨hport, ⟨k, hcfg, hrole⟩, Nat.le_of_eq hjoin, hfam, hsrc⟩
      dsimp only
      split
      · next hin => exact doIngestMcast_replace hvalid hjoin hin
      · next hout => exact doIngestMcast_add hvalid hjoin (Bool.not_eq_true _ ▸ hout) (hplace.resolve_left hout)
  case leave =>
    refine journalled_ok (fun _ _ => rfl) rfl (ownRecord_ne_nil _) fun c u hgood => ?_
    cases hcfg : u.portCfg (fld c.params 0 1) with
    | none => simp [hcfg] at hgood
    | some k =>
      simp only [hcfg, Bool.and_eq_true, decide_eq_true_eq] at hgood
      obtain ⟨⟨⟨hport, hleave, hfam, hsrc⟩, hrole⟩, hin⟩ := hgood
      have hvalid : McastValid c.params u := ⟨hport, ⟨k, hcfg, hrole⟩, by omega, hfam, hsrc⟩
      obtain ⟨old, hmem, hfor, hbody⟩ := doIngestMcast_remove hvalid hleave hin
      exact ⟨_, hbody, rfl, rfl, old, hmem, hfor, rfl⟩
  case full =>
    refine executes_fail (fun _ _ => rfl) (by decide) fun c u hgood => ?_
    cases hcfg : u.portCfg (fld c.params 0 1) with
    | none => simp [hcfg] at hgood
    | some k =>
      simp only [hcfg, Bool.and_eq_true, decide_eq_true_eq] at hgood
      obtain ⟨⟨⟨hport, hjoin, hfam, hsrc, hfull⟩, hout⟩, hrole⟩ := hgood
      exact doIngestMcast_full ⟨hport, ⟨k, hcfg, hrole⟩, Nat.le_of_eq hjoin, hfam, hsrc⟩ hjoin (by simpa using hout) hfull
  case source =>
    refine setsJournalled_of (fun _ _ => rfl) rfl (ownRecord_ne_nil _) fun c u hgood => ?_
    obtain ⟨hvalid, hport, hfam, hsource⟩ := of_decide_eq_true hgood
    exact doIngestSetSource_ok u hvalid hport hfam hsource
  case timing =>
    refine setsJournalled_of (fun _ _ => rfl) rfl (ownRecord_ne_nil _) fun c u hgood => ?_
    obtain ⟨hlow, hhigh⟩ := of_decide_eq_true hgood
    exact doIngestSetTiming_ok u hlow hhigh

/-! ## Tables of ingest (R98 to R100, R103, R115 to R117) -/

theorem doIngestLoadMap_ok {c : Cmd} (s : State) (hcount : 1 ≤ fld c.params 2 2 ∧ fld c.params 2 2 ≤ 64)
    (hfit : fld c.params 0 2 + fld c.params 2 2 ≤ 4096)
    (hranges : ∀ e < fld c.params 2 2, (1 ≤ fld c.params (8 + 16 * e) 2 ∧ fld c.params (8 + 16 * e) 2 ≤ 4096) ∧
      1 ≤ fld c.params (14 + 16 * e) 2 ∧ fld c.params (14 + 16 * e) 2 ≤ 4096) :
    doIngestLoadMap c s = .ok (s.mapIng fun g => { g with
      loadMap := (List.range (fld c.params 2 2)).foldl
        (fun t e => kvSet MapEntry.init t (fld c.params 0 2 + e) (mapEntryAt c.params e)) g.loadMap }) := by
  have hfirst : fld c.params 0 2 ≤ 4095 := by omega
  rw [doIngestLoadMap, firstBad_eq_none.mpr]
  · rfl
  · simpa [hfirst, hcount, hfit] using hranges

theorem doIngestApplyMap_bad {c : Cmd} {s : State}
    (hbad : mapOk s.loadedN s.loadedChannels (s.loadMapEntries (fld c.params 0 2)) = false) :
    doIngestApplyMap c s = .bad 0 s := by
  simp [doIngestApplyMap, hbad]

section ApplyMap
variable {c : Cmd} {s : State} (hcount : fld c.params 0 2 ≤ 4096)
  (hok : mapOk s.loadedN s.loadedChannels (s.loadMapEntries (fld c.params 0 2)) = true)
include hcount hok

theorem doIngestApplyMap_atOnce (hlive : s.schedLive = false) :
    doIngestApplyMap c s = .ok (s.mapIng fun g => { g with map := ⟨s.loadMapEntries (fld c.params 0 2), []⟩ }) := by
  simp [doIngestApplyMap, Nat.not_lt.mpr hcount, hok, hlive]

theorem doIngestApplyMap_fromIndex (hlive : s.schedLive = true)
    (hnew : fld c.params 8 8 = noIndex ∨ s.mapPassed (fld c.params 8 8) = false) :
    doIngestApplyMap c s = .ok (s.mapIng fun g => { g with
      map := (dropPending s.ing.map s.mapWhenPassed).push
        (s.applyAt (fld c.params 8 8) fun ch => s.firstIndex (s.chan ch).opened)
        (s.loadMapEntries (fld c.params 0 2)) }) := by
  have hpast : ¬ (fld c.params 8 8 ≠ noIndex && !s.own.accepted && s.mapPassed (fld c.params 8 8)) = true := by
    rcases hnew with h | h <;> simp [h]
  simp only [doIngestApplyMap, if_neg (Nat.not_lt.mpr hcount), hok, hlive, if_neg hpast]
  rfl

end ApplyMap

section LoadGain
variable {c : Cmd} {s : State} (hinput : fld c.params 0 2 < 4096)
  (hcount : 1 ≤ fld c.params 4 2 ∧ fld c.params 4 2 ≤ 256) (hfit : fld c.params 2 2 + fld c.params 4 2 ≤ 4096)
include hinput hcount hfit

theorem doIngestLoadGain_ok (hfree : s.gainPending = false) :
    doIngestLoadGain c s = .ok (s.mapIng fun g => { g with
      gainLoad := (List.range (fld c.params 4 2)).foldl
        (fun t e => kvSet 4096 t (fld c.params 0 2 * 4096 + fld c.params 2 2 + e) (fld c.params (8 + 2 * e) 2))
        g.gainLoad }) := by
  have hfirst : fld c.params 2 2 < 4096 := by omega
  simp [doIngestLoadGain, firstBad, hinput, hfirst, hcount, hfit, hfree, State.mapIng]

theorem doIngestLoadGain_busy (hwait : s.gainPending = true) : doIngestLoadGain c s = .fail stBusy s := by
  have hfirst : fld c.params 2 2 < 4096 := by omega
  simp [doIngestLoadGain, firstBad, hinput, hfirst, hcount, hfit, hwait]

end LoadGain

theorem doIngestApplyGain_atOnce (c : Cmd) {s : State} (hlive : s.schedLive = false) :
    doIngestApplyGain c s = .ok (s.mapIng fun g => { g with gain := ⟨s.ing.gainLoad, []⟩ }) := by
  simp [doIngestApplyGain, hlive, State.mapIng]

theorem doIngestApplyGain_fromIndex {c : Cmd} {s : State} (hlive : s.schedLive = true)
    (hnew : fld c.params 0 8 = noIndex ∨ s.gainWhenPassed (.idx (fld c.params 0 8)) = false) :
    doIngestApplyGain c s = .ok (s.mapIng fun g => { g with
      gain := (dropPending s.ing.gain s.gainWhenPassed).push (s.applyAt (fld c.params 0 8) s.nextSample)
        s.ing.gainLoad }) := by
  have hpast : ¬ (fld c.params 0 8 ≠ noIndex && s.gainWhenPassed (.idx (fld c.params 0 8))) = true := by
    rcases hnew with h | h <;> simp [h]
  simp only [doIngestApplyGain, hlive, if_neg hpast]
  rfl

theorem doIngestApplyGain_past {c : Cmd} {s : State} (hlive : s.schedLive = true) (hindex : fld c.params 0 8 ≠ noIndex)
    (hpast : s.gainWhenPassed (.idx (fld c.params 0 8)) = true) : doIngestApplyGain c s = .fail stPast s := by
  simp [doIngestApplyGain, hlive, hindex, hpast]

/-! ## Coarse delays (R139, R140) -/

/-- A coarse delay is at most what the corner turn of the loaded layout holds, and 4,096 with none loaded (R139). -/
theorem doCorrLoadCoarse_ok {c : Cmd} {s : State} (hcount : 1 ≤ fld c.params 2 2 ∧ fld c.params 2 2 ≤ 256)
    (hfit : fld c.params 0 2 + fld c.params 2 2 ≤ s.loadedN)
    (hcap : ∀ e < fld c.params 2 2, fld c.params (8 + 2 * e) 2 ≤ s.tile.layout.elim 4096 fun l => dCap l.n l.dwell)
    (hfree : s.schedPending s.stg.coarse = false) :
    doCorrLoadCoarse c s = .ok (s.mapStg fun g => { g with
      coarseLoad := (List.range (fld c.params 2 2)).foldl
        (fun t e => kvSet 0 t (fld c.params 0 2 + e) (fld c.params (8 + 2 * e) 2)) g.coarseLoad }) := by
  have hfirst : fld c.params 0 2 < s.loadedN := by omega
  rw [doCorrLoadCoarse, firstBad_eq_none.mpr]
  · simp [hfree, State.mapStg]
  · cases hlay : s.tile.layout <;> simpa [hfirst, hcount, hfit, hlay] using hcap

theorem doCorrApplyCoarse_bad (c : Cmd) {s : State} (hbad : s.coarseOk = false) : doCorrApplyCoarse c s = .bad 0 s := by
  simp [doCorrApplyCoarse, hbad]

theorem doCorrApplyCoarse_atOnce (c : Cmd) {s : State} (hok : s.coarseOk = true) (hlive : s.schedLive = false) :
    doCorrApplyCoarse c s = .ok (s.mapStg fun g => { g with coarse := ⟨s.stg.coarseLoad, []⟩ }) := by
  simp [doCorrApplyCoarse, hok, hlive, State.mapStg]

theorem doCorrApplyCoarse_fromIndex {c : Cmd} {s : State} (hok : s.coarseOk = true) (hlive : s.schedLive = true)
    (hnew : s.indexPast (fld c.params 0 8) = false) :
    doCorrApplyCoarse c s = .ok (s.mapStg fun g => { g with
      coarse := (dropPending s.stg.coarse s.takenPast).push (s.applyAt (fld c.params 0 8) s.nextTaken)
        s.stg.coarseLoad }) := by
  simp [doCorrApplyCoarse, hok, hlive, hnew, State.mapStg]

/-- Settles O17: a load whose entries are in range writes its load table, and an apply puts that table in force at once or
from its index. -/
theorem ingestTablesLoadAndApply : Obligations.IngestTablesLoadAndApply := by
  unfold Obligations.IngestTablesLoadAndApply
  refine ⟨?loadMap, ?mapAtOnce, ?mapFromIndex, ?mapBad, ?loadGain, ?gainBusy, ?gainAtOnce, ?gainFromIndex, ?gainPast,
    ?loadCoarse, ?coarseAtOnce, ?coarseFromIndex, ?coarseBad⟩
  case loadMap =>
    refine sets_of (fun _ _ => rfl) (fun _ _ => rfl) (by decide) fun c u hgood => ?_
    simp only [Bool.and_eq_true, decide_eq_true_eq, List.all_eq_true, List.mem_range] at hgood
    obtain ⟨⟨hlow, hhigh, hfit⟩, hranges⟩ := hgood
    exact doIngestLoadMap_ok u ⟨hlow, hhigh⟩ hfit fun e he => and_assoc.mpr (hranges e he)
  case mapAtOnce =>
    refine setsJournalled_of (fun _ _ => rfl) rfl mapRecords_ne_nil fun c u hgood => ?_
    simp only [Bool.and_eq_true, decide_eq_true_eq, Bool.not_eq_true'] at hgood
    obtain ⟨⟨hcount, hok⟩, hlive⟩ := hgood
    exact doIngestApplyMap_atOnce hcount hok hlive
  case mapFromIndex =>
    refine setsJournalled_of (fun _ _ => rfl) rfl mapRecords_ne_nil fun c u hgood => ?_
    simp only [Bool.and_eq_true, Bool.or_eq_true, decide_eq_true_eq, Bool.not_eq_true'] at hgood
    obtain ⟨⟨⟨hcount, hok⟩, hlive⟩, hnew⟩ := hgood
    exact doIngestApplyMap_fromIndex hcount hok hlive hnew
  case mapBad =>
    refine rejects_of (fun _ _ => rfl) fun c u hgood => ?_
    obtain ⟨-, hbad⟩ := Bool.and_eq_true_iff.mp hgood
    exact doIngestApplyMap_bad (Bool.not_eq_true' _ |>.mp hbad)
  case loadGain =>
    refine sets_of (fun _ _ => rfl) (fun _ _ => rfl) (by decide) fun c u hgood => ?_
    simp only [Bool.and_eq_true, decide_eq_true_eq, Bool.not_eq_true'] at hgood
    obtain ⟨⟨hinput, hlow, hhigh, hfit⟩, hfree⟩ := hgood
    exact doIngestLoadGain_ok hinput ⟨hlow, hhigh⟩ hfit hfree
  case gainBusy =>
    refine executes_fail (fun _ _ => rfl) (by decide) fun c u hgood => ?_
    simp only [Bool.and_eq_true, decide_eq_true_eq] at hgood
    obtain ⟨⟨hinput, hlow, hhigh, hfit⟩, hwait⟩ := hgood
    exact doIngestLoadGain_busy hinput ⟨hlow, hhigh⟩ hfit hwait
  case gainAtOnce =>
    refine sets_of (fun _ _ => rfl) (fun _ _ => rfl) (by decide) fun c u hgood => ?_
    exact doIngestApplyGain_atOnce c (Bool.not_eq_true' _ |>.mp hgood)
  case gainFromIndex =>
    refine sets_of (fun _ _ => rfl) (fun _ _ => rfl) (by decide) fun c u hgood => ?_
    simp only [Bool.and_eq_true, Bool.or_eq_true, decide_eq_true_eq, Bool.not_eq_true'] at hgood
    obtain ⟨hlive, hnew⟩ := hgood
    exact doIngestApplyGain_fromIndex hlive hnew
  case gainPast =>
    refine executes_fail (fun _ _ => rfl) (by decide) fun c u hgood => ?_
    simp only [Bool.and_eq_true, decide_eq_true_eq] at hgood
    obtain ⟨⟨hlive, hindex⟩, hpast⟩ := hgood
    exact doIngestApplyGain_past hlive hindex hpast
  case loadCoarse =>
    refine sets_of (fun _ _ => rfl) (fun _ _ => rfl) (by decide) fun c u hgood => ?_
    simp only [Bool.and_eq_true, decide_eq_true_eq, List.all_eq_true, List.mem_range, Bool.not_eq_true'] at hgood
    obtain ⟨⟨⟨hlow, hhigh, hfit⟩, hcap⟩, hfree⟩ := hgood
    refine doCorrLoadCoarse_ok ⟨hlow, hhigh⟩ hfit (fun e he => ?_) hfree
    cases hlay : u.tile.layout <;> simpa [hlay] using hcap e he
  case coarseAtOnce =>
    refine setsJournalled_of (fun _ _ => rfl) rfl coarseRecords_ne_nil fun c u hgood => ?_
    simp only [Bool.and_eq_true, Bool.not_eq_true'] at hgood
    obtain ⟨hok, hlive⟩ := hgood
    exact doCorrApplyCoarse_atOnce c hok hlive
  case coarseFromIndex =>
    refine setsJournalled_of (fun _ _ => rfl) rfl coarseRecords_ne_nil fun c u hgood => ?_
    simp only [Bool.and_eq_true, Bool.not_eq_true'] at hgood
    obtain ⟨⟨hok, hlive⟩, hnew⟩ := hgood
    exact doCorrApplyCoarse_fromIndex hok hlive hnew
  case coarseBad =>
    refine rejects_of (fun _ _ => rfl) fun c u hgood => ?_
    exact doCorrApplyCoarse_bad c (Bool.not_eq_true' _ |>.mp hgood)

end Sys2Proof.Machine
end

section
/-! What becomes of slots and tiles, event by event: the audit rotation (R494, R495), moves from reported tiles and
withdrawals (R163, R164, R496, R497), and the self-test of tiles (R492, R498). The claim of O50 is put together from them. -/

namespace Sys2Proof.Machine

/-! ## The audit rotation (R494, R495) -/

theorem evAuditStepDue_due {s : State} (hon : s.spare.auditS ≠ 0) (hfree : s.spare.due = false) (hslots : s.tile.slots ≠ [])
    (htime : s.spare.lastStep + s.spare.auditS * secUnits ≤ s.now) :
    evAuditStepDue s = s.mapSpare fun p => { p with due := true, passed := false, dueNs := s.ns } := by
  simp [evAuditStepDue, hon, hfree, hslots, htime]

theorem evAuditStepDue_off {s : State} (hoff : s.spare.auditS = 0) : evAuditStepDue s = s := by
  simp [evAuditStepDue, hoff]

theorem evAuditStep_waits {s : State} (hready : s.auditReady = false) : evAuditStep s = s := by
  simp [evAuditStep, hready]

theorem evAuditStep_moves {s : State} {i x : Nat} (hready : s.auditReady = true) (hslot : s.auditSlot = some i)
    (htile : s.readyTile = some x) (hon : s.domainOn (x / 4) = true) :
    evAuditStep s = (s.moveSlot i x).endAudit (s.slotAfter i) true := by
  simp [evAuditStep, hready, hslot, htile, hon]

/-- The pointer stays where it stands. -/
theorem evAuditStep_skips {s : State} (hready : s.auditReady = true) (hnone : s.readyTile = none) :
    evAuditStep s = s.endAudit s.spare.auditPtr false := by
  simp [evAuditStep, hready, hnone]

/-! ## Moves from reported tiles (R163, R496, R497) -/

theorem evFaultMove_waits {s : State} {i : Nat} (hwait : s.faultTurn i = false ∨ s.atBoundary = false) :
    evFaultMove i s = s := by
  rcases hwait with h | h <;> simp [evFaultMove, h]

/-- A move whose turn has come at a boundary, with no visit start before it, is made. -/
theorem evFaultMove_now {s : State} {i : Nat} (hbound : s.atBoundary = true) (hturn : s.faultTurn i = true)
    (hfirst : s.moveFirst (s.faultDue i) = true) : evFaultMove i s = s.faultMoveNow i := by
  simp [evFaultMove, hbound, hturn, hfirst]

/-- With a tile READY the turn is the lowest faulty slot's. -/
theorem faultTurn_of_ready {s : State} {i x : Nat} (htile : s.readyTile = some x) (hslot : s.faultySlot = some i) :
    s.faultTurn i = true := by
  simp [State.faultTurn, htile, hslot]

/-- With no tile READY it is every faulty slot's. -/
theorem faultTurn_of_none {s : State} {i : Nat} (hnone : s.readyTile = none) (hlive : s.liveSlots.contains i = true)
    (hfaulty : s.slotFaulty i = true) : s.faultTurn i = true := by
  rw [State.faultTurn, hnone, hlive, hfaulty]
  rfl

theorem faultMoveNow_moves {s : State} {x : Nat} (i : Nat) (htile : s.readyTile = some x)
    (hon : s.domainOn (x / 4) = true) :
    s.faultMoveNow i = (s.moveSlot i x).mapSpare fun p => { p with faultMoves := p.faultMoves + 1 } := by
  simp [State.faultMoveNow, htile, hon]

/-- With no tile READY, and none that may become so, a tile that is to be retired is. -/
theorem faultMoveNow_retires {s : State} {i t : Nat} (hnone : s.readyTile = none) (htile : (s.slotAt i).tile = some t)
    (hdoom : (s.tileInfo t).doom ≠ 0)
    (htesting : ((List.range 272).any fun x => (s.tileInfo x).mode = .testing) = false) :
    s.faultMoveNow i = s.retireTile t (s.tileInfo t).doom := by
  simp only [State.faultMoveNow, hnone, htile, Option.getD_some, htesting, decide_eq_true hdoom, Bool.not_false,
    Bool.and_self, if_true]

theorem evSlotMove_other {s : State} {x : Nat} (i : Nat) (hother : s.readyTile ≠ some x) : evSlotMove i x s = s :=
  if_pos hother

/-- A reported tile goes before the audit. -/
theorem evSlotMove_fault {s : State} {i x : Nat} (htile : s.readyTile = some x) (hslot : s.faultySlot = some i) :
    evSlotMove i x s = evFaultMove i s := by
  simp [evSlotMove, htile, hslot]

theorem evSlotMove_audit {s : State} {i x : Nat} (htile : s.readyTile = some x) (hnone : s.faultySlot = none)
    (hslot : s.auditSlot = some i) : evSlotMove i x s = evAuditStep s := by
  simp [evSlotMove, htile, hnone, hslot]

/-! ## Withdrawals (R164, R497) -/

theorem evSlotWithdraw_first {s : State} {x : Leaving} {due : Nat} {rest : List Leaving} (hbound : s.atBoundary = true)
    (hleaving : s.tile.leaving = x :: rest) (hdue : x.due = some due) (hfirst : s.moveFirst due = true) :
    evSlotWithdraw x.slot s =
      ((s.setSlot x.slot { s.slotAt x.slot with tile := none }).mapTile fun t =>
        { t with leaving := t.leaving.filter fun e => e.slot ≠ x.slot }).raise 180 x.slot := by
  obtain ⟨slot, tile, _⟩ := x
  cases hdue
  have hfind : s.tile.leaving.find? (·.slot = slot) = some ⟨slot, tile, some due⟩ := by
    simp [hleaving]
  simp [evSlotWithdraw, hfind, hbound, hfirst]

theorem evSlotWithdraw_uncommitted {s : State} {i : Nat} (hnone : ∀ x ∈ s.tile.leaving, x.slot = i → x.due = none) :
    evSlotWithdraw i s = s := by
  cases hfind : s.tile.leaving.find? (·.slot = i) with
  | none => simp only [evSlotWithdraw, hfind]
  | some x =>
    have hslot : x.slot = i := of_decide_eq_true (List.find?_some (p := fun x : Leaving => decide (x.slot = i)) hfind)
    have hdue : x.due = none := hnone x (List.mem_of_find?_eq_some hfind) hslot
    obtain ⟨slot, tile, _⟩ := x
    cases hdue
    simp only [evSlotWithdraw, hfind]

/-! ## The self-test of a tile (R492, R498) -/

theorem evBistDone_untested {s : State} {t : Nat} (pass : Bool) (rows : List Nat)
    (hbad : 272 ≤ t ∨ (s.tileInfo t).mode ≠ .testing ∨ s.domainOn (t / 4) = false) : evBistDone t pass rows s = s := by
  have hcond : (272 ≤ t || (s.tileInfo t).mode ≠ .testing || !s.domainOn (t / 4)) = true := by
    simpa [or_assoc] using hbad
  exact if_pos hcond

/-- The tile is under test and its group is ON, so that a run of its self-test can end. -/
structure UnderTest (s : State) (t : Nat) : Prop where
  tile : t < 272
  testing : (s.tileInfo t).mode = .testing
  on : s.domainOn (t / 4) = true

/-- A run has been counted, after the failing rows it found have been given spare rows. -/
def State.bistCounted (s : State) (t : Nat) (pass : Bool) (rows : List Nat) : State :=
  (s.repairRows t rows).1.mapSpare fun p => { p with bistRuns := p.bistRuns + 1, bistFails := p.bistFails + b2n (!pass) }

section BistDone
variable {s : State} {t : Nat} (htest : UnderTest s t)
include htest

/-- What a run comes to, case by case. -/
theorem evBistDone_underTest (pass : Bool) (rows : List Nat) :
    evBistDone t pass rows s =
      if !(s.repairRows t rows).2 then (s.bistCounted t pass rows).retireTile t 4
      else if (s.tileInfo t).doom ≠ 0 then (s.bistCounted t pass rows).retireTile t (s.tileInfo t).doom
      else if pass then (s.bistCounted t pass rows).setTileInfo t { s.tileInfo t with
        mode := .ready, readyAt := s.ns, fails := 0, reported := false,
        faults := (s.tileInfo t).faults + b2n (s.tileInfo t).reported }
      else if (s.tileInfo t).fails = 0 then (s.bistCounted t pass rows).setTileInfo t { s.tileInfo t with fails := 1 }
      else (s.bistCounted t pass rows).retireTile t 1 := by
  obtain ⟨htile, htesting, hon⟩ := htest
  have hcond : ¬ (272 ≤ t || (s.tileInfo t).mode ≠ .testing || !s.domainOn (t / 4)) = true := by
    simp [Nat.not_le.mpr htile, htesting, hon]
  exact if_neg hcond

theorem evBistDone_exhausted {pass : Bool} {rows : List Nat} (hrows : (s.repairRows t rows).2 = false) :
    evBistDone t pass rows s = (s.bistCounted t pass rows).retireTile t 4 := by
  simp [evBistDone_underTest htest, hrows]

variable {pass : Bool} {rows : List Nat} (hrows : (s.repairRows t rows).2 = true)
include hrows

theorem evBistDone_doomed (hdoom : (s.tileInfo t).doom ≠ 0) :
    evBistDone t pass rows s = (s.bistCounted t pass rows).retireTile t (s.tileInfo t).doom := by
  simp [evBistDone_underTest htest, hrows, hdoom]

variable (hdoom : (s.tileInfo t).doom = 0)
include hdoom

theorem evBistDone_passed :
    evBistDone t true rows s = (s.bistCounted t true rows).setTileInfo t { s.tileInfo t with
      mode := .ready, readyAt := s.ns, fails := 0, reported := false,
      faults := (s.tileInfo t).faults + b2n (s.tileInfo t).reported } := by
  simp [evBistDone_underTest htest, hrows, hdoom]

theorem evBistDone_failedOnce (hfails : (s.tileInfo t).fails = 0) :
    evBistDone t false rows s = (s.bistCounted t false rows).setTileInfo t { s.tileInfo t with fails := 1 } := by
  simp [evBistDone_underTest htest, hrows, hdoom, hfails]

theorem evBistDone_failedAgain (hfails : (s.tileInfo t).fails ≠ 0) :
    evBistDone t false rows s = (s.bistCounted t false rows).retireTile t 1 := by
  simp [evBistDone_underTest htest, hrows, hdoom, hfails]

end BistDone

/-! ## The claim -/

section Events
variable {s u : State}

theorem happens_auditStepDue (h : evAuditStepDue s = u) : Happens .auditStepDue s u := h ▸ happens_of_guarded rfl rfl

theorem happens_auditStep (h : evAuditStep s = u) : Happens .auditStep s u := h ▸ happens_of_guarded rfl rfl

theorem happens_faultMove {i : Nat} (h : evFaultMove i s = u) : Happens (.faultMove i) s u := h ▸ happens_of_guarded rfl rfl

theorem happens_slotMove {i x : Nat} (h : evSlotMove i x s = u) : Happens (.slotMove i x) s u :=
  h ▸ happens_of_guarded rfl rfl

theorem happens_slotWithdraw {i : Nat} (h : evSlotWithdraw i s = u) : Happens (.slotWithdraw i) s u :=
  h ▸ happens_of_guarded rfl rfl

theorem happens_bistDone {t : Nat} {pass : Bool} {rows : List Nat} (hrows : ∀ x ∈ rows, x < 512)
    (h : evBistDone t pass rows s = u) : Happens (.bistDone t pass rows) s u := by
  have hwf : (Instr.bistDone t pass rows).wf = true := by simpa [Instr.wf] using hrows
  exact h ▸ happens_of_guarded rfl hwf

/-- A run that finds no failing row needs no spare row. -/
theorem happens_bistDone_noRows {t : Nat} {pass : Bool} (h : evBistDone t pass [] s = u) :
    Happens (.bistDone t pass []) s u :=
  happens_bistDone (fun _ hmem => absurd hmem List.not_mem_nil) h

end Events

/-- Settles O50: each event happens as its meaning says, and the lemma for its case says what that leads to. That a tile which
is to be retired is so when its test ends is the model's choice (log entry 93). -/
theorem tilesMoveAndAreTested : Obligations.TilesMoveAndAreTested := by
  unfold Obligations.TilesMoveAndAreTested
  refine ⟨?due, ?off, ?audit, ?skip, ?auditWaits, ?fault, ?faultWaits, ?slotAudit, ?slotOther, ?withdraw, ?uncommitted,
    ?passed, ?failedAgain, ?failedOnce, ?doomed, ?rows, ?untested, ?retired⟩
  case due =>
    intro s hon hfree hslots htime
    exact happens_auditStepDue (evAuditStepDue_due hon hfree hslots htime)
  case off =>
    intro s hoff
    exact happens_auditStepDue (evAuditStepDue_off hoff)
  case audit =>
    intro s i x hready hslot htile hon
    exact happens_auditStep (evAuditStep_moves hready hslot htile hon)
  case skip =>
    intro s hready hnone
    exact happens_auditStep (evAuditStep_skips hready hnone)
  case auditWaits =>
    intro s hready
    exact happens_auditStep (evAuditStep_waits hready)
  case fault =>
    intro s i x hbound hslot htile hon hfirst
    have hmove := (evFaultMove_now hbound (faultTurn_of_ready htile hslot) hfirst).trans (faultMoveNow_moves i htile hon)
    exact ⟨happens_faultMove hmove, happens_slotMove ((evSlotMove_fault htile hslot).trans hmove)⟩
  case faultWaits =>
    intro s i hwait
    exact happens_faultMove (evFaultMove_waits hwait)
  case slotAudit =>
    intro s i x htile hnone hslot hready hon
    have hmove := evAuditStep_moves hready hslot htile hon
    exact happens_slotMove ((evSlotMove_audit htile hnone hslot).trans hmove)
  case slotOther =>
    intro s i x hother
    exact happens_slotMove (evSlotMove_other i hother)
  case withdraw =>
    intro s x due rest hbound hleaving hdue hfirst
    exact happens_slotWithdraw (evSlotWithdraw_first hbound hleaving hdue hfirst)
  case uncommitted =>
    intro s i hnone
    exact happens_slotWithdraw (evSlotWithdraw_uncommitted hnone)
  case passed =>
    intro s t htile htesting hdoom hon
    exact happens_bistDone_noRows (evBistDone_passed ⟨htile, htesting, hon⟩ rfl hdoom)
  case failedAgain =>
    intro s t htile htesting hdoom hon hfails
    exact happens_bistDone_noRows (evBistDone_failedAgain ⟨htile, htesting, hon⟩ rfl hdoom hfails)
  case failedOnce =>
    intro s t htile htesting hdoom hon hfails
    exact happens_bistDone_noRows (evBistDone_failedOnce ⟨htile, htesting, hon⟩ rfl hdoom hfails)
  case doomed =>
    intro s t pass htile htesting hdoom hon
    exact happens_bistDone_noRows (evBistDone_doomed ⟨htile, htesting, hon⟩ rfl hdoom)
  case rows =>
    intro s t rows htile hbound htesting hdoom hon
    have htest : UnderTest s t := ⟨htile, htesting, hon⟩
    refine happens_bistDone hbound ?_
    cases hrows : (s.repairRows t rows).2 with
    | true => exact evBistDone_passed htest hrows hdoom
    | false => exact evBistDone_exhausted htest hrows
  case untested =>
    intro s t pass rows hbound hbad
    exact happens_bistDone hbound (evBistDone_untested pass rows hbad)
  case retired =>
    intro s i t hbound hnone hlive hfaulty hfirst htile hdoom htesting
    have hmove := evFaultMove_now hbound (faultTurn_of_none hnone hlive hfaulty) hfirst
    exact happens_faultMove (hmove.trans (faultMoveNow_retires hnone htile hdoom htesting))

end Sys2Proof.Machine
end

section
/-! What storing bytes and raising events leave of a schedule: an event's record may go to a queue in HBM, where it falls on
whatever lies there (R371, R424, R454), and still no visit begins and nothing of the tiles, of ingest and of the planner
changes. -/

namespace Sys2Proof.Machine

/-! ## Values in sparse tables -/

section Tables
variable {α : Type} {d : α} {p : α → Prop} {m : KV α}

theorem kvGet_of_forall (hd : p d) (hm : ∀ e ∈ m, p e.2) (k : Nat) : p (kvGet d m k) := by
  induction m with
  | nil => exact hd
  | cons e t ih =>
    obtain ⟨a, v⟩ := e
    have ht := ih fun e he => hm e (List.mem_cons_of_mem _ he)
    unfold kvGet
    split
    · exact hm (a, v) List.mem_cons_self
    · split
      · exact hd
      · exact ht

theorem forall_kvSet [DecidableEq α] {v : α} (hv : p v) (hm : ∀ e ∈ m, p e.2) (k : Nat) : ∀ e ∈ kvSet d m k v, p e.2 := by
  induction m with
  | nil =>
    unfold kvSet
    split <;> simp [hv]
  | cons e t ih =>
    obtain ⟨a, w⟩ := e
    obtain ⟨hw, ht⟩ := List.forall_mem_cons.mp hm
    have hset := ih ht
    unfold kvSet
    split
    · split <;> simpa [hv, hw] using ht
    · split
      · split <;> simpa [hv] using ht
      · exact List.forall_mem_cons.mpr ⟨hw, hset⟩

end Tables

/-! ## The relation -/

/-- No channel has a visit, and none has closed one. -/
def State.NoVisits (s : State) : Prop := ∀ e ∈ s.stg.chans, e.2.visits = [] ∧ e.2.floor = 0

/-- The second state has the tiles, the ingest and the planner of the first, its load in progress, and no visits where the
first has none. -/
structure KeepsSchedule (s t : State) : Prop where
  tile : t.tile = s.tile
  ing : t.ing = s.ing
  load : t.load = s.load
  loading : t.stg.loading = s.stg.loading
  noVisits : s.NoVisits → t.NoVisits

namespace KeepsSchedule
variable {s t u : State}

theorem refl (s : State) : KeepsSchedule s s := ⟨rfl, rfl, rfl, rfl, id⟩

theorem trans (h : KeepsSchedule s t) (h' : KeepsSchedule t u) : KeepsSchedule s u :=
  ⟨h'.tile.trans h.tile, h'.ing.trans h.ing, h'.load.trans h.load, h'.loading.trans h.loading, h'.noVisits ∘ h.noVisits⟩

theorem of_fields (htile : t.tile = s.tile) (hing : t.ing = s.ing) (hload : t.load = s.load) (hstg : t.stg = s.stg) :
    KeepsSchedule s t := by
  refine ⟨htile, hing, hload, congrArg _ hstg, ?_⟩
  unfold State.NoVisits
  rw [hstg]
  exact id

/-- A fold whose every step keeps the schedule of the state it carries. -/
theorem foldl {σ β : Type} (g : σ → State) {f : σ → β → σ} (hstep : ∀ x b, KeepsSchedule (g x) (g (f x b))) (l : List β)
    (x : σ) : KeepsSchedule (g x) (g (l.foldl f x)) :=
  List.foldlRecOn l f (motive := fun y => KeepsSchedule (g x) (g y)) (refl _) fun y hy b _ => hy.trans (hstep y b)

theorem ite {c : Prop} [Decidable c] (ht : KeepsSchedule s t) (hu : KeepsSchedule s u) :
    KeepsSchedule s (if c then t else u) := by
  split
  · exact ht
  · exact hu

end KeepsSchedule

/-! ## Plain updates -/

section Plain
variable (s : State)

theorem keeps_mapMem (f : MemState → MemState) : KeepsSchedule s (s.mapMem f) := .of_fields rfl rfl rfl rfl
theorem keeps_grant (req : Nat) : KeepsSchedule s (s.grant req) := keeps_mapMem s _
theorem keeps_errResp : KeepsSchedule s s.errResp := keeps_mapMem s _
theorem keeps_decErr (req addr : Nat) (write : Bool) : KeepsSchedule s (s.decErr req addr write) := keeps_mapMem s _
theorem keeps_bumpHc (h : Nat) (f : HbmCtl → HbmCtl) : KeepsSchedule s (s.bumpHc h f) := keeps_mapMem s _
theorem keeps_countWrite (unit : Nat) : KeepsSchedule s (s.countWrite unit) := .of_fields rfl rfl rfl rfl
theorem keeps_unitWritten (o n : Nat) : KeepsSchedule s (s.unitWritten o n) := .of_fields rfl rfl rfl rfl
theorem keeps_draw : KeepsSchedule s s.draw := .of_fields rfl rfl rfl rfl
theorem keeps_emit (o : Output) : KeepsSchedule s (s.emit o) := .of_fields rfl rfl rfl rfl
theorem keeps_setQueue (q : Nat) (v : Queue) : KeepsSchedule s (s.setQueue q v) := .of_fields rfl rfl rfl rfl
theorem keeps_setBeamSet (n : Nat) (v : BeamSet) : KeepsSchedule s (s.setBeamSet n v) := .of_fields rfl rfl rfl rfl
theorem keeps_msix (v : Nat) : KeepsSchedule s (s.msix v) := .ite (keeps_emit s _) (.refl s)

/-- What raising an event notes of it, before its record goes to a queue. -/
theorem keeps_setEvents (er : Router) (dev : DevState) : KeepsSchedule s { s with er := er, dev := dev } :=
  .of_fields rfl rfl rfl rfl

theorem keeps_countMissed (h : Fin 2) (wire mail : Bool) : KeepsSchedule s (s.countMissed h wire mail) :=
  .of_fields rfl rfl rfl rfl

end Plain

/-! ## Bytes stored in memory (R176, R424) -/

theorem keeps_touchResiduals (s : State) (off len : Nat) : KeepsSchedule s (s.touchResiduals off len) := by
  unfold State.touchResiduals
  dsimp only
  split
  · exact .refl s
  · exact .of_fields rfl rfl rfl rfl

/-- A byte stored in a channel's area may change the corner turn and the delays kept there, and no visit. -/
theorem keeps_setChan {s : State} (c : Nat) {ch : Chan} (hvisits : ch.visits = (kvGet {} s.stg.chans c).visits)
    (hfloor : ch.floor = (kvGet {} s.stg.chans c).floor) :
    KeepsSchedule s { s with stg := { s.stg with chans := kvSet {} s.stg.chans c ch } } := by
  refine ⟨rfl, rfl, rfl, rfl, fun hnone => ?_⟩
  have hold := kvGet_of_forall (p := fun v : Chan => v.visits = [] ∧ v.floor = 0) (d := {}) ⟨rfl, rfl⟩ hnone c
  exact forall_kvSet (p := fun v : Chan => v.visits = [] ∧ v.floor = 0) ⟨hvisits.trans hold.1, hfloor.trans hold.2⟩ hnone c

theorem keeps_setInteg (s : State) (c : Nat) (g : Integ) :
    KeepsSchedule s { s with bas := { s.bas with integs := kvSet {} s.bas.integs c g } } := .of_fields rfl rfl rfl rfl

theorem keeps_setKept (s : State) (c : Nat) (rs : List DumpRec) :
    KeepsSchedule s { s with dump := { s.dump with kept := kvSet [] s.dump.kept c rs } } := .of_fields rfl rfl rfl rfl

/-- What stores a byte in an area keeps the schedule, where it stores one. -/
structure AreaWriterKeeps (store : State → Nat → Nat → Byte → Option State) : Prop where
  keeps (s : State) (c x : Nat) (v : Byte) : ∀ t ∈ store s c x v, KeepsSchedule s t

/-- `areaStore` is unfolded as a function: its equation at arguments would have the kernel evaluate `areaByte` of a layout that
is not known, by the literals of its bounds. -/
theorem areaWriterKeeps_areaStore : AreaWriterKeeps State.areaStore := by
  delta State.areaStore
  constructor
  intro s c x v t ht
  replace ht := Option.mem_def.mp ht
  with_reducible conv at ht => lhs; whnf
  generalize s.layout.areaByte x = place at ht
  cases place with
  | acc q o =>
    obtain ⟨w, -, rfl⟩ := Option.map_eq_some_iff.mp ht
    exact .ite (keeps_setInteg s c _) (keeps_setInteg s c _)
  | corner key =>
    obtain rfl := Option.some.inj ht
    exact keeps_setChan c rfl rfl
  | header o =>
    obtain rfl := Option.some.inj ht
    exact keeps_setInteg s c _
  | input i o =>
    dsimp only at ht
    split at ht
    · obtain rfl := Option.some.inj ht
      exact .refl s
    · split at ht
      · obtain rfl := Option.some.inj ht
        exact keeps_setInteg s c _
      · split at ht
        · obtain rfl := Option.some.inj ht
          exact .refl s
        · obtain rfl := Option.some.inj ht
          exact keeps_setChan c rfl rfl
  | record slot o =>
    dsimp only at ht
    split at ht
    · obtain rfl := Option.some.inj ht
      exact keeps_setKept s c _
    · cases ht
  | log half e o =>
    obtain ⟨y, -, rfl⟩ := Option.map_eq_some_iff.mp ht
    exact .ite (keeps_setInteg s c _) (keeps_setInteg s c _)
  | plain => cases ht

theorem keeps_hbmStoreGo (bs : List Byte) (s : State) (o : Nat) : KeepsSchedule s (State.hbmStore.go s o bs) := by
  induction bs generalizing s o with
  | nil => exact .refl s
  | cons b t ih =>
    unfold State.hbmStore.go
    split
    · refine .ite ?_ ?_
      · exact (keeps_draw s).trans ((keeps_setBeamSet _ _ _).trans (ih _ _))
      · exact (keeps_setBeamSet _ _ _).trans (ih _ _)
    · refine KeepsSchedule.trans ?_ (ih _ _)
      split
      · next c x _ =>
        cases harea : s.areaStore c x b with
        | none => exact keeps_mapMem s fun m => { m with hbm := kvSet 0 m.hbm o b }
        | some u => exact areaWriterKeeps_areaStore.keeps s c x b u harea
      · exact keeps_mapMem s _

theorem keeps_hbmStore (s : State) (off : Nat) (bs : List Byte) : KeepsSchedule s (s.hbmStore off bs) :=
  (keeps_touchResiduals s off bs.length).trans (keeps_hbmStoreGo bs _ off)

theorem keeps_scramble (s : State) (off len : Nat) : KeepsSchedule s (s.scramble off len) :=
  (keeps_draw s).trans (keeps_hbmStore _ _ _)

theorem keeps_hbmWrite (s : State) (off : Nat) (bs : List Byte) : KeepsSchedule s (s.hbmWrite off bs) :=
  .foldl id (fun u _ => (keeps_unitWritten u _ _).trans (keeps_hbmStore _ _ _)) _ s

theorem keeps_sawMail (s t : State) : KeepsSchedule t (State.sawMail s t) :=
  .foldl id (fun u h => .ite (.refl u) (keeps_countMissed u h _ _)) _ t

theorem keeps_sramStore (s : State) (off : Nat) (bs : List Byte) : KeepsSchedule s (s.sramStore off bs) := by
  unfold State.sramStore
  dsimp only
  split
  · exact (keeps_mapMem s _).trans (keeps_sawMail s _)
  · exact keeps_mapMem s _

/-! ## Queues and events (R371, R454) -/

/-- A writer of pieces that keeps the schedule. -/
def PieceWriter.Keeps (w : PieceWriter) : Prop := ∀ s addr bs, KeepsSchedule s (w s addr bs).1

section Writer
variable {w : PieceWriter} (hw : w.Keeps)
include hw

theorem keeps_putBytesBy (s : State) (addr : Nat) (bs : List Byte) : KeepsSchedule s (s.putBytesBy w addr bs).1 := by
  unfold State.putBytesBy
  split
  · exact keeps_errResp s
  · refine .foldl Prod.fst ?_ _ (s, true)
    intro x c
    exact (keeps_grant x.1 4).trans (hw _ c.1 (slice bs (c.1 - addr) c.2))

theorem keeps_writeBackBy (s : State) (qn idx : Nat) : KeepsSchedule s (s.writeBackBy w qn idx) := by
  have hput := keeps_putBytesBy hw s (s.queue qn).wb (leBytes 8 idx)
  refine .ite (.refl s) (.ite hput (hput.trans (.ite ?_ ?_)))
  · exact (keeps_setQueue _ _ _).trans (keeps_msix _ _)
  · exact keeps_setQueue _ _ _

theorem keeps_pushBy (s : State) (qn kind : Nat) (bs : List Byte) : KeepsSchedule s (s.pushBy w qn kind bs).1 := by
  unfold State.pushBy
  dsimp only
  split
  · exact .refl s
  · split
    · exact .refl s
    · exact (keeps_putBytesBy hw s _ bs).trans ((keeps_setQueue _ _ _).trans (keeps_writeBackBy hw _ _ _))

theorem keeps_pushOrDropBy (s : State) (qn kind : Nat) (bs : List Byte) :
    KeepsSchedule s (s.pushOrDropBy w qn kind bs).1 := by
  have hpush := keeps_pushBy hw s qn kind bs
  unfold State.pushOrDropBy
  split
  · next hdone => rwa [hdone] at hpush
  · next hfull =>
    rw [hfull] at hpush
    exact hpush.trans (keeps_setQueue _ _ _)
  · next habsent => rwa [habsent] at hpush

theorem keeps_of_pushOrDropBy {s u : State} {qn kind : Nat} {bs : List Byte} {ok : Bool}
    (h : s.pushOrDropBy w qn kind bs = (u, ok)) : KeepsSchedule s u := by
  have hpush := keeps_pushOrDropBy hw s qn kind bs
  rwa [h] at hpush

theorem keeps_raiseEventBy (s : State) (p index arg : Nat) (time : Option Instant) (late : Bool) :
    KeepsSchedule s (s.raiseEventBy w p index arg time late) := by
  unfold State.raiseEventBy
  dsimp only
  split
  · exact keeps_setEvents s _ _
  · split
    · next hpush => exact (keeps_setEvents s _ _).trans (keeps_of_pushOrDropBy hw hpush)
    · next hpush =>
      have hpushed := (keeps_setEvents s _ _).trans (keeps_of_pushOrDropBy hw hpush)
      exact .ite (hpushed.trans (keeps_setEvents _ _ _)) hpushed

end Writer

/-! ## Memory errors, and pieces that meet them (R436, R444 to R448) -/

theorem putBlind_keeps : PieceWriter.Keeps putBlind := by
  intro s addr bs
  unfold putBlind
  split
  · split
    · exact keeps_errResp s
    · exact keeps_sramStore s _ bs
  · split
    · exact keeps_hbmWrite s _ bs
    · exact keeps_errResp s
  · split
    · exact keeps_emit s _
    · exact keeps_errResp s
  · exact keeps_decErr s 4 addr true

theorem keeps_logMemErr (s : State) (kind stack pc req words : Nat) (write : Bool) (addr : Nat) :
    KeepsSchedule s (s.logMemErr kind stack pc req words write addr) := by
  unfold State.logMemErr
  dsimp only
  generalize hlog : (if s.mem.logQueue = 0xFFFF then _ else _ : State × Bool) = logged
  have hlogged : KeepsSchedule s logged.1 := by
    rw [← hlog]
    split
    · dsimp only
      exact keeps_mapMem s _
    · exact (keeps_mapMem s _).trans (keeps_pushOrDropBy putBlind_keeps _ _ _ _)
  have hcounted := KeepsSchedule.ite (c := logged.2 = true) hlogged (hlogged.trans
    (keeps_mapMem logged.1 fun m => { m with logLost := m.logLost + 1 }))
  exact .ite (hcounted.trans (keeps_raiseEventBy putBlind_keeps _ _ _ _ _ _)) hcounted

theorem keeps_addCandidate (s : State) (off : Nat) : KeepsSchedule s (s.addCandidate off) := by
  unfold State.addCandidate
  dsimp only
  split
  · exact .refl s
  · exact .of_fields rfl rfl rfl rfl

theorem keeps_meetParity (s : State) (req unit : Nat) (write : Bool) : KeepsSchedule s (s.meetParity req unit write).1 := by
  have hlog (f : HbmCtl → HbmCtl) (kind : Nat) : KeepsSchedule s ((s.bumpHc (stackOf unit) f).logMemErr kind (stackOf unit)
      (hbmPc unit % 32) req 0 write (0x1000000000 + unit)) := (keeps_bumpHc s _ f).trans (keeps_logMemErr _ _ _ _ _ _ _ _)
  unfold State.meetParity
  dsimp only
  split
  · exact .refl s
  · split
    · exact hlog _ 2
    · exact hlog _ 3

theorem keeps_readHbmUnit (s : State) (req unit : Nat) (write : Bool) :
    KeepsSchedule s (s.readHbmUnit req unit write).1 := by
  have hmet := (keeps_bumpHc s (stackOf unit) fun c => { c with reads := c.reads + 1 }).trans
    (keeps_meetParity _ req unit write)
  unfold State.readHbmUnit
  dsimp only
  split
  · exact hmet
  · split
    · exact hmet.trans ((keeps_bumpHc _ _ _).trans ((keeps_logMemErr _ _ _ _ _ _ _ _).trans (keeps_addCandidate _ unit)))
    · split
      · exact hmet
      · exact hmet.trans ((keeps_bumpHc _ _ _).trans ((keeps_countWrite _ unit).trans
        (keeps_mapMem _ fun m => { m with bad := kvSet 0 m.bad unit 0 })))

theorem keeps_writeUnit (s : State) (req o n : Nat) : KeepsSchedule s (s.writeUnit req o n).1 := by
  unfold State.writeUnit
  dsimp only
  generalize hmeet : (if partialWord o n = true then _ else _ : State × Bool) = met
  have hmet : KeepsSchedule s met.1 := by
    rw [← hmeet]
    split
    · exact keeps_readHbmUnit s req _ true
    · exact keeps_meetParity s req _ true
  split
  · exact hmet
  · exact hmet.trans (.trans (.ite (keeps_bumpHc met.1 _ _) (.refl met.1)) (keeps_unitWritten _ o n))

theorem keeps_storeUnit (s : State) (req o : Nat) (bs : List Byte) : KeepsSchedule s (s.storeUnit req o bs).1 := by
  have hwrite := keeps_writeUnit s req o bs.length
  unfold State.storeUnit
  dsimp only
  split
  · exact hwrite.trans (keeps_hbmStore _ o bs)
  · exact .ite (hwrite.trans (keeps_scramble _ _ _)) hwrite

theorem keeps_storePiece (s : State) (req off : Nat) (bs : List Byte) : KeepsSchedule s (s.storePiece req off bs).1 := by
  unfold State.storePiece
  dsimp only
  generalize hfold : List.foldl _ ((s, []) : State × List Nat) _ = stored
  have hstored : KeepsSchedule s stored.1 := by
    rw [← hfold]
    refine .foldl Prod.fst ?_ _ (s, [])
    intro x c
    exact keeps_storeUnit x.1 req c.1 (slice bs (c.1 - off) c.2)
  split
  · exact hstored
  · refine hstored.trans (.trans ?_ (keeps_errResp _))
    exact .foldl id (fun u o => keeps_scramble u o 32) _ _

theorem putPiece_keeps : PieceWriter.Keeps putPiece := by
  intro s addr bs
  unfold putPiece
  split
  · split
    · exact keeps_storePiece s 4 _ bs
    · exact keeps_errResp s
  · exact putBlind_keeps s addr bs

theorem keeps_raise (s : State) (p arg : Nat) : KeepsSchedule s (s.raise p arg) :=
  keeps_raiseEventBy putPiece_keeps s p _ arg _ _

end Sys2Proof.Machine
end

section
/-! What CORR_START, CORR_STOP, CORR_GET_LAYOUT and CORR_GET_TILES do (R167 to R170). The claim of O18 is put together from
them. -/

namespace Sys2Proof.Machine

/-! ## A new schedule (R167) -/

/-- A schedule runs from `start` on, and no visit and no held part is left of the last, which has ended. -/
def State.cleared (s : State) (start : Nat) : State :=
  ((s.mapTile fun t => { t with sched := .running, start := start, stop := none }).mapStg fun g =>
    { g with chans := g.chans.map fun e => (e.1, e.2.fresh),
             bank0 := g.bank0.emptied, bank1 := g.bank1.emptied, loading := none, working := none,
             inbox := none }).mapIng fun g => { g with held := [] }

theorem cleared_tile (s : State) (start : Nat) :
    (s.cleared start).tile = { s.tile with sched := .running, start := start, stop := none } := rfl

theorem cleared_held (s : State) (start : Nat) : (s.cleared start).ing.held = [] := rfl

theorem cleared_loading (s : State) (start : Nat) : (s.cleared start).stg.loading = none := rfl

theorem cleared_noVisits (s : State) (start : Nat) : (s.cleared start).NoVisits := by
  intro e he
  obtain ⟨old, -, rfl⟩ := List.mem_map.mp he
  exact ⟨rfl, rfl⟩

/-- The return to NORMAL sets the planner, and raises an event. -/
theorem keeps_enterNormal (s : State) : KeepsSchedule (s.mapLoad fun l => { l with
    shed := false, s := 0, totals := [], window := [], quiet := 0,
    rounds := l.rounds.map fun r => if r.ended then r else { r with forgiven := r.dropped.length } }) s.enterNormal :=
  keeps_raise _ 173 0

section Started
variable (s : State) (start : Nat)

theorem startSchedule_tile :
    (s.startSchedule start).tile = { s.endSchedule.tile with sched := .running, start := start, stop := none } := by
  simp only [State.startSchedule, State.mapCap_tile, State.mapQz_tile, State.mapFilt_tile, State.mapBas_tile,
    State.mapLoad_tile]
  generalize s.endSchedule = u
  split
  · exact (keeps_enterNormal (u.cleared start)).tile
  · exact cleared_tile u start

theorem startSchedule_held : (s.startSchedule start).ing.held = [] := by
  simp only [State.startSchedule, State.mapCap_ing, State.mapQz_ing, State.mapFilt_ing, State.mapBas_ing,
    State.mapLoad_ing]
  generalize s.endSchedule = u
  split
  · exact congrArg IngestState.held (keeps_enterNormal (u.cleared start)).ing
  · exact cleared_held u start

theorem startSchedule_loading : (s.startSchedule start).stg.loading = none := by
  simp only [State.startSchedule, State.mapCap_stg, State.mapQz_stg, State.mapFilt_stg, State.mapBas_stg,
    State.mapLoad_stg]
  generalize s.endSchedule = u
  split
  · exact (keeps_enterNormal (u.cleared start)).loading
  · exact cleared_loading u start

theorem startSchedule_noVisits : (s.startSchedule start).NoVisits := by
  simp only [State.NoVisits, State.startSchedule, State.mapCap_stg, State.mapQz_stg, State.mapFilt_stg, State.mapBas_stg,
    State.mapLoad_stg]
  generalize s.endSchedule = u
  split
  · exact (keeps_enterNormal (u.cleared start)).noVisits (cleared_noVisits u start)
  · exact cleared_noVisits u start

theorem startSchedule_shed : (s.startSchedule start).load.shed = false := by
  simp only [State.startSchedule, State.mapCap_load, State.mapQz_load, State.mapFilt_load, State.mapBas_load,
    State.mapLoad_load]
  generalize s.endSchedule = u
  split
  · exact congrArg LoadState.shed (keeps_enterNormal (u.cleared start)).load
  · next hshed => exact Bool.not_eq_true _ ▸ hshed

theorem startSchedule_s : (s.startSchedule start).load.s = 0 := by
  simp only [State.startSchedule, State.mapCap_load, State.mapQz_load, State.mapFilt_load, State.mapBas_load,
    State.mapLoad_load]

end Started

/-! ## The commands (R167 to R170) -/

section Start
variable {c : Cmd} {s : State}

theorem doCorrStart_none (hnone : s.tile.layout = none) : doCorrStart c s = .fail stBadParam s := by
  simp [doCorrStart, hnone]

variable (hlayout : s.tile.layout.isSome = true) (hindex : fld c.params 0 8 % 256 = 0 ∧ fld c.params 0 8 ≠ noIndex)
  (hlive : s.schedLive = false)
include hlayout hindex hlive

theorem doCorrStart_future {t : Nat} (hinstant : s.instantOfIndex (fld c.params 0 8) = some t) (hfuture : s.now < t) :
    doCorrStart c s = .ok (s.startSchedule (fld c.params 0 8)) := by
  obtain ⟨l, hl⟩ := Option.isSome_iff_exists.mp hlayout
  have hnotPast : ¬ t ≤ s.now := Nat.not_le.mpr hfuture
  simp [doCorrStart, hl, hindex, hlive, hinstant, hnotPast]

theorem doCorrStart_past {t : Nat} (hinstant : s.instantOfIndex (fld c.params 0 8) = some t) (hpast : t ≤ s.now) :
    doCorrStart c s = .fail stPast s := by
  obtain ⟨l, hl⟩ := Option.isSome_iff_exists.mp hlayout
  simp [doCorrStart, hl, hindex, hlive, hinstant, hpast]

/-- Without a mapping no index has an instant, and none is past. -/
theorem doCorrStart_unmapped (hinstant : s.instantOfIndex (fld c.params 0 8) = none) (hmapping : s.qz.mapping = none) :
    doCorrStart c s = .ok (s.startSchedule (fld c.params 0 8)) := by
  obtain ⟨l, hl⟩ := Option.isSome_iff_exists.mp hlayout
  simp [doCorrStart, hl, hindex, hlive, hinstant, hmapping]

end Start

theorem doCorrStop_running {c : Cmd} {s : State} (hrunning : s.tile.sched = .running)
    (hnew : fld c.params 0 8 = noIndex ∨ s.takenPast (.idx (fld c.params 0 8)) = false) :
    doCorrStop c s = .ok (s.mapTile fun t => { t with stop := some (s.stopIndex (fld c.params 0 8)) }).tryStop := by
  have hpast : ¬ (fld c.params 0 8 ≠ noIndex && s.takenPast (.idx (fld c.params 0 8))) = true := by
    rcases hnew with h | h <;> simp [h]
  have hrun : ¬ s.tile.sched ≠ .running := not_not_intro hrunning
  simp only [doCorrStop, if_neg hrun, if_neg hpast]

theorem doCorrStop_idle {s : State} (c : Cmd) (hidle : s.tile.sched ≠ .running) :
    doCorrStop c s = .fail stBadParam s := if_pos hidle

theorem doCorrGetLayout_some {s : State} (c : Cmd) (hlayout : s.tile.layout.isSome = true) :
    ∃ rest, doCorrGetLayout c s = .okWith (beBytes 1 s.tile.sched.code ++ beBytes 1 (b2n s.layout.rect) ++
      beBytes 1 s.layout.shape ++ beCount 1 (bMax s.layout.blocks s.corrSlots.length) ++ beBytes 2 s.layout.n ++ rest) s := by
  obtain ⟨l, hl⟩ := Option.isSome_iff_exists.mp hlayout
  have hl' : s.layout = l := by rw [State.layout, hl, Option.getD_some]
  simp only [doCorrGetLayout, hl, hl', List.append_assoc]
  exact ⟨_, rfl⟩

theorem doCorrGetLayout_none {s : State} (c : Cmd) (hnone : s.tile.layout = none) :
    ∃ rest, doCorrGetLayout c s = .okWith (zeros 22 ++ beBytes 2 s.corrSlots.length ++ rest) s := by
  simp only [doCorrGetLayout, hnone, List.append_assoc]
  exact ⟨_, rfl⟩

/-- The blocks of a slot are those of its place among the correlation slots. -/
theorem blocksOf_eq (s : State) (slot : Nat) : s.blocksOf slot =
    if s.corrSlots.contains slot then slotBlocks s.layout.blocks s.corrSlots.length (s.corrSlots.idxOf slot) else [] := by
  simp only [State.blocksOf, State.corrPosition]
  cases s.corrSlots.contains slot
  · rfl
  · rfl

/-- What CORR_GET_TILES says of a slot: 3 withdrawn, 2 for beams, 1 correlating, 0 idle (R170). -/
def State.slotMode (s : State) (n : Nat) : Nat :=
  if (s.slotAt n).tile.isNone then 3 else if s.beamSlots.contains n then 2
  else if s.tile.layout.isNone || s.blocksOf n = [] then 0 else 1

theorem doCorrGetTiles_ok {c : Cmd} {s : State} (hslot : s.tile.slots[fld c.params 0 2]?.isSome = true) :
    ∃ rest, doCorrGetTiles c s = .okWith (beBytes 2 ((s.slotAt (fld c.params 0 2)).tile.getD 0xFFFF) ++
      beBytes 1 (s.slotMode (fld c.params 0 2)) ++ rest) s := by
  obtain ⟨v, hv⟩ := Option.isSome_iff_exists.mp hslot
  have hat : s.slotAt (fld c.params 0 2) = v := by rw [State.slotAt, List.getD_eq_getElem?_getD, hv, Option.getD_some]
  have hmode : (if s.tile.layout.isSome then s.blocksOf (fld c.params 0 2) else []) = [] ↔
      (s.tile.layout.isNone || s.blocksOf (fld c.params 0 2) = []) = true := by
    cases s.tile.layout <;> simp
  simp only [doCorrGetTiles, hv, State.slotMode, hat, ← blocksOf_eq, hmode, List.append_assoc]
  exact ⟨_, rfl⟩

/-! ## The claim -/

/-- A command without records whose body answers OK with data that begins as claimed is a read. -/
theorem reads_of {i : Cmd → Instr} {spec : OpSpec} {good : Cmd → State → Bool} {first : Cmd → State → List Byte}
    (he : ∀ c s, exec (i c) s = s.submit spec c) (hr : ∀ c s, spec.records c s = []) (hf : spec.row.code ≠ 0x0E31)
    (h : ∀ c u, good c u = true → ∃ rest, spec.body c u = .okWith (first c u ++ rest) u) : Reads i spec good first := by
  refine executes_of he hr hf fun c u hg => ?_
  obtain ⟨rest, hbody⟩ := h c u hg
  exact hbody ▸ ⟨rfl, rfl, rest, rfl⟩

/-- Settles O18: each command's body does as claimed when it is accepted; that a started schedule meets no visit of the last is
`startSchedule_noVisits`, for wherever the record of the return to NORMAL is written. -/
theorem scheduleCommandsAct : Obligations.ScheduleCommandsAct := by
  unfold Obligations.ScheduleCommandsAct
  refine ⟨?start, ?started, ?past, ?stop, ?idle, ?noLayout, ?layout, ?layoutNone, ?tiles⟩
  case start =>
    refine sets_of (fun _ _ => rfl) (fun _ _ => rfl) (by decide) fun c u hgood => ?_
    simp only [Bool.and_eq_true, decide_eq_true_eq, Bool.not_eq_true'] at hgood
    obtain ⟨⟨⟨hlayout, hindex⟩, hlive⟩, htime⟩ := hgood
    cases hinstant : u.instantOfIndex (fld c.params 0 8) with
    | some t =>
      rw [hinstant] at htime
      exact doCorrStart_future hlayout hindex hlive hinstant (of_decide_eq_true htime)
    | none =>
      rw [hinstant] at htime
      exact doCorrStart_unmapped hlayout hindex hlive hinstant (Option.isNone_iff_eq_none.mp htime)
  case started =>
    intro s x
    exact ⟨startSchedule_tile s x, startSchedule_held s x, startSchedule_noVisits s x, startSchedule_loading s x,
      startSchedule_shed s x, startSchedule_s s x⟩
  case past =>
    refine executes_fail (fun _ _ => rfl) (by decide) fun c u hgood => ?_
    simp only [Bool.and_eq_true, decide_eq_true_eq, Bool.not_eq_true'] at hgood
    obtain ⟨⟨⟨hlayout, hindex⟩, hlive⟩, htime⟩ := hgood
    cases hinstant : u.instantOfIndex (fld c.params 0 8) with
    | some t =>
      rw [hinstant] at htime
      exact doCorrStart_past hlayout hindex hlive hinstant (of_decide_eq_true htime)
    | none => simp [hinstant] at htime
  case stop =>
    refine sets_of (fun _ _ => rfl) (fun _ _ => rfl) (by decide) fun c u hgood => ?_
    simp only [Bool.and_eq_true, Bool.or_eq_true, decide_eq_true_eq, Bool.not_eq_true'] at hgood
    obtain ⟨hrunning, hnew⟩ := hgood
    exact doCorrStop_running hrunning hnew
  case idle =>
    refine rejects_of (fun _ _ => rfl) fun c u hgood => ?_
    exact doCorrStop_idle c (of_decide_eq_true hgood)
  case noLayout =>
    refine rejects_of (fun _ _ => rfl) fun c u hgood => ?_
    exact doCorrStart_none (Option.isNone_iff_eq_none.mp hgood)
  case layout =>
    refine reads_of (fun _ _ => rfl) (fun _ _ => rfl) (by decide) fun c u hgood => ?_
    exact doCorrGetLayout_some c hgood
  case layoutNone =>
    refine reads_of (fun _ _ => rfl) (fun _ _ => rfl) (by decide) fun c u hgood => ?_
    exact doCorrGetLayout_none c (Option.isNone_iff_eq_none.mp hgood)
  case tiles =>
    refine reads_of (fun _ _ => rfl) (fun _ _ => rfl) (by decide) fun c u hgood => ?_
    exact doCorrGetTiles_ok hgood

end Sys2Proof.Machine
end

section
/-! What CORR_SET_PRELOAD, CORR_LOAD_FRINGE, CORR_SET_ROTATION, CORR_SET_COMBINE and CORR_GET_ACCUM do, command by command
(R193 to R197). The claim of O19 is put together from them. -/

namespace Sys2Proof.Machine

theorem rotationRecords_ne_nil (c : Cmd) (s : State) : rotationRecords c s ≠ [] :=
  List.append_ne_nil_of_right_ne_nil _ (List.cons_ne_nil _ _)

/-- A command whose body answers a failure that names no field is rejected with that status. -/
theorem rejects_fail {i : Cmd → Instr} {spec : OpSpec} {bad : Cmd → State → Bool} {status : Nat}
    (he : ∀ c s, exec (i c) s = s.submit spec c) (hst : 1 < status)
    (h : ∀ c u, bad c u = true → spec.body c u = .fail status u) : Rejects i spec bad status 0xFFFF :=
  executes_bad he (fun c u hg => by rw [h c u hg]; exact decide_eq_false (Nat.not_le.mpr hst))
    fun c u hg => h c u hg ▸ ⟨rfl, rfl, rfl⟩

/-! ## Preload (R193) -/

/-- The preload that a CORR_SET_PRELOAD gives the `i`-th of its channels, while images hold so many baselines. -/
def Preload.commanded (p : List Byte) (baselines i : Nat) : Preload :=
  if fld p 4 1 = 0 then {}
  else if fld p 4 1 = 1 then { mode := 1, biasRe := toSigned 48 (fld p 8 6), biasIm := toSigned 48 (fld p 14 6) }
  else { mode := 2, residual := fld p 24 8 + i * imageStride baselines, length := 12 * baselines }

/-- A bias that a preload may hold: each part is at most 2^46 in size. -/
structure BiasBounded (p : List Byte) : Prop where
  re : (toSigned 48 (fld p 8 6)).natAbs ≤ 2 ^ 46
  im : (toSigned 48 (fld p 14 6)).natAbs ≤ 2 ^ 46

/-- The residual images of a command's channels begin at a multiple of 4,096 and lie in the host region, the last one with
its own size and the others with their stride. -/
def State.residualsFit (s : State) (p : List Byte) : Bool :=
  fld p 24 8 % 4096 = 0 &&
    s.inHost (fld p 24 8) ((fld p 2 2 - 1) * imageStride s.loadedBaselines + 12 * s.loadedBaselines)

/-- The residual image of a single channel has no stride before it. -/
theorem residualsFit_one {s : State} {p : List Byte} (hone : fld p 2 2 = 1) : s.residualsFit p =
    (decide (fld p 24 8 % 4096 = 0) && s.inHost (fld p 24 8) (12 * s.loadedBaselines)) := by
  simp [State.residualsFit, hone]

section Preload
variable {c : Cmd} {s : State} (hcount : 1 ≤ fld c.params 2 2) (hfirst : fld c.params 0 2 ≤ 4095)
  (hfit : fld c.params 0 2 + fld c.params 2 2 ≤ 4096)
include hcount hfirst hfit

theorem doCorrSetPreload_ok (hmode : fld c.params 4 1 ≤ 2) (hbias : fld c.params 4 1 = 1 → BiasBounded c.params)
    (hresidual : fld c.params 4 1 = 2 → s.residualsFit c.params = true)
    (hnew : s.indexPast (fld c.params 32 8) = false) :
    doCorrSetPreload c s = .ok (s.mapBas fun b => { b with
      preload := (List.range (fld c.params 2 2)).foldl (fun m i =>
        kvSet Preload.init m (fld c.params 0 2 + i) (s.queueSetting (kvGet Preload.init m (fld c.params 0 2 + i))
          (fld c.params 32 8) (Preload.commanded c.params s.loadedBaselines i))) b.preload }) := by
  have hmax : fld c.params 2 2 ≤ 4096 := by omega
  have hre := Decidable.imp_iff_not_or.mp fun h => (hbias h).re
  have him := Decidable.imp_iff_not_or.mp fun h => (hbias h).im
  have hres := Decidable.imp_iff_not_or.mp hresidual
  rw [State.residualsFit] at hres
  rw [doCorrSetPreload, firstBad_eq_none.mpr]
  · simp only [hnew]
    rfl
  · simpa [hcount, hmax, hfirst, hfit, hmode] using ⟨hre, him, by simpa using hres⟩

/-- A bias whose real part is out of bounds is refused at its field. -/
theorem doCorrSetPreload_bias (hmode : fld c.params 4 1 = 1) (hbig : 2 ^ 46 < (toSigned 48 (fld c.params 8 6)).natAbs) :
    doCorrSetPreload c s = .bad 8 s := by
  have hmax : fld c.params 2 2 ≤ 4096 := by omega
  have hre : ¬ (toSigned 48 (fld c.params 8 6)).natAbs ≤ 2 ^ 46 := Nat.not_le.mpr hbig
  simp only [doCorrSetPreload, firstBad, hcount, hmax, hfirst, hfit, hmode, hre]
  rfl

/-- Residuals that do not lie in the host region are refused at their base. -/
theorem doCorrSetPreload_residual (hmode : fld c.params 4 1 = 2) (hout : s.residualsFit c.params = false) :
    doCorrSetPreload c s = .bad 24 s := by
  have hmax : fld c.params 2 2 ≤ 4096 := by omega
  rw [State.residualsFit] at hout
  simp only [doCorrSetPreload, firstBad, hcount, hmax, hfirst, hfit, hmode, hout]
  rfl

end Preload

/-! ## Fringe tables and rotation (R194, R195) -/

section LoadFringe
variable {c : Cmd} {s : State} (hfirst : fld c.params 2 2 ≤ 4095) (hfit : fld c.params 2 2 + fld c.params 4 2 ≤ 4096)
  (hfree : s.schedPending s.bas.fringe = false)
include hfirst hfit hfree

theorem doCorrLoadFringe_sky (htable : fld c.params 0 1 = 0) (hcount : 1 ≤ fld c.params 4 2 ∧ fld c.params 4 2 ≤ 64) :
    doCorrLoadFringe c s = .ok (s.mapBas fun b => { b with
      fringeLoad := { b.fringeLoad with
        sky := (List.range (fld c.params 4 2)).foldl
          (fun m i => kvSet 0 m (fld c.params 2 2 + i) (fld c.params (8 + 8 * i) 8)) b.fringeLoad.sky } }) := by
  simp [doCorrLoadFringe, firstBad, htable, hfirst, hcount, hfit, hfree]

theorem doCorrLoadFringe_phase (htable : fld c.params 0 1 = 1) (hcount : 1 ≤ fld c.params 4 2 ∧ fld c.params 4 2 ≤ 256) :
    doCorrLoadFringe c s = .ok (s.mapBas fun b => { b with
      fringeLoad := { b.fringeLoad with
        phase := (List.range (fld c.params 4 2)).foldl
          (fun m i => kvSet 0 m (fld c.params 2 2 + i) (fld c.params (8 + 4 * i) 4)) b.fringeLoad.phase } }) := by
  simp [doCorrLoadFringe, firstBad, htable, hfirst, hcount, hfit, hfree]

end LoadFringe

/-- Turning rotation on asks that the generators form the phases of the loaded layout, if there is one (R305). -/
theorem doCorrSetRotation_ok {c : Cmd} {s : State} (hon : fld c.params 0 1 ≤ 1)
    (hphases : (fld c.params 0 1 = 0 ∨ s.replaying = true) ∨ ∀ l ∈ s.tile.layout, l.phasesFit = true)
    (hnew : s.indexPast (fld c.params 8 8) = false) :
    doCorrSetRotation c s = .ok (s.mapBas fun b => { b with
      rotate := s.applySetting b.rotate (fld c.params 8 8) (decide (fld c.params 0 1 = 1)),
      fringe := s.applySetting b.fringe (fld c.params 8 8) b.fringeLoad }) := by
  rw [doCorrSetRotation, if_neg (Nat.not_lt.mpr hon), if_neg, hnew]
  · rfl
  · rcases hphases with (hoff | hreplay) | hserved
    · simp [hoff]
    · simp [hreplay]
    · cases hlay : s.tile.layout with
      | none => simp
      | some l => simp [hserved l hlay]

theorem doCorrSetRotation_phases {c : Cmd} {s : State} {l : CorrLayout} (hon : fld c.params 0 1 = 1)
    (hfresh : s.replaying = false) (hlay : s.tile.layout = some l) (hphases : l.phasesFit = false) :
    doCorrSetRotation c s = .fail stResource s := by
  simp [doCorrSetRotation, hon, hfresh, hlay, hphases]

/-! ## Combining and the report (R196, R197) -/

/-- Only a part (role 1) checks its index, and only a combiner (role 2) its own leaf and its timeout. -/
theorem doCorrSetCombine_ok {c : Cmd} {s : State} (hrole : fld c.params 0 1 ≤ 2)
    (hparts : 1 ≤ fld c.params 1 1 ∧ fld c.params 1 1 ≤ 8)
    (hpart : fld c.params 0 1 = 1 → fld c.params 2 1 < fld c.params 1 1)
    (hroot : fld c.params 0 1 = 2 → (fld c.params 3 1 < fld c.params 1 1 ∨ fld c.params 3 1 = 0xFF) ∧
      100 ≤ fld c.params 4 4 ∧ fld c.params 4 4 ≤ 1000000)
    (hlive : s.schedLive = false) :
    doCorrSetCombine c s = .ok (s.mapBas fun b => { b with
      combine := { role := fld c.params 0 1, parts := fld c.params 1 1, part := fld c.params 2 1,
                   localLeaf := fld c.params 3 1, timeoutUs := fld c.params 4 4 } }) := by
  have hsender := Decidable.imp_iff_not_or.mp hpart
  have hleaf := Decidable.imp_iff_not_or.mp fun h => (hroot h).1
  have htime := Decidable.imp_iff_not_or.mp fun h => (hroot h).2
  rw [doCorrSetCombine, firstBad_eq_none.mpr]
  · simp only [hlive]
    rfl
  · simpa [hrole, hparts, or_assoc] using ⟨hsender, hleaf, htime⟩

theorem doCorrGetAccum_ok {c : Cmd} (s : State) (hchan : fld c.params 0 2 ≤ 4095) :
    ∃ rest, doCorrGetAccum c s = .okWith (beBytes 1 (s.integState (fld c.params 0 2)) ++
      beBytes 1 (s.shownPreload (s.integ (fld c.params 0 2))).mode ++
      beBytes 1 (b2n (s.integ (fld c.params 0 2)).rotation) ++ rest) s := by
  simp only [doCorrGetAccum, if_neg (Nat.not_lt.mpr hchan), List.append_assoc]
  exact ⟨_, rfl⟩

/-! ## The claim -/

/-- Settles O19: a setting is journalled with its records, and each command's body does as claimed once its checks pass. That a
bias and a residual are checked in their own mode only is the model's choice (log entry 71), as is the size of an image with no
layout loaded (log entry 28). -/
theorem basaltCommandsAct : Obligations.BasaltCommandsAct := by
  unfold Obligations.BasaltCommandsAct
  refine ⟨?preload, ?bias, ?residual, ?sky, ?phase, ?rotation, ?phases, ?combine, ?accum⟩
  case preload =>
    refine setsJournalled_of (fun _ _ => rfl) rfl (ownRecord_ne_nil _) fun c u hgood => ?_
    simp only [Bool.and_eq_true, Bool.or_eq_true, decide_eq_true_eq, Bool.not_eq_true'] at hgood
    obtain ⟨⟨⟨hfirst, hcount, hfit, hmode, hbias⟩, hresidual⟩, hnew⟩ := hgood
    have hbounded : fld c.params 4 1 = 1 → BiasBounded c.params := fun h => ⟨(hbias h).1, (hbias h).2⟩
    have hresiduals : fld c.params 4 1 = 2 → u.residualsFit c.params = true := fun h => by
      simpa [State.residualsFit] using hresidual.resolve_left (not_not_intro h)
    exact doCorrSetPreload_ok hcount hfirst hfit hmode hbounded hresiduals hnew
  case bias =>
    refine rejects_of (fun _ _ => rfl) fun c u hgood => ?_
    obtain ⟨hfirst, hone, hmode, hbig⟩ := of_decide_eq_true hgood
    exact doCorrSetPreload_bias (by omega) hfirst (by omega) hmode hbig
  case residual =>
    refine rejects_of (fun _ _ => rfl) fun c u hgood => ?_
    rw [Bool.and_eq_true, decide_eq_true_eq, Bool.not_eq_true'] at hgood
    obtain ⟨⟨hfirst, hone, hmode⟩, hout⟩ := hgood
    exact doCorrSetPreload_residual (by omega) hfirst (by omega) hmode ((residualsFit_one hone).trans hout)
  case sky =>
    refine sets_of (fun _ _ => rfl) (fun _ _ => rfl) (by decide) fun c u hgood => ?_
    simp only [Bool.and_eq_true, decide_eq_true_eq, Bool.not_eq_true'] at hgood
    obtain ⟨⟨htable, hfirst, hlow, hhigh, hfit⟩, hfree⟩ := hgood
    exact doCorrLoadFringe_sky hfirst hfit hfree htable ⟨hlow, hhigh⟩
  case phase =>
    refine sets_of (fun _ _ => rfl) (fun _ _ => rfl) (by decide) fun c u hgood => ?_
    simp only [Bool.and_eq_true, decide_eq_true_eq, Bool.not_eq_true'] at hgood
    obtain ⟨⟨htable, hfirst, hlow, hhigh, hfit⟩, hfree⟩ := hgood
    exact doCorrLoadFringe_phase hfirst hfit hfree htable ⟨hlow, hhigh⟩
  case rotation =>
    refine setsJournalled_of (fun _ _ => rfl) rfl rotationRecords_ne_nil fun c u hgood => ?_
    simp only [Bool.and_eq_true, Bool.or_eq_true, decide_eq_true_eq, Bool.not_eq_true'] at hgood
    obtain ⟨⟨hon, hnew⟩, hphases⟩ := hgood
    refine doCorrSetRotation_ok hon (hphases.imp_right fun hserved l hlay => ?_) hnew
    simpa [Option.mem_def.mp hlay] using hserved
  case phases =>
    refine rejects_fail (fun _ _ => rfl) (by decide) fun c u hgood => ?_
    simp only [Bool.and_eq_true, decide_eq_true_eq, Bool.not_eq_true'] at hgood
    obtain ⟨⟨hon, hfresh⟩, hphases⟩ := hgood
    cases hlay : u.tile.layout with
    | none => simp [hlay] at hphases
    | some l => exact doCorrSetRotation_phases hon hfresh hlay (by simpa [hlay] using hphases)
  case combine =>
    refine setsJournalled_of (fun _ _ => rfl) rfl (ownRecord_ne_nil _) fun c u hgood => ?_
    simp only [Bool.and_eq_true, decide_eq_true_eq, Bool.not_eq_true'] at hgood
    obtain ⟨⟨hrole, hlow, hhigh, hpart, hroot⟩, hlive⟩ := hgood
    exact doCorrSetCombine_ok hrole ⟨hlow, hhigh⟩ hpart hroot hlive
  case accum =>
    refine reads_of (fun _ _ => rfl) (fun _ _ => rfl) (by decide) fun c u hgood => ?_
    exact doCorrGetAccum_ok u (of_decide_eq_true hgood)

end Sys2Proof.Machine
end

section
/-! What CORR_SET_DUMP, CORR_DUMP_AT, CORR_MAP_DEST and CORR_GET_DUMP do, and the commands that set the destinations of
visibility, beam and capture frames (R198, R199, R221 to R225, R256, R368). The claims of O20 and O21 are put together from
them. -/

namespace Sys2Proof.Machine

/-! ## Dump settings (R198, R199, R221) -/

/-- The settings that a CORR_SET_DUMP gives. -/
def DumpSet.commanded (p : List Byte) : DumpSet :=
  { period := fld p 0 4, stagger := decide (fld p 4 1 = 1), coding := fld p 5 1, order := fld p 6 1, weightMode := fld p 7 1 }

/-- The parameters of a CORR_SET_DUMP pass the checks of R221 that name a field. -/
structure DumpSetValid (p : List Byte) : Prop where
  period : fld p 0 4 ≤ 16777215
  stagger : fld p 4 1 ≤ 1
  coding : fld p 5 1 ≤ 2
  order : fld p 6 1 ≤ 1
  weightMode : fld p 7 1 ≤ 1
  buffer : 16 ≤ fld p 8 2 ∧ fld p 8 2 ≤ 512

/-- A live schedule holds the size of the dump buffer. -/
theorem doCorrSetDump_ok {c : Cmd} {s : State} (hvalid : DumpSetValid c.params)
    (hbuffer : s.schedLive = false ∨ fld c.params 8 2 = s.dump.bufferMib)
    (hfits : s.dumpsFit (.commanded c.params) (fld c.params 8 2) s.dump.map s.dump.dests = true)
    (hnew : s.indexPast (fld c.params 16 8) = false) :
    doCorrSetDump c s = .ok (s.mapDump fun q => { q with
      set := s.queueSetting q.set (fld c.params 16 8) (.commanded c.params),
      bufferMib := fld c.params 8 2,
      prior := if s.tile.sched = .loaded ∧ q.prior = none then some q.set else q.prior }) := by
  obtain ⟨hperiod, hstagger, hcoding, horder, hweight, hmib⟩ := hvalid
  have hfree : ¬ (s.schedLive = true ∧ fld c.params 8 2 ≠ s.dump.bufferMib) := by
    rcases hbuffer with h | h <;> simp [h]
  have hroom : ¬ (!s.dumpsFit (.commanded c.params) (fld c.params 8 2) s.dump.map s.dump.dests) = true := by simp [hfits]
  rw [DumpSet.commanded] at hroom
  rw [doCorrSetDump, firstBad_eq_none.mpr]
  · simp only [Bool.and_eq_true, decide_eq_true_eq, Option.isNone_iff_eq_none, if_neg hfree, if_neg hroom, hnew]
    rfl
  · simp [hperiod, hstagger, hcoding, horder, hweight, hmib]

/-! ## Scheduled dumps (R222) -/

section DumpAt
variable {c : Cmd} {s : State} (hcount : 1 ≤ fld c.params 2 2) (hfit : fld c.params 0 2 + fld c.params 2 2 ≤ 4096)
include hcount hfit

theorem doCorrDumpAt_ok (hroom : (s.dump.scheduled.filter (·.counted)).length < 64)
    (hnew : s.indexPast (fld c.params 8 8) = false) :
    doCorrDumpAt c s =
      .ok (s.scheduleDump (fld c.params 0 2) (fld c.params 2 2) (s.applyAt (fld c.params 8 8) s.nextTaken) true) := by
  have hfirst : fld c.params 0 2 ≤ 4095 := by omega
  have hmax : fld c.params 2 2 ≤ 4096 := by omega
  simp [doCorrDumpAt, firstBad, hfirst, hcount, hmax, hfit, Nat.not_le.mpr hroom, hnew]

/-- With 64 dumps pending there is no room, whatever the index. -/
theorem doCorrDumpAt_full (hfull : 64 ≤ (s.dump.scheduled.filter (·.counted)).length) :
    doCorrDumpAt c s = .fail stResource s := by
  have hfirst : fld c.params 0 2 ≤ 4095 := by omega
  have hmax : fld c.params 2 2 ≤ 4096 := by omega
  simp [doCorrDumpAt, firstBad, hfirst, hcount, hmax, hfit, hfull]

end DumpAt

/-! ## Destinations of channels, and the report (R224, R225) -/

/-- The channels of a CORR_MAP_DEST go to its destination. -/
def mappedTo (p : List Byte) (m : KV Nat) : KV Nat :=
  (List.range (fld p 2 2)).foldl (fun m i => kvSet 0 m (fld p 0 2 + i) (fld p 4 1)) m

/-- The channels of a CORR_MAP_DEST whose boundary has come keep, for that dump, the destination they had. -/
def State.heldDests (s : State) (p : List Byte) (due : KV Nat) : KV Nat :=
  (List.range (fld p 2 2)).foldl (fun m i =>
    let ch := fld p 0 2 + i
    if ((s.settleLost ch).integEnds ch) && kvGet 0 m ch = 0 then kvSet 0 m ch (kvGet 0 s.dump.map ch + 1) else m) due

theorem doCorrMapDest_ok {c : Cmd} {s : State} (hfirst : fld c.params 0 2 ≤ 4095) (hcount : 1 ≤ fld c.params 2 2)
    (hfit : fld c.params 0 2 + fld c.params 2 2 ≤ 4096) (hdest : fld c.params 4 1 ≤ 15)
    (hfits : s.dumpsFit s.lastDumpSet s.dump.bufferMib (mappedTo c.params s.dump.map) s.dump.dests = true) :
    doCorrMapDest c s = .ok (s.mapDump fun q => { q with
      map := mappedTo c.params q.map, mapDue := s.heldDests c.params q.mapDue }) := by
  have hmax : fld c.params 2 2 ≤ 4096 := by omega
  have hroom : ¬ (!s.dumpsFit s.lastDumpSet s.dump.bufferMib (mappedTo c.params s.dump.map) s.dump.dests) = true := by
    simp [hfits]
  rw [doCorrMapDest, firstBad_eq_none.mpr]
  · exact if_neg hroom
  · simp [hfirst, hcount, hmax, hfit, hdest]

/-- What CORR_GET_DUMP shows of a channel: its newest kept record, or zeros. -/
def DumpState.shown (q : DumpState) (ch : Nat) : List Byte :=
  match kvGet [] q.kept ch with
  | r :: _ => r.wire
  | [] => zeros 128

theorem doCorrGetDump_ok {c : Cmd} (s : State) (hchan : fld c.params 0 2 ≤ 4095) :
    ∃ rest, doCorrGetDump c s = .okWith (s.dump.shown (fld c.params 0 2) ++ beCount 8 s.dump.total ++
      beCount 8 s.dump.visDiscarded ++ beCount 8 s.dump.portLost ++ rest) s := by
  refine ⟨beCount 8 s.dump.unrouted ++ beBytes 4 (ceilDiv s.dump.usedBytes 1024) ++
    beBytes 4 (ceilDiv s.dump.peakBytes 1024), ?_⟩
  rw [doCorrGetDump, if_neg (Nat.not_lt.mpr hchan), ← List.append_assoc, ← List.append_assoc]
  rfl

/-- Settles O20: each command's body does as claimed once its checks pass. How much log admission
counts is a free value (log entry 27); that settings at different indexes do not replace one another, and that the limit of 64
is judged before a past index, is the model's reading (log entries 64 and 65). -/
theorem dumpCommandsAct : Obligations.DumpCommandsAct := by
  unfold Obligations.DumpCommandsAct
  refine ⟨?settings, ?scheduled, ?full, ?mapped, ?report⟩
  case settings =>
    refine setsJournalled_of (fun _ _ => rfl) rfl (ownRecord_ne_nil _) fun c u hgood => ?_
    simp only [Bool.and_eq_true, Bool.or_eq_true, decide_eq_true_eq, Bool.not_eq_true'] at hgood
    obtain ⟨⟨⟨⟨hperiod, hstagger, hcoding, horder, hweight, hmib⟩, hbuffer⟩, hfits⟩, hnew⟩ := hgood
    exact doCorrSetDump_ok ⟨hperiod, hstagger, hcoding, horder, hweight, hmib⟩ hbuffer hfits hnew
  case scheduled =>
    refine setsJournalled_of (fun _ _ => rfl) rfl (ownRecord_ne_nil _) fun c u hgood => ?_
    simp only [Bool.and_eq_true, decide_eq_true_eq, Bool.not_eq_true'] at hgood
    obtain ⟨⟨hcount, hfit, hroom⟩, hnew⟩ := hgood
    exact doCorrDumpAt_ok hcount hfit hroom hnew
  case full =>
    refine executes_fail (fun _ _ => rfl) (by decide) fun c u hgood => ?_
    obtain ⟨hcount, hfit, hfull⟩ := of_decide_eq_true hgood
    exact doCorrDumpAt_full hcount hfit hfull
  case mapped =>
    refine setsJournalled_of (fun _ _ => rfl) rfl (ownRecord_ne_nil _) fun c u hgood => ?_
    simp only [Bool.and_eq_true, decide_eq_true_eq] at hgood
    obtain ⟨⟨hfirst, hcount, hfit, hdest⟩, hfits⟩ := hgood
    exact doCorrMapDest_ok hfirst hcount hfit hdest hfits
  case report =>
    refine reads_of (fun _ _ => rfl) (fun _ _ => rfl) (by decide) fun c u hgood => ?_
    exact doCorrGetDump_ok u (of_decide_eq_true hgood)

/-! ## Destinations (R223, R256, R368) -/

section Dest
variable {c : Cmd} {s : State}

theorem doCorrSetDest_ok (hok : s.badDest c.params 256 15 = none) :
    doCorrSetDest c s =
      .ok (s.mapDump fun q => { q with dests := kvSet Dest.init q.dests (fld c.params 0 1) (destAt c.params) }) := by
  rw [doCorrSetDest, hok]

theorem doCorrSetDest_bad {off : Nat} (hbad : s.badDest c.params 256 15 = some off) : doCorrSetDest c s = .bad off s := by
  rw [doCorrSetDest, hbad]

/-- The destinations that a BEAM_SET_DEST leaves have to carry what the live sets and chains send. -/
theorem doBeamSetDest_ok (hok : s.badDest c.params 1024 15 = none)
    (hfits : s.beamsFit s.beam.sets s.liveChains (kvSet Dest.init s.beam.dests (fld c.params 0 1) (destAt c.params)) = true) :
    doBeamSetDest c s =
      .ok { s with beam := { s.beam with dests := kvSet Dest.init s.beam.dests (fld c.params 0 1) (destAt c.params) } } := by
  simp [doBeamSetDest, hok, hfits]

theorem doBeamSetDest_bad {off : Nat} (hbad : s.badDest c.params 1024 15 = some off) : doBeamSetDest c s = .bad off s := by
  rw [doBeamSetDest, hbad]

theorem doCapSetDest_ok (hok : s.badDest c.params 1024 15 = none) :
    doCapSetDest c s = .ok (s.mapCap fun d => { d with dest := destAt c.params }).pumpSegments := by
  rw [doCapSetDest, hok]

end Dest

/-! ## Segments leave the capture destination as it is (R362) -/

theorem frameGone_capDest (s : State) (o : FrameOwner) (lost : Bool) : (s.frameGone o lost).cap.dest = s.cap.dest := by
  cases o <;> rfl

theorem handFrame_capDest (s : State) (o : FrameOwner) (d : Dest) (bytes : List Byte) :
    (s.handFrame o d bytes).cap.dest = s.cap.dest := by
  unfold State.handFrame
  split
  · split
    · rfl
    · exact frameGone_capDest _ o true
  · rfl

theorem pumpSegments_capDest (s : State) : s.pumpSegments.cap.dest = s.cap.dest := by
  unfold State.pumpSegments
  split
  · split
    · exact List.foldlRecOn (motive := fun u : State => u.cap.dest = s.cap.dest) _ _ rfl
        fun u hu f _ => (handFrame_capDest u _ _ f).trans hu
    · rfl
  · rfl

/-! ## The claim -/

/-- A command that answers BAD_PARAM at the field its check names applies nothing. -/
theorem executes_named {i : Cmd → Instr} {spec : OpSpec} {check : Cmd → State → Option Nat}
    (he : ∀ c s, exec (i c) s = s.submit spec c)
    (h : ∀ c u off, check c u = some off → spec.body c u = .bad off u) :
    Executes i spec (fun c u => (check c u).isSome) fun c u r => r.status = stBadParam ∧ some r.off = check c u ∧ r.st = u := by
  refine executes_bad he (fun c u hbad => ?_) fun c u hbad => ?_
  all_goals obtain ⟨off, hoff⟩ := Option.isSome_iff_exists.mp hbad; rw [h c u off hoff]
  · rfl
  · exact ⟨rfl, hoff.symm, rfl⟩

/-- Settles O21: a destination is judged by the one check of all three commands, and each body sets it once it passes. That
capture has one destination, which `dest` does not select, is the model's reading (log entry 29). -/
theorem destinationCommandsAct : Obligations.DestinationCommandsAct := by
  unfold Obligations.DestinationCommandsAct
  refine ⟨?corr, ?beam, ?capture, ?corrBad, ?beamBad⟩
  case corr =>
    refine setsJournalled_of (fun _ _ => rfl) rfl (ownRecord_ne_nil _) fun c u hgood => ?_
    exact doCorrSetDest_ok (Option.isNone_iff_eq_none.mp hgood)
  case beam =>
    refine setsJournalled_of (fun _ _ => rfl) rfl (ownRecord_ne_nil _) fun c u hgood => ?_
    obtain ⟨hok, hfits⟩ := Bool.and_eq_true_iff.mp hgood
    exact doBeamSetDest_ok (Option.isNone_iff_eq_none.mp hok) hfits
  case capture =>
    refine journalled_ok (fun _ _ => rfl) rfl (ownRecord_ne_nil _) fun c u hgood => ?_
    exact ⟨_, doCapSetDest_ok (Option.isNone_iff_eq_none.mp hgood), rfl, rfl, rfl, pumpSegments_capDest _⟩
  case corrBad => exact executes_named (fun _ _ => rfl) fun _ _ _ hbad => doCorrSetDest_bad hbad
  case beamBad => exact executes_named (fun _ _ => rfl) fun _ _ _ hbad => doBeamSetDest_bad hbad

end Sys2Proof.Machine
end

section
/-! What BEAM_SET_CONFIG, BEAM_LOAD_WEIGHTS, BEAM_LOAD_SCALE, BEAM_APPLY and BEAM_GET_SET do (R236 to R238, R253 to R257). The
claim of O22 is put together from them. -/

namespace Sys2Proof.Machine

/-! ## Configuration (R253) -/

/-- Only a set that is to be enabled needs the HBM there (R517). -/
theorem doBeamSetConfig_ok {c : Cmd} {s t : State}
    (ht : t = s.setBeamSet (fld c.params 0 1) ((s.beamSet (fld c.params 0 1)).configured c.params))
    (hchecks : firstBad (s.beamChecks c.params) = none) (hlive : s.schedLive = false)
    (hmem : fld c.params 1 1 ≠ 1 ∨ s.hbmAway = false) (hslots : t.slotsSuffice = true ∨ t.bMaxNow ≤ s.bMaxNow)
    (hfits : t.beamsFit t.beam.sets t.liveChains t.beam.dests = true) (hadmitted : t.admitted = true) :
    doBeamSetConfig c s = .ok t := by
  have hfree : ¬ (s.schedLive || decide (fld c.params 1 1 = 1) && s.hbmAway) = true := by
    rcases hmem with h | h <;> simp [hlive, h]
  have hroom : ¬ (!t.slotsSuffice && decide (s.bMaxNow < t.bMaxNow)) = true := by
    rcases hslots with h | h <;> simp [h, Nat.not_lt.mpr]
  have hcarried : ¬ (!t.beamsFit t.beam.sets t.liveChains t.beam.dests) = true := by simp [hfits]
  subst ht
  rw [doBeamSetConfig, hchecks]
  refine (if_neg hfree).trans ((if_neg hroom).trans ((if_neg hcarried).trans ?_))
  rw [State.whenAdmitted, hadmitted, Bool.or_true, if_pos rfl]

/-! ## Load banks (R237, R254) -/

/-- The parameters of a BEAM_LOAD_WEIGHTS name weights of the set that it names. -/
structure WeightsNamed (p : List Byte) (b : BeamSet) : Prop where
  set : fld p 0 1 ≤ 15
  beam : fld p 1 1 ≤ 63
  low : 64 * b.firstGroup ≤ fld p 4 2
  count : 1 ≤ fld p 6 2 ∧ fld p 6 2 ≤ 512
  high : fld p 4 2 + fld p 6 2 ≤ 64 * b.firstGroup + 64 * b.groups
  entry : (b.entryFor (fld p 2 2)).isSome = true

/-- The parameters of a BEAM_LOAD_SCALE name scales of the set that it names. -/
structure ScalesNamed (p : List Byte) (b : BeamSet) : Prop where
  set : fld p 0 1 ≤ 15
  count : 1 ≤ fld p 4 2
  fit : fld p 1 1 + fld p 4 2 ≤ 64
  entry : (b.entryFor (fld p 2 2)).isSome = true

section Load
variable {c : Cmd} {s : State} {b : BeamSet} (hset : s.beamSet (fld c.params 0 1) = b)
include hset

/-- The checks of a BEAM_LOAD_WEIGHTS that name a field pass, and what is left is whether a swap holds the bank. -/
theorem doBeamLoadWeights_named (hnamed : WeightsNamed c.params b) :
    doBeamLoadWeights c s = if b.swap.isSome || b.owed then .fail stBusy s
      else .ok (s.setBeamSet (fld c.params 0 1) { b with load := { b.load with
        w := (List.range (fld c.params 6 2)).foldl (fun m i =>
          kvSet 0 m (weightKey ((b.entryFor (fld c.params 2 2)).getD 0) (fld c.params 1 1)
            (fld c.params 4 2 + i - 64 * b.firstGroup)) (fld c.params (8 + 2 * i) 2 + 1)) b.load.w } }) := by
  obtain ⟨hn, hbeam, hlow, hcount, hhigh, hentry⟩ := hnamed
  have hfirst : fld c.params 4 2 < 64 * b.firstGroup + 64 * b.groups := by omega
  rw [doBeamLoadWeights, hset, firstBad_eq_none.mpr]
  simp [hn, hbeam, hlow, hfirst, hcount, hhigh, hentry]

theorem doBeamLoadScale_named (hnamed : ScalesNamed c.params b) :
    doBeamLoadScale c s = if b.swap.isSome || b.owed then .fail stBusy s
      else .ok (s.setBeamSet (fld c.params 0 1) { b with load := { b.load with
        scale := (List.range (fld c.params 4 2)).foldl (fun m i =>
          kvSet 0 m (scaleKey ((b.entryFor (fld c.params 2 2)).getD 0) (fld c.params 1 1 + i))
            (fld c.params (8 + 4 * i) 4 + 1)) b.load.scale } }) := by
  obtain ⟨hn, hcount, hfit, hentry⟩ := hnamed
  have hfirst : fld c.params 1 1 ≤ 63 := by omega
  have hmax : fld c.params 4 2 ≤ 64 := by omega
  rw [doBeamLoadScale, hset, firstBad_eq_none.mpr]
  simp [hn, hfirst, hcount, hmax, hfit, hentry]

end Load

/-- No swap holds the load bank of a set. -/
theorem loadBank_free {b : BeamSet} (hswap : b.swap = none) (howed : b.owed = false) :
    ¬ (b.swap.isSome || b.owed) = true := by
  simp [hswap, howed]

/-- A swap that waits holds the load bank, and one whose report is owed does too. -/
theorem loadBank_held {b : BeamSet} (hheld : b.swap ≠ none ∨ b.owed = true) : (b.swap.isSome || b.owed) = true := by
  simpa [Option.isSome_iff_ne_none] using hheld

/-! ## Swaps (R236, R238, R255) -/

/-- The swap of a set is made at once, and one that was to follow it is dropped. -/
def State.swapNow (s : State) (n : Nat) : State :=
  (s.setBeamSet n { s.beamSet n with nextSwap := none }).finishSwap n

theorem KeepsSchedule.schedLive {s t : State} (h : KeepsSchedule s t) : t.schedLive = s.schedLive := by
  rw [State.schedLive, h.tile, State.schedLive]

/-- The event of a swap may be written over what lies in HBM, and still no schedule begins or ends. -/
theorem keeps_swapDone (s : State) (n : Nat) : KeepsSchedule s (s.swapDone n) :=
  (keeps_setBeamSet s n _).trans ((keeps_setEvents _ _ _).trans (keeps_raise _ 183 n))

theorem keeps_finishSwap (s : State) (n : Nat) : KeepsSchedule s (s.finishSwap n) :=
  .ite ((keeps_setBeamSet s n _).trans (keeps_swapDone _ n)) (keeps_setBeamSet s n _)

theorem keeps_swapNow (s : State) (n : Nat) : KeepsSchedule s (s.swapNow n) :=
  (keeps_setBeamSet s n _).trans (keeps_finishSwap _ n)

theorem swapBeam_idle {s : State} (n idx : Nat) (hidle : s.schedLive = false) : s.swapBeam n idx = s.swapNow n := by
  rw [State.swapBeam, hidle]
  rfl

/-- While a schedule is live a swap waits for its index: behind one that has begun to take effect, else in its place. -/
theorem swapBeam_live {s : State} (n idx : Nat) (hlive : s.schedLive = true) :
    s.swapBeam n idx = s.setBeamSet n
      (match (s.beamSet n).swap with
       | some w => if (s.beamSet n).channels.any fun ch => s.sampleTaken w ch
           then { s.beamSet n with nextSwap := some (s.applyAt idx s.nextTaken) }
           else { s.beamSet n with swap := some (s.applyAt idx s.nextTaken) }
       | none => { s.beamSet n with swap := some (s.applyAt idx s.nextTaken) }) := by
  simp only [State.swapBeam, hlive]
  cases (s.beamSet n).swap with
  | none => rfl
  | some w => exact (apply_ite (s.setBeamSet n) _ _ _).symm

/-- No swap starts a schedule, so each of several that are asked for while none is live is made at once. -/
theorem foldl_swapBeam_idle (sets : List Nat) (idx : Nat) {s : State} (hidle : s.schedLive = false) :
    sets.foldl (fun t n => t.swapBeam n idx) s = sets.foldl State.swapNow s := by
  induction sets generalizing s with
  | nil => rfl
  | cons n sets ih =>
    rw [List.foldl_cons, List.foldl_cons, swapBeam_idle n idx hidle]
    exact ih ((keeps_swapNow s n).schedLive.trans hidle)

theorem sampleTaken_idle {s : State} (w : When) (ch : Nat) (hidle : s.schedLive = false) : s.sampleTaken w ch = false := by
  rw [State.sampleTaken, hidle, Bool.false_and]

section Apply
variable {c : Cmd} {s : State}

/-- An apply is taken when its sets are enabled and none of their channels has reached its index. -/
theorem doBeamApply_ok (hon : ∀ n ∈ bitsOf 16 (fld c.params 0 2), (s.beamSet n).enable = true)
    (hnew : fld c.params 8 8 = noIndex ∨ ∀ n ∈ bitsOf 16 (fld c.params 0 2), ∀ ch ∈ (s.beamSet n).channels,
      s.sampleTaken (.idx (fld c.params 8 8)) ch = false) :
    doBeamApply c s =
      .ok ((bitsOf 16 (fld c.params 0 2)).foldl (fun t n => t.swapBeam n (fld c.params 8 8)) s) := by
  have henabled : ¬ (!(bitsOf 16 (fld c.params 0 2)).all fun n => (s.beamSet n).enable) = true := by simpa using hon
  have hpast : ¬ (fld c.params 8 8 ≠ noIndex && (bitsOf 16 (fld c.params 0 2)).any fun n =>
      (s.beamSet n).channels.any fun ch => s.sampleTaken (.idx (fld c.params 8 8)) ch) = true := by
    simpa [Decidable.imp_iff_not_or] using hnew
  rw [doBeamApply, if_neg henabled, if_neg hpast]

/-- No index is past while no schedule is live. -/
theorem doBeamApply_atOnce (hon : ∀ n ∈ bitsOf 16 (fld c.params 0 2), (s.beamSet n).enable = true)
    (hidle : s.schedLive = false) :
    doBeamApply c s = .ok ((bitsOf 16 (fld c.params 0 2)).foldl State.swapNow s) := by
  rw [doBeamApply_ok hon (.inr fun _ _ ch _ => sampleTaken_idle _ ch hidle), foldl_swapBeam_idle _ _ hidle]

theorem doBeamApply_disabled (hoff : ((bitsOf 16 (fld c.params 0 2)).any fun n => !(s.beamSet n).enable) = true) :
    doBeamApply c s = .bad 0 s := by
  rw [doBeamApply, List.not_all_eq_any_not, if_pos hoff]

end Apply

/-! ## The report (R257) -/

theorem doBeamGetSet_ok {c : Cmd} (s : State) (hset : fld c.params 0 1 ≤ 15) (hbeam : fld c.params 1 1 ≤ 63) :
    ∃ rest, doBeamGetSet c s = .okWith (beBytes 1 (b2n (s.beamSet (fld c.params 0 1)).enable) ++
      beBytes 1 (ceilDiv (s.beamSet (fld c.params 0 1)).groups (s.beamSet (fld c.params 0 1)).slots) ++ rest) s := by
  rw [doBeamGetSet, firstBad_eq_none.mpr (by simp [hset, hbeam])]
  simp only [List.append_assoc]
  exact ⟨_, rfl⟩

/-! ## The claim -/

/-- Settles O22: a configuration is journalled, and each command's body does as claimed once its checks pass; a swap made at once
raises its event and leaves the schedule, so that the next set is swapped at once too. That a swap which has begun to take
effect is followed by the second, and any other replaced, is the model's reading (log entry 25). -/
theorem beamCommandsAct : Obligations.BeamCommandsAct := by
  unfold Obligations.BeamCommandsAct
  refine ⟨?config, ?configured, ?weights, ?weightsBusy, ?scale, ?atOnce, ?fromIndex, ?waits, ?disabled, ?report⟩
  case config =>
    refine setsJournalled_of (fun _ _ => rfl) rfl (ownRecord_ne_nil _) fun c u hgood => ?_
    simp only [Bool.and_eq_true, Bool.or_eq_true, decide_eq_true_eq, Bool.not_eq_true', Option.isNone_iff_eq_none] at hgood
    obtain ⟨⟨⟨⟨⟨⟨hchecks, hlive⟩, hmem⟩, -⟩, hslots⟩, hfits⟩, hadmitted⟩ := hgood
    exact doBeamSetConfig_ok rfl hchecks hlive hmem hslots hfits hadmitted
  case configured => exact fun _ _ => rfl
  case weights =>
    refine sets_of (fun _ _ => rfl) (fun _ _ => rfl) (by decide) fun c u hgood => ?_
    simp only [Bool.and_eq_true, decide_eq_true_eq] at hgood
    obtain ⟨⟨hset, hbeam, hlow, hmin, hmax, hhigh, hswap, howed⟩, hentry⟩ := hgood
    exact (doBeamLoadWeights_named rfl ⟨hset, hbeam, hlow, ⟨hmin, hmax⟩, hhigh, hentry⟩).trans
      (if_neg (loadBank_free hswap howed))
  case weightsBusy =>
    refine executes_fail (fun _ _ => rfl) (by decide) fun c u hgood => ?_
    simp only [Bool.and_eq_true, decide_eq_true_eq] at hgood
    obtain ⟨⟨hset, hbeam, hlow, hmin, hmax, hhigh, hheld⟩, hentry⟩ := hgood
    exact (doBeamLoadWeights_named rfl ⟨hset, hbeam, hlow, ⟨hmin, hmax⟩, hhigh, hentry⟩).trans
      (if_pos (loadBank_held hheld))
  case scale =>
    refine sets_of (fun _ _ => rfl) (fun _ _ => rfl) (by decide) fun c u hgood => ?_
    simp only [Bool.and_eq_true, decide_eq_true_eq] at hgood
    obtain ⟨⟨hset, hmin, hfit, hswap, howed⟩, hentry⟩ := hgood
    exact (doBeamLoadScale_named rfl ⟨hset, hmin, hfit, hentry⟩).trans (if_neg (loadBank_free hswap howed))
  case atOnce =>
    refine sets_of (fun _ _ => rfl) (fun _ _ => rfl) (by decide) fun c u hgood => ?_
    simp only [Bool.and_eq_true, List.all_eq_true, Bool.not_eq_true'] at hgood
    obtain ⟨hon, hidle⟩ := hgood
    exact doBeamApply_atOnce hon hidle
  case fromIndex =>
    refine sets_of (fun _ _ => rfl) (fun _ _ => rfl) (by decide) fun c u hgood => ?_
    simp only [Bool.and_eq_true, Bool.or_eq_true, List.all_eq_true, decide_eq_true_eq, Bool.not_eq_true'] at hgood
    obtain ⟨⟨hon, -⟩, hnew⟩ := hgood
    exact doBeamApply_ok hon hnew
  case waits => exact fun s n idx hlive => swapBeam_live n idx hlive
  case disabled =>
    refine rejects_of (fun _ _ => rfl) fun c u hgood => ?_
    exact doBeamApply_disabled hgood
  case report =>
    refine reads_of (fun _ _ => rfl) (fun _ _ => rfl) (by decide) fun c u hgood => ?_
    obtain ⟨hset, hbeam⟩ := of_decide_eq_true hgood
    exact doBeamGetSet_ok u hset hbeam

end Sys2Proof.Machine
end

section
/-! What becomes of swaps of beam weights and of filter coefficients that every channel and every chain have passed, and what
a chain takes in (R238, R267, R269, R272). The claim of O49 is put together from them. -/

namespace Sys2Proof.Machine

/-! ## Swaps of beam weights (R238, R379) -/

/-- A swap whose time is over is raised as it completes. -/
theorem finishSwap_done {s : State} {n : Nat} (htime : (s.beamSet n).doneAt ≤ s.ns) :
    s.finishSwap n = (s.setBeamSet n { s.beamSet n with
      active := (s.beamSet n).load, swap := (s.beamSet n).nextSwap, nextSwap := none, owed := true }).swapDone n :=
  if_pos htime

section BeamSwap
variable {s : State} {n : Fin 16}

theorem evBeamSwapDone_early (hearly : s.ns < (s.beamSet n.val).doneAt) : evBeamSwapDone n s = s := if_pos hearly

theorem evBeamSwapDone_owed (htime : (s.beamSet n.val).doneAt ≤ s.ns) (howed : (s.beamSet n.val).owed = true) :
    evBeamSwapDone n s = s.swapDone n.val := by
  rw [evBeamSwapDone, if_neg (Nat.not_lt.mpr htime), if_pos howed]

theorem evBeamSwapDone_passed {w : When} (htime : (s.beamSet n.val).doneAt ≤ s.ns)
    (hfree : (s.beamSet n.val).owed = false) (hswap : (s.beamSet n.val).swap = some w)
    (hpassed : ((s.beamSet n.val).channels.all fun c => s.swapPassed w c) = true) :
    evBeamSwapDone n s = s.finishSwap n.val := by
  have howed : ¬ (s.beamSet n.val).owed = true := by simp [hfree]
  simp only [evBeamSwapDone, if_neg (Nat.not_lt.mpr htime), if_neg howed, hswap, if_pos hpassed]

theorem evBeamSwapDone_waits (hfree : (s.beamSet n.val).owed = false)
    (hwaits : ∀ w ∈ (s.beamSet n.val).swap, ((s.beamSet n.val).channels.all fun c => s.swapPassed w c) = false) :
    evBeamSwapDone n s = s := by
  have howed : ¬ (s.beamSet n.val).owed = true := by simp [hfree]
  simp only [evBeamSwapDone, if_neg howed]
  cases hswap : (s.beamSet n.val).swap with
  | none => exact ite_self s
  | some w =>
    have hpassed : ¬ ((s.beamSet n.val).channels.all fun c => s.swapPassed w c) = true := by simp [hwaits w hswap]
    exact (congrArg _ (if_neg hpassed)).trans (ite_self s)

end BeamSwap

/-! ## What a chain takes in (R269, R272) -/

section ChainVisit
variable {s : State} {n : Fin 32}

theorem evChainVisitProcess_waits (hwaits : ∀ x ∈ (s.chain n.val).input.head?,
    s.chainWaits n.val x.visit = true ∨ s.domainOn (91 + n.val / 16) = false) : evChainVisitProcess n s = s := by
  cases hinput : (s.chain n.val).input with
  | nil => simp only [evChainVisitProcess, hinput]
  | cons x rest =>
    have hmust : (s.chainWaits n.val x.visit || !s.domainOn (91 + n.val / 16)) = true := by
      simpa using hwaits x (by rw [hinput]; rfl)
    simp only [evChainVisitProcess, hinput, if_pos hmust]

variable {x : ChainInput} {rest : List ChainInput} (hinput : (s.chain n.val).input = x :: rest)
  (hturn : s.chainWaits n.val x.visit = false) (hon : s.domainOn (91 + n.val / 16) = true)
include hinput hturn hon

/-- The oldest gap is taken in; it counts for a chain that is on up to the visit it stands for. -/
theorem evChainVisitProcess_gap (hgap : x.gap = true) :
    evChainVisitProcess n s = if (s.chain n.val).onUntil (s.firstIndex x.visit)
      then (s.setChain n.val { s.chain n.val with input := rest }).chainGap n.val
      else s.setChain n.val { s.chain n.val with input := rest } := by
  have hgo : ¬ (s.chainWaits n.val x.visit || !s.domainOn (91 + n.val / 16)) = true := by simp [hturn, hon]
  simp only [evChainVisitProcess, hinput, if_neg hgo, if_pos hgap]

theorem evChainVisitProcess_values (hvalues : x.gap = false) :
    evChainVisitProcess n s = ((s.setChain n.val
      (Chain.feedAll s.filt.syncs (s.stepOf (s.chain n.val)) x.values { s.chain n.val with input := rest }).1).emitOutputs
        n.val x.visit (s.stepOf (s.chain n.val))
        (Chain.feedAll s.filt.syncs (s.stepOf (s.chain n.val)) x.values
          { s.chain n.val with input := rest }).2).settleSyncs := by
  have hgo : ¬ (s.chainWaits n.val x.visit || !s.domainOn (91 + n.val / 16)) = true := by simp [hturn, hon]
  have hgap : ¬ x.gap = true := by simp [hvalues]
  simp only [evChainVisitProcess, hinput, if_neg hgo, if_neg hgap]

end ChainVisit

/-! ## Swaps of filter coefficients (R267, R379) -/

section FilterSwap
variable {s : State} {m : Nat}

theorem evFilterSwapDone_owed {rest : List Nat} (htime : s.filt.doneAt ≤ s.ns) (howed : s.filt.owed = m :: rest) :
    evFilterSwapDone s = State.raise { s with
      filt := { s.filt with owed := rest }, er := { s.er with busy := s.er.busy.filter (· ≠ 94) } } 185 m := by
  simp only [evFilterSwapDone, if_neg (Nat.not_lt.mpr htime), howed, State.filtersDone, State.mapFilt]

theorem evFilterSwapDone_passed (htime : s.filt.doneAt ≤ s.ns) (hfree : s.filt.owed = []) (happly : s.filt.applies = [m])
    (hpassed : ((bitsOf 32 m).all fun n => s.chainSwapped (s.chain n)) = true) :
    evFilterSwapDone s = (s.mapFilt fun f => { f with applies := [] }).finishFilters m := by
  have hfind : s.filt.applies.find? (fun m => (bitsOf 32 m).all fun n => s.chainSwapped (s.chain n)) = some m := by
    rw [happly, List.find?_singleton, if_pos hpassed]
  have herase : s.filt.applies.erase m = [] := by rw [happly, List.erase_cons_head]
  simp only [evFilterSwapDone, if_neg (Nat.not_lt.mpr htime), hfree, hfind, State.mapFilt, herase]

theorem evFilterSwapDone_idle (hnone : s.filt.applies = []) (hwait : s.filt.owed = [] ∨ s.ns < s.filt.doneAt) :
    evFilterSwapDone s = s := by
  rcases hwait with howed | hearly
  · simp only [evFilterSwapDone, howed, hnone, List.find?_nil, ite_self]
  · exact if_pos hearly

end FilterSwap

/-! ## The claim -/

section Events
variable {s u : State}

theorem happens_beamSwapDone {n : Fin 16} (h : evBeamSwapDone n s = u) : Happens (.beamSwapDone n) s u :=
  h ▸ happens_of_guarded rfl rfl

theorem happens_chainVisitProcess {n : Fin 32} (h : evChainVisitProcess n s = u) : Happens (.chainVisitProcess n) s u :=
  h ▸ happens_of_guarded rfl rfl

theorem happens_filterSwapDone (h : evFilterSwapDone s = u) : Happens .filterSwapDone s u := h ▸ happens_of_guarded rfl rfl

end Events

/-- Settles O49: each event happens as its meaning says, and the lemma for its case says what that leads to. That a swap
accepted after this one had begun to take effect is now the set's swap, and that a swap which an event asked for takes the
shortest time of R379, are the model's readings (log entries 25 and 62). -/
theorem swapsAndChainsAct : Obligations.SwapsAndChainsAct := by
  unfold Obligations.SwapsAndChainsAct
  refine ⟨?early, ?passed, ?owed, ?waits, ?gap, ?values, ?chainWaits, ?filterPassed, ?filterOwed, ?filterIdle⟩
  case early =>
    intro s n hearly
    exact happens_beamSwapDone (evBeamSwapDone_early hearly)
  case passed =>
    rintro s _ _ n w htime hfree hswap hpassed rfl rfl
    exact happens_beamSwapDone ((evBeamSwapDone_passed htime hfree hswap hpassed).trans (finishSwap_done htime))
  case owed =>
    rintro s _ n htime howed rfl
    exact happens_beamSwapDone (evBeamSwapDone_owed htime howed)
  case waits =>
    intro s n hfree hwaits
    exact happens_beamSwapDone (evBeamSwapDone_waits hfree hwaits)
  case gap =>
    intro s n x rest hinput hgap hturn hon
    exact happens_chainVisitProcess (evChainVisitProcess_gap hinput hturn hon hgap)
  case values =>
    intro s n x rest hinput hvalues hturn hon
    exact happens_chainVisitProcess (evChainVisitProcess_values hinput hturn hon hvalues)
  case chainWaits =>
    intro s n hwaits
    exact happens_chainVisitProcess (evChainVisitProcess_waits hwaits)
  case filterPassed =>
    intro s m htime hfree happly hpassed
    exact happens_filterSwapDone (evFilterSwapDone_passed htime hfree happly hpassed)
  case filterOwed =>
    intro s m rest htime howed
    exact happens_filterSwapDone (evFilterSwapDone_owed htime howed)
  case filterIdle =>
    intro s hnone hwait
    exact happens_filterSwapDone (evFilterSwapDone_idle hnone hwait)

end Sys2Proof.Machine
end

section
/-! What FILT_SET_CHAIN, FILT_ENABLE, FILT_SYNC, FILT_LOAD_COEF, FILT_APPLY and FILT_GET_CHAIN do (R262, R264, R267, R274 to
R278). The claim of O23 is put together from them. -/

namespace Sys2Proof.Machine

/-! ## Configuration (R274) -/

section SetChain
variable {c : Cmd} {s : State} (hchecks : firstBad (s.chainChecks c.params) = none)
include hchecks

/-- A chain is configured while it is off, when its multiply-accumulates are there (R271; with no layout loaded none are asked
for) and its outputs are carried (R273). -/
theorem doFiltSetChain_ok (hoff : s.chainOn (s.chain (fld c.params 0 1)) = false)
    (hmacs : s.tile.layout.isNone = true ∨
      (s.chainDemand (chainAt c.params)).1 ≤ 16 * stepRate s.load.op * (s.chainDemand (chainAt c.params)).2)
    (hcarried : s.beamsFit s.beam.sets (kvSet Chain.init s.liveChains (fld c.params 0 1) (chainAt c.params))
      s.beam.dests = true) :
    doFiltSetChain c s = .ok (s.setChain (fld c.params 0 1)
      ((s.chain (fld c.params 0 1)).configuredAs (chainAt c.params))) := by
  have hdemand : ¬ (!s.replaying && s.tile.layout.isSome && decide (16 * stepRate s.load.op *
      (s.chainDemand (chainAt c.params)).2 < (s.chainDemand (chainAt c.params)).1)) = true := by
    rcases hmacs with hnone | hle
    · simp [Option.isNone_iff_eq_none.mp hnone]
    · simp [Nat.not_lt.mpr hle]
  simp only [doFiltSetChain, hchecks, hoff, if_neg hdemand, hcarried, Bool.false_eq_true, Bool.not_true, if_false]

theorem doFiltSetChain_on (hon : s.chainOn (s.chain (fld c.params 0 1)) = true) :
    doFiltSetChain c s = .fail stBusy s := by
  simp only [doFiltSetChain, hchecks, if_pos hon]

end SetChain

/-! ## Enables (R275) -/

/-- No index is past for a chain while no schedule is live. -/
theorem chainsTaken_idle {s : State} (mask idx : Nat) (hidle : s.schedLive = false) : s.chainsTaken mask idx = false := by
  simp [State.chainsTaken, sampleTaken_idle _ _ hidle]

/-- The configured chains that count as enabled, those of the mask with them. -/
def State.chainsWith (s : State) (mask : Nat) : KV Chain :=
  s.filt.chains.filter fun e => e.2.configured && (s.chainEnabled e.2 || (bitsOf 32 mask).contains e.1)

section Enable
variable {c : Cmd} {s : State}

/-- An enable whose chains' outputs are carried, and whose index none of their channels has reached, is taken. -/
theorem doFiltEnable_ok (hvalid : fld c.params 4 1 ≤ 1)
    (hcarried : fld c.params 4 1 = 0 ∨ s.beamsFit s.beam.sets (s.chainsWith (fld c.params 0 4)) s.beam.dests = true)
    (hnew : s.chainsTaken (fld c.params 0 4) (fld c.params 8 8) = false) :
    doFiltEnable c s = .ok (if s.schedLive
      then (bitsOf 32 (fld c.params 0 4)).foldl (fun t n =>
        t.setChain n { t.chain n with
          enable := (t.chain n).enable.push (s.applyAt (fld c.params 8 8) s.nextTaken) (decide (fld c.params 4 1 = 1)) }) s
      else (bitsOf 32 (fld c.params 0 4)).foldl (fun t n =>
        t.setChain n { t.chain n with
          enable := ⟨decide (fld c.params 4 1 = 1), []⟩, on := (t.chain n).on && decide (fld c.params 4 1 = 1) }) s) := by
  have hroom : ¬ (decide (fld c.params 4 1 = 1) &&
      !s.beamsFit s.beam.sets (s.chainsWith (fld c.params 0 4)) s.beam.dests) = true := by
    rcases hcarried with hoff | hfits
    · simp [hoff]
    · simp [hfits]
  have hpast : ¬ s.chainsTaken (fld c.params 0 4) (fld c.params 8 8) = true := by simp [hnew]
  rw [doFiltEnable, firstBad_eq_none.mpr (by simpa using hvalid)]
  refine (if_neg hroom).trans ((if_neg hpast).trans ?_)
  cases s.schedLive <;> rfl

theorem doFiltEnable_bad (hbad : 1 < fld c.params 4 1) : doFiltEnable c s = .bad 4 s := by
  simp [doFiltEnable, firstBad, Nat.not_le.mpr hbad]

end Enable

/-! ## Coefficients (R277) -/

/-- The parameters of a FILT_LOAD_COEF name taps of a stage, and each coefficient is an s18. -/
structure CoefsValid (p : List Byte) : Prop where
  chain : fld p 0 1 ≤ 31
  stage : fld p 1 1 ≤ 2
  count : 1 ≤ fld p 4 2
  fit : fld p 2 2 + fld p 4 2 ≤ 256
  range : ∀ i < fld p 4 2, -131072 ≤ sfld p (8 + 4 * i) 4 ∧ sfld p (8 + 4 * i) 4 ≤ 131071

/-- No swap of the chain waits, and none is still to be reported. -/
theorem doFiltLoadCoef_ok {c : Cmd} {s : State} (hvalid : CoefsValid c.params)
    (hswap : (s.chain (fld c.params 0 1)).swap = none) (howed : ∀ m ∈ s.filt.owed, bit m (fld c.params 0 1) = false) :
    doFiltLoadCoef c s = .ok (s.setChain (fld c.params 0 1) { s.chain (fld c.params 0 1) with
      load := (List.range (fld c.params 4 2)).foldl (fun m i =>
        kvSet 0 m (fld c.params 1 1 * 256 + fld c.params 2 2 + i) (sfld c.params (8 + 4 * i) 4))
        (s.chain (fld c.params 0 1)).load }) := by
  obtain ⟨hchain, hstage, hcount, hfit, hrange⟩ := hvalid
  have hfirst : fld c.params 2 2 ≤ 255 := by omega
  have hmax : fld c.params 4 2 ≤ 256 := by omega
  have hfree : ¬ ((s.chain (fld c.params 0 1)).swap.isSome || s.filt.owed.any (bit · (fld c.params 0 1))) = true := by
    simpa [hswap] using howed
  rw [doFiltLoadCoef, firstBad_eq_none.mpr]
  · exact if_neg hfree
  · simpa [hchain, hstage, hcount, hfit, hfirst, hmax] using hrange

/-! ## Swaps (R267, R277) -/

theorem coefRecords_ne_nil (c : Cmd) (s : State) : coefRecords c s ≠ [] :=
  List.append_ne_nil_of_right_ne_nil _ (List.cons_ne_nil _ _)

theorem doFiltApply_ok {c : Cmd} {s : State} (hnew : s.chainsTaken (fld c.params 0 4) (fld c.params 8 8) = false) :
    doFiltApply c s = .ok (s.swapFilters (fld c.params 0 4) (fld c.params 8 8)) := by
  simp [doFiltApply, hnew]

/-- While no schedule is live a swap is made at once, and takes its chains out of the swaps that wait. -/
theorem swapFilters_idle {s : State} (mask idx : Nat) (hidle : s.schedLive = false) :
    s.swapFilters mask idx = (s.mapFilt fun f => { f with
      applies := (f.applies.map fun m => m - (m &&& mask)).filter (· ≠ 0) }).finishFilters mask := by
  rw [State.swapFilters, hidle]
  rfl

/-! ## Syncs and the report (R276, R278) -/

section Sync
variable {c : Cmd} {s : State}

theorem doFiltSync_ok (hroom : s.filt.syncs.length + (s.er.raised.filter (·.producer = 187)).length < 16) :
    doFiltSync c s = .ok (s.raiseEvent 187 (fld c.params 0 8) 0) :=
  if_neg (Nat.not_le.mpr hroom)

theorem doFiltSync_full (hfull : 16 ≤ s.filt.syncs.length + (s.er.raised.filter (·.producer = 187)).length) :
    doFiltSync c s = .fail stResource s :=
  if_pos hfull

end Sync

theorem doFiltGetChain_ok {c : Cmd} (s : State) (hchain : fld c.params 0 1 ≤ 31) :
    ∃ rest, doFiltGetChain c s = .okWith
      (beBytes 1 (if !s.chainOn (s.chain (fld c.params 0 1)) then 0
          else if (s.chain (fld c.params 0 1)).warm &&
            (s.chain (fld c.params 0 1)).onUntil (s.chainFront (s.chain (fld c.params 0 1))) then 2 else 1) ++
        beBytes 1 (s.chain (fld c.params 0 1)).stages.length ++ beBytes 1 (s.chain (fld c.params 0 1)).series ++ rest) s := by
  simp only [doFiltGetChain, if_neg (Nat.not_lt.mpr hchain), List.append_assoc]
  exact ⟨_, rfl⟩

/-! ## The claim -/

/-- Settles O23: a configuration and a swap are journalled, and each command's body does as claimed once its checks pass. What
a second apply does inside a swap, and that a chain nobody has configured can be enabled, are the model's reading (log entry
25), and so is it that the index of an apply is judged by the samples of the chains' channels (log entry 79). -/
theorem filterCommandsAct : Obligations.FilterCommandsAct := by
  unfold Obligations.FilterCommandsAct
  refine ⟨?config, ?busy, ?enableNow, ?enableFrom, ?enableBad, ?sync, ?syncFull, ?load, ?applyNow, ?applyFrom, ?report⟩
  case config =>
    refine setsJournalled_of (fun _ _ => rfl) rfl (ownRecord_ne_nil _) fun c u hgood => ?_
    simp only [Bool.and_eq_true, Bool.or_eq_true, decide_eq_true_eq, Bool.not_eq_true', Option.isNone_iff_eq_none] at hgood
    obtain ⟨⟨⟨hchecks, hoff⟩, hmacs⟩, hcarried⟩ := hgood
    exact doFiltSetChain_ok hchecks hoff (hmacs.imp_left Option.isNone_iff_eq_none.mpr) hcarried
  case busy =>
    refine rejects_fail (fun _ _ => rfl) (by decide) fun c u hgood => ?_
    rw [Bool.and_eq_true, Option.isNone_iff_eq_none] at hgood
    obtain ⟨hchecks, hon⟩ := hgood
    exact doFiltSetChain_on hchecks hon
  case enableNow =>
    refine sets_of (fun _ _ => rfl) (fun _ _ => rfl) (by decide) fun c u hgood => ?_
    simp only [Bool.and_eq_true, Bool.or_eq_true, decide_eq_true_eq, Bool.not_eq_true'] at hgood
    obtain ⟨⟨hvalid, hcarried⟩, hidle⟩ := hgood
    have hnotLive : ¬ u.schedLive = true := by simp [hidle]
    exact (doFiltEnable_ok hvalid hcarried (chainsTaken_idle _ _ hidle)).trans (congrArg Res.ok (if_neg hnotLive))
  case enableFrom =>
    refine sets_of (fun _ _ => rfl) (fun _ _ => rfl) (by decide) fun c u hgood => ?_
    simp only [Bool.and_eq_true, Bool.or_eq_true, decide_eq_true_eq, Bool.not_eq_true'] at hgood
    obtain ⟨⟨⟨hvalid, hcarried⟩, hlive⟩, hnew⟩ := hgood
    exact (doFiltEnable_ok hvalid hcarried hnew).trans (congrArg Res.ok (if_pos hlive))
  case enableBad =>
    refine rejects_of (fun _ _ => rfl) fun c u hgood => ?_
    exact doFiltEnable_bad (of_decide_eq_true hgood)
  case sync =>
    refine sets_of (fun _ _ => rfl) (fun _ _ => rfl) (by decide) fun c u hgood => ?_
    exact doFiltSync_ok (of_decide_eq_true hgood)
  case syncFull =>
    refine executes_fail (fun _ _ => rfl) (by decide) fun c u hgood => ?_
    exact doFiltSync_full (of_decide_eq_true hgood)
  case load =>
    refine sets_of (fun _ _ => rfl) (fun _ _ => rfl) (by decide) fun c u hgood => ?_
    simp only [Bool.and_eq_true, List.all_eq_true, List.mem_range, decide_eq_true_eq, Bool.not_eq_true'] at hgood
    obtain ⟨⟨⟨hchain, hstage, hcount, hfit, hswap⟩, howed⟩, hrange⟩ := hgood
    exact doFiltLoadCoef_ok ⟨hchain, hstage, hcount, hfit, hrange⟩ hswap howed
  case applyNow =>
    refine setsJournalled_of (fun _ _ => rfl) rfl coefRecords_ne_nil fun c u hgood => ?_
    have hidle : u.schedLive = false := by simpa using hgood
    exact (doFiltApply_ok (chainsTaken_idle _ _ hidle)).trans (congrArg Res.ok (swapFilters_idle _ _ hidle))
  case applyFrom =>
    refine setsJournalled_of (fun _ _ => rfl) rfl coefRecords_ne_nil fun c u hgood => ?_
    simp only [Bool.and_eq_true, Bool.not_eq_true'] at hgood
    obtain ⟨-, hnew⟩ := hgood
    exact doFiltApply_ok hnew
  case report =>
    refine reads_of (fun _ _ => rfl) (fun _ _ => rfl) (by decide) fun c u hgood => ?_
    exact doFiltGetChain_ok u (of_decide_eq_true hgood)

end Sys2Proof.Machine
end

section
/-! What storing bytes and raising events leave of Quartz: nothing of it changes, whatever the record of an event falls on
(R371, R424, R454). -/

namespace Sys2Proof.Machine

/-! ## Bytes stored in memory (R176, R424, R448) -/

section Bytes
variable (s : State)

/-- Where each step of a fold keeps Quartz, the fold does. -/
theorem foldl_qz {σ β : Type} (g : σ → State) {f : σ → β → σ} (hstep : ∀ x b, (g (f x b)).qz = (g x).qz) (l : List β)
    (x : σ) : (g (l.foldl f x)).qz = (g x).qz :=
  List.foldlRecOn l f (motive := fun y => (g y).qz = (g x).qz) rfl fun y hy b _ => (hstep y b).trans hy

@[simp] theorem grant_qz (req : Nat) : (s.grant req).qz = s.qz := rfl
@[simp] theorem errResp_qz : s.errResp.qz = s.qz := rfl
@[simp] theorem decErr_qz (req addr : Nat) (write : Bool) : (s.decErr req addr write).qz = s.qz := rfl
@[simp] theorem bumpHc_qz (h : Nat) (f : HbmCtl → HbmCtl) : (s.bumpHc h f).qz = s.qz := rfl
@[simp] theorem countWrite_qz (unit : Nat) : (s.countWrite unit).qz = s.qz := rfl
@[simp] theorem unitWritten_qz (o n : Nat) : (s.unitWritten o n).qz = s.qz := rfl

@[simp] theorem msix_qz (v : Nat) : (s.msix v).qz = s.qz := by
  unfold State.msix
  split <;> rfl

@[simp] theorem touchResiduals_qz (off len : Nat) : (s.touchResiduals off len).qz = s.qz := by
  unfold State.touchResiduals
  dsimp only
  split <;> rfl

/-- What stores a byte in an area keeps Quartz, where it stores one. -/
structure AreaWriterQz (store : State → Nat → Nat → Byte → Option State) : Prop where
  keeps (s : State) (c x : Nat) (v : Byte) : ∀ t ∈ store s c x v, t.qz = s.qz

/-- `areaStore` is taken apart as in `areaWriterKeeps_areaStore`, and for its reason. -/
theorem areaWriterQz_areaStore : AreaWriterQz State.areaStore := by
  delta State.areaStore
  constructor
  intro s c x v t ht
  replace ht := Option.mem_def.mp ht
  with_reducible conv at ht => lhs; whnf
  generalize s.layout.areaByte x = place at ht
  cases place with
  | plain => cases ht
  | corner _ | header _ => exact Option.some.inj ht ▸ rfl
  | acc _ _ | log _ _ _ =>
    obtain ⟨_, -, rfl⟩ := Option.map_eq_some_iff.mp ht
    exact (apply_ite State.qz _ _ _).trans (ite_self s.qz)
  | input _ _ | record _ _ =>
    dsimp only at ht
    repeat' split at ht
    all_goals cases ht
    all_goals rfl

theorem hbmStoreGo_qz (bs : List Byte) (o : Nat) : (State.hbmStore.go s o bs).qz = s.qz := by
  induction bs generalizing s o with
  | nil => rfl
  | cons b t ih =>
    unfold State.hbmStore.go
    dsimp only
    split
    · split <;> exact (ih _ _).trans rfl
    · refine (ih _ _).trans ?_
      split
      · next c x _ =>
        cases harea : s.areaStore c x b with
        | none => rfl
        | some u => exact areaWriterQz_areaStore.keeps s c x b u harea
      · rfl

@[simp] theorem hbmStore_qz (off : Nat) (bs : List Byte) : (s.hbmStore off bs).qz = s.qz :=
  (hbmStoreGo_qz _ bs off).trans (touchResiduals_qz s off bs.length)

@[simp] theorem scramble_qz (off len : Nat) : (s.scramble off len).qz = s.qz := hbmStore_qz _ off _

@[simp] theorem hbmWrite_qz (off : Nat) (bs : List Byte) : (s.hbmWrite off bs).qz = s.qz :=
  foldl_qz id (fun u _ => hbmStore_qz (u.unitWritten _ _) _ _) _ s

@[simp] theorem sramStore_qz (off : Nat) (bs : List Byte) : (s.sramStore off bs).qz = s.qz := by
  have hmail (t : State) : (State.sawMail s t).qz = t.qz := foldl_qz id (fun u h => by dsimp only [id]; split <;> rfl) _ t
  unfold State.sramStore
  dsimp only
  split
  · exact hmail _
  · rfl

end Bytes

/-! ## Queues and events (R371, R454) -/

/-- A writer of pieces that keeps Quartz. -/
def PieceWriter.KeepsQz (w : PieceWriter) : Prop := ∀ s addr bs, (w s addr bs).1.qz = s.qz

section Writer
variable {w : PieceWriter} (hw : w.KeepsQz) (s : State)
include hw

theorem putBytesBy_qz (addr : Nat) (bs : List Byte) : (s.putBytesBy w addr bs).1.qz = s.qz := by
  unfold State.putBytesBy
  split
  · rfl
  · refine foldl_qz Prod.fst ?_ _ (s, true)
    intro x c
    exact hw (x.1.grant 4) c.1 (slice bs (c.1 - addr) c.2)

theorem writeBackBy_qz (qn idx : Nat) : (s.writeBackBy w qn idx).qz = s.qz := by
  unfold State.writeBackBy
  dsimp only
  repeat' split
  all_goals simp [putBytesBy_qz hw]

theorem pushOrDropBy_qz (qn kind : Nat) (bs : List Byte) : (s.pushOrDropBy w qn kind bs).1.qz = s.qz := by
  have hpush : (s.pushBy w qn kind bs).1.qz = s.qz := by
    unfold State.pushBy
    dsimp only
    repeat' split
    all_goals simp [putBytesBy_qz hw, writeBackBy_qz hw]
  unfold State.pushOrDropBy
  split
  all_goals next hpushed => rw [hpushed] at hpush; exact hpush

omit s in
theorem qz_of_pushOrDropBy {s u : State} {qn kind : Nat} {bs : List Byte} {ok : Bool}
    (h : s.pushOrDropBy w qn kind bs = (u, ok)) : u.qz = s.qz := by
  have hpush := pushOrDropBy_qz hw s qn kind bs
  rwa [h] at hpush

theorem raiseEventBy_qz (p index arg : Nat) (time : Option Instant) (late : Bool) :
    (s.raiseEventBy w p index arg time late).qz = s.qz := by
  unfold State.raiseEventBy
  dsimp only
  split
  · rfl
  · split
    · next hpush =>
      have hpushed := qz_of_pushOrDropBy hw hpush
      exact hpushed
    · next u hpush =>
      have hpushed := qz_of_pushOrDropBy hw hpush
      exact (apply_ite State.qz _ _ _).trans ((ite_self u.qz).trans hpushed)

end Writer

/-! ## Memory errors, and pieces that meet them (R436, R444 to R448) -/

section Pieces
variable (s : State)

theorem putBlind_qz : PieceWriter.KeepsQz putBlind := by
  intro s addr bs
  unfold putBlind
  split
  · split <;> simp
  · split <;> simp
  · split <;> simp
  · rfl

@[simp] theorem logMemErr_qz (kind stack pc req words : Nat) (write : Bool) (addr : Nat) :
    (s.logMemErr kind stack pc req words write addr).qz = s.qz := by
  unfold State.logMemErr
  dsimp only
  repeat' split
  all_goals simp [raiseEventBy_qz putBlind_qz, pushOrDropBy_qz putBlind_qz]

@[simp] theorem addCandidate_qz (off : Nat) : (s.addCandidate off).qz = s.qz := by
  unfold State.addCandidate
  dsimp only
  split <;> rfl

@[simp] theorem meetParity_qz (req unit : Nat) (write : Bool) : (s.meetParity req unit write).1.qz = s.qz := by
  unfold State.meetParity
  dsimp only
  repeat' split
  all_goals simp

@[simp] theorem readHbmUnit_qz (req unit : Nat) (write : Bool) : (s.readHbmUnit req unit write).1.qz = s.qz := by
  unfold State.readHbmUnit
  dsimp only
  repeat' split
  all_goals simp

@[simp] theorem writeUnit_qz (req o n : Nat) : (s.writeUnit req o n).1.qz = s.qz := by
  unfold State.writeUnit
  dsimp only
  repeat' split
  all_goals simp

@[simp] theorem storeUnit_qz (req o : Nat) (bs : List Byte) : (s.storeUnit req o bs).1.qz = s.qz := by
  unfold State.storeUnit
  dsimp only
  repeat' split
  all_goals simp

theorem storePiece_qz (req off : Nat) (bs : List Byte) : (s.storePiece req off bs).1.qz = s.qz := by
  unfold State.storePiece
  dsimp only
  generalize hfold : List.foldl _ ((s, []) : State × List Nat) _ = stored
  have hstored : stored.1.qz = s.qz := by
    rw [← hfold]
    refine foldl_qz Prod.fst ?_ _ (s, [])
    intro x c
    exact storeUnit_qz x.1 req c.1 (slice bs (c.1 - off) c.2)
  split
  · exact hstored
  · exact (foldl_qz id (fun u o => scramble_qz u o 32) _ stored.1).trans hstored

theorem putPiece_qz : PieceWriter.KeepsQz putPiece := by
  intro s addr bs
  unfold putPiece
  split
  · split
    · exact storePiece_qz s 4 _ bs
    · rfl
  · exact putBlind_qz s addr bs

@[simp] theorem raiseEvent_qz (p index arg : Nat) (time : Option Instant) (late : Bool) :
    (s.raiseEvent p index arg time late).qz = s.qz := raiseEventBy_qz putPiece_qz s p index arg time late

@[simp] theorem raise_qz (p arg : Nat) : (s.raise p arg).qz = s.qz := raiseEvent_qz s p noIndex arg none false

end Pieces

end Sys2Proof.Machine
end

section
/-! Quartz's own operations (R279 to R284, R306 to R310): what the causes, the vote, the steps and the tick leave, said once.
Then TIME_SET_SOURCE, TIME_SET, TIME_RESYNC and TIME_GET_STATUS, from which the claim of O24 is put together. -/

namespace Sys2Proof.Machine

/-! ## Bits of flag words -/

theorem bit_add_two_pow_self (n i : Nat) : bit (n + 2 ^ i) i = !bit n i := by
  have hpos : 0 < 2 ^ i := Nat.two_pow_pos i
  unfold bit
  rw [Nat.add_div_right n hpos]
  rcases Nat.mod_two_eq_zero_or_one (n / 2 ^ i) with h | h <;> simp [Nat.add_mod, h]

theorem bit_withBit_true (n i : Nat) : bit (withBit n i true) i = true := by
  unfold withBit
  split
  · assumption
  · next hclear => simpa [bit_add_two_pow_self] using hclear

/-! ## Skipped pulses (R292, R309) -/

section Pulses
variable (s : State)

theorem skipPulses_fold (l : List Nat) (t : Nat) (s : State) :
    ∃ pulses n, l.foldl (fun u g =>
      let (p, n) := (u.pulse g).skipTo t
      (u.setPulse g p).mapQz fun q => { q with skippedPulses := q.skippedPulses + n }) s =
        s.mapQz fun q => { q with pulses := pulses, skippedPulses := n } := by
  induction l generalizing s with
  | nil => exact ⟨s.qz.pulses, s.qz.skippedPulses, rfl⟩
  | cons g l ih =>
    obtain ⟨pulses, n, h⟩ := ih ((s.setPulse g ((s.pulse g).skipTo t).1).mapQz fun q =>
      { q with skippedPulses := q.skippedPulses + ((s.pulse g).skipTo t).2 })
    exact ⟨pulses, n, h⟩

/-- Skipping pulses moves the generators and their count alone. -/
theorem skipPulses_eq (t : Nat) :
    ∃ pulses n, s.skipPulses t = s.mapQz fun q => { q with pulses := pulses, skippedPulses := n } :=
  skipPulses_fold (List.range 8) t s

/-- A step shifts the three replicas and is counted; the generators skip what it passes. -/
theorem stepTime_qz (units : Int) : ∃ pulses n, (s.stepTime units).qz = { s.qz with
    r0 := s.qz.r0.shift units, r1 := s.qz.r1.shift units, r2 := s.qz.r2.shift units, steps := s.qz.steps + 1,
    pulses := pulses, skippedPulses := n } := by
  unfold State.stepTime
  dsimp only
  generalize hstep : s.mapQz _ = u
  obtain ⟨pulses, n, hskip⟩ := skipPulses_eq u u.now
  refine ⟨pulses, n, ?_⟩
  rw [raise_qz, hskip, ← hstep]
  rfl

theorem stepTime_source (units : Int) : (s.stepTime units).qz.source = s.qz.source := by
  obtain ⟨_, _, hqz⟩ := stepTime_qz s units
  rw [hqz]

end Pulses

/-! ## TIME_RESYNC (R320) -/

section Resync
variable (s : State)

/-- The replica that a resync copies: a source from 3 on stands for zero time under the adjustment in use. -/
def State.resyncSource (src : Nat) : Replica :=
  if src = 0 then s.qz.r0 else if src = 1 then s.qz.r1 else if src = 2 then s.qz.r2 else { s.qz.r0 with time := 0 }

/-- The copy alone, before pulses are skipped and the step is raised. -/
def State.copied (r : Replica) : State :=
  s.mapQz fun q => { q with r0 := { time := r.time, adj := r.adj }, r1 := { time := r.time, adj := r.adj },
                            r2 := { time := r.time, adj := r.adj }, resync := none, steps := q.steps + 1,
                            agreedAt := if q.held then some s.ns else q.agreedAt, heldSec := none }

theorem resyncTick_leaves (src : Nat) : ∃ pulses n, ∃ u, u = (if src = 3 then (s.copied (s.resyncSource src)).setCause 0
      else s.copied (s.resyncSource src)) ∧
    (s.resyncTick src).qz = { u.qz with pulses := pulses, skippedPulses := n } ∧ (s.resyncTick src).tile = u.tile := by
  generalize hu : (if src = 3 then (s.copied (s.resyncSource src)).setCause 0 else s.copied (s.resyncSource src)) = u
  obtain ⟨pulses, n, hskip⟩ := skipPulses_eq u u.now
  have htick : ∃ x, s.resyncTick src = (u.skipPulses u.now).raise 170 x := ⟨_, by rw [← hu]; rfl⟩
  obtain ⟨x, htick⟩ := htick
  refine ⟨pulses, n, u, rfl, ?_, ?_⟩
  · rw [htick, raise_qz, hskip]
    rfl
  · rw [htick, (keeps_raise _ 170 x).tile, hskip]
    rfl

/-- What a resync leaves and the rest of its tick does not touch: the copies, the count, no resync waiting, the tiles. -/
structure Resynced (s t : State) (r : Replica) : Prop where
  r0 : t.qz.r0 = { time := r.time, adj := r.adj }
  r1 : t.qz.r1 = t.qz.r0
  r2 : t.qz.r2 = t.qz.r0
  steps : t.qz.steps = s.qz.steps + 1
  resync : t.qz.resync = none
  tile : t.tile = s.tile

theorem resyncTick_resynced (src : Nat) : Resynced s (s.resyncTick src) (s.resyncSource src) := by
  obtain ⟨pulses, n, u, hu, hqz, htile⟩ := resyncTick_leaves s src
  by_cases hthree : src = 3
  · rw [if_pos hthree] at hu
    subst hu
    constructor <;> simp only [hqz, htile] <;> rfl
  · rw [if_neg hthree] at hu
    subst hu
    constructor <;> simp only [hqz, htile] <;> rfl

/-- Source 3 sets NOT_SET. -/
theorem resyncTick_notSet : bit (s.resyncTick 3).qz.causes 0 = true := by
  obtain ⟨pulses, n, u, hu, hqz, -⟩ := resyncTick_leaves s 3
  rw [hqz, hu]
  exact bit_withBit_true _ 0

/-! ## The tick (R279, R284) -/

/-- One more nanosecond, in every replica. -/
def State.advancedTick : State :=
  { s with ns := s.ns + 1, qz := { s.qz with r0 := s.qz.r0.tick, r1 := s.qz.r1.tick, r2 := s.qz.r2.tick } }

/-- What ends a tick: NO_MAJORITY clears once two replicas have agreed for a second. -/
def State.agreedOn : State :=
  match s.qz.agreedAt with
  | some t => if s.majority && t + 1000000000 ≤ s.ns then (s.clearCause 1).mapQz fun q => { q with agreedAt := none } else s
  | none => s

theorem tick_resync {s : State} {src : Nat} (h : s.qz.resync = some src) :
    s.tick = (s.advancedTick.resyncTick src).agreedOn := by
  have hwait : s.advancedTick.qz.resync = some src := h
  have htick : s.tick = State.agreedOn (match s.advancedTick.qz.resync with
    | some src => s.advancedTick.resyncTick src | none => s.advancedTick) := rfl
  rw [htick, hwait]

theorem agreedOn_cases :
    s.agreedOn = s ∨ s.agreedOn = (s.clearCause 1).mapQz fun q => { q with agreedAt := none } := by
  unfold State.agreedOn
  split
  · split
    · exact .inr rfl
    · exact .inl rfl
  · exact .inl rfl

theorem Resynced.agreedOn {s t : State} {r : Replica} (h : Resynced s t r) : Resynced s t.agreedOn r := by
  rcases agreedOn_cases t with hsame | hcleared
  · rwa [hsame]
  · rw [hcleared]
    exact ⟨h.r0, h.r1, h.r2, h.steps, h.resync, h.tile⟩

theorem bit_zero_clear_one (n : Nat) : bit (withBit n 1 false) 0 = bit n 0 := by
  unfold withBit
  split
  · rfl
  · next hset =>
    simp only [bit, decide_eq_false_iff_not, Decidable.not_not] at hset
    simp only [bit, decide_eq_decide, Bool.false_eq_true, if_false]
    omega

theorem agreedOn_notSet : bit s.agreedOn.qz.causes 0 = bit s.qz.causes 0 := by
  rcases agreedOn_cases s with hsame | hcleared
  · rw [hsame]
  · rw [hcleared]
    exact bit_zero_clear_one _

/-- The tick that follows a TIME_RESYNC makes its copy. -/
theorem tick_resynced {s : State} {src : Nat} (h : s.qz.resync = some src) :
    Resynced s s.tick (s.advancedTick.resyncSource src) := by
  rw [tick_resync h]
  obtain ⟨hr0, hr1, hr2, hsteps, hresync, htile⟩ := (resyncTick_resynced s.advancedTick src).agreedOn
  exact ⟨hr0, hr1, hr2, hsteps, hresync, htile⟩

theorem tick_notSet {s : State} (h : s.qz.resync = some 3) : bit s.tick.qz.causes 0 = true := by
  rw [tick_resync h, agreedOn_notSet]
  exact resyncTick_notSet _

end Resync

/-! ## TIME_SET_SOURCE (R311) -/

/-- The parameters of a TIME_SET_SOURCE pass the checks of R311. -/
structure SourceValid (p : List Byte) : Prop where
  ref : fld p 0 1 ≤ 1
  mode : fld p 1 1 ≤ 2
  edge : fld p 2 1 ≤ 1
  step : 100 ≤ fld p 8 4 ∧ fld p 8 4 ≤ 1000000000
  suspect : 10 ≤ fld p 12 4 ∧ fld p 12 4 ≤ 1000000000
  bandwidth : 10 ≤ fld p 16 2 ∧ fld p 16 2 ≤ 1000
  holdover : 1 ≤ fld p 18 2
  adj : (toSigned 40 (fld p 20 5)).natAbs ≤ 2 ^ 38

/-- The source as a TIME_SET_SOURCE gives it. -/
def Source.commanded (p : List Byte) : Source := {
  ref := fld p 0 1, mode := fld p 1 1, falling := decide (fld p 2 1 = 1), ppsDelay := sfld p 4 4,
  stepNs := fld p 8 4, suspectNs := fld p 12 4, bwMhz := fld p 16 2, holdoverS := fld p 18 2,
  freeAdj := toSigned 40 (fld p 20 5) }

section WithSource
variable (s : State) (src : Source)

/-- Another reference is not locked to yet (R282). -/
def State.withRef : State :=
  if src.ref = s.qz.source.ref then s.mapQz fun q => { q with source := src }
  else (s.mapQz fun q => { q with source := src }).mapQz fun q =>
    { q with pllLock := false, refLostAt := if q.refLostAt.isSome then q.refLostAt else some s.ns }

/-- Another mode begins its discipline anew (R283). -/
def State.inMode (old new ns : Nat) : State :=
  if new = old then s
  else s.mapQz fun q => { q with disc := if new = 0 then 0 else 1, good := 0, rejected := 0, discLostAt := none,
                                 lastPpsAt := ns, ptp := { q.ptp with ex := { q.ptp.ex with syncAt := ns } } }

/-- Without discipline every replica runs at the commanded adjustment. -/
def State.freed : State := if src.mode = 0 then s.setAdj src.freeAdj else s

def State.withSource : State := ((s.withRef src).inMode s.qz.source.mode src.mode s.ns).freed src

theorem doTimeSetSource_ok {c : Cmd} (hvalid : SourceValid c.params) :
    doTimeSetSource c s = .ok (s.withSource (.commanded c.params)) := by
  obtain ⟨href, hmode, hedge, hstep, hsuspect, hbandwidth, hholdover, hadj⟩ := hvalid
  rw [doTimeSetSource, firstBad_eq_none.mpr]
  · rfl
  · simpa [href, hmode, hedge, hstep, hsuspect, hbandwidth, hholdover] using hadj

theorem withRef_eq : s.withRef src = { s with qz := { s.qz with
    source := src, pllLock := (s.withRef src).qz.pllLock, refLostAt := (s.withRef src).qz.refLostAt } } := by
  unfold State.withRef
  split <;> rfl

theorem withRef_unlocked (hother : src.ref ≠ s.qz.source.ref) : (s.withRef src).qz.pllLock = false := by
  rw [State.withRef, if_neg hother]
  rfl

theorem inMode_eq (old new ns : Nat) : s.inMode old new ns = { s with qz := { (s.inMode old new ns).qz with
    source := s.qz.source, pllLock := s.qz.pllLock,
    disc := if new = old then s.qz.disc else if new = 0 then 0 else 1 } } := by
  unfold State.inMode
  split <;> rfl

theorem freed_eq : s.freed src = { s with qz := { (s.freed src).qz with
    source := s.qz.source, pllLock := s.qz.pllLock, disc := s.qz.disc } } := by
  unfold State.freed
  split <;> rfl

theorem withSource_eq : s.withSource src = { s with qz := (s.withSource src).qz } := by
  rw [State.withSource, freed_eq, inMode_eq, withRef_eq]

theorem withSource_source : (s.withSource src).qz.source = src := by
  rw [State.withSource, freed_eq, inMode_eq, withRef_eq]

theorem withSource_disc : (s.withSource src).qz.disc =
    if src.mode = s.qz.source.mode then s.qz.disc else if src.mode = 0 then 0 else 1 := by
  rw [State.withSource, freed_eq, inMode_eq, withRef_eq]

theorem withSource_unlocked (hother : src.ref ≠ s.qz.source.ref) : (s.withSource src).qz.pllLock = false := by
  rw [State.withSource, freed_eq, inMode_eq]
  exact withRef_unlocked s src hother

theorem withSource_adj (hfree : src.mode = 0) : (s.withSource src).qz.r0.adj = src.freeAdj ∧
    (s.withSource src).qz.r1.adj = src.freeAdj ∧ (s.withSource src).qz.r2.adj = src.freeAdj := by
  rw [State.withSource, State.freed, if_pos hfree]
  exact ⟨rfl, rfl, rfl⟩

end WithSource

/-! ## TIME_SET, TIME_RESYNC and TIME_GET_STATUS (R312, R320, R321) -/

section Commands
variable {c : Cmd} {s : State}

section TimeSet
variable (hinstant : fld c.params 6 4 ≤ 999999999)
include hinstant

theorem doTimeSet_atEdge (hedge : fld c.params 12 1 = 1) (hmode : s.qz.source.mode ≠ 2) :
    doTimeSet c s = .ok (s.mapQz fun q => { q with pendingSet := some (instantAt c.params 0).units }) := by
  simp [doTimeSet, firstBad, Instant.ok, instantAt, hinstant, hedge, hmode]

theorem doTimeSet_atOnce (hnow : fld c.params 12 1 = 0) (hmode : s.qz.source.mode ≠ 2) :
    doTimeSet c s = .ok (((s.stepTime (((instantAt c.params 0).units : Int) - s.now)).clearCause 0).mapQz fun q =>
      { q with pendingSet := none }) := by
  simp [doTimeSet, firstBad, Instant.ok, instantAt, hinstant, hnow, hmode]

/-- PTP sets the time itself (R312). -/
theorem doTimeSet_ptp (hwhen : fld c.params 12 1 ≤ 1) (hmode : s.qz.source.mode = 2) :
    doTimeSet c s = .fail stBusy s := by
  simp [doTimeSet, firstBad, Instant.ok, instantAt, hinstant, hwhen, hmode]

end TimeSet

theorem doTimeResync_ok (hsource : fld c.params 0 1 ≤ 3) :
    doTimeResync c s = .ok (s.mapQz fun q => { q with resync := some (fld c.params 0 1) }) :=
  if_neg (Nat.not_lt.mpr hsource)

theorem doTimeResync_bad (hsource : 3 < fld c.params 0 1) : doTimeResync c s = .bad 0 s := if_pos hsource

theorem doTimeGetStatus_ok (c : Cmd) (s : State) : ∃ rest, doTimeGetStatus c s = .okWith
    (beBytes 8 s.qzStatus ++ beBytes 1 s.qz.causes ++ beBytes 1 (s.qz.ptp.slave.getD 0xFF) ++ rest) s := by
  simp only [doTimeGetStatus, List.append_assoc]
  exact ⟨_, rfl⟩

end Commands

/-! ## The claim -/

/-- Settles O24: each command's body does as claimed once its checks pass, and the tick after a TIME_RESYNC makes its copy. -/
theorem timeSourceCommandsAct : Obligations.TimeSourceCommandsAct := by
  unfold Obligations.TimeSourceCommandsAct
  refine ⟨?source, ?edge, ?now, ?ptp, ?resync, ?copy, ?unset, ?bad, ?report⟩
  case source =>
    refine journalled_ok (fun _ _ => rfl) rfl (ownRecord_ne_nil _) fun c u hgood => ?_
    obtain ⟨href, hmode, hedge, hstep1, hstep2, hsus1, hsus2, hbw1, hbw2, hhold, hadj⟩ := of_decide_eq_true hgood
    refine ⟨_, doTimeSetSource_ok u ⟨href, hmode, hedge, ⟨hstep1, hstep2⟩, ⟨hsus1, hsus2⟩, ⟨hbw1, hbw2⟩, hhold, hadj⟩,
      rfl, rfl, withSource_eq .., withSource_source .., withSource_adj u (.commanded c.params), fun hmoved => ?_,
      fun hsame => ?_, withSource_unlocked u (.commanded c.params)⟩
    · exact (withSource_disc ..).trans (if_neg hmoved)
    · exact (withSource_disc ..).trans (if_pos hsame)
  case edge =>
    refine sets_of (fun _ _ => rfl) (fun _ _ => rfl) (by decide) fun c u hgood => ?_
    obtain ⟨hinstant, hedge, hmode⟩ := of_decide_eq_true hgood
    exact doTimeSet_atEdge hinstant hedge hmode
  case now =>
    refine sets_of (fun _ _ => rfl) (fun _ _ => rfl) (by decide) fun c u hgood => ?_
    obtain ⟨hinstant, hnow, hmode⟩ := of_decide_eq_true hgood
    exact doTimeSet_atOnce hinstant hnow hmode
  case ptp =>
    refine executes_fail (fun _ _ => rfl) (by decide) fun c u hgood => ?_
    obtain ⟨hinstant, hwhen, hmode⟩ := of_decide_eq_true hgood
    exact doTimeSet_ptp hinstant hwhen hmode
  case resync =>
    refine sets_of (fun _ _ => rfl) (fun _ _ => rfl) (by decide) fun c u hgood => ?_
    exact doTimeResync_ok (of_decide_eq_true hgood)
  case copy =>
    intro s src hwait hsrc
    obtain ⟨hr0, hr1, hr2, hsteps, hresync, htile⟩ := tick_resynced hwait
    have hsource : s.advancedTick.resyncSource src =
        (if src = 0 then s.qz.r0 else if src = 1 then s.qz.r1 else s.qz.r2).tick := by
      obtain rfl | rfl | rfl : src = 0 ∨ src = 1 ∨ src = 2 := by omega
      all_goals rfl
    exact ⟨hsource ▸ hr0, hr1, hr2, hsteps, hresync, htile⟩
  case unset =>
    intro s hwait
    obtain ⟨hr0, hr1, hr2, hsteps, hresync, -⟩ := tick_resynced hwait
    exact ⟨hr0, hr1, hr2, tick_notSet hwait, hsteps, hresync⟩
  case bad =>
    refine rejects_of (fun _ _ => rfl) fun c u hgood => ?_
    exact doTimeResync_bad (of_decide_eq_true hgood)
  case report =>
    refine reads_of (fun _ _ => rfl) (fun _ _ => rfl) (by decide) fun c u _ => ?_
    exact doTimeGetStatus_ok c u

end Sys2Proof.Machine
end

section
/-! What TIME_SET_PTP, TIME_SET_PTP_PORT, TIME_SET_PULSE and TIME_SET_EVT do, command by command (R290 to R294, R313 to R315).
The claim of O25 is put together from them. -/

namespace Sys2Proof.Machine

/-! ## Commands that have not waited for a journal group (R140, R291) -/

theorem judged_unaccepted {s u : State} {row : OpRow} {c : Cmd} {n : Nat} {params : List Byte}
    (h : s.judged row c n = .ok (u, params)) : u.own.accepted = false := by
  unfold State.judged at h
  dsimp only at h
  iterate 5
    split at h
    · cases h
  cases h
  unfold State.renewed
  split <;> rfl

/-- A command that is executed at once makes its tests of index and time. -/
theorem takes_unaccepted {s : State} {spec : OpSpec} {c : Cmd} {k : Taken} (h : s.takes spec c = some k) :
    k.at_.own.accepted = false := by
  unfold State.takes at h
  dsimp only at h
  split at h
  · split at h
    · obtain ⟨-, -, params, -, hjudged, -, -⟩ := checked_spec h
      exact judged_unaccepted hjudged
    · cases h
  · cases h

theorem executes_of_unaccepted {i : Cmd → Instr} {spec : OpSpec} {good : Cmd → State → Bool}
    {holds : Cmd → State → Res → Prop} (h : Executes i spec (fun c u => good c u && !u.own.accepted) holds) :
    Executes i spec good holds := by
  intro s c k htakes hgood
  exact h s c k htakes (by simp [hgood, takes_unaccepted htakes])

/-! ## PTP (R313) -/

/-- The parameters of a TIME_SET_PTP pass the checks of R313. -/
structure PtpValid (p : List Byte) : Prop where
  profile : fld p 0 1 ≤ 2
  domain : fld p 1 1 ≤ 127
  sync : -7 ≤ sfld p 2 1 ∧ sfld p 2 1 ≤ 1
  announce : -3 ≤ sfld p 3 1 ∧ sfld p 3 1 ≤ 3
  delay : -7 ≤ sfld p 4 1 ∧ sfld p 4 1 ≤ 5
  timeout : 2 ≤ fld p 5 1 ∧ fld p 5 1 ≤ 10
  syntonised : fld p 6 1 ≤ 1

theorem doTimeSetPtp_ok {c : Cmd} (s : State) (hvalid : PtpValid c.params) :
    doTimeSetPtp c s = .ok (s.mapPtp fun q => { q with
      profile := fld c.params 0 1, domain := fld c.params 1 1, logSync := sfld c.params 2 1,
      logAnnounce := sfld c.params 3 1, logDelay := sfld c.params 4 1, announceTimeout := fld c.params 5 1,
      syntonised := decide (fld c.params 6 1 = 1),
      l1Up := q.l1Up && decide (fld c.params 0 1 = 2) && decide (fld c.params 6 1 = 1) }) := by
  obtain ⟨hprofile, hdomain, hsync, hannounce, hdelay, htimeout, hsyntonised⟩ := hvalid
  rw [doTimeSetPtp, firstBad_eq_none.mpr]
  simp [hprofile, hdomain, hsync, hannounce, hdelay, htimeout, hsyntonised]

theorem doTimeSetPtpPort_ok {c : Cmd} {s : State}
    (hport : fld c.params 0 1 ≤ 79 ∨ fld c.params 0 1 = 0x80 ∨ fld c.params 0 1 = 0x81) (hrole : fld c.params 1 1 ≤ 2)
    (htransport : fld c.params 2 1 ≤ 2) (hable : s.ptpAble (fld c.params 0 1) = true)
    (hroom : fld c.params 1 1 = 0 ∨
      (s.qz.ptp.ports.filter fun e => e.1 ≠ fld c.params 0 1 && e.2.role ≠ 0).length < 16) :
    doTimeSetPtpPort c s = .ok (s.setPtpPort (fld c.params 0 1) { s.ptpPort (fld c.params 0 1) with
      role := fld c.params 1 1, transport := fld c.params 2 1, trimIn := sfld c.params 4 4, trimOut := sfld c.params 8 4,
      asym := sfld c.params 12 4,
      foreigners := if fld c.params 1 1 = 1 then (s.ptpPort (fld c.params 0 1)).foreigners else [] }).selectSlave := by
  have hfits : ¬ (!s.ptpAble (fld c.params 0 1) || (fld c.params 1 1 ≠ 0 &&
      16 ≤ (s.qz.ptp.ports.filter fun e => e.1 ≠ fld c.params 0 1 && e.2.role ≠ 0).length)) = true := by
    rcases hroom with hnone | hfew
    · simp [hable, hnone]
    · simp only [hable, Nat.not_le.mpr hfew]
      simp
  rw [doTimeSetPtpPort, firstBad_eq_none.mpr]
  · exact if_neg hfits
  · simpa [hrole, htransport, or_assoc] using hport

/-! ## Pulse generators (R290, R291, R314) -/

section Pulse
variable {c : Cmd} {s : State}

/-- The parameters of a TIME_SET_PULSE pass the checks of R314. -/
structure PulseValid (p : List Byte) (s : State) : Prop where
  generator : fld p 0 1 ≤ 7
  arm : fld p 1 1 ≤ 3
  outputs : fld p 4 4 < 2 ^ 18
  pins : ∀ n < 16, bit (fld p 4 4) (n + 2) = false ∨ (s.evtPin n).output = true
  instant : fld p 1 1 = 1 → fld p 14 4 ≤ 999999999
  offset : fld p 1 1 = 3 → 100 ≤ fld p 20 4 ∧ fld p 20 4 ≤ 1000000000
  index : fld p 1 1 = 2 → (s.instantOfIndex (fld p 24 8)).isSome = true
  width : 4 ≤ fld p 40 4
  period : fld p 32 8 = 0 ∨ fld p 40 4 * 65536 < fld p 32 8

/-- The instant at which the commanded generator starts, where the command says it. -/
def State.pulseStart (s : State) (p : List Byte) : Option Nat :=
  if fld p 1 1 = 1 then some (instantAt p 8).units else if fld p 1 1 = 2 then s.instantOfIndex (fld p 24 8) else none

/-- The generator as the command gives it. -/
def PulseGen.commanded (p : List Byte) (start : Option Nat) : PulseGen := {
  arm := fld p 1 1, outputs := fld p 4 4, setStart := (instantAt p 8).units, offsetNs := fld p 20 4,
  startIndex := fld p 24 8, period := fld p 32 8, width := fld p 40 4, count := fld p 44 4, start := start }

/-- R291: a start too near is answered, but not of a command that had to wait, nor while settings are replayed. -/
def State.pulsePast (s : State) (p : List Byte) : Bool :=
  match s.pulseStart p with
  | some t => !s.own.accepted && decide (t ≤ s.now + 1000 * 65536)
  | none => false

theorem doTimeSetPulse_valid (hvalid : PulseValid c.params s) : doTimeSetPulse c s =
    if s.pulsePast c.params && !s.replaying then .fail stPast s
    else .ok ((s.setPulse (fld c.params 0 1)
      (.commanded c.params (if s.pulsePast c.params then none else s.pulseStart c.params))).drivePins s s.now) := by
  obtain ⟨hgen, harm, houts, hpins, hinstant, hoffset, hindex, hwidth, hperiod⟩ := hvalid
  rw [doTimeSetPulse, firstBad_eq_none.mpr]
  · rfl
  · have himp {a b : Prop} (h : a → b) : ¬ a ∨ b := Classical.or_iff_not_imp_left.mpr fun hna => h (Classical.not_not.mp hna)
    have hclock : fld c.params 1 1 = 1 → (instantAt c.params 8).ok = true := fun harm1 => decide_eq_true (hinstant harm1)
    simpa [hgen, harm, hwidth, hperiod, himp hclock, himp hoffset, himp hindex] using And.intro houts hpins

theorem doTimeSetPulse_ok (hvalid : PulseValid c.params s)
    (hfuture : ∀ t ∈ s.pulseStart c.params, s.now + 1000 * 65536 < t) :
    doTimeSetPulse c s = .ok ((s.setPulse (fld c.params 0 1)
      (.commanded c.params (s.pulseStart c.params))).drivePins s s.now) := by
  have hnotPast : s.pulsePast c.params = false := by
    unfold State.pulsePast
    split
    · next t hstart => simp [Nat.not_le.mpr (hfuture t hstart)]
    · rfl
  rw [doTimeSetPulse_valid hvalid, hnotPast]
  rfl

theorem doTimeSetPulse_past (hvalid : PulseValid c.params s) {t : Nat} (hstart : s.pulseStart c.params = some t)
    (hpast : t ≤ s.now + 1000 * 65536) (hfresh : s.own.accepted = false) (hserves : s.replaying = false) :
    doTimeSetPulse c s = .fail stPast s := by
  have hisPast : s.pulsePast c.params = true := by simp [State.pulsePast, hstart, hfresh, hpast]
  rw [doTimeSetPulse_valid hvalid, hisPast, hserves]
  rfl

end Pulse

/-! ## EVT pins (R293, R294, R315) -/

section Evt
variable {c : Cmd} {s : State} (hpin : fld c.params 0 1 ≤ 15) (hedges : 1 ≤ fld c.params 2 1 ∧ fld c.params 2 1 ≤ 3)
  (hqueue : s.queueOk (fld c.params 4 2) 6 = true)
include hpin hedges hqueue

/-- A pin that becomes an output, or stays an input, drives nothing anew. -/
theorem doTimeSetEvt_keeps (hdir : fld c.params 1 1 ≤ 1)
    (hkeeps : fld c.params 1 1 = 1 ∨ (s.evtPin (fld c.params 0 1)).output = false) :
    doTimeSetEvt c s = .ok (s.setEvtPin (fld c.params 0 1) { s.evtPin (fld c.params 0 1) with
      output := decide (fld c.params 1 1 = 1), edges := fld c.params 2 1, queue := fld c.params 4 2 }) := by
  have hdrives : ((s.evtPin (fld c.params 0 1)).output && !decide (fld c.params 1 1 = 1)) = false := by
    rcases hkeeps with hout | hin
    · simp [hout]
    · simp [hin]
  simp [doTimeSetEvt, firstBad, hpin, hdir, hedges, hqueue, hdrives]

/-- A pin that becomes an input samples its line anew, and its generators drop it. -/
theorem doTimeSetEvt_input (hdir : fld c.params 1 1 = 0) (hout : (s.evtPin (fld c.params 0 1)).output = true) :
    doTimeSetEvt c s = .ok (((List.range 8).foldl (fun w g =>
        w.setPulse g { w.pulse g with outputs := withBit (w.pulse g).outputs (fld c.params 0 1 + 2) false })
      (s.setEvtPin (fld c.params 0 1) { s.evtPin (fld c.params 0 1) with
        output := false, edges := fld c.params 2 1, queue := fld c.params 4 2, level := none })).drivePins s s.now) := by
  simp [doTimeSetEvt, firstBad, hpin, hdir, hedges, hqueue, hout]

end Evt

/-! ## The claim -/

/-- Outputs 0 and 1 are no EVT pins. -/
theorem bit_evt_of_pps {outputs : Nat} (hpps : outputs < 4) (n : Nat) : bit outputs (n + 2) = false := by
  have hlt : outputs < 2 ^ (n + 2) := Nat.lt_of_lt_of_le hpps (Nat.pow_le_pow_right (n := 2) (by decide) (Nat.le_add_left 2 n))
  simp [bit, Nat.div_eq_of_lt hlt]

/-- Settles O25: each command is journalled under its own opcode, and its body does as claimed once its checks pass. The choice
of a master in `selectSlave` is that of IEEE 1588 (log entry 32). -/
theorem timePortCommandsAct : Obligations.TimePortCommandsAct := by
  unfold Obligations.TimePortCommandsAct
  refine ⟨?ptp, ?port, ?pulse, ?past, ?keeps, ?input⟩
  case ptp =>
    refine setsJournalled_of (fun _ _ => rfl) rfl (ownRecord_ne_nil _) fun c u hgood => ?_
    obtain ⟨hprofile, hdomain, hsync1, hsync2, hann1, hann2, hdelay1, hdelay2, htime1, htime2, hsynt⟩ :=
      of_decide_eq_true hgood
    exact doTimeSetPtp_ok u ⟨hprofile, hdomain, ⟨hsync1, hsync2⟩, ⟨hann1, hann2⟩, ⟨hdelay1, hdelay2⟩, ⟨htime1, htime2⟩, hsynt⟩
  case port =>
    refine setsJournalled_of (fun _ _ => rfl) rfl (ownRecord_ne_nil _) fun c u hgood => ?_
    obtain ⟨hchecks, hable⟩ := Bool.and_eq_true_iff.mp hgood
    obtain ⟨hport, hrole, htransport, hroom⟩ := of_decide_eq_true hchecks
    exact doTimeSetPtpPort_ok hport hrole htransport hable hroom
  case pulse =>
    refine setsJournalled_of (fun _ _ => rfl) rfl (ownRecord_ne_nil _) fun c u hgood => ?_
    simp only [Bool.and_eq_true, Bool.or_eq_true, decide_eq_true_eq, List.all_eq_true, List.mem_range,
      Bool.not_eq_true'] at hgood
    obtain ⟨⟨⟨⟨hgen, harm, houts, hinstant, hoffset, hwidth, hperiod⟩, hpins⟩, hafter⟩, hindexed⟩ := hgood
    refine doTimeSetPulse_ok ⟨hgen, harm, houts, hpins, hinstant, hoffset, fun harm2 => ?_, hwidth, hperiod⟩ fun t ht => ?_
    · have hindex := hindexed.resolve_left (Decidable.not_not.mpr harm2)
      cases hi : u.instantOfIndex (fld c.params 24 8) with
      | none => simp [hi] at hindex
      | some _ => rfl
    · unfold State.pulseStart at ht
      split at ht
      · next harm1 =>
        obtain rfl := Option.some.inj ht
        exact hafter.resolve_left (Decidable.not_not.mpr harm1)
      · split at ht
        · next harm2 =>
          have hindex := hindexed.resolve_left (Decidable.not_not.mpr harm2)
          simpa [Option.mem_def.mp ht] using hindex
        · cases ht
  case past =>
    refine executes_of_unaccepted (executes_fail (fun _ _ => rfl) (by decide) fun c u hgood => ?_)
    simp only [Bool.and_eq_true, decide_eq_true_eq, Bool.not_eq_true'] at hgood
    obtain ⟨⟨⟨hgen, harm, hpps, hinstant, hwidth, hperiod, hpast⟩, hserves⟩, hfresh⟩ := hgood
    refine doTimeSetPulse_past ⟨hgen, by omega, by omega, fun n _ => .inl (bit_evt_of_pps hpps n), fun _ => hinstant,
      fun harm3 => by omega, fun harm2 => by omega, hwidth, hperiod⟩ (if_pos harm) hpast hfresh hserves
  case keeps =>
    refine setsJournalled_of (fun _ _ => rfl) rfl (ownRecord_ne_nil _) fun c u hgood => ?_
    simp only [Bool.and_eq_true, Bool.or_eq_true, decide_eq_true_eq, Bool.not_eq_true'] at hgood
    obtain ⟨⟨⟨hpin, hdir, hedges⟩, hqueue⟩, hkeeps⟩ := hgood
    exact doTimeSetEvt_keeps hpin hedges hqueue hdir hkeeps
  case input =>
    refine setsJournalled_of (fun _ _ => rfl) rfl (ownRecord_ne_nil _) fun c u hgood => ?_
    simp only [Bool.and_eq_true, decide_eq_true_eq] at hgood
    obtain ⟨⟨⟨hpin, hdir, hedges⟩, hqueue⟩, hout⟩ := hgood
    exact doTimeSetEvt_input hpin hedges hqueue hdir hout

end Sys2Proof.Machine
end

section
/-! What TIME_SET_MAPPING, TIME_CONVERT, TIME_SET_EPOCH, TIME_LOAD_DELAY and TIME_APPLY_DELAY do, command by command (R296 to
R299, R304, R306, R316 to R319). The claim of O26 is put together from them. -/

namespace Sys2Proof.Machine

section Commands
variable {c : Cmd} {s : State}

/-! ## The mapping (R296, R299, R316) -/

section Mapping
variable (hinstant : fld c.params 14 4 ≤ 999999999) (hden : 1 ≤ fld c.params 20 4)
include hinstant hden

theorem doTimeSetMapping_load (hnum : 1 ≤ fld c.params 24 8) (hmax : fld c.params 24 8 ≤ 2 ^ 48)
    (hslow : fld c.params 20 4 ≤ fld c.params 24 8) (hfast : fld c.params 24 8 ≤ 1450000000 * fld c.params 20 4)
    (hrate : s.schedLive = false ∨
      ∃ m, s.qz.mapping = some m ∧ m.num * fld c.params 20 4 = fld c.params 24 8 * m.den) :
    doTimeSetMapping c s = .ok (s.mapQz fun q => { q with
      mapping := some ⟨fld c.params 0 8, (instantAt c.params 8).units, fld c.params 24 8, fld c.params 20 4⟩ }) := by
  have hloads : fld c.params 24 8 ≠ 0 := by omega
  have hkeeps : (s.schedLive && rateChange s.qz.mapping
      (some ⟨fld c.params 0 8, (instantAt c.params 8).units, fld c.params 24 8, fld c.params 20 4⟩)) = false := by
    rcases hrate with hidle | ⟨m, hmapping, hsame⟩
    · simp [hidle]
    · simp [hmapping, rateChange, hsame]
  rw [doTimeSetMapping, firstBad_eq_none.mpr]
  · simp only [if_neg hloads, hkeeps]
    rfl
  · simpa [Instant.ok, instantAt, hinstant, hden, hslow, hfast] using .inr hmax

theorem doTimeSetMapping_unload (hnum : fld c.params 24 8 = 0) (hrate : s.schedLive = false ∨ s.qz.mapping = none) :
    doTimeSetMapping c s = .ok (s.mapQz fun q => { q with mapping := none }) := by
  have hkeeps : (s.schedLive && rateChange s.qz.mapping none) = false := by
    rcases hrate with hidle | hnone
    · simp [hidle]
    · simp [hnone, rateChange]
  simp [doTimeSetMapping, firstBad, Instant.ok, instantAt, hinstant, hden, hnum, hkeeps]

theorem doTimeSetMapping_busy (hnum : fld c.params 24 8 = 0) (hlive : s.schedLive = true)
    (hmapping : s.qz.mapping.isSome = true) : doTimeSetMapping c s = .fail stBusy s := by
  obtain ⟨m, hm⟩ := Option.isSome_iff_exists.mp hmapping
  simp [doTimeSetMapping, firstBad, Instant.ok, instantAt, hinstant, hden, hnum, hlive, hm, rateChange]

end Mapping

/-! ## Conversions (R297, R306, R317) -/

/-- From an index: it is echoed, with its instant where there is one. -/
theorem doTimeConvert_index (hform : fld c.params 0 1 = 0) (hagree : s.qz.convFail = false) :
    doTimeConvert c s = .okWith (beBytes 1 (b2n s.qz.mapping.isNone +
        2 * b2n (s.qz.mapping.isSome && (s.instantOfIndex (fld c.params 4 8)).isNone) + 4 * b2n s.suspect) ++ zeros 7 ++
      beBytes 8 (fld c.params 4 8) ++
      beInstant (((s.instantOfIndex (fld c.params 4 8)).map instantOf).getD ⟨0, 0, 0⟩) ++ beInstant s.nowInstant) s := by
  simp [doTimeConvert, firstBad, hform, hagree, b2n]

/-- From an instant: it is echoed, with its index where there is one. -/
theorem doTimeConvert_instant (hform : fld c.params 0 1 = 1) (hinstant : fld c.params 18 4 ≤ 999999999)
    (hagree : s.qz.convFail = false) :
    doTimeConvert c s = .okWith (beBytes 1 (b2n s.qz.mapping.isNone +
        2 * b2n (s.qz.mapping.isSome && decide (s.indexOfInstant (instantAt c.params 12).units = noIndex)) +
        4 * b2n s.suspect) ++ zeros 7 ++
      beBytes 8 (s.indexOfInstant (instantAt c.params 12).units) ++ beInstant (instantAt c.params 12) ++
      beInstant s.nowInstant) s := by
  have hok : (instantAt c.params 12).ok = true := decide_eq_true hinstant
  simp [doTimeConvert, firstBad, hform, hok, hagree, b2n]

/-- Without a majority the reply says so, in bit 3 of its flags, and the failure is used up. -/
theorem doTimeConvert_noMajority (hform : fld c.params 0 1 ≤ 1)
    (hinstant : fld c.params 0 1 = 0 ∨ fld c.params 18 4 ≤ 999999999) (hlost : s.qz.convFail = true) :
    ∃ f < 8, ∃ rest, doTimeConvert c s =
      .okWith (beBytes 1 (f + 8) ++ rest) (s.draw.mapQz fun q => { q with convFail := false }) := by
  have hbits (a b d : Bool) : b2n a + 2 * b2n b + 4 * b2n d < 8 := by cases a <;> cases b <;> cases d <;> decide
  have hchecks : firstBad [(decide (fld c.params 0 1 ≤ 1), 0),
      (decide (fld c.params 0 1 = 0) || (instantAt c.params 12).ok, 18)] = none := by
    have hok : fld c.params 0 1 = 0 ∨ (instantAt c.params 12).ok = true := hinstant.imp_right fun hns => decide_eq_true hns
    simpa [firstBad_eq_none, hform] using hok
  rw [doTimeConvert, hchecks]
  simp only [hlost, List.append_assoc]
  exact ⟨_, hbits _ _ _, _, rfl⟩

/-! ## Epochs and delay models (R304, R318, R319) -/

theorem doTimeSetEpoch_ok (hidle : s.schedLive = false)
    (hlen : epochLenOk (fld c.params 0 8) (s.tile.layout.map (·.dwell)) = true) :
    doTimeSetEpoch c s = .ok (s.mapQz fun q => { q with epochLen := fld c.params 0 8 }) := by
  simp [doTimeSetEpoch, hidle, hlen]

theorem doTimeSetEpoch_bad (hlen : epochLenOk (fld c.params 0 8) (s.tile.layout.map (·.dwell)) = false) :
    doTimeSetEpoch c s = .bad 0 s := by
  simp [doTimeSetEpoch, hlen]

theorem doTimeLoadDelay_ok (hfirst : fld c.params 0 2 < 4096) (hcount : 1 ≤ fld c.params 2 2 ∧ fld c.params 2 2 ≤ 26)
    (hfit : fld c.params 0 2 + fld c.params 2 2 ≤ 4096)
    (hvalid : ∀ e < fld c.params 2 2, fld c.params (8 + 48 * e) 1 ≤ 1) (hfree : s.schedPending s.qz.delay = false) :
    doTimeLoadDelay c s = .ok (s.mapQz fun q => { q with
      delayLoad := (List.range (fld c.params 2 2)).foldl
        (fun t e => kvSet DelayModel.init t (fld c.params 0 2 + e) (delayEntry c.params e)) s.qz.delayLoad }) := by
  rw [doTimeLoadDelay, firstBad_eq_none.mpr]
  · simp only [hfree]
    rfl
  · simpa [hfirst, hcount, hfit] using hvalid

theorem doTimeApplyDelay_atOnce (hidle : s.schedLive = false) :
    doTimeApplyDelay c s = .ok (s.mapQz fun q => { q with delay := ⟨q.delayLoad, []⟩ }) := by
  simp [doTimeApplyDelay, hidle]

/-- While a schedule is live a new table starts with an epoch that is still to come. -/
theorem doTimeApplyDelay_fromEpoch (hlive : s.schedLive = true)
    (hepoch : fld c.params 0 8 = noIndex ∨
      (s.tile.start ≤ fld c.params 0 8 ∧ (fld c.params 0 8 - s.tile.start) % s.epochSpan = 0) ∧
        s.indexPast (fld c.params 0 8) = false) :
    doTimeApplyDelay c s = .ok (s.mapQz fun q => { q with
      delay := (dropPending q.delay s.takenPast).push
        (s.applyAt (fld c.params 0 8) fun ch => s.epochFrom (s.nextTaken ch)) q.delayLoad }) := by
  rcases hepoch with hnone | ⟨⟨hstart, hspan⟩, hnew⟩
  · simp [doTimeApplyDelay, hlive, hnone, State.indexPast]
  · simp [doTimeApplyDelay, hlive, hstart, hspan, hnew]

theorem doTimeApplyDelay_between (hlive : s.schedLive = true) (hindex : fld c.params 0 8 ≠ noIndex)
    (hspan : (fld c.params 0 8 - s.tile.start) % s.epochSpan ≠ 0) : doTimeApplyDelay c s = .bad 0 s := by
  simp [doTimeApplyDelay, hlive, hindex, hspan]

end Commands

/-! ## The claim -/

/-- Settles O26: the mapping and the epoch length are journalled, and each command's body does as claimed once its checks pass. -/
theorem mappingCommandsAct : Obligations.MappingCommandsAct := by
  unfold Obligations.MappingCommandsAct
  refine ⟨?load, ?unload, ?busy, ?index, ?instant, ?lost, ?epoch, ?epochBad, ?delays, ?atOnce, ?fromEpoch, ?between⟩
  case load =>
    refine setsJournalled_of (fun _ _ => rfl) rfl (ownRecord_ne_nil _) fun c u hgood => ?_
    simp only [Bool.and_eq_true, Bool.or_eq_true, decide_eq_true_eq, Bool.not_eq_true'] at hgood
    obtain ⟨⟨hinstant, hden, hnum, hmax, hslow, hfast⟩, hrate⟩ := hgood
    refine doTimeSetMapping_load hinstant hden hnum hmax hslow hfast (hrate.imp_right fun hmapping => ?_)
    cases hm : u.qz.mapping with
    | none => simp [hm] at hmapping
    | some m => exact ⟨m, rfl, by simpa [hm] using hmapping⟩
  case unload =>
    refine setsJournalled_of (fun _ _ => rfl) rfl (ownRecord_ne_nil _) fun c u hgood => ?_
    simp only [Bool.and_eq_true, Bool.or_eq_true, decide_eq_true_eq, Bool.not_eq_true', Option.isNone_iff_eq_none] at hgood
    obtain ⟨⟨hinstant, hden, hnum⟩, hrate⟩ := hgood
    exact doTimeSetMapping_unload hinstant hden hnum hrate
  case busy =>
    refine executes_fail (fun _ _ => rfl) (by decide) fun c u hgood => ?_
    simp only [Bool.and_eq_true, decide_eq_true_eq] at hgood
    obtain ⟨⟨⟨hinstant, hden, hnum⟩, hlive⟩, hmapping⟩ := hgood
    exact doTimeSetMapping_busy hinstant hden hnum hlive hmapping
  case index =>
    refine reads_of (fun _ _ => rfl) (fun _ _ => rfl) (by decide) fun c u hgood => ⟨[], ?_⟩
    simp only [Bool.and_eq_true, decide_eq_true_eq, Bool.not_eq_true'] at hgood
    obtain ⟨hform, hagree⟩ := hgood
    exact (doTimeConvert_index hform hagree).trans (by rw [List.append_nil])
  case instant =>
    refine reads_of (fun _ _ => rfl) (fun _ _ => rfl) (by decide) fun c u hgood => ⟨[], ?_⟩
    simp only [Bool.and_eq_true, decide_eq_true_eq, Bool.not_eq_true'] at hgood
    obtain ⟨⟨hform, hinstant⟩, hagree⟩ := hgood
    exact (doTimeConvert_instant hform hinstant hagree).trans (by rw [List.append_nil])
  case lost =>
    refine executes_of (fun _ _ => rfl) (fun _ _ => rfl) (by decide) fun c u hgood => ?_
    simp only [Bool.and_eq_true, decide_eq_true_eq] at hgood
    obtain ⟨⟨hform, hinstant⟩, hlost⟩ := hgood
    obtain ⟨f, hf, rest, hbody⟩ := doTimeConvert_noMajority hform hinstant hlost
    have hexec : specTimeConvert.body c u = _ := hbody
    rw [hexec]
    exact ⟨rfl, rfl, f, hf, rfl⟩
  case epoch =>
    refine setsJournalled_of (fun _ _ => rfl) rfl (ownRecord_ne_nil _) fun c u hgood => ?_
    simp only [Bool.and_eq_true, Bool.not_eq_true'] at hgood
    obtain ⟨hidle, hlen⟩ := hgood
    exact doTimeSetEpoch_ok hidle hlen
  case epochBad =>
    refine rejects_of (fun _ _ => rfl) fun c u hgood => ?_
    exact doTimeSetEpoch_bad (by simpa using hgood)
  case delays =>
    refine sets_of (fun _ _ => rfl) (fun _ _ => rfl) (by decide) fun c u hgood => ?_
    simp only [Bool.and_eq_true, List.all_eq_true, List.mem_range, decide_eq_true_eq, Bool.not_eq_true'] at hgood
    obtain ⟨⟨⟨hfirst, hmin, hmax, hfit⟩, hvalid⟩, hfree⟩ := hgood
    exact doTimeLoadDelay_ok hfirst ⟨hmin, hmax⟩ hfit hvalid hfree
  case atOnce =>
    refine sets_of (fun _ _ => rfl) (fun _ _ => rfl) (by decide) fun c u hgood => ?_
    exact doTimeApplyDelay_atOnce (by simpa using hgood)
  case fromEpoch =>
    refine sets_of (fun _ _ => rfl) (fun _ _ => rfl) (by decide) fun c u hgood => ?_
    simp only [Bool.and_eq_true, Bool.or_eq_true, decide_eq_true_eq, Bool.not_eq_true'] at hgood
    obtain ⟨hlive, hepoch⟩ := hgood
    exact doTimeApplyDelay_fromEpoch hlive hepoch
  case between =>
    refine rejects_of (fun _ _ => rfl) fun c u hgood => ?_
    simp only [Bool.and_eq_true, decide_eq_true_eq] at hgood
    obtain ⟨hlive, hindex, -, hspan⟩ := hgood
    exact doTimeApplyDelay_between hlive hindex hspan

end Sys2Proof.Machine
end

section
/-! What the references of time do (R282 to R289): REF_IN, the edges of PPS_IN, the holdover timeouts and the messages of PTP,
event by event. The claim of O51 is put together from them. -/

namespace Sys2Proof.Machine

section Events
variable {s : State}

/-! ## REF_IN (R282) -/

theorem evRefInLoss_first (hlocked : s.qz.refLostAt = none) :
    evRefInLoss s = { s with qz := { s.qz with pllLock := false, refLostAt := some s.ns } } := by
  simp [evRefInLoss, State.mapQz, hlocked]

/-- A reference that is lost already stays lost since then. -/
theorem evRefInLoss_again {x : Nat} (hlost : s.qz.refLostAt = some x) :
    evRefInLoss s = { s with qz := { s.qz with pllLock := false } } := by
  simp [evRefInLoss, State.mapQz, hlost]

/-! ## PPS_IN (R283, R312) -/

section Pps
variable {phase : Nat}

/-- The edge at which a waiting TIME_SET acts. -/
theorem evPpsEdge_sets {x : Nat} (hset : s.qz.pendingSet = some x) (hmode : s.qz.source.mode ≠ 1) :
    evPpsEdge phase s = (((s.mapQz fun q => { q with lastPpsAt := s.ns }).stepTime
      ((x : Int) - ((s.stampAt phase : Int) - s.qz.source.ppsDelay))).clearCause 0).mapQz fun q =>
        { q with pendingSet := none, good := 0, rejected := 0 } := by
  have hsource (units : Int) : ((s.mapQz fun q => { q with lastPpsAt := s.ns }).stepTime units).qz.source.mode ≠ 1 := by
    rw [stepTime_source]
    exact hmode
  simp [evPpsEdge, hset, hmode, State.clearCause, hsource]

/-- While PPS is not the source an edge is only noted. -/
theorem evPpsEdge_notes (hnone : s.qz.pendingSet = none) (hmode : s.qz.source.mode ≠ 1) :
    evPpsEdge phase s = s.mapQz fun q => { q with lastPpsAt := s.ns } := by
  simp [evPpsEdge, hnone, hmode]

theorem evPpsEdge_disciplines (hnone : s.qz.pendingSet = none) (hmode : s.qz.source.mode = 1) :
    evPpsEdge phase s = (s.mapQz fun q => { q with lastPpsAt := s.ns }).discipline
      ((s.stampAt phase : Int) - s.qz.source.ppsDelay -
        roundHalfEven ((s.stampAt phase : Int) - s.qz.source.ppsDelay) secUnits * secUnits) false := by
  simp [evPpsEdge, hnone, hmode]

theorem happens_ppsEdge {u : State} (hphase : phase < 16) (h : evPpsEdge phase s = u) : Happens (.ppsEdge phase) s u :=
  h ▸ happens_of_guarded rfl (decide_eq_true hphase)

end Pps

/-! ## Holdover (R283, R284, R289) -/

theorem evPpsHoldoverTimeout_late (hmode : s.qz.source.mode = 1) (hlate : s.qz.lastPpsAt + 1500000000 ≤ s.ns) :
    evPpsHoldoverTimeout s = s.setDisc 3 := by
  simp [evPpsHoldoverTimeout, hmode, hlate]

theorem evPpsHoldoverTimeout_early (hearly : s.ns < s.qz.lastPpsAt + 1500000000) : evPpsHoldoverTimeout s = s := by
  simp [evPpsHoldoverTimeout, Nat.not_le.mpr hearly]

theorem evPtpHoldoverTimeout_other (hother : s.mc.inGap = true ∨ s.qz.source.mode ≠ 2) : evPtpHoldoverTimeout s = s := by
  rcases hother with hgap | hmode
  · simp [evPtpHoldoverTimeout, hgap]
  · simp [evPtpHoldoverTimeout, hmode]

section Ptp
variable (hgap : s.mc.inGap = false) (hmode : s.qz.source.mode = 2)
include hgap hmode

theorem evPtpHoldoverTimeout_alone (hslave : s.qz.ptp.slave = none)
    (hlate : s.qz.ptp.ex.syncAt + 3 * interval s.qz.ptp.logSync ≤ s.ns) : evPtpHoldoverTimeout s = s.setDisc 3 := by
  simp [evPtpHoldoverTimeout, hgap, hmode, hslave, hlate]

/-- A slave whose master is overdue, or sends no Sync, selects anew. -/
theorem evPtpHoldoverTimeout_slave {n : Nat} (hslave : s.qz.ptp.slave = some n)
    (hlost : (s.portBest n).isNone = true ∨ s.qz.ptp.ex.syncAt + 3 * interval s.qz.ptp.logSync ≤ s.ns) :
    evPtpHoldoverTimeout s = (s.setDisc 3).selectSlave := by
  cases hbest : (s.portBest n).isNone with
  | true => simp [evPtpHoldoverTimeout, hgap, hmode, hslave, hbest]
  | false =>
    have hlate := hlost.resolve_left (by simp [hbest])
    simp [evPtpHoldoverTimeout, hgap, hmode, hslave, hbest, hlate]

end Ptp

section Suspect
variable {x : Nat} (hlong : x + s.qz.source.holdoverS * 1000000000 < s.ns)
include hlong

theorem evSuspectHoldoverTimeout_ref (hlost : s.qz.refLostAt = some x) (hdisc : s.qz.discLostAt = none) :
    evSuspectHoldoverTimeout s = s.setCause 2 := by
  simp [evSuspectHoldoverTimeout, hlost, hdisc, hlong]

theorem evSuspectHoldoverTimeout_disc (hlost : s.qz.discLostAt = some x) (href : s.qz.refLostAt = none) :
    evSuspectHoldoverTimeout s = s.setCause 3 := by
  simp [evSuspectHoldoverTimeout, hlost, href, hlong]

end Suspect

theorem evSuspectHoldoverTimeout_none (href : s.qz.refLostAt = none) (hdisc : s.qz.discLostAt = none) :
    evSuspectHoldoverTimeout s = s := by
  simp [evSuspectHoldoverTimeout, href, hdisc]

/-! ## Messages of PTP (R285, R286, R289) -/

theorem evPtpMessageReceive_acts {p : PtpPort} {b : List Byte} {m : PtpMsg} (hrole : (s.ptpPort (portNumber p)).role ≠ 0)
    (hup : s.ptpUp (portNumber p) = true) (hserving : s.serving = true) (hparse : ptpParse b = some m)
    (hdomain : m.domain = s.qz.ptp.domain) (hother : m.source.take 8 ≠ clockIdentity) :
    evPtpMessageReceive p b s = s.ptpMessage (portNumber p) m := by
  simp [evPtpMessageReceive, hrole, hup, hserving, hparse, hdomain, hother]

theorem evPtpMessageReceive_disabled {p : PtpPort} (b : List Byte) (hrole : (s.ptpPort (portNumber p)).role = 0) :
    evPtpMessageReceive p b s = s := by
  simp [evPtpMessageReceive, hrole]

theorem happens_ptpMessageReceive {u : State} {p : PtpPort} {b : List Byte} (hlen : b.length ≤ 1500)
    (h : evPtpMessageReceive p b s = u) : Happens (.ptpMessageReceive p b) s u :=
  h ▸ happens_of_guarded rfl (decide_eq_true hlen)

theorem evPtpMessageSend_sends {p : PtpPort} (k : PtpSend) (hrole : (s.ptpPort (portNumber p)).role ≠ 0)
    (hmay : s.ptpMaySend (portNumber p) = true) (hserving : s.serving = true) :
    evPtpMessageSend p k s = s.ptpSend (portNumber p) k := by
  simp [evPtpMessageSend, hrole, hmay, hserving]

theorem evPtpMessageSend_silent {p : PtpPort} (k : PtpSend)
    (hmute : s.serving = false ∨ s.ptpMaySend (portNumber p) = false) : evPtpMessageSend p k s = s := by
  rcases hmute with hserving | hmay
  · simp [evPtpMessageSend, hserving]
  · simp [evPtpMessageSend, hmay]

/-! ## The claim -/

section Happenings
variable {u : State}

theorem happens_refInLoss (h : evRefInLoss s = u) : Happens .refInLoss s u := h ▸ happens_of_guarded rfl rfl

theorem happens_ppsHoldoverTimeout (h : evPpsHoldoverTimeout s = u) : Happens .ppsHoldoverTimeout s u :=
  h ▸ happens_of_guarded rfl rfl

theorem happens_ptpHoldoverTimeout (h : evPtpHoldoverTimeout s = u) : Happens .ptpHoldoverTimeout s u :=
  h ▸ happens_of_guarded rfl rfl

theorem happens_suspectHoldoverTimeout (h : evSuspectHoldoverTimeout s = u) : Happens .suspectHoldoverTimeout s u :=
  h ▸ happens_of_guarded rfl rfl

theorem happens_ptpMessageSend {p : PtpPort} {k : PtpSend} (h : evPtpMessageSend p k s = u) :
    Happens (.ptpMessageSend p k) s u := h ▸ happens_of_guarded rfl rfl

end Happenings

end Events

/-- Settles O51: each event happens as its meaning says, and the lemma for its case says what that leads to. That the edge at
which a TIME_SET acts clears the counts and NOT_SET is the model's reading (log entries 13 and 95); the choice of a master is
that of IEEE 1588 (log entry 32). -/
theorem referencesDisciplineTime : Obligations.ReferencesDisciplineTime := by
  unfold Obligations.ReferencesDisciplineTime
  refine ⟨?lock, ?loss, ?lossAgain, ?ppsSet, ?ppsNoted, ?ppsDisciplines, ?ppsLate, ?ppsEarly, ?ptpAlone, ?ptpSlave, ?ptpOther,
    ?suspectRef, ?suspectDisc, ?suspectNone, ?receive, ?receiveDisabled, ?send, ?sendSilent⟩
  case lock => exact fun s => ⟨evRefInLock s, happens_of_guarded rfl rfl, rfl, rfl, rfl⟩
  case loss => exact fun s hlocked => happens_refInLoss (evRefInLoss_first hlocked)
  case lossAgain => exact fun s x hlost => happens_refInLoss (evRefInLoss_again hlost)
  case ppsSet =>
    rintro s phase x _ hphase hset hmode rfl
    exact happens_ppsEdge hphase (evPpsEdge_sets hset hmode)
  case ppsNoted => exact fun s phase hphase hnone hmode => happens_ppsEdge hphase (evPpsEdge_notes hnone hmode)
  case ppsDisciplines => exact fun s phase hphase hnone hmode => happens_ppsEdge hphase (evPpsEdge_disciplines hnone hmode)
  case ppsLate => exact fun s hmode hlate => happens_ppsHoldoverTimeout (evPpsHoldoverTimeout_late hmode hlate)
  case ppsEarly => exact fun s hearly => happens_ppsHoldoverTimeout (evPpsHoldoverTimeout_early hearly)
  case ptpAlone =>
    exact fun s hgap hmode hslave hlate => happens_ptpHoldoverTimeout (evPtpHoldoverTimeout_alone hgap hmode hslave hlate)
  case ptpSlave =>
    exact fun s n hgap hmode hslave hlost => happens_ptpHoldoverTimeout (evPtpHoldoverTimeout_slave hgap hmode hslave hlost)
  case ptpOther => exact fun s hother => happens_ptpHoldoverTimeout (evPtpHoldoverTimeout_other hother)
  case suspectRef =>
    exact fun s x hlost hlong hdisc => happens_suspectHoldoverTimeout (evSuspectHoldoverTimeout_ref hlong hlost hdisc)
  case suspectDisc =>
    exact fun s x hlost hlong href => happens_suspectHoldoverTimeout (evSuspectHoldoverTimeout_disc hlong hlost href)
  case suspectNone => exact fun s href hdisc => happens_suspectHoldoverTimeout (evSuspectHoldoverTimeout_none href hdisc)
  case receive =>
    intro s p b m hlen hrole hup hserving hparse hdomain hother
    exact happens_ptpMessageReceive hlen (evPtpMessageReceive_acts hrole hup hserving hparse hdomain hother)
  case receiveDisabled =>
    exact fun s p b hlen hrole => happens_ptpMessageReceive hlen (evPtpMessageReceive_disabled b hrole)
  case send =>
    exact fun s p k hrole hmay hserving => happens_ptpMessageSend (evPtpMessageSend_sends k hrole hmay hserving)
  case sendSilent => exact fun s p k hmute => happens_ptpMessageSend (evPtpMessageSend_silent k hmute)

end Sys2Proof.Machine
end

section
/-! What pulse generators, EVT pins and epochs do when their moments come (R290, R293 to R295, R303, R308), event by event. The
claim of O52 is put together from them. -/

namespace Sys2Proof.Machine

/-- What is written under a key is read back there, whatever the table, unless it is the default, of which none is kept. -/
theorem kvGet_kvSet_of_ne {α : Type} [DecidableEq α] {d v : α} (hv : v ≠ d) (m : KV α) (k : Nat) :
    kvGet d (kvSet d m k v) k = v := by
  induction m with
  | nil => simp [kvSet, hv, kvGet]
  | cons e t ih =>
    obtain ⟨a, w⟩ := e
    simp only [kvSet, if_neg hv]
    split
    · simp [kvGet]
    · next hle =>
      split
      · simp [kvGet]
      · next hne => simp [kvGet, Ne.symm hne, hle, ih]

section Events
variable {s : State}

/-! ## Pulses (R290, R308) -/

section Pulse
variable {g : Fin 8} {t : Nat}

section Due
variable (hedge : (s.pulse g.val).edge (s.pulse g.val).next = some t) (hleft : (s.pulse g.val).spent = false)
  (hdue : t ≤ s.now)
include hedge hleft hdue

theorem evPulseEdge_drives (hmajority : s.majority = true) (hfree : s.qz.held = false) :
    evPulseEdge g s = ((s.setPulse g.val { s.pulse g.val with
      next := (s.pulse g.val).next + 1, high := some t }).drivePins s t).raiseEvent (33 + g.val) (s.indexOfInstant t)
        (s.pulse g.val).next (some (instantOf t)) := by
  simp [evPulseEdge, hedge, hleft, hmajority, hfree, Nat.not_lt.mpr hdue]

theorem evPulseEdge_skips (hheld : s.majority = false ∨ s.qz.held = true) :
    evPulseEdge g s = (s.setPulse g.val { s.pulse g.val with next := (s.pulse g.val).next + 1 }).mapQz fun q =>
      { q with skippedPulses := q.skippedPulses + 1 } := by
  rcases hheld with hnone | hheld
  · simp [evPulseEdge, hedge, hleft, hnone, Nat.not_lt.mpr hdue]
  · simp [evPulseEdge, hedge, hleft, hheld, Nat.not_lt.mpr hdue]

end Due

theorem evPulseEdge_waits
    (hwaits : ∀ t ∈ (s.pulse g.val).edge (s.pulse g.val).next, (s.pulse g.val).spent = true ∨ s.now < t) :
    evPulseEdge g s = s := by
  cases hedge : (s.pulse g.val).edge (s.pulse g.val).next with
  | none => simp [evPulseEdge, hedge]
  | some t =>
    have hearly := hwaits t hedge
    simp only [evPulseEdge, hedge, ite_eq_left_iff, Bool.or_eq_true, decide_eq_true_eq]
    exact fun hdue => absurd hearly hdue

theorem evPulseTrailingEdge_ends (hhigh : (s.pulse g.val).high = some t) (hover : t + (s.pulse g.val).width * 65536 ≤ s.now) :
    evPulseTrailingEdge g s = (s.setPulse g.val { s.pulse g.val with high := none }).drivePins s
      (t + (s.pulse g.val).width * 65536) := by
  simp [evPulseTrailingEdge, hhigh, Nat.not_lt.mpr hover]

theorem evPulseTrailingEdge_waits (hwaits : ∀ t ∈ (s.pulse g.val).high, s.now < t + (s.pulse g.val).width * 65536) :
    evPulseTrailingEdge g s = s := by
  cases hhigh : (s.pulse g.val).high with
  | none => simp [evPulseTrailingEdge, hhigh]
  | some t => simp [evPulseTrailingEdge, hhigh, hwaits t hhigh]

end Pulse

/-! ## EVT pins (R293 to R295) -/

section Evt
variable {n : Fin 16} {r : Bool} {phase : Nat}

theorem happens_evtEdge {u : State} (hphase : phase < 16) (h : evEvtEdge n ⟨r, phase⟩ s = u) :
    Happens (.evtEdge n ⟨r, phase⟩) s u := h ▸ happens_of_guarded rfl (decide_eq_true hphase)

theorem evEvtEdge_still (hstill : (s.evtPin n.val).output = true ∨ (s.evtPin n.val).level = some r) :
    evEvtEdge n ⟨r, phase⟩ s = s := by
  rcases hstill with hout | hlevel
  · simp [evEvtEdge, hout]
  · simp [evEvtEdge, hlevel]

variable (hin : (s.evtPin n.val).output = false) (hmoves : (s.evtPin n.val).level ≠ some r)
include hin hmoves

theorem evEvtEdge_unselected (hunselected : bit (s.evtPin n.val).edges (if r then 0 else 1) = false) :
    evEvtEdge n ⟨r, phase⟩ s = s.setEvtPin n.val { s.evtPin n.val with level := some r } := by
  simp [evEvtEdge, hin, hmoves, hunselected]

variable (hselected : bit (s.evtPin n.val).edges (if r then 0 else 1) = true)
include hselected

theorem evEvtEdge_detected
    (hapart : ∀ x ∈ (s.evtPin n.val).lastEdge, s.stampAt phase < x ∨ x + 4 * 65536 ≤ s.stampAt phase) :
    evEvtEdge n ⟨r, phase⟩ s =
      (s.setEvtPin n.val { s.evtPin n.val with level := some r }).evtDetected n.val r (s.stampAt phase) := by
  cases hlast : (s.evtPin n.val).lastEdge with
  | none => simp [evEvtEdge, hin, hmoves, hselected, hlast]
  | some x =>
    have hfar : ¬ (x ≤ s.stampAt phase ∧ s.stampAt phase < x + 4 * 65536) := by
      have := hapart x hlast
      omega
    simp only [evEvtEdge, hin, hmoves, hselected, hlast, hfar]
    rfl

/-- The pin after an edge that is merged into the last. -/
def EvtPin.merges (v : EvtPin) (r : Bool) (t : Nat) : EvtPin :=
  { v with level := some r, lastEdge := some t, merged := v.merged + 1 }

theorem evEvtEdge_merged {x : Nat} (hlast : (s.evtPin n.val).lastEdge = some x) (hafter : x ≤ s.stampAt phase)
    (hnear : s.stampAt phase < x + 4 * 65536) :
    evEvtEdge n ⟨r, phase⟩ s = ((s.setEvtPin n.val { s.evtPin n.val with level := some r }).setEvtPin n.val
      ((s.evtPin n.val).merges r (s.stampAt phase))).mapQz fun q => { q with lostEdges := q.lostEdges + 1 } := by
  have hmerges : decide (x ≤ s.stampAt phase ∧ s.stampAt phase < x + 4 * 65536) = true := decide_eq_true ⟨hafter, hnear⟩
  simp only [evEvtEdge, EvtPin.merges, hin, hmoves, hselected, hlast, hmerges, if_true]
  rfl

end Evt

theorem evtPin_setEvtPin_of_edge {v : EvtPin} {t : Nat} (hlast : v.lastEdge = some t) (s : State) (n : Nat) :
    (s.setEvtPin n v).evtPin n = v :=
  kvGet_kvSet_of_ne (fun hinit => by rw [hinit] at hlast; cases hlast) _ n

/-! ## Epochs (R303, R308) -/

theorem evEpochEvent_raises (hlive : s.schedLive = true) (hmajority : s.majority = true) (hfree : s.qz.held = false)
    (hreached : s.epochReached (s.epochIndex s.qz.nextEpoch) = true) :
    evEpochEvent s = ((s.mapQz fun q => { q with nextEpoch := s.qz.nextEpoch + 1 }).raiseEvent 169
      (s.epochIndex s.qz.nextEpoch) s.qz.nextEpoch).frOwnEpoch s.qz.nextEpoch := by
  simp [evEpochEvent, hlive, hmajority, hfree, hreached]

theorem evEpochEvent_waits (hwaits : s.majority = false ∨ s.qz.held = true ∨ s.schedLive = false ∨
    s.epochReached (s.epochIndex s.qz.nextEpoch) = false) : evEpochEvent s = s := by
  rcases hwaits with hnone | hheld | hidle | hearly
  · simp [evEpochEvent, hnone]
  · simp [evEpochEvent, hheld]
  · simp [evEpochEvent, hidle]
  · simp [evEpochEvent, hearly]

/-! ## The claim -/

section Happenings
variable {u : State}

theorem happens_pulseEdge {g : Fin 8} (h : evPulseEdge g s = u) : Happens (.pulseEdge g) s u := h ▸ happens_of_guarded rfl rfl

theorem happens_pulseTrailingEdge {g : Fin 8} (h : evPulseTrailingEdge g s = u) : Happens (.pulseTrailingEdge g) s u :=
  h ▸ happens_of_guarded rfl rfl

theorem happens_epochEvent (h : evEpochEvent s = u) : Happens .epochEvent s u := h ▸ happens_of_guarded rfl rfl

end Happenings

end Events

/-- Settles O52: each event happens as its meaning says, and the lemma for its case says what that leads to. What a dropped
record counts as is the model's choice (log entry 104), and an epoch's moment without a mapping its reading (log entry 108). -/
theorem pulsesAndPinsAct : Obligations.PulsesAndPinsAct := by
  unfold Obligations.PulsesAndPinsAct
  refine ⟨?drives, ?skips, ?waits, ?ends, ?stays, ?detected, ?merged, ?unselected, ?still, ?epoch, ?noEpoch⟩
  case drives =>
    intro s g t hedge hleft hdue hmajority hfree
    exact happens_pulseEdge (evPulseEdge_drives hedge hleft hdue hmajority hfree)
  case skips => exact fun s g t hedge hleft hdue hheld => happens_pulseEdge (evPulseEdge_skips hedge hleft hdue hheld)
  case waits => exact fun s g hwaits => happens_pulseEdge (evPulseEdge_waits hwaits)
  case ends => exact fun s g t hhigh hover => happens_pulseTrailingEdge (evPulseTrailingEdge_ends hhigh hover)
  case stays => exact fun s g hwaits => happens_pulseTrailingEdge (evPulseTrailingEdge_waits hwaits)
  case detected =>
    intro s n r phase hphase hin hmoves hselected hapart
    exact happens_evtEdge hphase (evEvtEdge_detected hin hmoves hselected hapart)
  case merged =>
    intro s n r phase x hphase hin hmoves hselected hlast hafter hnear
    refine ⟨_, happens_evtEdge hphase (evEvtEdge_merged hin hmoves hselected hlast hafter hnear), ?_⟩
    have hpin := evtPin_setEvtPin_of_edge (v := (s.evtPin n.val).merges r (s.stampAt phase)) rfl
      (s.setEvtPin n.val { s.evtPin n.val with level := some r }) n.val
    have hmerged := congrArg EvtPin.merged hpin
    have hseq := congrArg EvtPin.seq hpin
    have hlevel := congrArg EvtPin.level hpin
    exact ⟨hmerged, hseq, hlevel, rfl, rfl⟩
  case unselected =>
    intro s n r phase hphase hin hmoves hunselected
    exact happens_evtEdge hphase (evEvtEdge_unselected hin hmoves hunselected)
  case still => exact fun s n r phase hphase hstill => happens_evtEdge hphase (evEvtEdge_still hstill)
  case epoch =>
    exact fun s hlive hmajority hfree hreached => happens_epochEvent (evEpochEvent_raises hlive hmajority hfree hreached)
  case noEpoch => exact fun s hwaits => happens_epochEvent (evEpochEvent_waits hwaits)

end Sys2Proof.Machine
end

section
/-! What a contradicted replica, its return and the return of a majority do (R306 to R310), event by event. The claim of O53 is
put together from them. -/

namespace Sys2Proof.Machine

/-! ## Replicas -/

section Replicas
variable (s : State) (r : Fin 3)

@[simp] theorem replica_setReplica (v : Replica) : (s.setReplica r v).replica r = v := by
  match r with
  | 0 | 1 | 2 => rfl

theorem replica_of_qz {s t : State} (h : t.qz = s.qz) : t.replica r = s.replica r := by
  unfold State.replica
  rw [h]

@[simp] theorem replica_dissentCounted : (s.mapQz fun q => { q with dissents := q.dissents + 1 }).replica r = s.replica r := by
  match r with
  | 0 | 1 | 2 => rfl

@[simp] theorem replica_raise (p arg : Nat) : (s.raise p arg).replica r = s.replica r :=
  replica_of_qz r (raise_qz s p arg)

/-- The dissents of the last 60 s, this one among them. -/
def State.recentDissents : List Nat := s.ns :: (s.replica r).dissents.filter (fun t => s.ns < t + 60000000000)

/-- The dissenter is out of the vote since some second, fenced by its third dissent. -/
theorem dissent_replica : ∃ sec, (s.dissent r).replica r = { s.replica r with
    inVote := false, fenced := (s.replica r).fenced || decide (3 ≤ (s.recentDissents r).length),
    dissents := s.recentDissents r, outSec := sec } := by
  unfold State.dissent
  dsimp only
  generalize State.now _ / secUnits = sec
  refine ⟨sec, ?_⟩
  split <;> simp [State.recentDissents]

end Replicas

/-! ## Dissents (R306 to R308, R310) -/

section Dissent
variable {s : State} {r : Fin 3} (hvotes : (s.replica r).inVote = true)
include hvotes

section Time
variable {v : Nat}

theorem evReplicaDissent_contradicted
    (hagree : (s.setReplica r { s.replica r with time := v }).othersAgree r = true)
    (hdiffers : votedRaw (s.setReplica r { s.replica r with time := v }).replicas ≠ some v) :
    evReplicaDissent r (.time v) s = (s.setReplica r { s.replica r with time := v }).dissent r := by
  have hin : ¬ (!(s.replica r).inVote) = true := by simp [hvotes]
  exact (if_neg hin).trans ((if_pos hagree).trans (if_neg hdiffers))

theorem evReplicaDissent_noMajority
    (hsplit : (s.setReplica r { s.replica r with time := v }).othersAgree r = false)
    (hnone : (s.setReplica r { s.replica r with time := v }).majority = false) :
    evReplicaDissent r (.time v) s = (s.setReplica r { s.replica r with time := v }).noMajority := by
  have hin : ¬ (!(s.replica r).inVote) = true := by simp [hvotes]
  exact (if_neg hin).trans ((if_neg (Bool.eq_false_iff.mp hsplit)).trans (if_neg (Bool.eq_false_iff.mp hnone)))

end Time

/-- A voted output, a conversion and an evaluation of a delay are voted alike where the others agree. -/
theorem evReplicaDissent_agreed (hagree : s.othersAgree r = true) :
    evReplicaDissent r .output s = s.dissent r ∧ evReplicaDissent r .conversion s = s.dissent r ∧
      ∀ i, evReplicaDissent r (.delay i) s = s.dissent r := by
  simp [evReplicaDissent, hvotes, hagree]

theorem evReplicaDissent_split (hsplit : s.othersAgree r = false) :
    evReplicaDissent r .output s = s ∧
      evReplicaDissent r .conversion s = { s with qz := { s.qz with convFail := true } } ∧
      ∀ i, evReplicaDissent r (.delay i) s = { s with qz := { s.qz with voteFail := s.qz.voteFail ++ [i] } } := by
  simp [evReplicaDissent, hvotes, hsplit, State.mapQz]

end Dissent

/-! ## Returns (R307, R309) -/

section Return
variable {s : State} {r : Fin 3}

theorem evReplicaRejoin_loads {x : Nat} (hvoted : votedRaw s.replicas = some x) (hout : (s.replica r).inVote = false)
    (hfree : (s.replica r).fenced = false) (hlater : (s.replica r).outSec < s.now / secUnits) :
    ∃ a, evReplicaRejoin r s = (s.setReplica r { s.replica r with time := x, adj := a, inVote := true }).mapQz fun q =>
      { q with resyncs := q.resyncs + 1 } := by
  simp only [evReplicaRejoin, hvoted, hout, hfree, Nat.not_le.mpr hlater]
  exact ⟨_, rfl⟩

theorem evReplicaRejoin_fenced (hfenced : (s.replica r).fenced = true) : evReplicaRejoin r s = s := by
  unfold evReplicaRejoin
  dsimp only
  split
  · rfl
  · simp [hfenced]

theorem evMajorityReturn_resumes (hheld : s.qz.held = true) (hmajority : s.majority = true)
    (hsecond : s.qz.heldSec ≠ some (s.now / secUnits)) :
    evMajorityReturn s = ((s.mapQz fun q =>
      { q with held := false, agreedAt := if q.agreedAt.isSome then q.agreedAt else some s.ns }).skipPulses
        (s.now + 1)).lateEpoch := by
  simp [evMajorityReturn, hheld, hmajority, hsecond]

theorem evMajorityReturn_waits
    (hwaits : s.majority = false ∨ s.qz.held = false ∨ s.qz.heldSec = some (s.now / secUnits)) : evMajorityReturn s = s := by
  rcases hwaits with hnone | hfree | hsecond
  · simp [evMajorityReturn, hnone]
  · simp [evMajorityReturn, hfree]
  · simp [evMajorityReturn, hsecond]

end Return

/-! ## The claim -/

section Happenings
variable {s u : State} {r : Fin 3}

theorem happens_replicaDissent {f : ReplicaFault} (hwf : (Instr.replicaDissent r f).wf = true)
    (h : evReplicaDissent r f s = u) : Happens (.replicaDissent r f) s u := h ▸ happens_of_guarded rfl hwf

theorem happens_replicaRejoin (h : evReplicaRejoin r s = u) : Happens (.replicaRejoin r) s u := h ▸ happens_of_guarded rfl rfl

theorem happens_majorityReturn (h : evMajorityReturn s = u) : Happens .majorityReturn s u := h ▸ happens_of_guarded rfl rfl

end Happenings

/-- Settles O53: each event happens as its meaning says, and the lemma for its case says what that leads to. What is held once
for the three replicas is the model's reading (log entry 109). -/
theorem replicasVote : Obligations.ReplicasVote := by
  unfold Obligations.ReplicasVote
  refine ⟨?contradicted, ?dissenter, ?noMajority, ?delay, ?agreed, ?split, ?rejoins, ?fenced, ?resumes, ?waits⟩
  case contradicted =>
    intro s r v hv hvotes hagree hdiffers
    exact happens_replicaDissent (decide_eq_true hv) (evReplicaDissent_contradicted hvotes hagree hdiffers)
  case dissenter =>
    intro s r _
    obtain ⟨sec, hdissent⟩ := dissent_replica s r
    rw [hdissent]
    rfl
  case noMajority =>
    intro s r v hv hvotes hsplit hnone
    exact happens_replicaDissent (decide_eq_true hv) (evReplicaDissent_noMajority hvotes hsplit hnone)
  case delay =>
    intro s r i hi hvotes hsplit
    obtain ⟨-, -, hdelay⟩ := evReplicaDissent_split hvotes hsplit
    exact happens_replicaDissent (decide_eq_true hi) (hdelay i)
  case agreed =>
    intro s r hvotes hagree
    obtain ⟨houtput, hconversion, hdelay⟩ := evReplicaDissent_agreed hvotes hagree
    exact ⟨happens_replicaDissent rfl houtput, happens_replicaDissent rfl hconversion,
      fun i hi => happens_replicaDissent (decide_eq_true hi) (hdelay i)⟩
  case split =>
    intro s r hvotes hsplit
    obtain ⟨houtput, hconversion, -⟩ := evReplicaDissent_split hvotes hsplit
    exact ⟨happens_replicaDissent rfl houtput, happens_replicaDissent rfl hconversion⟩
  case rejoins =>
    intro s r x hvoted hout hfree hlater
    obtain ⟨a, hrejoin⟩ := evReplicaRejoin_loads hvoted hout hfree hlater
    have hreplica := replica_setReplica s r { s.replica r with time := x, adj := a, inVote := true }
    refine ⟨_, happens_replicaRejoin hrejoin, congrArg Replica.inVote hreplica, congrArg Replica.time hreplica, ?_⟩
    match r with
    | 0 | 1 | 2 => rfl
  case fenced => exact fun s r hfenced => happens_replicaRejoin (evReplicaRejoin_fenced hfenced)
  case resumes =>
    exact fun s hheld hmajority hsecond => happens_majorityReturn (evMajorityReturn_resumes hheld hmajority hsecond)
  case waits => exact fun s hwaits => happens_majorityReturn (evMajorityReturn_waits hwaits)

end Sys2Proof.Machine
end

section
/-! What a write to a register does (R281, R371 to R375, R426, R432, R444, R453, R468, R471, R527, R538), register by register.
The claim of O42 is put together from them. -/

namespace Sys2Proof.Machine

section Writes
variable {s u : State} {v : Nat}

/-! ## Quartz and the router (R281, R371, R374, R375) -/

theorem evQzSnapTake_set (hbit : bit v 0 = true) : evQzSnapTake v s = s.takeSnapshot := if_pos hbit

theorem evQzSnapTake_clear (hbit : bit v 0 = false) : evQzSnapTake v s = s := if_neg (Bool.eq_false_iff.mp hbit)

theorem happens_qzSnapTake (hv : v < 2 ^ 64) (h : evQzSnapTake v s = u) : Happens (.qzSnapTake v) s u :=
  h ▸ happens_of_guarded rfl (decide_eq_true hv)

theorem evErCfire_clear (hgo : bit v 7 = false) : evErCfire v s = s := if_neg (Bool.eq_false_iff.mp hgo)

theorem happens_erCfire (hv : v < 2 ^ 64) (h : evErCfire v s = u) : Happens (.erCfire v) s u :=
  h ▸ happens_of_guarded rfl (decide_eq_true hv)

theorem evErConfigWrite_sel {n : Nat} (hn : n < 128) :
    evErConfigWrite (0x1000 + 8 * n) v s = s.mapEr fun r => { r with sel := kvSet 0 r.sel n (v % 256) } := by
  have hhere : ((0x1000 + 8 * n) % 8 = 0 && 0x1000 ≤ 0x1000 + 8 * n && 0x1000 + 8 * n < 0x1400 : Bool) = true := by
    simp
    omega
  have hindex : (0x1000 + 8 * n - 0x1000) / 8 = n := by omega
  rw [evErConfigWrite, if_neg (by omega), if_pos hhere, hindex]

theorem evErConfigWrite_fixEn {n : Nat} (hn : n < 128) :
    evErConfigWrite (0x1400 + 8 * n) v s = s.mapEr fun r => { r with fixEn := kvSet 0 r.fixEn n (v % 16) } := by
  have hafter : ¬ ((0x1400 + 8 * n) % 8 = 0 && 0x1000 ≤ 0x1400 + 8 * n && 0x1400 + 8 * n < 0x1400 : Bool) = true := by
    simp
  have hhere : ((0x1400 + 8 * n) % 8 = 0 && 0x1400 ≤ 0x1400 + 8 * n && 0x1400 + 8 * n < 0x1800 : Bool) = true := by
    simp
    omega
  have hindex : (0x1400 + 8 * n - 0x1400) / 8 = n := by omega
  rw [evErConfigWrite, if_neg (by omega), if_neg hafter, if_pos hhere, hindex]

theorem happens_erConfigWrite {off : Nat} (hoff : off < 65536) (hv : v < 2 ^ 64) (h : evErConfigWrite off v s = u) :
    Happens (.erConfigWrite off v) s u := by
  have hwf : (Instr.erConfigWrite off v).wf = true := by simp only [Instr.wf, hoff, hv, decide_true, Bool.and_self]
  exact h ▸ happens_of_guarded rfl hwf

/-! ## REMAP (R426, R432) -/

theorem evMxCtrlRemap_served {m : Nat} (hmay : s.coreMayWrite m = true) :
    evMxCtrlRemap v m s = (s.grant m).mapMem fun x => { x with remap := x.remap || bit v 0 } := by
  simp [evMxCtrlRemap, hmay]

theorem evMxCtrlRemap_refused {m : Nat} (hmay : s.coreMayWrite m = false) :
    evMxCtrlRemap v m s = (s.grant m).errResp := by
  simp [evMxCtrlRemap, hmay]

theorem happens_mxCtrlRemap {m : Nat} (hv : v < 2 ^ 64) (hm : m ≤ 2) (h : evMxCtrlRemap v m s = u) :
    Happens (.mxCtrlRemap v m) s u := by
  have hwf : (Instr.mxCtrlRemap v m).wf = true := by simp only [Instr.wf, hm, hv, decide_true, Bool.and_self]
  exact h ▸ happens_of_guarded rfl hwf

/-! ## Queues (R437, R453, R468, R471) -/

section Queues
variable {q : Nat}

theorem happens_rqDb (hq : q < 4096) (hv : v < 2 ^ 64) (h : evRqDb q v s = u) : Happens (.rqDb q v) s u := by
  have hwf : (Instr.rqDb q v).wf = true := by simp only [Instr.wf, hq, hv, decide_true, Bool.and_self]
  exact h ▸ happens_of_guarded rfl hwf

theorem happens_rqCfgEnable (hq : q < 4096) (hv : v < 2 ^ 64) (h : evRqCfgEnable q v s = u) :
    Happens (.rqCfgEnable q v) s u := by
  have hwf : (Instr.rqCfgEnable q v).wf = true := by simp only [Instr.wf, hq, hv, decide_true, Bool.and_self]
  exact h ▸ happens_of_guarded rfl hwf

theorem evRqDb_off (hoff : s.domainOn 85 = false) : evRqDb q v s = s.errResp := by
  simp [evRqDb, hoff]

theorem evRqCfgEnable_off (hoff : s.domainOn 85 = false) : evRqCfgEnable q v s = s.errResp := by
  simp [evRqCfgEnable, hoff]

variable (hon : s.domainOn 85 = true)
include hon

theorem evRqDb_within (hok : (s.queue q).doorbellOk (v % 2 ^ 32) = true) :
    evRqDb q v s = (s.setQueue q (if hostProduced (s.queue q).kind then { s.queue q with prod := v % 2 ^ 32 }
      else { s.queue q with cons := v % 2 ^ 32 })).settleQueue q := by
  have hserved : ¬ (!s.domainOn 85) = true := by simp [hon]
  exact (if_neg hserved).trans (if_pos hok)

theorem evRqDb_beyond (hbad : (s.queue q).doorbellOk (v % 2 ^ 32) = false) :
    evRqDb q v s = (s.setQueue q { s.queue q with dbBad := true }).mapRing fun g => { g with dbBad := g.dbBad + 1 } := by
  have hserved : ¬ (!s.domainOn 85) = true := by simp [hon]
  exact (if_neg hserved).trans (if_neg (Bool.eq_false_iff.mp hbad))

theorem evRqCfgEnable_on : evRqCfgEnable q v s = s.writeRqCfg q v := if_pos hon

end Queues

section Config
variable {q : Nat}

/-- Only queues 0 to 7 are configured by registers. -/
theorem writeRqCfg_other (hq : 8 ≤ q) : s.writeRqCfg q v = s := if_pos hq

theorem writeRqCfg_enabled (hq : q < 8) (henable : (s.queue q).enable = true) : s.writeRqCfg q v =
    if bit v 3 then s else (s.setQueue q { s.queue q with enable := false, prod := 0, cons := 0 }).settleQueue q :=
  (if_neg (Nat.not_le.mpr hq)).trans (if_pos henable)

/-- The queue as RQ_CFG gives it. -/
def Queue.configured (n : Queue) (v : Nat) : Queue :=
  { n with kind := v % 8, esize := v / 16 % 16, entries := v / 2 ^ 16 % 32, pair := v / 2 ^ 32 % 4096,
           vector := v / 2 ^ 48 % 65536 }

theorem writeRqCfg_disabled (hq : q < 8) (hdisabled : (s.queue q).enable = false) : s.writeRqCfg q v =
    s.setQueue q (if bit v 3 = false then (s.queue q).configured v
      else if s.enableOk q ((s.queue q).configured v)
        then { (s.queue q).configured v with enable := true, prod := 0, cons := 0 }
      else { (s.queue q).configured v with accessErr := true }) := by
  refine (if_neg (Nat.not_le.mpr hq)).trans ((if_neg (Bool.eq_false_iff.mp hdisabled)).trans ?_)
  cases bit v 3 with
  | false => rfl
  | true => exact (apply_ite (s.setQueue q) _ _ _).symm

end Config

/-! ## Recovery (R527, R538) -/

theorem sawMail_pwr (s t : State) : (State.sawMail s t).pwr = t.pwr := by
  simp only [State.sawMail, List.foldl_cons, List.foldl_nil]
  repeat' split
  all_goals rfl

@[simp] theorem sramStore_pwr (s : State) (off : Nat) (bs : List Byte) : (s.sramStore off bs).pwr = s.pwr := by
  unfold State.sramStore
  dsimp only
  split
  · rw [sawMail_pwr]
    rfl
  · rfl

theorem evBtRecData_stores (hphase : s.pwr.phase = 5) : evBtRecData v s =
    (s.sramStore s.pwr.recAddr ((leBytes 8 v).take (0x400000 - s.pwr.recAddr))).mapPwr fun p =>
      { p with recAddr := (s.pwr.recAddr + 8) % 0x400000 } := by
  simp [evBtRecData, hphase, State.mapPwr]

theorem evBtRecData_elsewhere (hphase : s.pwr.phase ≠ 5) : evBtRecData v s = s := if_pos hphase

theorem evBtRecGo_elsewhere (hphase : s.pwr.phase ≠ 5) : evBtRecGo v s = s := by
  simp [evBtRecGo, hphase]

theorem evBtRecGo_clear (hgo : bit v 0 = false) : evBtRecGo v s = s := by
  simp [evBtRecGo, hgo]

theorem evBtRecGo_checks (hphase : s.pwr.phase = 5) (hgo : bit v 0 = true) : evBtRecGo v s =
    if s.pwr.imageFail (imageAt 0 s.mem.sram 0) = 0 then (s.programSlot0 (imageAt 0 s.mem.sram 0)).deviceReset 4
    else { s with pwr := { s.pwr with fail := s.pwr.imageFail (imageAt 0 s.mem.sram 0) } } := by
  have hchecked : ¬ (decide (s.pwr.phase ≠ 5) || !bit v 0) = true := by simp [hphase, hgo]
  exact if_neg hchecked

theorem happens_btRecData (hv : v < 2 ^ 64) (h : evBtRecData v s = u) : Happens (.btRecData v) s u :=
  h ▸ happens_of_guarded rfl (decide_eq_true hv)

theorem happens_btRecGo (hv : v < 2 ^ 64) (h : evBtRecGo v s = u) : Happens (.btRecGo v) s u :=
  h ▸ happens_of_guarded rfl (decide_eq_true hv)

/-! ## Injected errors (R444, R446) -/

section Inject

@[simp] theorem hc_setHc (m : MemState) (h : Nat) (c : HbmCtl) : (m.setHc h c).hc h = c := by
  unfold MemState.setHc MemState.hc
  repeat' split
  all_goals rfl

@[simp] theorem bad_setHc (m : MemState) (h : Nat) (c : HbmCtl) : (m.setHc h c).bad = m.bad := by
  unfold MemState.setHc
  repeat' split
  all_goals rfl

@[simp] theorem hc_bad (m : MemState) (bad : KV Nat) (h : Nat) : ({ m with bad := bad } : MemState).hc h = m.hc h := rfl

variable {h : Fin 4}

theorem happens_hcInjAddr (hv : v < 2 ^ 48) (hev : evHcInjAddr h v s = u) : Happens (.hcInjAddr h v) s u :=
  hev ▸ happens_of_guarded rfl (decide_eq_true (Nat.lt_trans hv (by decide)))

/-- The address is kept and the mode is spent, whatever follows. -/
def State.injected (s : State) (h : Fin 4) (v : Nat) : State := s.bumpHc h.val fun c => { c with injAddr := v, injMode := 0 }

/-- The unit that an address lies in, by its offset in HBM. -/
abbrev injectUnit (v : Nat) : Nat := (v - 0x1000000000) / 32 * 32

/-- The address names a unit of this stack, which is on. -/
structure InjectsAt (s : State) (h : Fin 4) (v : Nat) : Prop where
  low : 0x1000000000 ≤ v
  high : v < 0x2800000000
  stack : stackOf (injectUnit v) = h.val
  on : s.domainOn (76 + h.val) = true

/-- The bad words of the unit, as modes 1 and 2 leave them. -/
def badInjected (mode bad w : Nat) : Nat :=
  if mode = 1 then flipOne bad w else withBit (withBit bad w false) (w + 4) true

variable (hv : v < 2 ^ 48)
include hv

theorem evHcInjAddr_outside (hout : ¬ InjectsAt s h v) : evHcInjAddr h v s = s.injected h v := by
  have hcond : (!(0x1000000000 ≤ v && v < 0x2800000000) || stackOf (injectUnit v) ≠ h.val ||
      !s.domainOn (76 + h.val) : Bool) = true := by
    refine Classical.byContradiction fun hinside => ?_
    simp only [Bool.or_eq_true, Bool.not_eq_true', decide_eq_true_eq, not_or, Bool.not_eq_false, Bool.and_eq_true,
      Decidable.not_not] at hinside
    obtain ⟨⟨⟨hlow, hhigh⟩, hstack⟩, hon⟩ := hinside
    exact hout ⟨hlow, hhigh, hstack, hon⟩
  simp only [evHcInjAddr, Nat.mod_eq_of_lt hv]
  exact if_pos hcond

theorem evHcInjAddr_inside (hat : InjectsAt s h v) : evHcInjAddr h v s =
    if (s.mem.hc h.val).injMode = 1 ∨ (s.mem.hc h.val).injMode = 2 then
      (s.injected h v).draw.mapMem fun m => { m with
        bad := kvSet 0 m.bad (injectUnit v)
          (badInjected (s.mem.hc h.val).injMode (kvGet 0 s.mem.bad (injectUnit v)) (Config.freeNat s.draws 0 % 4)) }
    else if (s.mem.hc h.val).injMode = 3 then
      (s.injected h v).bumpHc h.val fun c => { c with parity := kvBump c.parity (injectUnit v) 1 }
    else s.injected h v := by
  obtain ⟨hlow, hhigh, hstack, hon⟩ := hat
  have hcond : ¬ (!(0x1000000000 ≤ v && v < 0x2800000000) || stackOf (injectUnit v) ≠ h.val ||
      !s.domainOn (76 + h.val) : Bool) = true := by
    simp [hlow, hhigh, hstack, hon]
  simp only [evHcInjAddr, Nat.mod_eq_of_lt hv]
  refine (if_neg hcond).trans ?_
  by_cases hone : (s.mem.hc h.val).injMode = 1
  · simp only [hone, badInjected, State.injected, true_or, if_true]
  · by_cases htwo : (s.mem.hc h.val).injMode = 2
    · simp [htwo, badInjected, State.injected]
    · simp only [hone, htwo, or_self, if_false, State.injected]

theorem evHcInjAddr_keeps
    (hout : v < 0x1000000000 ∨ 0x2800000000 ≤ v ∨ stackOf (injectUnit v) ≠ h.val ∨
      s.domainOn (76 + h.val) = false ∨ (s.mem.hc h.val).injMode = 0) :
    evHcInjAddr h v s = s.injected h v := by
  by_cases hat : InjectsAt s h v
  · obtain ⟨hlow, hhigh, hstack, hon⟩ := hat
    have hmode : (s.mem.hc h.val).injMode = 0 := by
      rcases hout with hbelow | habove | hother | hoff | hmode
      · omega
      · omega
      · exact absurd hstack hother
      · rw [hon] at hoff
        cases hoff
      · exact hmode
    rw [evHcInjAddr_inside hv ⟨hlow, hhigh, hstack, hon⟩, hmode]
    rfl
  · exact evHcInjAddr_outside hv hat

end Inject

/-! ## Registers where a write reaches them -/

theorem regIndex_above {base n off : Nat} (h : base + 8 * n ≤ off) : regIndex base n off = none := by
  simp [regIndex, Nat.not_lt.mpr h]

theorem regIndex_at {base n i : Nat} (hi : i < n) : regIndex base n (base + 8 * i) = some i := by
  have hbound : base + 8 * i < base + 8 * n := by omega
  simp [regIndex, hbound]

theorem writeRouter_pqueue {n : Nat} (hn : n < 256) : s.writeRouter (0x3000 + 8 * n) v =
    s.mapEr fun r => { r with pqueue := kvSet 0xFFFF r.pqueue n (v % 65536) } := by
  have hfar {x : Nat} (hx : x < 0x3000) : ¬ 0x3000 + 8 * n = x := by omega
  rw [State.writeRouter, if_neg (hfar (by decide)), if_neg (hfar (by decide)), if_neg (hfar (by decide)),
    regIndex_above (by omega), regIndex_above (by omega), regIndex_above (by omega), regIndex_at hn]

/-- Register `r` of queue `q` lies here among the registers of rings (R430). -/
structure QueueReg (off q r : Nat) : Prop where
  space : ¬ 0x1000000 ≤ off
  queues : (0x10000 ≤ off && off < 0x50000 : Bool) = true
  queue : (off - 0x10000) / 64 = q
  reg : off % 64 = r

theorem queueReg_of {q r off : Nat} (hq : q < 4096) (hr : r < 64) (hoff : off = 0x10000 + r + 64 * q) : QueueReg off q r := by
  constructor
  · omega
  · simp
    omega
  · omega
  · omega

section Rings
variable {q off : Nat}

theorem writeRings_base (hreg : QueueReg off q 0) : s.writeRings off v =
    if decide (q < 8) && !(s.queue q).enable then s.setQueue q { s.queue q with base := v % 2 ^ 48 } else s := by
  obtain ⟨hspace, hqueues, hqueue, hreg⟩ := hreg
  simp only [State.writeRings, if_neg hspace, if_pos hqueues, hqueue, hreg]

theorem writeRings_wb (hreg : QueueReg off q 0x10) : s.writeRings off v =
    if decide (q < 8) && !(s.queue q).enable then s.setQueue q { s.queue q with wb := v % 2 ^ 48 } else s := by
  obtain ⟨hspace, hqueues, hqueue, hreg⟩ := hreg
  simp only [State.writeRings, if_neg hspace, if_pos hqueues, hqueue, hreg]

theorem writeRings_coal (hreg : QueueReg off q 0x28) : s.writeRings off v =
    if decide (q < 8) && !(s.queue q).enable then s.setQueue q { s.queue q with coal := v % 65536 } else s := by
  obtain ⟨hspace, hqueues, hqueue, hreg⟩ := hreg
  simp only [State.writeRings, if_neg hspace, if_pos hqueues, hqueue, hreg]

theorem writeRings_err (hreg : QueueReg off q 0x30) : s.writeRings off v = s.setQueue q { s.queue q with
    dbBad := (s.queue q).dbBad && !bit v 0, accessErr := (s.queue q).accessErr && !bit v 1 } := by
  obtain ⟨hspace, hqueues, hqueue, hreg⟩ := hreg
  simp only [State.writeRings, if_neg hspace, if_pos hqueues, hqueue, hreg]

end Rings

end Writes

/-! ## The claim -/

/-- Settles O42: each write happens as its register's meaning says, and the lemma for its case says what that leads to. That an
injected parity error waits for the next access to its unit is the model's reading (log entry 50). -/
theorem registerWritesAct : Obligations.RegisterWritesAct := by
  unfold Obligations.RegisterWritesAct
  refine ⟨?take, ?noTake, ?swFire, ?cfire, ?noCfire, ?mode, ?route, ?remap, ?noRemap, ?doorbell, ?badDoorbell, ?configure,
    ?disable, ?otherQueue, ?recData, ?noRecovery, ?noGo, ?go, ?parity, ?noInject, ?badWord, ?ringsOff, ?matrix, ?boot,
    ?quartz, ?injectMode, ?openQueue, ?closedQueue, ?flags⟩
  case take => exact fun s v hv hbit => happens_qzSnapTake hv (evQzSnapTake_set hbit)
  case noTake => exact fun s v hv hbit => happens_qzSnapTake hv (evQzSnapTake_clear hbit)
  case swFire => exact fun s v hv => happens_of_guarded rfl (decide_eq_true hv)
  case cfire => exact fun s v hv hgo => happens_erCfire hv (if_pos hgo)
  case noCfire => exact fun s v hv hgo => happens_erCfire hv (evErCfire_clear hgo)
  case mode => exact fun s v hv => happens_erConfigWrite (by decide) hv rfl
  case route =>
    exact fun s n v hn hv => ⟨happens_erConfigWrite (by omega) hv (evErConfigWrite_sel hn),
      happens_erConfigWrite (by omega) hv (evErConfigWrite_fixEn hn)⟩
  case remap => exact fun s v m hv hm hmay => happens_mxCtrlRemap hv hm (evMxCtrlRemap_served hmay)
  case noRemap => exact fun s v m hv hm hmay => happens_mxCtrlRemap hv hm (evMxCtrlRemap_refused hmay)
  case doorbell => exact fun s q v hq hv hon hok => happens_rqDb hq hv (evRqDb_within hon hok)
  case badDoorbell => exact fun s q v hq hv hon hbad => happens_rqDb hq hv (evRqDb_beyond hon hbad)
  case configure =>
    rintro s q v n hq hv hon hdisabled rfl
    exact happens_rqCfgEnable (by omega) hv ((evRqCfgEnable_on hon).trans (writeRqCfg_disabled hq hdisabled))
  case disable =>
    intro s q v hq hv hon henabled
    exact happens_rqCfgEnable (by omega) hv ((evRqCfgEnable_on hon).trans (writeRqCfg_enabled hq henabled))
  case otherQueue =>
    exact fun s q v hlow hq hv hon => happens_rqCfgEnable hq hv ((evRqCfgEnable_on hon).trans (writeRqCfg_other hlow))
  case recData => exact fun s v hv hphase => happens_btRecData hv (evBtRecData_stores hphase)
  case noRecovery =>
    exact fun s v hv hphase => ⟨happens_btRecData hv (evBtRecData_elsewhere hphase),
      happens_btRecGo hv (evBtRecGo_elsewhere hphase)⟩
  case noGo => exact fun s v hv hgo => happens_btRecGo hv (evBtRecGo_clear hgo)
  case go =>
    intro s v hv hphase hgo
    have hchecks := evBtRecGo_checks hphase hgo
    split
    · next hgood => exact happens_btRecGo hv (hchecks.trans (if_pos hgood))
    · next hbad => exact happens_btRecGo hv (hchecks.trans (if_neg hbad))
  case parity =>
    intro s h v hv hlow hhigh hstack hon hmode
    have hev := evHcInjAddr_inside hv ⟨hlow, hhigh, hstack, hon⟩
    rw [hmode] at hev
    refine ⟨_, happens_hcInjAddr hv hev, ?_⟩
    simp [State.injected, State.bumpHc]
  case noInject => exact fun s h v hv hout => happens_hcInjAddr hv (evHcInjAddr_keeps hv hout)
  case badWord =>
    intro s h v hv hlow hhigh hstack hon hmode
    have hev := (evHcInjAddr_inside hv ⟨hlow, hhigh, hstack, hon⟩).trans (if_pos hmode)
    refine ⟨_, happens_hcInjAddr hv hev, ?_, ?_, Config.freeNat s.draws 0 % 4, Nat.mod_lt _ (by decide), ?_⟩
    · simp [State.injected, State.bumpHc]
    · simp [State.injected, State.bumpHc]
    · simp [State.injected, State.bumpHc, badInjected]
  case ringsOff =>
    exact fun s q v hq hv hoff => ⟨happens_rqDb hq hv (evRqDb_off hoff), happens_rqCfgEnable hq hv (evRqCfgEnable_off hoff)⟩
  case matrix => exact fun s v => ⟨rfl, rfl⟩
  case boot => exact fun s v => ⟨rfl, rfl⟩
  case quartz => exact fun s v n hn => ⟨rfl, rfl, writeRouter_pqueue hn⟩
  case injectMode => exact fun s h v hmode => if_neg hmode
  case openQueue =>
    intro s q v hq hdisabled
    have hopen : (decide (q < 8) && !(s.queue q).enable) = true := by simp [hq, hdisabled]
    exact ⟨(writeRings_base (queueReg_of (by omega) (by decide) rfl)).trans (if_pos hopen),
      (writeRings_wb (queueReg_of (by omega) (by decide) rfl)).trans (if_pos hopen),
      (writeRings_coal (queueReg_of (by omega) (by decide) rfl)).trans (if_pos hopen)⟩
  case closedQueue =>
    intro s q v hq hclosed
    have hnotOpen : ¬ (decide (q < 8) && !(s.queue q).enable) = true := by
      rcases hclosed with hother | henabled
      · simp [Nat.not_lt.mpr hother]
      · simp [henabled]
    exact ⟨(writeRings_base (queueReg_of hq (by decide) rfl)).trans (if_neg hnotOpen),
      (writeRings_wb (queueReg_of hq (by decide) rfl)).trans (if_neg hnotOpen),
      (writeRings_coal (queueReg_of hq (by decide) rfl)).trans (if_neg hnotOpen)⟩
  case flags => exact fun s q v hq => writeRings_err (queueReg_of hq (by decide) rfl)

end Sys2Proof.Machine
end

section
/-! The state after reset (R279, R374, R395, R457, R476, R508, R513, R524, R532, R538, R539): the claim of O3. -/

namespace Sys2Proof.Machine

/-- Every domain is OFF and in mode AUTO, a number that names none included. -/
theorem domain_reset (d : Nat) : State.reset.domain d = {} := by
  unfold State.domain
  split
  · exact Vector.getElem_replicate _
  · rfl

theorem now_reset : State.reset.now = 0 := by decide

/-- The tables of the router hold one entry each, of the input "decimator reset". -/
theorem kvGet_single (d v k n : Nat) : kvGet d [(k, v)] n = if n = k then v else d := by
  simp only [kvGet, ite_self, eq_comm]

/-- Settles O3, field by field: the reset state has the defaults of its fields. That no layout is loaded and no producer feeds a
queue are the model's values (log entry 33), that nothing waits or is in progress its reading (log entry 35). -/
theorem resetStateIsAsSpecified : Obligations.ResetStateIsAsSpecified := by
  unfold Obligations.ResetStateIsAsSpecified
  have hdomain (d : Nat) : (State.reset.domain d).state = .off ∧ (State.reset.domain d).mode = 0 := by
    rw [domain_reset]
    exact ⟨rfl, rfl⟩
  exact ⟨rfl, rfl, rfl, rfl, fun _ => rfl, fun _ => rfl, rfl, rfl, by decide, now_reset, rfl, rfl, hdomain, rfl, rfl, rfl, rfl,
    fun n _ => ⟨kvGet_single 0 187 73 n, kvGet_single 0 1 73 n⟩, fun _ _ => rfl⟩

end Sys2Proof.Machine
end

section
/-! What the commands of the Freran bus do when they are accepted, command by command (R326, R327, R340 to R343). The claim of O27
is put together from them. -/

namespace Sys2Proof.Machine

section Commands
variable {c : Cmd} {s : State}

theorem doFreranSetNode_ok (s : State) (hmode : fld c.params 0 1 ≤ 2) (hnode : fld c.params 0 1 = 1 → fld c.params 1 1 ≤ 7)
    (hrearm : fld c.params 3 1 ≤ 1) (hlatency : 65536 ≤ fld c.params 4 4)
    (hus : 1 ≤ fld c.params 8 4 ∧ fld c.params 8 4 ≤ 10000000) :
    doFreranSetNode c s = .ok (s.mapFr fun f => { f with
      mode := fld c.params 0 1, node := fld c.params 1 1, master := fld c.params 2 1,
      rearm := decide (fld c.params 3 1 = 1), maxLatency := fld c.params 4 4, rearmUs := fld c.params 8 4 }) := by
  have hsmall : fld c.params 0 1 ≠ 1 ∨ fld c.params 1 1 ≤ 7 := Decidable.not_or_of_imp hnode
  rw [doFreranSetNode, firstBad_eq_none.mpr]
  simp [hmode, hsmall, hrearm, hlatency, hus]

/-! ## Ports (R326, R341) -/

/-- The port that FRERAN_SET_PORT names. -/
def freranPortAt (p : List Byte) : Fin 2 := if fld p 0 1 = 0 then 0 else 1

/-- A port that was off starts its 10 ms of silence when it is set on. -/
theorem doFreranSetPort_on (s : State) (hport : fld c.params 0 1 ≤ 1) (hon : fld c.params 1 1 = 1) :
    doFreranSetPort c s = .ok (s.setFrPort (freranPortAt c.params) { s.frPort (freranPortAt c.params) with
      enable := true, asym := sfld c.params 4 4,
      heardAt := if (s.frPort (freranPortAt c.params)).enable then (s.frPort (freranPortAt c.params)).heardAt else s.ns }) := by
  rw [doFreranSetPort, firstBad_eq_none.mpr]
  · simp only [hon, if_true]
    rfl
  · simp [hport, hon]

theorem doFreranSetPort_off (s : State) (hport : fld c.params 0 1 ≤ 1) (hoff : fld c.params 1 1 = 0) :
    doFreranSetPort c s = .ok ((s.frLink (freranPortAt c.params) false).setFrPort (freranPortAt c.params)
      { (s.frLink (freranPortAt c.params) false).frPort (freranPortAt c.params) with
        enable := false, asym := sfld c.params 4 4, up := false, run := 0, asked := none, means := [] }) := by
  rw [doFreranSetPort, firstBad_eq_none.mpr]
  · simp only [hoff, Nat.zero_ne_one, if_false]
    rfl
  · simp [hport, hoff]

/-! ## Arming (R327, R342) -/

theorem doFreranArm_slave (c : Cmd) (hslave : s.frMaster = false) : doFreranArm c s = .fail stBadParam s := by
  simp [doFreranArm, hslave]

section Master
variable (hmaster : s.frMaster = true)
include hmaster

theorem doFreranArm_arms (haction : fld c.params 0 1 = 1) (hnewer : s.fr.gen < fld c.params 4 4) :
    doFreranArm c s = .ok ((s.frSend 3 (fld c.params 4 4) 0 0).frArm (fld c.params 4 4)) := by
  simp [doFreranArm, hmaster, haction, Nat.not_le.mpr hnewer]

theorem doFreranArm_stale (haction : fld c.params 0 1 = 1) (hstale : fld c.params 4 4 ≤ s.fr.gen) :
    doFreranArm c s = .bad 4 s := by
  simp [doFreranArm, hmaster, haction, hstale]

theorem doFreranArm_disarms (haction : fld c.params 0 1 = 0) :
    doFreranArm c s = .ok ((s.frSend 4 (fld c.params 4 4) 0 0).frDisarm (fld c.params 4 4)) := by
  simp [doFreranArm, hmaster, haction]

theorem doFreranArm_badAction (haction : 1 < fld c.params 0 1) : doFreranArm c s = .bad 0 s := by
  simp [doFreranArm, hmaster, haction]

end Master

theorem frArm_noWindow (g : Nat) (hnone : s.fr.windows = []) :
    s.frArm g = s.mapFr fun f => { f with gen := g, armed := true } := by
  simp [State.frArm, State.mapFr, hnone]

/-- While a window of another generation is open, arming waits for its commit. -/
theorem frArm_otherWindow {g h x : Nat} {l : List Fire} (hopen : s.fr.windows = [(h, x, l)]) (hother : h ≠ g) :
    s.frArm g = s.mapFr fun f => { f with armNext := some g } := by
  simp [State.frArm, State.mapFr, hopen, hother]

/-- DISARM is for the generation that it names (log entry 83). -/
theorem frDisarm_armed (s : State) (g : Nat) : (s.frDisarm g).fr.armed = (s.fr.armed && decide (s.fr.gen ≠ g)) := rfl

/-! ## Status (R343) -/

theorem doFreranGetStatus_begins (c : Cmd) (s : State) : ∃ rest, doFreranGetStatus c s = .okWith
    (beBytes 1 (if s.fr.windows ≠ [] then 2 else b2n s.fr.armed) ++
      beBytes 1 (b2n s.fr.port0.up + 2 * b2n s.fr.port1.up) ++ zeros 2 ++ beBytes 4 s.fr.gen ++ rest) s := by
  unfold doFreranGetStatus
  simp only [List.append_assoc]
  exact ⟨_, rfl⟩

end Commands

/-! ## The claim -/

/-- Settles O27: the node and the ports are journalled, and each command's body does as claimed once its checks pass. That DISARM
disarms only the generation it names is the model's reading (log entry 83). -/
theorem freranCommandsAct : Obligations.FreranCommandsAct := by
  unfold Obligations.FreranCommandsAct
  refine ⟨?node, ?on, ?off, ?arms, ?stale, ?slave, ?disarms, ?badAction, ?atOnce, ?waits, ?disarmed, ?status⟩
  case node =>
    refine setsJournalled_of (fun _ _ => rfl) rfl (ownRecord_ne_nil _) fun c u hgood => ?_
    obtain ⟨hmode, hnode, hrearm, hlatency, hus⟩ := of_decide_eq_true hgood
    exact doFreranSetNode_ok u hmode hnode hrearm hlatency hus
  case on =>
    refine setsJournalled_of (fun _ _ => rfl) rfl (ownRecord_ne_nil _) fun c u hgood => ?_
    obtain ⟨hport, hon⟩ := of_decide_eq_true hgood
    exact doFreranSetPort_on u hport hon
  case off =>
    refine setsJournalled_of (fun _ _ => rfl) rfl (ownRecord_ne_nil _) fun c u hgood => ?_
    obtain ⟨hport, hoff⟩ := of_decide_eq_true hgood
    exact doFreranSetPort_off u hport hoff
  case arms =>
    refine sets_of (fun _ _ => rfl) (fun _ _ => rfl) (by decide) fun c u hgood => ?_
    simp only [Bool.and_eq_true, decide_eq_true_eq] at hgood
    obtain ⟨hmaster, haction, hnewer⟩ := hgood
    exact doFreranArm_arms hmaster haction hnewer
  case stale =>
    refine rejects_of (fun _ _ => rfl) fun c u hgood => ?_
    simp only [Bool.and_eq_true, decide_eq_true_eq] at hgood
    obtain ⟨hmaster, haction, hstale⟩ := hgood
    exact doFreranArm_stale hmaster haction hstale
  case slave =>
    refine executes_of (fun _ _ => rfl) (fun _ _ => rfl) (by decide) fun c u hgood => ?_
    have hbody : specFreranArm.body c u = .fail stBadParam u := doFreranArm_slave c (by simpa using hgood)
    rw [hbody]
    exact ⟨rfl, rfl, rfl⟩
  case disarms =>
    refine sets_of (fun _ _ => rfl) (fun _ _ => rfl) (by decide) fun c u hgood => ?_
    simp only [Bool.and_eq_true, decide_eq_true_eq] at hgood
    obtain ⟨hmaster, haction⟩ := hgood
    exact doFreranArm_disarms hmaster haction
  case badAction =>
    refine rejects_of (fun _ _ => rfl) fun c u hgood => ?_
    simp only [Bool.and_eq_true, decide_eq_true_eq] at hgood
    obtain ⟨hmaster, haction⟩ := hgood
    exact doFreranArm_badAction hmaster haction
  case atOnce => exact fun s g hnone => frArm_noWindow g hnone
  case waits => exact fun s g h x l hopen hother => frArm_otherWindow hopen hother
  case disarmed => exact frDisarm_armed
  case status => exact reads_of (fun _ _ => rfl) (fun _ _ => rfl) (by decide) fun c u _ => doFreranGetStatus_begins c u

end Sys2Proof.Machine
end

section
/-! What the links of the Freran bus do (R323 to R330): messages received, echoes asked, silence, the close of a collection window
and the master's rearming. The claim of O54 is put together from them. -/

namespace Sys2Proof.Machine

section Events
variable {s : State} {p : Fin 2} {ph : Nat}

/-! ## Messages received (R323 to R326) -/

section Receive
variable {b : List Byte}

theorem evFreranMessageReceive_disabled (message : FreranArrival) (hoff : (s.frPort p).enable = false) :
    evFreranMessageReceive p message s = s := by
  simp [evFreranMessageReceive, hoff]

variable (hon : (s.frPort p).enable = true)
include hon

theorem evFreranMessageReceive_invalid (hparse : frParse b = none) :
    evFreranMessageReceive p ⟨b, ph⟩ s = s.mapFr fun f => { f with rxErrors := f.rxErrors + 1 } := by
  simp [evFreranMessageReceive, hon, hparse]

/-- A valid message has been heard, and then its type and the state of the port say what is done with it. -/
theorem evFreranMessageReceive_valid {u : State} {m : FrMsg} (hparse : frParse b = some m)
    (hu : u = s.setFrPort p { s.frPort p with heardAt := s.ns }) :
    evFreranMessageReceive p ⟨b, ph⟩ s =
      if m.kind = 1 then ((u.emit (.freran p.val (u.frOwn 2 0 m.b (Config.freeNat s.draws 0)).bytes)).frCounted).draw
      else if m.kind = 2 then u.frEcho p m (s.ballStamp ph)
      else if (s.frPort p).up = true ∧ 3 ≤ m.kind ∧ m.kind ≤ 6 then u.frForwarded p m (s.ballStamp ph)
      else u := by
  subst hu
  simp only [evFreranMessageReceive, hon, hparse]
  by_cases hrequest : m.kind = 1
  · simp [hrequest]
  by_cases hanswer : m.kind = 2
  · simp [hanswer]
  simp [hrequest, hanswer, and_assoc]

end Receive

/-! ## Echoes (R325) -/

theorem evFreranEchoSend_disabled (hoff : (s.frPort p).enable = false) : evFreranEchoSend ⟨p, ph⟩ s = s := by
  simp [evFreranEchoSend, hoff]

theorem evFreranEchoSend_early (hearly : s.ns < (s.frPort p).sentAt + 1000000) : evFreranEchoSend ⟨p, ph⟩ s = s := by
  simp [evFreranEchoSend, hearly]

/-- An exchange that is still unanswered when the port asks anew ends the run of valid ones. -/
theorem evFreranEchoSend_asks (hon : (s.frPort p).enable = true) (hdue : (s.frPort p).sentAt + 1000000 ≤ s.ns) :
    evFreranEchoSend ⟨p, ph⟩ s =
      ((s.emit (.freran p.val (s.frOwn 1 0 (s.ballStamp ph % 2 ^ 64) 0).bytes)).frCounted).setFrPort p { s.frPort p with
        asked := some (s.ballStamp ph % 2 ^ 64), sentAt := s.ns,
        run := if (s.frPort p).asked.isSome then 0 else (s.frPort p).run } := by
  simp [evFreranEchoSend, hon, Nat.not_lt.mpr hdue]

/-! ## Silence (R326) -/

theorem evFreranLinkTimeout_silent (hsilent : (s.frPort p).heardAt + 10000000 ≤ s.ns) :
    evFreranLinkTimeout p s = (s.frLink p false).setFrPort p
      { s.frPort p with up := false, run := 0, means := [], asked := none } := if_pos hsilent

theorem evFreranLinkTimeout_heard (hheard : s.ns < (s.frPort p).heardAt + 10000000) : evFreranLinkTimeout p s = s :=
  if_neg (Nat.not_le.mpr hheard)

/-! ## Windows and rearming (R327, R329, R330) -/

theorem evFreranWindowClose_commits {g at_ : Nat} {fires : List Fire} (hopen : s.fr.windows = [(g, at_, fires)])
    (hdue : at_ * 65536 + 2 * s.fr.maxLatency ≤ s.ns * 65536) : evFreranWindowClose s = s.frCommit g fires := by
  simp [evFreranWindowClose, hopen, hdue]

theorem evFreranWindowClose_waits
    (hwaits : ∀ w ∈ s.fr.windows, s.ns * 65536 < w.2.1 * 65536 + 2 * s.fr.maxLatency) : evFreranWindowClose s = s := by
  have hnone : (s.fr.windows.find? fun w => w.2.1 * 65536 + 2 * s.fr.maxLatency ≤ s.ns * 65536) = none :=
    List.find?_eq_none.mpr fun w hw => by simpa using hwaits w hw
  simp [evFreranWindowClose, hnone]

/-- A due rearming is taken off the list, and only a master that still rearms sends ARM. -/
theorem evFreranRearm_due {x g : Nat} {rest : List (Nat × Nat)} (hnext : s.fr.rearmAt = (x, g) :: rest) (hdue : x ≤ s.ns) :
    evFreranRearm s = if s.frMaster = true ∧ s.fr.rearm = true
      then ((s.mapFr fun f => { f with rearmAt := rest }).frSend 3 g 0 0).frArm (g % 2 ^ 32)
      else s.mapFr fun f => { f with rearmAt := rest } := by
  simp [evFreranRearm, hnext, Nat.not_lt.mpr hdue]

theorem evFreranRearm_waits (hwaits : ∀ x ∈ s.fr.rearmAt.head?, s.ns < x.1) : evFreranRearm s = s := by
  cases hlist : s.fr.rearmAt with
  | nil => simp [evFreranRearm, hlist]
  | cons e rest =>
    have hearly : s.ns < e.1 := hwaits e (by simp [hlist])
    simp [evFreranRearm, hlist, hearly]

/-! ## The claim -/

section Happenings
variable {u : State}

theorem happens_freranMessageReceive {b : List Byte} (hlen : b.length = 36) (hph : ph < 65536)
    (h : evFreranMessageReceive p ⟨b, ph⟩ s = u) : Happens (.freranMessageReceive p ⟨b, ph⟩) s u :=
  h ▸ happens_of_guarded rfl (Bool.and_eq_true_iff.mpr ⟨decide_eq_true hlen, decide_eq_true hph⟩)

theorem happens_freranEchoSend (hph : ph < 65536) (h : evFreranEchoSend ⟨p, ph⟩ s = u) : Happens (.freranEchoSend ⟨p, ph⟩) s u :=
  h ▸ happens_of_guarded rfl (decide_eq_true hph)

theorem happens_freranLinkTimeout (h : evFreranLinkTimeout p s = u) : Happens (.freranLinkTimeout p) s u :=
  h ▸ happens_of_guarded rfl rfl

theorem happens_freranWindowClose (h : evFreranWindowClose s = u) : Happens .freranWindowClose s u :=
  h ▸ happens_of_guarded rfl rfl

theorem happens_freranRearm (h : evFreranRearm s = u) : Happens .freranRearm s u := h ▸ happens_of_guarded rfl rfl

end Happenings

end Events

/-- Settles O54: each event happens as its meaning says, and the lemma for its case says what that leads to. How a timestamp is cut
to 0.8 ns is the model's choice (log entry 104). -/
theorem freranLinksAct : Obligations.FreranLinksAct := by
  unfold Obligations.FreranLinksAct
  refine ⟨?invalid, ?valid, ?disabled, ?asks, ?early, ?silent, ?heard, ?commits, ?opens, ?rearms, ?waits⟩
  case invalid =>
    intro s p b ph hlen hph hon hparse
    exact happens_freranMessageReceive hlen hph (evFreranMessageReceive_invalid hon hparse)
  case valid =>
    intro s u p b ph m hlen hph hon hparse hu
    exact happens_freranMessageReceive hlen hph (evFreranMessageReceive_valid hon hparse hu)
  case disabled =>
    intro s p b ph hlen hph hoff
    exact ⟨happens_freranMessageReceive hlen hph (evFreranMessageReceive_disabled _ hoff),
      happens_freranEchoSend hph (evFreranEchoSend_disabled hoff)⟩
  case asks => exact fun s p ph hph hon hdue => happens_freranEchoSend hph (evFreranEchoSend_asks hon hdue)
  case early => exact fun s p ph hph hearly => happens_freranEchoSend hph (evFreranEchoSend_early hearly)
  case silent => exact fun s p hsilent => happens_freranLinkTimeout (evFreranLinkTimeout_silent hsilent)
  case heard => exact fun s p hheard => happens_freranLinkTimeout (evFreranLinkTimeout_heard hheard)
  case commits => exact fun s g at_ fires hopen hdue => happens_freranWindowClose (evFreranWindowClose_commits hopen hdue)
  case opens => exact fun s hwaits => happens_freranWindowClose (evFreranWindowClose_waits hwaits)
  case rearms => exact fun s x g rest hnext hdue => happens_freranRearm (evFreranRearm_due hnext hdue)
  case waits => exact fun s hwaits => happens_freranRearm (evFreranRearm_waits hwaits)

end Sys2Proof.Machine
end

section
/-! What every step does, whatever command or event it takes (R389, R517): the claims of O1, O2, O4 and O7. -/

namespace Sys2Proof.Machine

/-- Every command and event is judged by its own form, and what it leads to is settled: `exec` has no other shape. -/
theorem exec_guarded (i : Instr) (s : State) : ∃ after, exec i s = guarded i s after := by
  cases i <;> exact ⟨_, rfl⟩

/-- What a step leads to has its domains settled. -/
theorem step_settled {s t : State} (h : step s = .next t) : ∃ u v : State, t = u.settled v := by
  unfold step at h
  split at h
  · exact ⟨s, _, (Host.Outcome.next.inj h).symm⟩
  · next i rest _ =>
    obtain ⟨after, hexec⟩ := exec_guarded i { s with pending := rest }
    rw [hexec] at h
    unfold guarded at h
    split at h
    · exact ⟨_, after, (Host.Outcome.next.inj h).symm⟩
    · cases h

/-! ## Domains -/

/-- Once a domain has followed, it is not OFF when it is wanted and not ON when it is not. -/
theorem followed_state (s : State) (d : Nat) :
    (s.wantsOn d = true → (s.followed d).state ≠ .off) ∧ (s.wantsOn d = false → (s.followed d).state ≠ .on) := by
  unfold State.followed
  cases s.wantsOn d with
  | false =>
    refine ⟨Bool.noConfusion, fun _ => ?_⟩
    simp only [Bool.false_eq_true, if_false]
    split
    · exact nofun
    · assumption
  | true =>
    refine ⟨fun _ => ?_, Bool.noConfusion⟩
    simp only [if_true]
    split
    · exact nofun
    · assumption

/-- Settling changes no mode, and what the rules say depends on no domain's state: what was wanted still is. -/
theorem wantsOn_settleDomains {s : State} (h : s.managed = true) {d : Nat} (hd : d < 96) :
    s.settleDomains.wantsOn d = s.wantsOn d := by
  unfold State.wantsOn
  rw [domain_settleDomains s h hd, mode_followed, autoWants_settleDomains]

theorem settled_domainsFollow (s t : State) : (s.settled t).DomainsFollow := by
  intro hmanaged d hd
  rw [managed_settled] at hmanaged
  have hwants : (s.settled t).wantsOn d = t.wantsOn d := wantsOn_settleDomains hmanaged hd
  have hdomain : (s.settled t).domain d = t.followed d := domain_settleDomains t hmanaged hd
  rw [hwants, hdomain]
  exact followed_state t d

/-! ## The claims -/

/-- Settles O1: both sides are the same by the definition of `step`. That an empty queue lets a tick pass is the model's choice
(log entry 1). -/
theorem stepTakesTheFront : Obligations.StepTakesTheFront := by
  unfold Obligations.StepTakesTheFront
  refine ⟨fun _ _ _ => rfl, fun s hempty => ?_⟩
  rw [step, hempty]

/-- Settles O2: `exec` looks at the form of the command or event alone, and settling keeps the queue (log entry 6). -/
theorem everyCommandCompletes : Obligations.EveryCommandCompletes := by
  unfold Obligations.EveryCommandCompletes
  constructor
  · intro i s hwf
    obtain ⟨after, hexec⟩ := exec_guarded i s
    exact ⟨_, hexec.trans (guarded_next i s after hwf), settled_pending s after⟩
  · intro i s hill
    obtain ⟨after, hexec⟩ := exec_guarded i s
    exact hexec.trans (guarded_fault i s after hill)

/-- Settles O4: a step settles the domains last, whatever happened before. -/
theorem domainsFollowTheirRules : Obligations.DomainsFollowTheirRules := by
  intro s t _ hstep
  obtain ⟨u, v, rfl⟩ := step_settled hstep
  exact settled_domainsFollow u v

/-- Settles O7: at reset no domain is managed, and the memories list nothing (log entry 7). -/
theorem resetMeetsTheInvariants : Obligations.ResetMeetsTheInvariants :=
  ⟨fun hmanaged => absurd hmanaged (by decide), rfl⟩

end Sys2Proof.Machine
end

section
/-! The checks on a command, one after the other (R385, R388, R390 to R392, R411, R412, R534), and what a keepalive and an echo
leave of a state (R395, R403, R420): the claims of O10, O31 and O33. -/

namespace Sys2Proof.Machine

section Checks
variable {s : State} {row : OpRow} {c : Cmd} {n : Nat}

/-! ## Checks 3 to 6 (R390) -/

/-- The state in which a command is judged: its stamp is the one that counts. -/
def State.stamped (s : State) (n : Nat) : State := s.mapOwn fun o => { o with stamp := n, accepted := false }

/-- R397: what a check that fails leaves; a claim has then consumed its client's challenge. -/
def State.refusing (s : State) (row : OpRow) (c : Client) : State :=
  if row.code = 0x0201 then s.consumeChallenge c else s

/-- A renewal of the lease changes neither the owner nor the mode. -/
@[simp] theorem renewed_isOwner (s : State) (c d : Client) : (s.renewed c n).own.isOwner d = s.own.isOwner d := by
  unfold State.renewed
  split <;> rfl

@[simp] theorem renewed_pwr (s : State) (c : Client) : (s.renewed c n).pwr = s.pwr := by
  unfold State.renewed
  split <;> rfl

@[simp] theorem stamped_isOwner (s : State) (d : Client) : (s.stamped n).own.isOwner d = s.own.isOwner d := rfl

@[simp] theorem stamped_pwr (s : State) : (s.stamped n).pwr = s.pwr := rfl

theorem renewed_mayIssue (s : State) :
    ((s.stamped n).renewed c.client n).own.mayIssue row c.client = s.own.mayIssue row c.client := by
  simp only [OwnState.mayIssue, renewed_isOwner, stamped_isOwner]

/-- A command without a time tag keeps its parameters. -/
theorem applyTag_untagged (s : State) (row : OpRow) (htag : c.tag = none) : s.applyTag c row = .ok c.params := by
  unfold State.applyTag
  rw [htag]

/-- Check 3: a signature that is missing or wrong. -/
theorem judged_notAuth (hauth : (s.stamped n).authOk c row n = false) : ∃ u, s.judged row c n = .error (.fail stNotAuth u) := by
  have hfails : (!(s.stamped n).authOk c row n) = true := by rw [hauth]; rfl
  exact ⟨_, if_pos hfails⟩

section Signed
variable (hauth : (s.stamped n).authOk c row n = true)
include hauth

/-- Check 4: a client that may not issue the command. -/
theorem judged_notOwner (hmay : s.own.mayIssue row c.client = false) : ∃ u, s.judged row c n = .error (.fail stNotOwner u) := by
  have hsigned : ¬ (!(s.stamped n).authOk c row n) = true := by rw [hauth]; decide
  have hrefused : (!((s.stamped n).renewed c.client n).own.mayIssue row c.client) = true := by
    rw [renewed_mayIssue, hmay]; rfl
  exact ⟨_, (if_neg hsigned).trans (if_pos hrefused)⟩

section Untagged
variable (hmay : s.own.mayIssue row c.client = true) (htag : c.tag = none)
include hmay htag

/-- Past check 4, a command without a time tag meets the quiesce and then the length of its parameters. -/
theorem judged_untagged : ∃ u v : State, s.judged row c n =
    if s.pwr.phase = 7 && !quiescedAllows row c.params then .error (.fail stBusy u)
    else match row.layout.lengthError c.params with
      | some off => .error (.bad off u)
      | none => .ok (v, c.params) := by
  have hsigned : ¬ (!(s.stamped n).authOk c row n) = true := by rw [hauth]; decide
  have hissued : ¬ (!((s.stamped n).renewed c.client n).own.mayIssue row c.client) = true := by
    rw [renewed_mayIssue, hmay]; decide
  refine ⟨((s.stamped n).renewed c.client n).refusing row c.client, (s.stamped n).renewed c.client n,
    (if_neg hsigned).trans ((if_neg hissued).trans ?_)⟩
  simp only [applyTag_untagged _ _ htag, renewed_pwr, State.mapOwn_pwr]
  rfl

/-- R534: a QUIESCED device does not serve the command. -/
theorem judged_busy (hphase : s.pwr.phase = 7) (hquiesced : quiescedAllows row c.params = false) :
    ∃ u, s.judged row c n = .error (.fail stBusy u) := by
  obtain ⟨u, v, hjudged⟩ := judged_untagged hauth hmay htag
  exact ⟨u, by rw [hjudged, hphase, hquiesced]; rfl⟩

/-- Check 6: the length of the parameters. -/
theorem judged_badLength {off : Nat} (hallows : quiescedAllows row c.params = true)
    (hlength : row.layout.lengthError c.params = some off) : ∃ u, s.judged row c n = .error (.bad off u) := by
  obtain ⟨u, v, hjudged⟩ := judged_untagged hauth hmay htag
  refine ⟨u, ?_⟩
  rw [hjudged, hallows, hlength, Bool.not_true, Bool.and_false]
  rfl

end Untagged
end Signed

theorem mayIssue_notOwner {o : OwnState} (haccess : row.access = .owner) (howner : o.isOwner c.client = false) :
    o.mayIssue row c.client = false := by
  simp [OwnState.mayIssue, haccess, howner]

theorem mayIssue_ep3 {o : OwnState} (haccess : row.access ≠ .read) (hep : c.client.ep = 3) : o.mayIssue row c.client = false := by
  unfold OwnState.mayIssue
  cases h : row.access with
  | read => exact absurd h haccess
  | owner | claim => simp [hep]

theorem mayIssue_read {o : OwnState} (haccess : row.access = .read) : o.mayIssue row c.client = true := by
  simp [OwnState.mayIssue, haccess]

theorem mayIssue_owner {o : OwnState} (haccess : row.access = .owner) (howner : o.isOwner c.client = true)
    (hep : c.client.ep ≠ 3) : o.mayIssue row c.client = true := by
  simp [OwnState.mayIssue, haccess, howner, hep]

theorem quiescedAllows_read (haccess : row.access = .read) (p : List Byte) : quiescedAllows row p = true := by
  simp [quiescedAllows, haccess]

end Checks

/-! ## Before the checks (R385, R391, R392) -/

section Process
variable {s u : State} {spec : Option OpSpec} {w : Waiting}

theorem process_malformed {st : Nat} (hverdict : w.verdict = some st) : s.process spec w =
    s.sendReply w.cmd.client w.cmd.via (replyBytes w.cmd.v2 w.wireCode w.cmd.seq st (s.errorDetail 0xFFFF)) := by
  unfold State.process
  simp only [hverdict]

variable (hverdict : w.verdict = none)
include hverdict

theorem process_noRoom (hentered : (s.counted w).entered w = none) : s.process spec w =
    (s.counted w).sendReply w.cmd.client w.cmd.via
      (replyBytes w.cmd.v2 w.wireCode w.cmd.seq stResource ((s.counted w).errorDetail 0xFFFF)) := by
  unfold State.process
  simp only [hverdict, hentered]

theorem process_duplicate {packet : List Byte} (hentered : (s.counted w).entered w = some (u, .duplicate packet)) :
    s.process spec w = (u.count w.cmd.client.ep fun k => { k with duplicates := k.duplicates + 1 }).sendReply w.cmd.client
      w.cmd.via (repeated w.cmd.v2 packet) := by
  unfold State.process
  simp only [hverdict, hentered]

theorem process_stale (hentered : (s.counted w).entered w = some (u, .stale)) :
    s.process spec w = u.finish w stStaleSeq (u.errorDetail 0xFFFF) := by
  unfold State.process
  simp only [hverdict, hentered]

variable (hentered : (s.counted w).entered w = some (u, .fresh))
include hentered

theorem process_undefined :
    s.process none w = (u.advanced w).finish w stBadOpcode ((u.advanced w).errorDetail 0xFFFF) := by
  unfold State.process
  simp only [hverdict, hentered]

theorem process_judged {sp : OpSpec} {r : Res} (hcrypto : (u.advanced w).cryptoWait sp.row w = false)
    (hjudged : (u.advanced w).judged sp.row w.cmd w.stamp = .error r) :
    s.process (some sp) w = State.answer (u.advanced w) w sp.row r := by
  unfold State.process State.serve
  simp only [hverdict, hentered, hcrypto, hjudged, Bool.false_eq_true, if_false]

end Process

/-- Settles O10: each check finds what it looks for, once those before it have let the command through. -/
theorem checksComeInOrder : Obligations.ChecksComeInOrder := by
  unfold Obligations.ChecksComeInOrder
  refine ⟨?auth, ?owner, ?smbus, ?length, ?quiesced, ?version, ?duplicate, ?stale, ?noRoom, ?undefined, ?judged, ?malformed⟩
  case auth => exact fun s row c n hauth => judged_notAuth hauth
  case owner =>
    exact fun s row c n hauth haccess howner => judged_notOwner hauth (mayIssue_notOwner haccess howner)
  case smbus => exact fun s row c n hauth haccess hep => judged_notOwner hauth (mayIssue_ep3 haccess hep)
  case length =>
    intro s row c n off hauth haccess htag hlength
    exact judged_badLength hauth (mayIssue_read haccess) htag (quiescedAllows_read haccess _) hlength
  case quiesced =>
    intro s row c n hauth haccess howner hep htag hphase hquiesced
    exact judged_busy hauth (mayIssue_owner haccess howner hep) htag hphase hquiesced
  case version =>
    intro spec hcode
    simp [OpSpec.reachable, hcode]
  case duplicate => exact fun s u spec w packet hverdict hentered => process_duplicate hverdict hentered
  case stale => exact fun s u spec w hverdict hentered => process_stale hverdict hentered
  case noRoom => exact fun s spec w hverdict hentered => process_noRoom hverdict hentered
  case undefined => exact fun s u w hverdict hentered => process_undefined hverdict hentered
  case judged => exact fun s u sp w r hverdict hentered hcrypto hjudged => process_judged hverdict hentered hcrypto hjudged
  case malformed => exact fun s spec w st hverdict => process_malformed hverdict

/-! ## Keepalive (R395, R403) -/

/-- Only the owner's command of an owner's row gets past check 4. -/
theorem needsOwner_of_access {row : OpRow} (haccess : row.access = .owner) : NeedsOwner row :=
  fun _ _ _ hauth howner => judged_notOwner hauth (mayIssue_notOwner haccess howner)

/-- A command that is let through starts from the state whose lease its stamp has renewed, where it may be issued. -/
theorem judged_renewed {s u : State} {row : OpRow} {c : Cmd} {n : Nat} {params : List Byte}
    (h : s.judged row c n = .ok (u, params)) :
    u = (s.stamped n).renewed c.client n ∧ s.own.mayIssue row c.client = true := by
  have hsigned : (s.stamped n).authOk c row n = true := by
    refine Bool.of_not_eq_false fun hauth => ?_
    obtain ⟨v, hfails⟩ := judged_notAuth hauth
    exact nomatch h.symm.trans hfails
  have hissued : s.own.mayIssue row c.client = true := by
    refine Bool.of_not_eq_false fun hmay => ?_
    obtain ⟨v, hfails⟩ := judged_notOwner hsigned hmay
    exact nomatch h.symm.trans hfails
  refine ⟨?_, hissued⟩
  unfold State.judged at h
  dsimp only at h
  iterate 5
    split at h
    · cases h
  exact (Prod.mk.inj (Except.ok.inj h)).1.symm

/-- What the lease depends on is the same in both. -/
structure OwnState.SameLease (o p : OwnState) : Prop where
  mode : o.mode = p.mode
  owner : o.owner = p.owner
  leaseMs : o.leaseMs = p.leaseMs
  leaseLeft : o.leaseLeft = p.leaseLeft
  restartAt : o.restartAt = p.restartAt
  chargedTo : o.chargedTo = p.chargedTo
  chargeFrom : o.chargeFrom = p.chargeFrom

theorem OwnState.SameLease.trans {o p q : OwnState} (hop : o.SameLease p) (hpq : p.SameLease q) : o.SameLease q :=
  ⟨hop.mode.trans hpq.mode, hop.owner.trans hpq.owner, hop.leaseMs.trans hpq.leaseMs, hop.leaseLeft.trans hpq.leaseLeft,
    hop.restartAt.trans hpq.restartAt, hop.chargedTo.trans hpq.chargedTo, hop.chargeFrom.trans hpq.chargeFrom⟩

theorem counted_sameLease (s : State) (w : Waiting) : (s.counted w).own.SameLease s.own := by
  unfold State.counted State.count OwnState.setEp
  simp only [State.mapOwn_own]
  split <;> exact ⟨rfl, rfl, rfl, rfl, rfl, rfl, rfl⟩

theorem touch_sameLease {o p : OwnState} {c : Client} {now : Nat} (h : o.touch c now = some p) : p.SameLease o := by
  unfold OwnState.touch at h
  repeat' split at h
  all_goals cases h
  all_goals exact ⟨rfl, rfl, rfl, rfl, rfl, rfl, rfl⟩

theorem entered_sameLease {s u : State} {w : Waiting} {v : SeqVerdict} (h : s.entered w = some (u, v)) :
    u.own.SameLease s.own := by
  unfold State.entered at h
  repeat' split at h
  · cases h
  · cases h
  · next o htouch _ _ _ =>
    obtain ⟨rfl, -⟩ := Prod.mk.inj (Option.some.inj h)
    exact touch_sameLease htouch

theorem advanced_sameLease (s : State) (w : Waiting) : (s.advanced w).own.SameLease s.own := ⟨rfl, rfl, rfl, rfl, rfl, rfl, rfl⟩

/-- A command that is taken may be issued, and starts from a state whose lease its stamp has renewed. -/
theorem takes_renewed {s : State} {spec : OpSpec} {c : Cmd} {k : Taken} (h : s.takes spec c = some k) :
    ∃ v : State, v.own.SameLease s.own ∧ v.own.mayIssue spec.row c.client = true ∧
      k.at_ = (v.stamped s.ns).renewed c.client s.ns := by
  unfold State.takes at h
  dsimp only at h
  split at h
  · split at h
    · next u hentered =>
      obtain ⟨-, -, params, -, hjudged, -, -⟩ := checked_spec h
      obtain ⟨hat, hmay⟩ := judged_renewed hjudged
      exact ⟨_, (advanced_sameLease u _).trans ((entered_sameLease hentered).trans (counted_sameLease s _)), hmay, hat⟩
    · cases h
  · cases h

/-- What the owner's command leaves of the lease: it restarts at the stamp, unless a later restart stands. -/
theorem takes_lease {s : State} {spec : OpSpec} {c : Cmd} {k : Taken} (haccess : spec.row.access = .owner)
    (h : s.takes spec c = some k) :
    (if s.own.restartAt ≤ s.ns then
      k.at_.own.leaseLeft = k.at_.own.leaseMs * 1000000 - (s.own.chargedTo - max s.ns s.own.chargeFrom) ∧ k.at_.own.restartAt = s.ns
     else k.at_.own.leaseLeft = s.own.leaseLeft ∧ k.at_.own.restartAt = s.own.restartAt) ∧
    k.at_.own.owner = s.own.owner ∧ k.at_.own.leaseMs = s.own.leaseMs := by
  obtain ⟨v, hsame, hmay, hat⟩ := takes_renewed h
  have howner : v.own.isOwner c.client = true := by
    refine Bool.of_not_eq_false fun hother => ?_
    rw [mayIssue_notOwner haccess hother] at hmay
    cases hmay
  obtain ⟨-, hown, hms, hleft, hrestart, hcharged, hfrom⟩ := hsame
  rw [hat, ← hown, ← hms, ← hleft, ← hrestart, ← hcharged, ← hfrom]
  unfold State.renewed
  by_cases hlate : v.own.restartAt ≤ s.ns
  · have hrenews : ((v.stamped s.ns).own.isOwner c.client && decide ((v.stamped s.ns).own.restartAt ≤ s.ns)) = true := by
      rw [stamped_isOwner, howner]
      exact decide_eq_true hlate
    rw [if_pos hlate, if_pos hrenews]
    exact ⟨⟨rfl, rfl⟩, rfl, rfl⟩
  · have hstands : ¬ ((v.stamped s.ns).own.isOwner c.client && decide ((v.stamped s.ns).own.restartAt ≤ s.ns)) = true := by
      rw [stamped_isOwner, howner]
      exact fun hle => hlate (of_decide_eq_true hle)
    rw [if_neg hlate, if_neg hstands]
    exact ⟨⟨rfl, rfl⟩, rfl, rfl⟩

/-- Where a layout has no fields, any byte is one too many. -/
theorem lengthError_fixed_nil {p : List Byte} (hp : p ≠ []) : (Layout.fixed []).lengthError p = some 0 := by
  have hlen : 0 < p.length := List.length_pos_iff.mpr hp
  simp [Layout.lengthError, Layout.sizes, firstShort, hlen]

/-- Settles O31: the checks have renewed the lease before OWN_KEEPALIVE is executed, and its body changes nothing. From which
instant a lease restarts is the model's reading (log entry 36). -/
theorem keepaliveOnlyRenews : Obligations.KeepaliveOnlyRenews := by
  unfold Obligations.KeepaliveOnlyRenews
  refine ⟨needsOwner_of_access rfl, needsOwner_of_access rfl, rfl, rfl, ?length, ?keeps, ?renews⟩
  case length => exact fun p hp => ⟨lengthError_fixed_nil hp, lengthError_fixed_nil hp⟩
  case keeps => exact sets_of (fun _ _ => rfl) (fun _ _ => rfl) (by decide) fun _ _ _ => rfl
  case renews =>
    intro s c k htakes
    obtain ⟨hlease, howner, hms⟩ := takes_lease rfl htakes
    exact ⟨hlease, howner, hms, (takes_before htakes).2⟩

/-! ## Echo (R420) -/

/-- Settles O33: the layout of DIAG_ECHO judges no length, and its body answers the parameters. -/
theorem echoReturnsItsParameters : Obligations.EchoReturnsItsParameters := by
  unfold Obligations.EchoReturnsItsParameters
  refine ⟨rfl, fun _ => rfl, ?_⟩
  exact executes_of (fun _ _ => rfl) (fun _ _ => rfl) (by decide) fun _ _ _ => ⟨rfl, rfl, rfl⟩

end Sys2Proof.Machine
end

section
/-! What the ownership commands do when they are accepted, command by command (R395 to R397, R402 to R408). The claim of O30 is put
together from them. -/

namespace Sys2Proof.Machine

/-- A command without records whose body comes to a result of which the claim holds. -/
theorem executes_body {i : Cmd → Instr} {spec : OpSpec} {good : Cmd → State → Bool} {holds : Cmd → State → Res → Prop}
    (he : ∀ c s, exec (i c) s = s.submit spec c) (hr : ∀ c s, spec.records c s = []) (hf : spec.row.code ≠ 0x0E31)
    (h : ∀ c u, good c u = true → ∃ r, spec.body c u = r ∧ holds c u r) : Executes i spec good holds := by
  refine executes_of he hr hf fun c u hgood => ?_
  obtain ⟨r, rfl, hholds⟩ := h c u hgood
  exact hholds

section Commands
variable {c : Cmd} {s : State}

/-! ## OWN_CLAIM (R395 to R397, R402) -/

/-- R402: the lease that a claim asks for is the policy's, or in range. -/
def ClaimInRange (c : Cmd) : Prop := fld c.params 0 4 = 0 ∨ 100 ≤ fld c.params 0 4 ∧ fld c.params 0 4 ≤ 60000

/-- The lease that a claim asks for. -/
def claimMs (c : Cmd) (o : OwnState) : Nat := if fld c.params 0 4 = 0 then o.policy.defaultMs else fld c.params 0 4

/-- The claimant becomes owner. -/
def State.claimedBy (s : State) (c : Cmd) : State :=
  (s.consumeChallenge c.client).mapOwn fun o =>
    o.take c.client (claimMs c s.own) s.own.stamp (s.own.challengeOf c.client 0x0201 s.own.stamp)

/-- The owner's own claim renews its lease. -/
def State.reclaimedBy (s : State) (c : Cmd) : State :=
  (s.consumeChallenge c.client).mapOwn fun o =>
    { ({ o with leaseMs := claimMs c s.own } : OwnState).restart s.own.stamp with
      ownerChallenge := s.own.challengeOf c.client 0x0201 s.own.stamp }

/-- A preempt flag that the policy admits, of a command whose signature was good. -/
def State.preempts (s : State) (c : Cmd) : Bool := bit (fld c.params 4 1) 0 && s.own.policy.preempt && c.sig.isSome

section InRange
variable (hms : ClaimInRange c)
include hms

/-- A claim for a lease in range is judged by its endpoint, the mode, the owner, preemption, and the successor. -/
theorem doOwnClaim_inRange : doOwnClaim c s =
    if !bit s.own.policy.epMask c.client.ep.val then .fail stNotOwner (s.consumeChallenge c.client)
    else if s.own.mode = .unowned then .ok (s.claimedBy c)
    else if s.own.owner = some c.client then .ok (s.reclaimedBy c)
    else if s.preempts c then .ok (s.claimedBy c)
    else match s.own.successor with
      | some (who, n) =>
        if who = c.client then
          (if fld c.params 8 8 = n then .ok (s.claimedBy c) else .fail stNotAuth (s.consumeChallenge c.client))
        else .fail stNotOwner (s.consumeChallenge c.client)
      | none => .fail stNotOwner (s.consumeChallenge c.client) := by
  have hrange : ¬ (fld c.params 0 4 ≠ 0 && (fld c.params 0 4 < 100 || 60000 < fld c.params 0 4) : Bool) = true := by
    simp only [Bool.and_eq_true, Bool.or_eq_true, decide_eq_true_eq]
    unfold ClaimInRange at hms
    omega
  exact if_neg hrange

theorem doOwnClaim_endpoint (hep : bit s.own.policy.epMask c.client.ep.val = false) :
    doOwnClaim c s = .fail stNotOwner (s.consumeChallenge c.client) := by
  rw [doOwnClaim_inRange hms, hep]
  rfl

section Admitted
variable (hep : bit s.own.policy.epMask c.client.ep.val = true)
include hep

theorem doOwnClaim_unowned (hmode : s.own.mode = .unowned) : doOwnClaim c s = .ok (s.claimedBy c) := by
  simp [doOwnClaim_inRange hms, hep, hmode]

variable (hmode : s.own.mode ≠ .unowned)
include hmode

theorem doOwnClaim_owner (howner : s.own.owner = some c.client) : doOwnClaim c s = .ok (s.reclaimedBy c) := by
  simp [doOwnClaim_inRange hms, hep, hmode, howner]

variable (howner : s.own.owner ≠ some c.client)
include howner

theorem doOwnClaim_preempts (hpreempts : s.preempts c = true) : doOwnClaim c s = .ok (s.claimedBy c) := by
  simp [doOwnClaim_inRange hms, hep, hmode, howner, hpreempts]

variable (hpreempts : s.preempts c = false)
include hpreempts

theorem doOwnClaim_noSuccessor (hnone : s.own.successor = none) :
    doOwnClaim c s = .fail stNotOwner (s.consumeChallenge c.client) := by
  simp [doOwnClaim_inRange hms, hep, hmode, howner, hpreempts, hnone]

theorem doOwnClaim_third {who : Client} {n : Nat} (hsuccessor : s.own.successor = some (who, n)) (hother : who ≠ c.client) :
    doOwnClaim c s = .fail stNotOwner (s.consumeChallenge c.client) := by
  simp [doOwnClaim_inRange hms, hep, hmode, howner, hpreempts, hsuccessor, hother]

theorem doOwnClaim_successor {n : Nat} (hsuccessor : s.own.successor = some (c.client, n)) : doOwnClaim c s =
    if fld c.params 8 8 = n then .ok (s.claimedBy c) else .fail stNotAuth (s.consumeChallenge c.client) := by
  simp [doOwnClaim_inRange hms, hep, hmode, howner, hpreempts, hsuccessor]

end Admitted

/-- Where nobody has been named, another client's claim that does not preempt is refused, whatever its endpoint. -/
theorem doOwnClaim_refused (hmode : s.own.mode ≠ .unowned) (howner : s.own.owner ≠ some c.client)
    (hpreempts : s.preempts c = false) (hnone : s.own.successor = none) :
    doOwnClaim c s = .fail stNotOwner (s.consumeChallenge c.client) := by
  cases hep : bit s.own.policy.epMask c.client.ep.val with
  | false => exact doOwnClaim_endpoint hms hep
  | true => exact doOwnClaim_noSuccessor hms hep hmode howner hpreempts hnone

end InRange

theorem preempts_unflagged (hflag : bit (fld c.params 4 1) 0 = false) : s.preempts c = false := by
  simp [State.preempts, hflag]

theorem mode_ne_unowned {o : OwnState} {m : OwnMode} (hmode : o.mode = m) (hm : m ≠ .unowned) : o.mode ≠ .unowned := hmode ▸ hm

/-! ## OWN_HANDOVER (R404) -/

/-- R404: the parameters name a client. -/
structure SuccessorValid (p : List Byte) : Prop where
  endpoint : fld p 0 1 ≤ 2
  ring : fld p 0 1 = 0 → fld p 1 1 = 0 ∧ fld p 2 2 < 4096
  family : fld p 0 1 ≠ 0 → fld p 1 1 = 4 ∨ fld p 1 1 = 6

theorem doOwnHandover_valid (s : State) (hvalid : SuccessorValid c.params) : doOwnHandover c s =
    if fld c.params 24 8 = 0 then .ok (s.mapOwn fun o => { o with successor := none, mode := .owned })
    else if s.own.owner = some (successorOf c.params) then .bad 0 s
    else .ok (s.mapOwn fun o => { o with successor := some (successorOf c.params, fld c.params 24 8), mode := .handover }) := by
  obtain ⟨hep, hring, hfamily⟩ := hvalid
  rw [doOwnHandover, firstBad_eq_none.mpr]
  by_cases hzero : fld c.params 0 1 = 0
  · obtain ⟨hfam, hport⟩ := hring hzero
    simp [hzero, hfam, hport]
  · simpa [hep, hzero] using hfamily hzero

/-! ## Lease, policy and status (R405 to R408) -/

theorem doOwnSetLease_ok (s : State) (hlow : 100 ≤ fld c.params 0 4) (hhigh : fld c.params 0 4 ≤ 60000) :
    doOwnSetLease c s = .ok (s.mapOwn fun o => ({ o with leaseMs := fld c.params 0 4 } : OwnState).restart s.own.stamp) := by
  simp [doOwnSetLease, Nat.not_lt.mpr hlow, Nat.not_lt.mpr hhigh]

theorem doOwnSetLease_bad (s : State) (hout : fld c.params 0 4 < 100 ∨ 60000 < fld c.params 0 4) :
    doOwnSetLease c s = .bad 0 s := by
  simp [doOwnSetLease, hout]

theorem doOwnSetPolicy_ok (s : State) (hauth : fld c.params 1 1 ≤ 1) (hpreempt : fld c.params 2 1 ≤ 1)
    (hlow : 100 ≤ fld c.params 4 4) (hhigh : fld c.params 4 4 ≤ 60000) :
    doOwnSetPolicy c s = .ok (s.mapOwn fun o => { o with policy :=
      ⟨fld c.params 0 1 % 8, decide (fld c.params 1 1 = 1), decide (fld c.params 2 1 = 1), fld c.params 4 4⟩ }) := by
  rw [doOwnSetPolicy, firstBad_eq_none.mpr]
  simp [hauth, hpreempt, hlow, hhigh]

theorem doOwnGetStatus_begins (c : Cmd) (s : State) (hep : fld c.params 0 1 ≤ 3) : ∃ rest, doOwnGetStatus c s = .okWith
    (beBytes 1 s.own.mode.code ++ beBytes 1 (match s.own.owner with | some o => o.ep.val | none => 0xFF) ++ rest) s := by
  have hin : fld c.params 0 1 < 4 := by omega
  unfold doOwnGetStatus
  simp only [dif_pos hin, List.append_assoc]
  cases s.own.owner <;> exact ⟨_, rfl⟩

theorem doOwnGetStatus_bad (s : State) (hep : 3 < fld c.params 0 1) : doOwnGetStatus c s = .bad 0 s :=
  dif_neg (by omega)

end Commands

/-! ## The claim -/

/-- Settles O30: each command's body does as claimed once its checks pass. That the generation counts every change of owner is the
model's reading (log entry 9). -/
theorem ownershipCommandsAct : Obligations.OwnershipCommandsAct := by
  unfold Obligations.OwnershipCommandsAct
  refine ⟨?unowned, ?own, ?preempts, ?refused, ?successor, ?release, ?names, ?withdraws, ?lease, ?badLease, ?policy, ?third,
    ?wrongNonce, ?endpoint, ?unpermitted, ?challenge, ?status, ?badStatus⟩
  case unowned =>
    refine executes_body (fun _ _ => rfl) (fun _ _ => rfl) (by decide) fun c u hgood => ?_
    simp only [Bool.and_eq_true, decide_eq_true_eq] at hgood
    obtain ⟨⟨hms, hmode⟩, hep⟩ := hgood
    exact ⟨_, doOwnClaim_unowned hms hep hmode, rfl, rfl, rfl, rfl, rfl, rfl, rfl, rfl, rfl⟩
  case own =>
    refine executes_body (fun _ _ => rfl) (fun _ _ => rfl) (by decide) fun c u hgood => ?_
    simp only [Bool.and_eq_true, decide_eq_true_eq] at hgood
    obtain ⟨⟨hms, hmode, howner⟩, hep⟩ := hgood
    exact ⟨_, doOwnClaim_owner hms hep hmode howner, rfl, rfl, rfl, rfl, rfl, rfl, rfl, rfl, rfl⟩
  case preempts =>
    intro u c hms hmode howner hep hflag hpolicy hsig
    have hpreempts : u.preempts c = true := by simp [State.preempts, hflag, hpolicy, hsig]
    rw [doOwnClaim_preempts hms hep hmode howner hpreempts]
    exact ⟨rfl, rfl, rfl, rfl, rfl, rfl⟩
  case refused =>
    refine executes_body (fun _ _ => rfl) (fun _ _ => rfl) (by decide) fun c u hgood => ?_
    simp only [Bool.and_eq_true, decide_eq_true_eq, Bool.not_eq_true'] at hgood
    obtain ⟨⟨hlow, hhigh, hmode, howner, hnone⟩, hflag⟩ := hgood
    exact ⟨_, doOwnClaim_refused (.inr ⟨hlow, hhigh⟩) (mode_ne_unowned hmode (by decide)) howner (preempts_unflagged hflag) hnone,
      rfl, rfl, rfl⟩
  case successor =>
    refine executes_body (fun _ _ => rfl) (fun _ _ => rfl) (by decide) fun c u hgood => ?_
    simp only [Bool.and_eq_true, decide_eq_true_eq, Bool.not_eq_true'] at hgood
    obtain ⟨⟨⟨hlow, hhigh, hmode, howner, hsuccessor⟩, hep⟩, hflag⟩ := hgood
    have hbody := doOwnClaim_successor (.inr ⟨hlow, hhigh⟩) hep (mode_ne_unowned hmode (by decide)) howner
      (preempts_unflagged hflag) hsuccessor
    exact ⟨_, hbody.trans (if_pos rfl), rfl, rfl, rfl, rfl, rfl⟩
  case release => exact sets_of (fun _ _ => rfl) (fun _ _ => rfl) (by decide) fun _ _ _ => rfl
  case names =>
    refine sets_of (fun _ _ => rfl) (fun _ _ => rfl) (by decide) fun c u hgood => ?_
    obtain ⟨hep, hring, hfamily, hnonce, howner⟩ := of_decide_eq_true hgood
    exact (doOwnHandover_valid u ⟨hep, hring, hfamily⟩).trans ((if_neg hnonce).trans (if_neg howner))
  case withdraws =>
    refine sets_of (fun _ _ => rfl) (fun _ _ => rfl) (by decide) fun c u hgood => ?_
    obtain ⟨hep, hfam, hport, hnonce⟩ := of_decide_eq_true hgood
    exact (doOwnHandover_valid u ⟨by omega, fun _ => ⟨hfam, hport⟩, fun hne => absurd hep hne⟩).trans (if_pos hnonce)
  case lease =>
    refine sets_of (fun _ _ => rfl) (fun _ _ => rfl) (by decide) fun c u hgood => ?_
    obtain ⟨hlow, hhigh⟩ := of_decide_eq_true hgood
    refine (doOwnSetLease_ok u hlow hhigh).trans ?_
    simp only [State.mapOwn, OwnState.restart, ne_eq, ite_not]
  case badLease =>
    refine rejects_of (fun _ _ => rfl) fun c u hgood => ?_
    exact doOwnSetLease_bad u (of_decide_eq_true hgood)
  case policy =>
    refine setsJournalled_of (fun _ _ => rfl) rfl (ownRecord_ne_nil _) fun c u hgood => ?_
    obtain ⟨hauth, hpreempt, hlow, hhigh⟩ := of_decide_eq_true hgood
    exact doOwnSetPolicy_ok u hauth hpreempt hlow hhigh
  case third =>
    refine executes_body (fun _ _ => rfl) (fun _ _ => rfl) (by decide) fun c u hgood => ?_
    simp only [Bool.and_eq_true, decide_eq_true_eq, Bool.not_eq_true', Option.any_eq_true] at hgood
    obtain ⟨⟨⟨⟨hms, hmode, howner⟩, hep⟩, hflag⟩, ⟨who, n⟩, hsuccessor, hother⟩ := hgood
    exact ⟨_, doOwnClaim_third hms hep (mode_ne_unowned hmode (by decide)) howner (preempts_unflagged hflag) hsuccessor hother,
      rfl, rfl⟩
  case wrongNonce =>
    refine executes_body (fun _ _ => rfl) (fun _ _ => rfl) (by decide) fun c u hgood => ?_
    simp only [Bool.and_eq_true, decide_eq_true_eq, Bool.not_eq_true', Option.any_eq_true] at hgood
    obtain ⟨⟨⟨⟨hms, hmode, howner⟩, hep⟩, hflag⟩, ⟨who, n⟩, hsuccessor, rfl, hnonce⟩ := hgood
    have hbody := doOwnClaim_successor hms hep (mode_ne_unowned hmode (by decide)) howner (preempts_unflagged hflag) hsuccessor
    exact ⟨_, hbody.trans (if_neg (Ne.symm hnonce)), rfl, rfl⟩
  case endpoint =>
    refine executes_body (fun _ _ => rfl) (fun _ _ => rfl) (by decide) fun c u hgood => ?_
    simp only [Bool.and_eq_true, decide_eq_true_eq, Bool.not_eq_true'] at hgood
    obtain ⟨hms, hep⟩ := hgood
    exact ⟨_, doOwnClaim_endpoint hms hep, rfl, rfl⟩
  case unpermitted =>
    refine executes_body (fun _ _ => rfl) (fun _ _ => rfl) (by decide) fun c u hgood => ?_
    simp only [Bool.and_eq_true, decide_eq_true_eq] at hgood
    obtain ⟨⟨⟨hms, hmode, howner, hnone⟩, hflag⟩, hforbidden⟩ := hgood
    have hpreempts : u.preempts c = false := by
      cases hpolicy : u.own.policy.preempt <;> cases hsig : c.sig <;> simp_all [State.preempts]
    exact ⟨_, doOwnClaim_refused hms (mode_ne_unowned hmode (by decide)) howner hpreempts hnone, rfl, rfl⟩
  case challenge =>
    exact executes_body (fun _ _ => rfl) (fun _ _ => rfl) (by decide) fun c u _ => ⟨_, rfl, rfl, rfl, rfl⟩
  case status =>
    exact reads_of (fun _ _ => rfl) (fun _ _ => rfl) (by decide) fun c u hgood =>
      doOwnGetStatus_begins c u (of_decide_eq_true hgood)
  case badStatus => exact rejects_of (fun _ _ => rfl) fun c u hgood => doOwnGetStatus_bad u (of_decide_eq_true hgood)

end Sys2Proof.Machine
end

section
/-! What raising an event adds to the events on their way (R371, R377, R446): O29 has it that the event raised is the only one. -/

namespace Sys2Proof.Machine

/-- An event queue of 16 records of 64 bytes, from the first byte of HBM on. -/
def eventQueue : Queue := { kind := 6, enable := true, base := 0x1000000000, esize := 6, entries := 4 }

/-- Producer 1 is bound to queue 8, and two parity errors wait in the unit that its next record is written to. -/
def parityUnderRecord : State :=
  { er := { pqueue := [(1, 8)] }, ring := { queues := [(8, eventQueue)] }, mem := { hc0 := { parity := [(0, 2)] } },
    pwr := { phase := 4, domains := Vector.replicate 96 { state := .on } } }

/-- R446: the write of the record fails at its retry, and the error that is logged raises "memory error" in its turn. -/
theorem parityUnderRecord_raises :
    (parityUnderRecord.raiseEvent 1 5 0).er.raised.map EventRec.producer = [1, 195] := by decide

/-- Refutes O29: `parityUnderRecord` is a state from which raising event 1 puts a second event on its way, "memory error", which the
write of the first one's record has met. -/
theorem not_eventCommandsAct : ¬ Obligations.EventCommandsAct := by
  unfold Obligations.EventCommandsAct
  intro h
  obtain ⟨-, -, -, -, hraise, -⟩ := h
  obtain ⟨hraised, -⟩ := hraise parityUnderRecord 1 5 0
  have hproducers : ([1, 195] : List Nat) = [1] := by
    rw [← parityUnderRecord_raises, hraised]
    rfl
  exact absurd hproducers (by decide)

end Sys2Proof.Machine
end

section
/-! What the device-wide commands do when they are accepted (R409, R413 to R419), and the diagnostics that access registers and
memory or run a batch (R421 to R424). The claims of O32 and O34 are put together from them. -/

namespace Sys2Proof.Machine

section Commands
variable {c : Cmd} {s : State}

/-! ## Reports (R413 to R415, R418) -/

theorem doDevGetInfo_begins (c : Cmd) (s : State) : ∃ rest, doDevGetInfo c s = .okWith
    (partName ++ beBytes 2 (Config.version 0) ++ beBytes 2 (Config.version 1) ++ dieIdBytes ++ rest) s := by
  unfold doDevGetInfo
  simp only [List.append_assoc]
  exact ⟨_, rfl⟩

theorem doDevGetStatus_begins (c : Cmd) (s : State) : ∃ rest, doDevGetStatus c s = .okWith
    (beBytes 1 s.tile.sched.code ++ beBytes 1 s.load.op ++ beBytes 1 (b2n s.load.shed) ++ beBytes 1 s.own.mode.code ++ rest) s := by
  unfold doDevGetStatus
  simp only [List.append_assoc]
  exact ⟨_, rfl⟩

/-- The row that DEV_QUERY_OPCODE asks for, by its version 1 or version 2 code. -/
def queriedRow (p : List Byte) : Option OpRow :=
  if fld p 2 1 = 1 then rowOfV1 (fld p 0 2 % 256) else rowOf (fld p 0 2)

theorem doDevQueryOpcode_undefined (s : State) (hver : 1 ≤ fld c.params 2 1 ∧ fld c.params 2 1 ≤ 2)
    (hnone : queriedRow c.params = none) : doDevQueryOpcode c s = .okWith (zeros 16) s := by
  have hrange : ¬ (fld c.params 2 1 < 1 || 2 < fld c.params 2 1 : Bool) = true := by
    simp only [Bool.or_eq_true, decide_eq_true_eq]
    omega
  rw [doDevQueryOpcode, if_neg hrange, show ite _ _ _ = _ from hnone]

theorem doDevQueryOpcode_defined (s : State) {w : OpRow} (hver : 1 ≤ fld c.params 2 1 ∧ fld c.params 2 1 ≤ 2)
    (hrow : queriedRow c.params = some w) : doDevQueryOpcode c s =
    .okWith ([1] ++ beBytes 1 w.access.code ++ beBytes 1 w.v1 ++
      beBytes 1 (b2n w.tag.isSome + 2 * b2n (s.sigRequired w) + 4 * b2n w.accepted) ++ beBytes 2 w.code ++
      beBytes 2 w.layout.lengths.1 ++ beBytes 2 w.layout.lengths.2 ++ beBytes 2 w.replyMin ++ beBytes 2 w.replyMax ++ zeros 2) s := by
  have hrange : ¬ (fld c.params 2 1 < 1 || 2 < fld c.params 2 1 : Bool) = true := by
    simp only [Bool.or_eq_true, decide_eq_true_eq]
    omega
  rw [doDevQueryOpcode, if_neg hrange, show ite _ _ _ = _ from hrow]

theorem doDevQueryOpcode_badVersion (s : State) (hver : fld c.params 2 1 < 1 ∨ 2 < fld c.params 2 1) :
    doDevQueryOpcode c s = .bad 2 s :=
  if_pos (by simpa only [Bool.or_eq_true, decide_eq_true_eq] using hver)

theorem doDevGetMgmt_begins (s : State) (hport : fld c.params 0 1 ≤ 1) : ∃ rest, doDevGetMgmt c s = .okWith
    (beBytes 1 (s.mgmt (fld c.params 0 1)).mode ++ rest) s := by
  unfold doDevGetMgmt
  simp only [if_neg (Nat.not_lt.mpr hport), List.append_assoc]
  exact ⟨_, rfl⟩

/-! ## A management port's setting (R417) -/

/-- R417: the parameters of DEV_SET_MGMT are in range. -/
structure MgmtValid (p : List Byte) : Prop where
  port : fld p 0 1 ≤ 1
  mode : fld p 1 1 ≤ 2
  vlan : fld p 2 2 ≤ 4094
  unicast : fld p 4 6 / 2 ^ 40 % 2 = 0
  ipv6 : ipv6Settable (slice p 16 16) = true

/-- The setting waits for the reply to leave; only a replay of the journal adopts it at once. -/
theorem doDevSetMgmt_waits (hvalid : MgmtValid c.params) (hlive : s.replaying = false) :
    doDevSetMgmt c s = .ok { s with dev := { s.dev with next := some (fld c.params 0 1, { s.mgmt (fld c.params 0 1) with
      mode := fld c.params 1 1, vlan := fld c.params 2 2, mac := fld c.params 4 6, ipv4 := fld c.params 12 4,
      ipv6 := fld c.params 16 16 }) } } := by
  obtain ⟨hport, hmode, hvlan, hunicast, hipv6⟩ := hvalid
  rw [doDevSetMgmt, firstBad_eq_none.mpr]
  · simp [hlive]
  · simpa [hport, hmode, hvlan, hipv6] using hunicast

/-! ## Registers and memory (R422 to R424) -/

theorem doDiagReadCsr_reads (s : State) (hrange : badCsrRange (fld c.params 0 8) (fld c.params 8 2) = none) :
    ∃ rest, doDiagReadCsr c s = .okWith
      (beBytes 1 (s.readRegs s.activeId.val (fld c.params 0 8) (fld c.params 8 2)).2.1.code ++ rest)
      (s.readRegs s.activeId.val (fld c.params 0 8) (fld c.params 8 2)).1 := by
  unfold doDiagReadCsr
  simp only [hrange, List.append_assoc]
  exact ⟨_, rfl⟩

theorem doDiagWriteCsr_writes (s : State) (hrange : badCsrRange (fld c.params 0 8) (fld c.params 8 2) = none) :
    ∃ data, doDiagWriteCsr c s = .okWith data (s.writeRegs s.activeId.val (fld c.params 0 8)
      ((List.range (fld c.params 8 2)).map fun i => fld c.params (16 + 8 * i) 8)).1 := by
  unfold doDiagWriteCsr
  simp only [hrange]
  exact ⟨_, rfl⟩

/-- The data of DIAG_READ_MEM follow eight bytes. -/
theorem doDiagReadMem_reads (hrange : s.badMemRange (fld c.params 0 8) (fld c.params 8 2) = none) :
    ∃ head, head.length = 8 ∧ doDiagReadMem c s = .okWith
      (head ++ padTo 0 (fld c.params 8 2) (s.readRange s.activeId.val (fld c.params 0 8) (fld c.params 8 2)).data)
      (s.readRange s.activeId.val (fld c.params 0 8) (fld c.params 8 2)).st := by
  unfold doDiagReadMem
  simp only [hrange]
  refine ⟨_, ?_, rfl⟩
  simp only [List.length_append, beBytes_length, zeros_length]

theorem doDiagWriteMem_writes (hrange : s.badMemRange (fld c.params 0 8) (fld c.params 8 2) = none) :
    ∃ data, doDiagWriteMem c s = .okWith data
      (s.writeRange s.activeId.val (fld c.params 0 8) (slice c.params 16 (fld c.params 8 2))).1 := by
  unfold doDiagWriteMem
  simp only [hrange]
  exact ⟨_, rfl⟩

/-! ## A batch (R421) -/

theorem doDiagBatch_runs (s : State) {l : List (Nat × List Byte)} (hcount : 1 ≤ fld c.params 0 1 ∧ fld c.params 0 1 ≤ 16)
    (hlen : 8 ≤ c.params.length) (hentries : batchEntries c.params (fld c.params 0 1) 8 = .ok (l, c.params.length)) :
    ∃ rest, doDiagBatch c s = .okWith (beBytes 1 (State.runBatch c l s [] 0).2.1 ++ rest) (State.runBatch c l s [] 0).2.2 := by
  have hsome : ¬ c.params.length < 1 := by omega
  have hrange : ¬ (fld c.params 0 1 < 1 || 16 < fld c.params 0 1 : Bool) = true := by
    simp only [Bool.or_eq_true, decide_eq_true_eq]
    omega
  unfold doDiagBatch
  simp only [if_neg hsome, if_neg hrange, if_neg (Nat.not_lt.mpr hlen), hentries, if_neg (Nat.lt_irrefl _), List.append_assoc]
  exact ⟨_, rfl⟩

end Commands

/-! ## The claims -/

/-- Settles O32: a setting is journalled, and each command's body does as claimed once its checks pass. -/
theorem deviceCommandsAct : Obligations.DeviceCommandsAct := by
  unfold Obligations.DeviceCommandsAct
  refine ⟨?info, ?status, ?undefined, ?defined, ?version, ?setMgmt, ?getMgmt, ?badMgmt, ?label⟩
  case info => exact reads_of (fun _ _ => rfl) (fun _ _ => rfl) (by decide) fun c u _ => doDevGetInfo_begins c u
  case status => exact reads_of (fun _ _ => rfl) (fun _ _ => rfl) (by decide) fun c u _ => doDevGetStatus_begins c u
  case undefined =>
    refine reads_of (fun _ _ => rfl) (fun _ _ => rfl) (by decide) fun c u hgood => ?_
    simp only [Bool.and_eq_true, decide_eq_true_eq] at hgood
    obtain ⟨hver, hnone⟩ := hgood
    exact ⟨[], doDevQueryOpcode_undefined u hver (Option.isNone_iff_eq_none.mp hnone)⟩
  case defined =>
    refine reads_of (fun _ _ => rfl) (fun _ _ => rfl) (by decide) fun c u hgood => ?_
    simp only [Bool.and_eq_true, decide_eq_true_eq] at hgood
    obtain ⟨hver, hsome⟩ := hgood
    obtain ⟨w, hrow⟩ := Option.isSome_iff_exists.mp hsome
    simp only [hrow]
    exact ⟨zeros 2, doDevQueryOpcode_defined u hver hrow⟩
  case version => exact rejects_of (fun _ _ => rfl) fun c u hgood => doDevQueryOpcode_badVersion u (of_decide_eq_true hgood)
  case setMgmt =>
    refine setsJournalled_of (fun _ _ => rfl) rfl (ownRecord_ne_nil _) fun c u hgood => ?_
    simp only [Bool.and_eq_true, decide_eq_true_eq, Bool.not_eq_true'] at hgood
    obtain ⟨⟨⟨hport, hmode, hvlan, hunicast⟩, hipv6⟩, hlive⟩ := hgood
    exact doDevSetMgmt_waits ⟨hport, hmode, hvlan, hunicast, hipv6⟩ hlive
  case getMgmt =>
    exact reads_of (fun _ _ => rfl) (fun _ _ => rfl) (by decide) fun c u hgood => doDevGetMgmt_begins u (of_decide_eq_true hgood)
  case badMgmt => exact rejects_of (fun _ _ => rfl) fun c u hgood => if_pos (of_decide_eq_true hgood)
  case label => exact setsJournalled_of (fun _ _ => rfl) rfl (ownRecord_ne_nil _) fun _ _ _ => rfl

/-- Settles O34: each command's body comes to the access that its range names, or to the run of its entries. The order of beats
and pieces is the model's (log entry 48). -/
theorem diagnosticCommandsAct : Obligations.DiagnosticCommandsAct := by
  unfold Obligations.DiagnosticCommandsAct
  refine ⟨?readCsr, ?writeCsr, ?readMem, ?writeMem, ?batch⟩
  case readCsr =>
    refine executes_body (fun _ _ => rfl) (fun _ _ => rfl) (by decide) fun c u hgood => ?_
    obtain ⟨rest, hbody⟩ := doDiagReadCsr_reads u (Option.isNone_iff_eq_none.mp hgood)
    exact ⟨_, hbody, rfl, rfl, rfl⟩
  case writeCsr =>
    refine executes_body (fun _ _ => rfl) (fun _ _ => rfl) (by decide) fun c u hgood => ?_
    obtain ⟨data, hbody⟩ := doDiagWriteCsr_writes u (Option.isNone_iff_eq_none.mp hgood)
    exact ⟨_, hbody, rfl, rfl⟩
  case readMem =>
    refine executes_body (fun _ _ => rfl) (fun _ _ => rfl) (by decide) fun c u hgood => ?_
    obtain ⟨head, hlen, hbody⟩ := doDiagReadMem_reads (Option.isNone_iff_eq_none.mp hgood)
    exact ⟨_, hbody, rfl, rfl, List.drop_left' hlen⟩
  case writeMem =>
    refine executes_body (fun _ _ => rfl) (fun _ _ => rfl) (by decide) fun c u hgood => ?_
    obtain ⟨data, hbody⟩ := doDiagWriteMem_writes (Option.isNone_iff_eq_none.mp hgood)
    exact ⟨_, hbody, rfl, rfl⟩
  case batch =>
    refine executes_body (fun _ _ => rfl) (fun _ _ => rfl) (by decide) fun c u hgood => ?_
    split at hgood
    · next l fin hentries =>
      simp only [Bool.and_eq_true, decide_eq_true_eq] at hgood
      obtain ⟨⟨rfl, hcount⟩, hlen⟩ := hgood
      obtain ⟨rest, hbody⟩ := doDiagBatch_runs u hcount hlen hentries
      exact ⟨_, hbody, rfl, l, _, hentries, rfl, rfl⟩
    · cases hgood

end Sys2Proof.Machine
end

section
/-! What storing bytes and raising events leave of the state (R371, R386, R424, R454), memory in its canonical form: whatever the
record of an event falls on, everything outside the memories, the areas in them, the queues, the router and the logs stays as it
was. From it, what answering a command leaves: the claim of O9. -/

namespace Sys2Proof.Machine

/-! ## The relation -/

/-- The state but for what a store in memory can change: the memories themselves, the samples, products, headers and weights that
lie in HBM, queues, the router, the logs of errors and repairs, and what is counted and sent on the way. -/
def State.outsideStores (s : State) : State :=
  { s with draws := 0, wire := [], dev := {}, er := {}, mc := { token := s.mc.token, inGap := s.mc.inGap }, ring := {},
           mem := {}, spare := {}, jrnl := {}, stg := {}, bas := {}, dump := {}, beam := {} }

/-- The second state comes from the first by stores in memory and by what they bring about. -/
structure Stored (s t : State) : Prop where
  outside : t.outsideStores = s.outsideStores
  wf : s.memoryWf = true → t.memoryWf = true

/-- Canonical form is a matter of the three memories. -/
theorem memoryWf_congr {s t : State} (hhbm : t.mem.hbm = s.mem.hbm) (hsram : t.mem.sram = s.mem.sram)
    (hflash : t.flash = s.flash) : t.memoryWf = s.memoryWf := by
  unfold State.memoryWf
  rw [hhbm, hsram, hflash]

theorem memoryWf_iff {s : State} : s.memoryWf = true ↔
    Memory.wf 0 s.mem.hbm = true ∧ Memory.wf 0 s.mem.sram = true ∧ Memory.wf 0xFF s.flash = true := by
  unfold State.memoryWf
  rw [Bool.and_eq_true, Bool.and_eq_true, and_assoc]

namespace Stored
variable {s t u : State}

theorem refl (s : State) : Stored s s := ⟨rfl, id⟩

theorem trans (h : Stored s t) (h' : Stored t u) : Stored s u := ⟨h'.outside.trans h.outside, h'.wf ∘ h.wf⟩

theorem of_mem (houtside : t.outsideStores = s.outsideStores) (hhbm : t.mem.hbm = s.mem.hbm)
    (hsram : t.mem.sram = s.mem.sram) : Stored s t := by
  have hflash := congrArg State.flash houtside
  exact ⟨houtside, fun h => (memoryWf_congr hhbm hsram hflash).trans h⟩

/-- A fold whose every step stores. -/
theorem foldl {σ β : Type} (g : σ → State) {f : σ → β → σ} (hstep : ∀ x b, Stored (g x) (g (f x b))) (l : List β) (x : σ) :
    Stored (g x) (g (l.foldl f x)) :=
  List.foldlRecOn l f (motive := fun y => Stored (g x) (g y)) (refl _) fun y hy b _ => hy.trans (hstep y b)

theorem ite {c : Prop} [Decidable c] (ht : Stored s t) (hu : Stored s u) : Stored s (if c then t else u) := by
  split
  · exact ht
  · exact hu

end Stored

/-! ## Plain updates -/

section Plain
variable (s : State)

theorem stored_grant (req : Nat) : Stored s (s.grant req) := .of_mem rfl rfl rfl
theorem stored_errResp : Stored s s.errResp := .of_mem rfl rfl rfl
theorem stored_decErr (req addr : Nat) (write : Bool) : Stored s (s.decErr req addr write) := .of_mem rfl rfl rfl
theorem stored_draw : Stored s s.draw := .of_mem rfl rfl rfl
theorem stored_emit (o : Output) : Stored s (s.emit o) := .of_mem rfl rfl rfl
theorem stored_setQueue (q : Nat) (v : Queue) : Stored s (s.setQueue q v) := .of_mem rfl rfl rfl
theorem stored_setBeamSet (n : Nat) (v : BeamSet) : Stored s (s.setBeamSet n v) := .of_mem rfl rfl rfl
theorem stored_msix (v : Nat) : Stored s (s.msix v) := .ite (stored_emit s _) (.refl s)

@[simp] theorem hbm_setHc (m : MemState) (h : Nat) (c : HbmCtl) : (m.setHc h c).hbm = m.hbm := by
  unfold MemState.setHc
  repeat' split
  all_goals rfl

@[simp] theorem sram_setHc (m : MemState) (h : Nat) (c : HbmCtl) : (m.setHc h c).sram = m.sram := by
  unfold MemState.setHc
  repeat' split
  all_goals rfl

theorem stored_bumpHc (h : Nat) (f : HbmCtl → HbmCtl) : Stored s (s.bumpHc h f) :=
  .of_mem rfl (hbm_setHc _ _ _) (sram_setHc _ _ _)

theorem stored_countWrite (unit : Nat) : Stored s (s.countWrite unit) :=
  .of_mem rfl (hbm_setHc _ _ _) (sram_setHc _ _ _)

theorem stored_mapMem (f : MemState → MemState) (hhbm : (f s.mem).hbm = s.mem.hbm) (hsram : (f s.mem).sram = s.mem.sram) :
    Stored s (s.mapMem f) := .of_mem rfl hhbm hsram

theorem stored_setBad (unit n : Nat) : Stored s (s.mapMem fun m => { m with bad := kvSet 0 m.bad unit n }) :=
  stored_mapMem s _ rfl rfl

theorem stored_noteError (e : MemErr) :
    Stored s (s.mapMem fun m => { m with errors := (e :: m.errors).take 16, errSeq := m.errSeq + 1 }) :=
  stored_mapMem s _ rfl rfl

theorem stored_unitWritten (o n : Nat) : Stored s (s.unitWritten o n) :=
  (stored_countWrite s _).trans (stored_setBad _ _ _)

/-- What raising an event notes of it, before its record goes to a queue. -/
theorem stored_setEvents (er : Router) (dev : DevState) : Stored s { s with er := er, dev := dev } := .of_mem rfl rfl rfl

theorem stored_countMissed (h : Fin 2) (wire mail : Bool) : Stored s (s.countMissed h wire mail) := by
  refine .of_mem ?_ rfl rfl
  unfold State.countMissed State.setCore
  split <;> rfl

/-- One byte goes to HBM where no bank and no area lies. -/
theorem stored_hbmByte (o : Nat) (b : Byte) : Stored s (s.mapMem fun m => { m with hbm := kvSet 0 m.hbm o b }) := by
  refine ⟨rfl, fun h => ?_⟩
  obtain ⟨hhbm, hsram, hflash⟩ := memoryWf_iff.mp h
  exact memoryWf_iff.mpr ⟨kvSet_wf 0 _ o b hhbm, hsram, hflash⟩

end Plain

/-! ## Bytes stored in memory (R176, R424) -/

theorem stored_touchResiduals (s : State) (off len : Nat) : Stored s (s.touchResiduals off len) := by
  unfold State.touchResiduals
  dsimp only
  split
  · exact .refl s
  · exact .of_mem rfl rfl rfl

/-- What stores a byte in an area is a store, where it stores one. -/
structure AreaWriterStores (store : State → Nat → Nat → Byte → Option State) : Prop where
  stores (s : State) (c x : Nat) (v : Byte) : ∀ t ∈ store s c x v, Stored s t

/-- `areaStore` is taken apart as in `areaWriterKeeps_areaStore`, and for its reason. -/
theorem areaWriterStores_areaStore : AreaWriterStores State.areaStore := by
  delta State.areaStore
  constructor
  intro s c x v t ht
  replace ht := Option.mem_def.mp ht
  with_reducible conv at ht => lhs; whnf
  generalize s.layout.areaByte x = place at ht
  cases place with
  | plain => cases ht
  | corner _ | header _ => exact Option.some.inj ht ▸ .of_mem rfl rfl rfl
  | acc _ _ | log _ _ _ =>
    obtain ⟨_, -, rfl⟩ := Option.map_eq_some_iff.mp ht
    exact .ite (.of_mem rfl rfl rfl) (.of_mem rfl rfl rfl)
  | input _ _ | record _ _ =>
    dsimp only at ht
    repeat' split at ht
    all_goals cases ht
    all_goals exact .of_mem rfl rfl rfl

theorem stored_hbmStoreGo (bs : List Byte) (s : State) (o : Nat) : Stored s (State.hbmStore.go s o bs) := by
  induction bs generalizing s o with
  | nil => exact .refl s
  | cons b t ih =>
    unfold State.hbmStore.go
    split
    · refine .ite ?_ ?_
      · exact (stored_draw s).trans ((stored_setBeamSet _ _ _).trans (ih _ _))
      · exact (stored_setBeamSet _ _ _).trans (ih _ _)
    · refine Stored.trans ?_ (ih _ _)
      split
      · next c x _ =>
        cases harea : s.areaStore c x b with
        | none => exact stored_hbmByte s o b
        | some u => exact areaWriterStores_areaStore.stores s c x b u harea
      · exact stored_hbmByte s o b

theorem stored_hbmStore (s : State) (off : Nat) (bs : List Byte) : Stored s (s.hbmStore off bs) :=
  (stored_touchResiduals s off bs.length).trans (stored_hbmStoreGo bs _ off)

theorem stored_scramble (s : State) (off len : Nat) : Stored s (s.scramble off len) :=
  (stored_draw s).trans (stored_hbmStore _ _ _)

theorem stored_hbmWrite (s : State) (off : Nat) (bs : List Byte) : Stored s (s.hbmWrite off bs) :=
  .foldl id (fun u _ => (stored_unitWritten u _ _).trans (stored_hbmStore _ _ _)) _ s

theorem stored_sawMail (s t : State) : Stored t (State.sawMail s t) :=
  .foldl id (fun u h => .ite (.refl u) (stored_countMissed u h _ _)) _ t

theorem stored_sramStore (s : State) (off : Nat) (bs : List Byte) : Stored s (s.sramStore off bs) := by
  have hbytes (bad : KV Nat) : Stored s (s.mapMem fun m => { m with sram := memWrite 0 m.sram off bs, sramBad := bad }) := by
    refine ⟨rfl, fun h => ?_⟩
    obtain ⟨hhbm, hsram, hflash⟩ := memoryWf_iff.mp h
    exact memoryWf_iff.mpr ⟨hhbm, memWrite_wf 0 _ off bs hsram, hflash⟩
  exact .ite ((hbytes _).trans (stored_sawMail s _)) (hbytes _)

/-! ## Queues and events (R371, R454) -/

/-- A writer of pieces that only stores. -/
def PieceWriter.Stores (w : PieceWriter) : Prop := ∀ s addr bs, Stored s (w s addr bs).1

section Writer
variable {w : PieceWriter} (hw : w.Stores)
include hw

theorem stored_putBytesBy (s : State) (addr : Nat) (bs : List Byte) : Stored s (s.putBytesBy w addr bs).1 := by
  unfold State.putBytesBy
  split
  · exact stored_errResp s
  · refine .foldl Prod.fst ?_ _ (s, true)
    intro x c
    exact (stored_grant x.1 4).trans (hw _ c.1 (slice bs (c.1 - addr) c.2))

theorem stored_writeBackBy (s : State) (qn idx : Nat) : Stored s (s.writeBackBy w qn idx) := by
  have hput := stored_putBytesBy hw s (s.queue qn).wb (leBytes 8 idx)
  refine .ite (.refl s) (.ite hput (hput.trans (.ite ?_ ?_)))
  · exact (stored_setQueue _ _ _).trans (stored_msix _ _)
  · exact stored_setQueue _ _ _

theorem stored_pushBy (s : State) (qn kind : Nat) (bs : List Byte) : Stored s (s.pushBy w qn kind bs).1 := by
  unfold State.pushBy
  dsimp only
  split
  · exact .refl s
  · split
    · exact .refl s
    · exact (stored_putBytesBy hw s _ bs).trans ((stored_setQueue _ _ _).trans (stored_writeBackBy hw _ _ _))

theorem stored_pushOrDropBy (s : State) (qn kind : Nat) (bs : List Byte) : Stored s (s.pushOrDropBy w qn kind bs).1 := by
  have hpush := stored_pushBy hw s qn kind bs
  unfold State.pushOrDropBy
  split
  · next hdone => rwa [hdone] at hpush
  · next hfull =>
    rw [hfull] at hpush
    exact hpush.trans (stored_setQueue _ _ _)
  · next habsent => rwa [habsent] at hpush

theorem stored_of_pushOrDropBy {s u : State} {qn kind : Nat} {bs : List Byte} {ok : Bool}
    (h : s.pushOrDropBy w qn kind bs = (u, ok)) : Stored s u := by
  have hpush := stored_pushOrDropBy hw s qn kind bs
  rwa [h] at hpush

theorem stored_raiseEventBy (s : State) (p index arg : Nat) (time : Option Instant) (late : Bool) :
    Stored s (s.raiseEventBy w p index arg time late) := by
  unfold State.raiseEventBy
  dsimp only
  split
  · exact stored_setEvents s _ _
  · split
    · next hpush => exact (stored_setEvents s _ _).trans (stored_of_pushOrDropBy hw hpush)
    · next hpush =>
      have hpushed := (stored_setEvents s _ _).trans (stored_of_pushOrDropBy hw hpush)
      exact .ite (hpushed.trans (stored_setEvents _ _ _)) hpushed

end Writer

/-! ## Memory errors, and pieces that meet them (R436, R444 to R448) -/

theorem putBlind_stores : PieceWriter.Stores putBlind := by
  intro s addr bs
  unfold putBlind
  split
  · split
    · exact stored_errResp s
    · exact stored_sramStore s _ bs
  · split
    · exact stored_hbmWrite s _ bs
    · exact stored_errResp s
  · split
    · exact stored_emit s _
    · exact stored_errResp s
  · exact stored_decErr s 4 addr true

theorem stored_logMemErr (s : State) (kind stack pc req words : Nat) (write : Bool) (addr : Nat) :
    Stored s (s.logMemErr kind stack pc req words write addr) := by
  unfold State.logMemErr
  dsimp only
  generalize hlog : (if s.mem.logQueue = 0xFFFF then _ else _ : State × Bool) = logged
  have hlogged : Stored s logged.1 := by
    rw [← hlog]
    split
    · exact stored_noteError s _
    · exact (stored_noteError s _).trans (stored_pushOrDropBy putBlind_stores _ _ _ _)
  have hcounted := Stored.ite (c := logged.2 = true) hlogged (hlogged.trans
    (stored_mapMem logged.1 (fun m => { m with logLost := m.logLost + 1 }) rfl rfl))
  exact .ite (hcounted.trans (stored_raiseEventBy putBlind_stores _ _ _ _ _ _)) hcounted

theorem stored_addCandidate (s : State) (off : Nat) : Stored s (s.addCandidate off) :=
  .ite (.refl s) (.of_mem rfl rfl rfl)

theorem stored_meetParity (s : State) (req unit : Nat) (write : Bool) : Stored s (s.meetParity req unit write).1 := by
  have hlog (f : HbmCtl → HbmCtl) (kind : Nat) : Stored s ((s.bumpHc (stackOf unit) f).logMemErr kind (stackOf unit)
      (hbmPc unit % 32) req 0 write (0x1000000000 + unit)) := (stored_bumpHc s _ f).trans (stored_logMemErr _ _ _ _ _ _ _ _)
  unfold State.meetParity
  dsimp only
  split
  · exact .refl s
  · split
    · exact hlog _ 2
    · exact hlog _ 3

theorem stored_readHbmUnit (s : State) (req unit : Nat) (write : Bool) : Stored s (s.readHbmUnit req unit write).1 := by
  have hmet := (stored_bumpHc s (stackOf unit) fun c => { c with reads := c.reads + 1 }).trans
    (stored_meetParity _ req unit write)
  unfold State.readHbmUnit
  dsimp only
  split
  · exact hmet
  · split
    · exact hmet.trans ((stored_bumpHc _ _ _).trans ((stored_logMemErr _ _ _ _ _ _ _ _).trans (stored_addCandidate _ unit)))
    · split
      · exact hmet
      · exact hmet.trans ((stored_bumpHc _ _ _).trans ((stored_countWrite _ unit).trans (stored_setBad _ _ _)))

theorem stored_writeUnit (s : State) (req o n : Nat) : Stored s (s.writeUnit req o n).1 := by
  unfold State.writeUnit
  dsimp only
  generalize hmeet : (if partialWord o n = true then _ else _ : State × Bool) = met
  have hmet : Stored s met.1 := by
    rw [← hmeet]
    split
    · exact stored_readHbmUnit s req _ true
    · exact stored_meetParity s req _ true
  split
  · exact hmet
  · exact hmet.trans (.trans (.ite (stored_bumpHc met.1 _ _) (.refl met.1)) (stored_unitWritten _ o n))

theorem stored_storeUnit (s : State) (req o : Nat) (bs : List Byte) : Stored s (s.storeUnit req o bs).1 := by
  have hwrite := stored_writeUnit s req o bs.length
  unfold State.storeUnit
  dsimp only
  split
  · exact hwrite.trans (stored_hbmStore _ o bs)
  · exact .ite (hwrite.trans (stored_scramble _ _ _)) hwrite

theorem stored_storePiece (s : State) (req off : Nat) (bs : List Byte) : Stored s (s.storePiece req off bs).1 := by
  unfold State.storePiece
  dsimp only
  generalize hfold : List.foldl _ ((s, []) : State × List Nat) _ = pieces
  have hpieces : Stored s pieces.1 := by
    rw [← hfold]
    refine .foldl Prod.fst ?_ _ (s, [])
    intro x c
    exact stored_storeUnit x.1 req c.1 (slice bs (c.1 - off) c.2)
  split
  · exact hpieces
  · refine hpieces.trans (.trans ?_ (stored_errResp _))
    exact .foldl id (fun u o => stored_scramble u o 32) _ _

theorem putPiece_stores : PieceWriter.Stores putPiece := by
  intro s addr bs
  unfold putPiece
  split
  · split
    · exact stored_storePiece s 4 _ bs
    · exact stored_errResp s
  · exact putBlind_stores s addr bs

theorem stored_putBytes (s : State) (addr : Nat) (bs : List Byte) : Stored s (s.putBytes addr bs).1 :=
  stored_putBytesBy putPiece_stores s addr bs

theorem stored_writeBack (s : State) (qn idx : Nat) : Stored s (s.writeBack qn idx) :=
  stored_writeBackBy putPiece_stores s qn idx

theorem stored_pushOrDrop (s : State) (qn kind : Nat) (bs : List Byte) : Stored s (s.pushOrDrop qn kind bs).1 :=
  stored_pushOrDropBy putPiece_stores s qn kind bs

theorem stored_raiseEvent (s : State) (p index arg : Nat) (time : Option Instant) (late : Bool) :
    Stored s (s.raiseEvent p index arg time late) := stored_raiseEventBy putPiece_stores s p index arg time late

theorem stored_raise (s : State) (p arg : Nat) : Stored s (s.raise p arg) := stored_raiseEvent s p _ arg _ _

end Sys2Proof.Machine
end

section
/-! What answering a command leaves of the state (R386, R391, R399, R408, R539): the claim of O9. -/

namespace Sys2Proof.Machine

/-! ## What a reply changes -/

/-- The state but for the protocol's records, what is sent, the device's own settings and its power. -/
def State.apartFromReply (s : State) : State :=
  { s with draws := 0, wire := [], own := {}, dev := {}, pwr := {}, mc := { token := s.mc.token, inGap := s.mc.inGap } }

/-- What of it no store in memory changes either. -/
def State.dataPath (s : State) : State := s.apartFromReply.outsideStores

theorem Stored.dataPath {s t : State} (h : Stored s t) : t.dataPath = s.dataPath := congrArg State.apartFromReply h.outside

theorem Stored.pwr {s t : State} (h : Stored s t) : t.pwr = s.pwr :=
  have houtside := congrArg State.pwr h.outside
  houtside

/-- The second state has what a reply leaves of the first; to a completion queue, whose element is a store, only the data path. -/
structure Replied (ep : Fin 4) (s t : State) : Prop where
  pwr : t.pwr = s.pwr
  dataPath : t.dataPath = s.dataPath
  apart : ep ≠ 0 → t.apartFromReply = s.apartFromReply

namespace Replied
variable {ep : Fin 4} {s t u : State}

theorem trans (h : Replied ep s t) (h' : Replied ep t u) : Replied ep s u :=
  ⟨h'.pwr.trans h.pwr, h'.dataPath.trans h.dataPath, fun hep => (h'.apart hep).trans (h.apart hep)⟩

theorem of_apart (hpwr : t.pwr = s.pwr) (hapart : t.apartFromReply = s.apartFromReply) : Replied ep s t :=
  ⟨hpwr, congrArg State.outsideStores hapart, fun _ => hapart⟩

end Replied

section Sending
variable (s : State)

theorem replied_mapOwn (ep : Fin 4) (f : OwnState → OwnState) : Replied ep s (s.mapOwn f) := .of_apart rfl rfl

theorem replied_sendMgmt (ep : Fin 4) (p : Nat) (f : Frame) : Replied ep s (s.sendMgmt p f) := by
  unfold State.sendMgmt
  dsimp only
  split <;> exact .of_apart rfl rfl

theorem replied_noteCommit (ep : Fin 4) : Replied ep s s.noteCommit := by
  unfold State.noteCommit
  split
  · exact .of_apart rfl rfl
  · unfold State.setCore
    split <;> exact .of_apart rfl rfl

/-- The element of a completion queue is a store in memory. -/
theorem stored_completeElement (qn via : Nat) (bs : List Byte) : Stored s (s.completeElement qn via bs) := by
  unfold State.completeElement
  dsimp only
  split
  · exact .refl s
  · exact (stored_putBytes s _ bs).trans ((stored_setQueue _ _ _).trans (stored_writeBack _ _ _))

theorem replied_sendReply (c : Client) (via : Nat) (packet : List Byte) : Replied c.ep s (s.sendReply c via packet) := by
  unfold State.sendReply
  split
  · next hep =>
    have hstored := stored_completeElement s c.port via packet
    exact ⟨hstored.pwr, hstored.dataPath, fun hne => absurd hep hne⟩
  · exact replied_mapOwn s _ _
  · exact replied_sendMgmt s _ _ _

/-! ## What a command has put off (R417, R520, R539) -/

/-- The state once a reply has left, but for the reset that it may have put off. -/
def State.replyLeft (s : State) : State :=
  let u := s.adoptMgmt
  if u.pwr.resetAsked then { u with pwr := { u.pwr with resetAsked := false, resetAt := some (u.ns + 10000000) } } else u

theorem adoptMgmt_pwr : s.adoptMgmt.pwr = s.pwr := by
  unfold State.adoptMgmt
  split <;> rfl

theorem adoptMgmt_apart : s.adoptMgmt.apartFromReply = s.apartFromReply := by
  unfold State.adoptMgmt
  split <;> rfl

theorem replyLeft_fwReset : s.replyLeft.pwr.fwReset = s.pwr.fwReset := by
  rw [← adoptMgmt_pwr s]
  unfold State.replyLeft
  dsimp only
  split <;> rfl

theorem replyLeft_apart : s.replyLeft.apartFromReply = s.apartFromReply := by
  rw [← adoptMgmt_apart s]
  unfold State.replyLeft
  dsimp only
  split <;> rfl

theorem afterReply_eq : s.afterReply = if s.pwr.fwReset then s.replyLeft.deviceReset 3 else s.replyLeft := by
  rw [← replyLeft_fwReset s]
  rfl

/-- What an answer sent leaves, but for the reset that SEC_FW_ACTIVATE has put off. -/
theorem finish_leaves (w : Waiting) (status : Nat) (data : List Byte) : ∃ u : State,
    s.finish w status data = (if s.pwr.fwReset then u.deviceReset 3 else u) ∧ u.dataPath = s.dataPath ∧
      (w.cmd.client.ep ≠ 0 → u.apartFromReply = s.apartFromReply) := by
  unfold State.finish
  dsimp only
  generalize hsent : State.sendReply _ w.cmd.client w.cmd.via _ = sent
  have hreplied : Replied w.cmd.client.ep s sent := by
    rw [← hsent]
    exact (replied_mapOwn s _ _).trans ((replied_mapOwn _ _ _).trans ((replied_noteCommit _ _).trans (replied_sendReply _ _ _ _)))
  obtain ⟨hpwr, hdata, hapart⟩ := hreplied
  refine ⟨sent.replyLeft, ?_, ?_, fun hep => (replyLeft_apart sent).trans (hapart hep)⟩
  · rw [afterReply_eq, hpwr]
  · exact (congrArg State.outsideStores (replyLeft_apart sent)).trans hdata

theorem settleDomains_fwReset : s.settleDomains.pwr.fwReset = s.pwr.fwReset := by
  unfold State.settleDomains
  split <;> rfl

theorem setPwr_apart (v : PowerState) : ({ s with pwr := v } : State).apartFromReply = s.apartFromReply := rfl

theorem settleDomains_apart : s.settleDomains.apartFromReply = s.apartFromReply := by
  unfold State.settleDomains
  split
  · exact setPwr_apart s _
  · rfl

end Sending

/-- What answering a result leaves, but for the reset that SEC_FW_ACTIVATE has put off: either the reply waits for domains to come
on, or it has been sent. -/
theorem answer_leaves (before : State) (w : Waiting) (row : OpRow) (r : Res) : ∃ u : State,
    ((State.answer before w row r = u ∧ u.own.executing.isSome = true) ∨
      State.answer before w row r = (if r.st.pwr.fwReset then u.deviceReset 3 else u)) ∧
    u.dataPath = r.st.dataPath ∧ (w.cmd.client.ep ≠ 0 → u.apartFromReply = r.st.apartFromReply) := by
  have hsettled := settleDomains_apart r.st
  unfold State.answer
  dsimp only
  split
  · exact ⟨_, .inl ⟨rfl, rfl⟩, congrArg State.outsideStores hsettled, fun _ => hsettled⟩
  · obtain ⟨u, hfinish, hdata, hapart⟩ := finish_leaves r.st.settleDomains w r.status r.reply
    rw [settleDomains_fwReset] at hfinish
    exact ⟨u, .inr hfinish, hdata.trans (congrArg State.outsideStores hsettled), fun hep => (hapart hep).trans hsettled⟩

/-- Settles O9: what a reply changes lies outside the data path, and what the element of a completion queue may change lies outside
the rest of it. -/
theorem answeringKeepsTheDataPath : Obligations.AnsweringKeepsTheDataPath := by
  unfold Obligations.AnsweringKeepsTheDataPath
  constructor
  · intro before w row r hreset
    obtain ⟨u, hanswer, hdata, hapart⟩ := answer_leaves before w row r
    have heq : State.answer before w row r = u := by
      rcases hanswer with ⟨hwaits, -⟩ | hsent
      · exact hwaits
      · rw [hsent, hreset]
        rfl
    have hkept {α : Type} (f : State → α) : f u.dataPath = f r.st.dataPath := congrArg f hdata
    have hall {α : Type} (f : State → α) (hep : w.cmd.client.ep ≠ 0) : f u.apartFromReply = f r.st.apartFromReply :=
      congrArg f (hapart hep)
    exact ⟨u, heq, hkept State.qz, hkept State.ing, hkept State.tile, hkept State.filt, hkept State.load, hkept State.fr,
      hkept State.cap, hkept State.port, hkept State.flash, hkept State.split, hkept State.ns, hkept (·.mc.token),
      hkept (·.mc.inGap), hkept State.pending, fun hep => ⟨hall State.stg hep, hall State.bas hep, hall State.dump hep,
        hall State.beam hep, hall State.mem hep, hall State.ring hep, hall State.er hep, hall State.spare hep,
        hall State.jrnl hep⟩⟩
  · intro before w row r hreset hidle
    obtain ⟨u, hanswer, hdata, -⟩ := answer_leaves before w row r
    have hkept {α : Type} (f : State → α) : f u.dataPath = f r.st.dataPath := congrArg f hdata
    rcases hanswer with ⟨hwaits, hexecuting⟩ | hsent
    · rw [hwaits] at hidle
      rw [hidle] at hexecuting
      cases hexecuting
    · exact ⟨u, hsent.trans (if_pos hreset), hkept State.flash, hkept State.qz⟩

end Sys2Proof.Machine
end

section
/-! What a recovery write stores (R527, R538): the claim of O8. And what a piece of HBM reads back (R433, R436, R444): O6 has it for
every state whose memories are in canonical form, whatever the table of bad words looks like. -/

namespace Sys2Proof.Machine

/-! ## Reads after writes -/

/-- A run of bytes reads back as written. -/
theorem memRead_memWrite (d : Byte) (m : Mem) (addr : Nat) (bs : List Byte) (h : Memory.wf d m = true) :
    memRead d (memWrite d m addr bs) addr bs.length = bs := by
  induction bs generalizing m addr with
  | nil => rfl
  | cons b t ih =>
    have hset := kvSet_wf d m addr b h
    have hhead : kvGet d (memWrite d (kvSet d m addr b) (addr + 1) t) addr = b :=
      (memWrite_other d _ (addr + 1) addr t hset (.inl (Nat.lt_succ_self addr))).trans (kvGet_kvSet_self d m addr b h)
    have htail := ih (kvSet d m addr b) (addr + 1) hset
    unfold memRead at htail ⊢
    rw [List.length_cons, List.range_succ_eq_map, List.map_cons, List.map_map, memWrite]
    refine List.cons_eq_cons.mpr ⟨hhead, Eq.trans ?_ htail⟩
    refine List.map_congr_left fun i _ => ?_
    show kvGet d _ (addr + (i + 1)) = kvGet d _ (addr + 1 + i)
    rw [Nat.add_assoc, Nat.add_comm 1 i]

/-! ## Recovery (R527, R538) -/

theorem sawMail_mem (s t : State) : (State.sawMail s t).mem = t.mem := by
  simp only [State.sawMail, List.foldl_cons, List.foldl_nil]
  repeat' split
  all_goals rfl

theorem sramStore_sram (s : State) (off : Nat) (bs : List Byte) :
    (s.sramStore off bs).mem.sram = memWrite 0 s.mem.sram off bs := by
  unfold State.sramStore
  dsimp only
  split
  · rw [sawMail_mem]
    rfl
  · rfl

theorem sramStore_hbm (s : State) (off : Nat) (bs : List Byte) : (s.sramStore off bs).mem.hbm = s.mem.hbm := by
  unfold State.sramStore
  dsimp only
  split
  · rw [sawMail_mem]
    rfl
  · rfl

theorem Stored.flash {s t : State} (h : Stored s t) : t.flash = s.flash :=
  have houtside := congrArg State.flash h.outside
  houtside

/-- Settles O8: the eight bytes are stored in working SRAM alone, and read back. -/
theorem recoveryWritesEightBytes : Obligations.RecoveryWritesEightBytes := by
  intro s v hv hphase hfits hwf
  have hwhole : (leBytes 8 v).take (0x400000 - s.pwr.recAddr) = leBytes 8 v :=
    List.take_of_length_le (by rw [leBytes_length]; omega)
  have hstores := evBtRecData_stores (v := v) hphase
  rw [hwhole] at hstores
  have hstored := stored_sramStore s s.pwr.recAddr (leBytes 8 v)
  obtain ⟨-, hsram, -⟩ := memoryWf_iff.mp hwf
  refine ⟨_, happens_btRecData hv hstores, ?reads, ?others, ?hbm, hstored.flash, hstored.wf hwf, rfl⟩
  case reads =>
    rw [State.mapPwr_mem, sramStore_sram]
    have hreads := memRead_memWrite 0 s.mem.sram s.pwr.recAddr (leBytes 8 v) hsram
    rwa [leBytes_length] at hreads
  case others =>
    intro a ha
    rw [State.mapPwr_mem, sramStore_sram]
    exact memWrite_other 0 s.mem.sram s.pwr.recAddr a (leBytes 8 v) hsram (by rwa [leBytes_length])
  case hbm =>
    rw [State.mapPwr_mem]
    exact sramStore_hbm s s.pwr.recAddr (leBytes 8 v)

/-! ## HBM (R433, R436, R444) -/

/-- The table of bad words is not in ascending order: the entry of unit 32, with two uncorrectable words, lies behind one of unit 64
and is not found while that one stands. -/
def unsortedBad : State :=
  { mem := { bad := [(64, 0), (32, 0x30)] }, pwr := { phase := 4, domains := Vector.replicate 96 { state := .on } } }

/-- Where no set and no layout is configured, HBM holds neither banks nor areas. -/
theorem unsortedBad_plain (a : Nat) : unsortedBad.bankAt a = none ∧ unsortedBad.areaAt a = none := ⟨rfl, rfl⟩

/-- Units 32 and 64 are written with OK, which takes the entry of unit 64 away; then the read of unit 32 finds its entry. -/
theorem unsortedBad_fails :
    ((unsortedBad.busPiece 2 0x1000000020 (zeros 64)).1.readRange 2 0x1000000020 64).fail = some (0, .err) := by decide

/-- Refutes O6: `unsortedBad` meets its premises, canonical HBM, SRAM and flash among them, and the piece that was written with OK is
not read back. Nothing in the statement asks the table of bad words to be in canonical form. -/
theorem not_hbmReadsBackWhatWasWritten : ¬ Obligations.HbmReadsBackWhatWasWritten := by
  intro h
  obtain ⟨t, hwritten, -, hread, -⟩ := h unsortedBad 32 (zeros 64) (by decide) (by decide) (by decide) (by decide) (by decide)
    (by decide) fun a _ _ => unsortedBad_plain a
  have ht : (unsortedBad.busPiece 2 0x1000000020 (zeros 64)).1 = t := congrArg Prod.fst hwritten
  have hfails := unsortedBad_fails
  rw [ht] at hfails
  exact nomatch hread.symm.trans hfails

end Sys2Proof.Machine
end

section
/-! What CAP_SET_SEGMENT, CAP_SET_DETECTOR, CAP_ARM, CAP_TRIGGER and CAP_GET_STATUS do when they are accepted (R350 to R352, R354,
R359, R366 to R369). The claim of O28 is put together from them. -/

namespace Sys2Proof.Machine

section Commands
variable {c : Cmd} {s : State}

/-! ## Segment settings (R366) -/

/-- R366: the fields of a CAP_SET_SEGMENT are in range. -/
structure SegmentSetValid (p : List Byte) : Prop where
  mode : fld p 0 1 ≤ 2
  merge : fld p 2 2 ≤ 1000
  pre : fld p 4 4 ≤ 2 ^ 24
  preLine : fld p 4 4 % 256 = 0
  some_ : 256 ≤ fld p 8 4
  post : fld p 8 4 ≤ 2 ^ 24
  postLine : fld p 8 4 % 256 = 0
  holdoff : fld p 12 4 ≤ 2 ^ 24
  holdoffLine : fld p 12 4 % 256 = 0
  auto : fld p 0 1 = 2 → 256 ≤ fld p 16 4

theorem segmentSetValid_of {p : List Byte}
    (h : fld p 0 1 ≤ 2 ∧ fld p 2 2 ≤ 1000 ∧ fld p 4 4 ≤ 2 ^ 24 ∧ fld p 4 4 % 256 = 0 ∧ 256 ≤ fld p 8 4 ∧
      fld p 8 4 ≤ 2 ^ 24 ∧ fld p 8 4 % 256 = 0 ∧ fld p 12 4 ≤ 2 ^ 24 ∧ fld p 12 4 % 256 = 0 ∧
      (fld p 0 1 = 2 → 256 ≤ fld p 16 4)) : SegmentSetValid p := by
  obtain ⟨hmode, hmerge, hpre, hpreLine, hsome, hpost, hpostLine, hhold, hholdLine, hauto⟩ := h
  exact ⟨hmode, hmerge, hpre, hpreLine, hsome, hpost, hpostLine, hhold, hholdLine, hauto⟩

section Segment
variable (hvalid : SegmentSetValid c.params)
include hvalid

/-- The settings of a segment that are in range are judged by the mode of capture and by the ring. -/
theorem doCapSetSegment_valid : doCapSetSegment c s =
    if s.cap.mode ≠ .disarmed then .fail stBusy s
    else if !s.replaying && s.tile.layout.isSome && !s.cap.sel.fits s.ringReserve (fld c.params 4 4) (fld c.params 8 4) then
      .fail stResource s
    else .ok (s.mapCap fun d => { d with
      segMode := fld c.params 0 1, mergeUs := fld c.params 2 2, pre := fld c.params 4 4, post := fld c.params 8 4,
      holdoff := fld c.params 12 4, autoLen := fld c.params 16 4, trigMask := fld c.params 24 8 }) := by
  obtain ⟨hmode, hmerge, hpre, hpreLine, hsome, hpost, hpostLine, hhold, hholdLine, hauto⟩ := hvalid
  have hauto' : fld c.params 0 1 ≠ 2 ∨ 256 ≤ fld c.params 16 4 := Decidable.not_or_of_imp hauto
  rw [doCapSetSegment, firstBad_eq_none.mpr]
  simp only [List.all_cons, List.all_nil, Bool.and_eq_true, Bool.or_eq_true, decide_eq_true_eq]
  exact ⟨hmode, hmerge, ⟨hpre, hpreLine⟩, ⟨⟨hsome, hpost⟩, hpostLine⟩, ⟨hhold, hholdLine⟩, hauto', trivial⟩

theorem doCapSetSegment_ok (hmode : s.cap.mode = .disarmed)
    (hfits : s.tile.layout = none ∨ s.cap.sel.fits s.ringReserve (fld c.params 4 4) (fld c.params 8 4) = true) :
    doCapSetSegment c s = .ok (s.mapCap fun d => { d with
      segMode := fld c.params 0 1, mergeUs := fld c.params 2 2, pre := fld c.params 4 4, post := fld c.params 8 4,
      holdoff := fld c.params 12 4, autoLen := fld c.params 16 4, trigMask := fld c.params 24 8 }) := by
  rw [doCapSetSegment_valid hvalid, if_neg (not_not_intro hmode), if_neg]
  rcases hfits with hnone | hfits
  · simp [hnone]
  · simp [hfits]

theorem doCapSetSegment_busy (hmode : s.cap.mode ≠ .disarmed) : doCapSetSegment c s = .fail stBusy s := by
  rw [doCapSetSegment_valid hvalid, if_pos hmode]

theorem doCapSetSegment_full (hmode : s.cap.mode = .disarmed) (hlayout : s.tile.layout.isSome = true)
    (hlive : s.replaying = false)
    (hfits : s.cap.sel.fits s.ringReserve (fld c.params 4 4) (fld c.params 8 4) = false) :
    doCapSetSegment c s = .fail stResource s := by
  rw [doCapSetSegment_valid hvalid, if_neg (not_not_intro hmode), if_pos (by simp [hlayout, hlive, hfits])]

end Segment

/-! ## Detectors (R350 to R352, R367) -/

/-- R367: the fields of a CAP_SET_DETECTOR are in range, and what its source uses exists. -/
structure DetectorValid (p : List Byte) (s : State) : Prop where
  number : fld p 0 1 ≤ 63
  source : fld p 1 1 ≤ 2
  chain : fld p 2 1 ≤ 31
  pin : fld p 4 1 ≤ 15
  level : fld p 5 1 ≤ 1
  falling : fld p 6 1 ≤ 1
  onChain : fld p 1 1 ≠ 1 ∨ (s.chain (fld p 2 1)).configured = true ∧ (s.chain (fld p 2 1)).detected = true ∧
    (s.chain (fld p 2 1)).toFlint = true ∧ fld p 3 1 < (s.chain (fld p 2 1)).series ∧ sfld p 8 8 < sfld p 16 8
  onPin : fld p 1 1 ≠ 2 ∨ (s.evtPin (fld p 4 1)).output = false ∧
    (if fld p 5 1 = 1 then decide ((s.evtPin (fld p 4 1)).edges = 3) else bit (s.evtPin (fld p 4 1)).edges (fld p 6 1)) = true

/-- R367: the detector that the parameters of CAP_SET_DETECTOR describe. A level detector is primed where its line is at the
inactive level; a line that no edge has shown is either way (log entry 31). -/
def detectorAt (p : List Byte) (s : State) : Detector :=
  { source := fld p 1 1, chain := fld p 2 1, series := fld p 3 1, pin := fld p 4 1, level := decide (fld p 5 1 = 1),
    falling := decide (fld p 6 1 = 1), low := sfld p 8 8, high := sfld p 16 8, minWeight := fld p 24 4,
    primed := decide (fld p 1 1 = 2) && decide (fld p 5 1 = 1) &&
      decide ((s.evtPin (fld p 4 1)).level.getD (Config.freeBool s.draws (fld p 0 1)) = decide (fld p 6 1 = 1)),
    fires := (s.det (fld p 0 1)).fires }

/-- What a detector on a pin asks of the pin's edges, in the terms of the model's check. -/
theorem edgesOk_of {p : List Byte} {edges : Nat} (hfalling : fld p 6 1 ≤ 1)
    (h : (if fld p 5 1 = 1 then decide (edges = 3) else bit edges (fld p 6 1)) = true) :
    if fld p 5 1 = 1 then edges = 3 else (if fld p 6 1 = 1 then bit edges 1 else bit edges 0) = true := by
  by_cases hlevel : fld p 5 1 = 1
  · simpa [hlevel] using h
  · rw [if_neg hlevel] at h ⊢
    obtain hrises | hfalls : fld p 6 1 = 0 ∨ fld p 6 1 = 1 := by omega
    · simpa [hrises] using h
    · simpa [hfalls] using h

theorem doCapSetDetector_ok (hvalid : DetectorValid c.params s) :
    doCapSetDetector c s = .ok (s.draw.setDet (fld c.params 0 1) (detectorAt c.params s)) := by
  obtain ⟨hnumber, hsource, hchain, hpin, hlevel, hfalling, honChain, honPin⟩ := hvalid
  rw [doCapSetDetector, firstBad_eq_none.mpr]
  · simp [detectorAt, Bool.beq_eq_decide_eq]
  · simp only [List.all_cons, List.all_nil, Bool.and_eq_true, Bool.or_eq_true, decide_eq_true_eq, Bool.not_eq_true', Bool.and_true]
    refine ⟨hnumber, hsource, ⟨hchain, ?_⟩, ?_, ⟨hpin, ?_⟩, ⟨hlevel, ?_⟩, hfalling, ?_⟩
    · exact honChain.imp Or.inl fun ⟨hconfigured, hdetected, hflint, _⟩ => ⟨⟨hconfigured, hdetected⟩, hflint⟩
    · exact honChain.imp Or.inl fun ⟨_, _, _, hseries, _⟩ => hseries
    · exact honPin.imp Or.inl fun ⟨hinput, _⟩ => hinput
    · exact honPin.imp Or.inl fun ⟨_, hedges⟩ => edgesOk_of hfalling hedges
    · exact honChain.imp_right fun ⟨_, _, _, _, hlow⟩ => hlow

/-! ## Arming (R354, R368) -/

theorem doCapArm_arms (hact : fld c.params 0 1 = 1) (s : State) :
    doCapArm c s = .ok (s.mapCap fun d => d.arm (fld c.params 8 8) s.schedLive) := by
  simp [doCapArm, hact]

theorem doCapArm_disarms (hact : fld c.params 0 1 = 0) (s : State) :
    doCapArm c s = .ok (s.mapCap fun d => d.disarm (fld c.params 8 8)) := by
  simp [doCapArm, hact]

end Commands

theorem arm_disarmed {d : CaptureState} (idx : Nat) (live : Bool) (hmode : d.mode = .disarmed) :
    d.arm idx live = { d with
      mode := .armed, armGen := if live then d.gen else d.gen + 1, rearm := if idx = noIndex then d.top else idx,
      disarmAt := none, held := none, autoSpent := false } := if_pos hmode

theorem arm_other {d : CaptureState} (idx : Nat) (live : Bool) (hmode : d.mode ≠ .disarmed) : d.arm idx live = d := if_neg hmode

theorem disarm_armed {d : CaptureState} (idx : Nat) (hmode : d.mode = .armed) :
    d.disarm idx = { d with mode := .disarmed, held := none } := by
  simp [CaptureState.disarm, hmode]

theorem disarm_disarmed {d : CaptureState} (idx : Nat) (hmode : d.mode = .disarmed) : d.disarm idx = d := by
  simp [CaptureState.disarm, hmode]

theorem disarm_busy {d : CaptureState} (idx : Nat) (hmode : d.mode = .deciding ∨ d.mode = .capturing) :
    d.disarm idx =
      let x := if idx = noIndex then d.top else idx
      { d with disarmAt := some (match d.disarmAt with | some y => min x y | none => x) } := by
  cases hdisarm : d.disarmAt with
  | none => rcases hmode with hmode | hmode <;> simp [CaptureState.disarm, hmode, hdisarm]
  | some y => rcases hmode with hmode | hmode <;> simp [CaptureState.disarm, hmode, hdisarm]

/-! ## Triggers (R354, R355, R358, R359) -/

section Trigger
variable {d : CaptureState} {t : Trigger} {ns : Nat}

/-- R355, R358: what capture does with a trigger, not a forced one, that it accepts. -/
def CaptureState.accepted (d : CaptureState) (t : Trigger) (ns : Nat) : CaptureState :=
  let e := { d with autoSpent := d.autoSpent || decide (t.index < d.rearm + d.autoLen) }
  match d.mode, d.held with
  | .armed, _ => { e with mode := .deciding, openedAt := ns, window := [t] }
  | .deciding, _ => { e with window := d.window ++ [t] }
  | .capturing, none => { e with held := some t }
  | .capturing, some h => if t.before h then { e with held := some t, merged := d.merged + 1 } else e
  | .disarmed, _ => d

theorem trigger_disarmed (hmode : d.mode = .disarmed) : d.trigger t ns = d := if_pos hmode

theorem trigger_early (hmode : d.mode ≠ .disarmed) (hearly : t.index < d.rearm) : d.trigger t ns = d.suppress t := by
  rw [CaptureState.trigger, if_neg hmode, if_pos hearly]

theorem trigger_refused {x : Nat} (hmode : d.mode ≠ .disarmed) (hdue : d.rearm ≤ t.index) (hdisarm : d.disarmAt = some x)
    (hrefused : x ≤ t.index) : d.trigger t ns = d := by
  simp [CaptureState.trigger, hmode, Nat.not_lt.mpr hdue, hdisarm, hrefused]

theorem trigger_accepted (hmode : d.mode ≠ .disarmed) (hdue : d.rearm ≤ t.index)
    (hopen : ∀ x, d.disarmAt = some x → t.index < x) (hreal : t.source ≠ 3) : d.trigger t ns = d.accepted t ns := by
  have hnote : d.noteAuto t = { d with autoSpent := d.autoSpent || decide (t.index < d.rearm + d.autoLen) } := by
    simp [CaptureState.noteAuto, hreal]
  have hcovered : (match d.disarmAt with | some x => decide (x ≤ t.index) | none => false) = false := by
    cases hdisarm : d.disarmAt with
    | none => rfl
    | some x => exact decide_eq_false (Nat.not_le.mpr (hopen x hdisarm))
  have hbranch : d.trigger t ns = match d.mode with
      | .armed => { d.noteAuto t with mode := .deciding, openedAt := ns, window := [t] }
      | .deciding => { d.noteAuto t with window := d.window ++ [t] }
      | .capturing =>
        match d.held with
        | none => { d.noteAuto t with held := some t }
        | some h => if t.before h then { d.noteAuto t with held := some t, merged := d.merged + 1 } else d.noteAuto t
      | .disarmed => d :=
    (if_neg hmode).trans ((if_neg (Nat.not_lt.mpr hdue)).trans (if_neg (ne_true_of_eq_false hcovered)))
  rw [hbranch, hnote, CaptureState.accepted]
  cases hm : d.mode with
  | capturing => cases hheld : d.held <;> rfl
  | armed => rfl
  | deciding => rfl
  | disarmed => exact absurd hm hmode

end Trigger

section Commands
variable {c : Cmd} {s : State}

theorem doCapTrigger_judged (s : State) (hact : fld c.params 0 1 = 0) (hindex : fld c.params 8 8 ≠ noIndex) :
    doCapTrigger c s = .ok (s.mapCap fun d => d.trigger ⟨fld c.params 8 8, 2, 0xFF, 0⟩ s.ns) := by
  simp [doCapTrigger, firstBad, hact, hindex]

theorem doCapTrigger_badAction (s : State) (hact : fld c.params 0 1 ≠ 0) : doCapTrigger c s = .bad 0 s := by
  simp [doCapTrigger, firstBad, hact]

/-- The reserved index is refused (log entry 26). -/
theorem doCapTrigger_noIndex (s : State) (hact : fld c.params 0 1 = 0) (hindex : fld c.params 8 8 = noIndex) :
    doCapTrigger c s = .bad 8 s := by
  simp [doCapTrigger, firstBad, hact, hindex]

/-! ## Status (R369) -/

theorem doCapGetStatus_begins (s : State) (hdet : fld c.params 0 1 ≤ 63) : ∃ rest, doCapGetStatus c s = .okWith
    (beBytes 1 s.cap.mode.code ++ beBytes 1 s.cap.level ++ beCount 2 s.cap.segs.length ++ beBytes 4 s.cap.sel.blocks ++
      beBytes 4 (s.cap.blocks.filter fun b => s.cap.pinned b).length ++ zeros 4 ++ beBytes 8 s.cap.rearm ++
      beCount 8 s.cap.segments ++ beCount 8 s.cap.forced ++ beCount 8 s.cap.merged ++ beCount 8 s.cap.suppressed ++
      beCount 8 s.cap.suppressedBackoff ++ beCount 8 s.cap.ringFull ++ beCount 8 s.cap.noIndex ++ beCount 8 s.cap.lostGranules ++
      beCount 8 s.cap.overflow ++ beCount 8 s.cap.framesSent ++ beCount 8 s.cap.portLost ++ rest) s := by
  rw [doCapGetStatus, if_neg (Nat.not_lt.mpr hdet)]
  simp only [List.append_assoc]
  exact ⟨_, rfl⟩

end Commands

/-! ## The claim -/

/-- A change of the capture unit is what its present state makes of it. -/
theorem mapCap_congr {s : State} {f g : CaptureState → CaptureState} (h : f s.cap = g s.cap) : s.mapCap f = s.mapCap g :=
  congrArg (fun d => { s with cap := d }) h

theorem mapCap_id {s : State} {f : CaptureState → CaptureState} (h : f s.cap = s.cap) : s.mapCap f = s := mapCap_congr (g := id) h

/-- Settles O28: each command's body does as claimed once its checks pass. That a trigger needs an index, which fields of a
detector are checked and how a line without an edge primes one are the model's (log entries 26, 31 and 104). -/
theorem captureCommandsAct : Obligations.CaptureCommandsAct := by
  unfold Obligations.CaptureCommandsAct
  refine ⟨?segment, ?busy, ?full, ?detector, ?arms, ?armed, ?disarms, ?disarmed, ?disarmLater, ?badArm, ?idle, ?early, ?refused,
    ?accepted, ?badTrigger, ?noIndex, ?status⟩
  case segment =>
    refine setsJournalled_of (fun _ _ => rfl) rfl (ownRecord_ne_nil _) fun c u hgood => ?_
    simp only [Bool.and_eq_true, Bool.or_eq_true, decide_eq_true_eq, Option.isNone_iff_eq_none] at hgood
    obtain ⟨⟨hvalid, hmode⟩, hfits⟩ := hgood
    exact doCapSetSegment_ok (segmentSetValid_of hvalid) hmode hfits
  case busy =>
    refine executes_fail (fun _ _ => rfl) (by decide) fun c u hgood => ?_
    simp only [Bool.and_eq_true, decide_eq_true_eq] at hgood
    obtain ⟨hvalid, hmode⟩ := hgood
    exact doCapSetSegment_busy (segmentSetValid_of hvalid) hmode
  case full =>
    refine executes_fail (fun _ _ => rfl) (by decide) fun c u hgood => ?_
    simp only [Bool.and_eq_true, decide_eq_true_eq, Bool.not_eq_true'] at hgood
    obtain ⟨⟨⟨⟨hvalid, hmode⟩, hlayout⟩, hlive⟩, hfits⟩ := hgood
    exact doCapSetSegment_full (segmentSetValid_of hvalid) hmode hlayout hlive hfits
  case detector =>
    refine setsJournalled_of (fun _ _ => rfl) rfl (ownRecord_ne_nil _) fun c u hgood => ?_
    simp only [Bool.and_eq_true, Bool.or_eq_true, decide_eq_true_eq, Bool.not_eq_true', and_assoc] at hgood
    obtain ⟨hnumber, hsource, hchain, hpin, hlevel, hfalling, honChain, honPin⟩ := hgood
    exact doCapSetDetector_ok ⟨hnumber, hsource, hchain, hpin, hlevel, hfalling, honChain, honPin⟩
  case arms =>
    refine sets_of (fun _ _ => rfl) (fun _ _ => rfl) (by decide) fun c u hgood => ?_
    obtain ⟨hact, hmode⟩ := of_decide_eq_true hgood
    exact (doCapArm_arms hact u).trans (congrArg Res.ok (mapCap_congr (arm_disarmed _ _ hmode)))
  case armed =>
    refine sets_of (fun _ _ => rfl) (fun _ _ => rfl) (by decide) fun c u hgood => ?_
    obtain ⟨hact, hmode⟩ := of_decide_eq_true hgood
    exact (doCapArm_arms hact u).trans (congrArg Res.ok (mapCap_id (arm_other _ _ hmode)))
  case disarms =>
    refine sets_of (fun _ _ => rfl) (fun _ _ => rfl) (by decide) fun c u hgood => ?_
    obtain ⟨hact, hmode⟩ := of_decide_eq_true hgood
    exact (doCapArm_disarms hact u).trans (congrArg Res.ok (mapCap_congr (disarm_armed _ hmode)))
  case disarmed =>
    refine sets_of (fun _ _ => rfl) (fun _ _ => rfl) (by decide) fun c u hgood => ?_
    obtain ⟨hact, hmode⟩ := of_decide_eq_true hgood
    exact (doCapArm_disarms hact u).trans (congrArg Res.ok (mapCap_id (disarm_disarmed _ hmode)))
  case disarmLater =>
    refine sets_of (fun _ _ => rfl) (fun _ _ => rfl) (by decide) fun c u hgood => ?_
    obtain ⟨hact, hmode⟩ := of_decide_eq_true hgood
    exact (doCapArm_disarms hact u).trans (congrArg Res.ok (mapCap_congr (disarm_busy _ hmode)))
  case badArm => exact rejects_of (fun _ _ => rfl) fun c u hgood => if_pos (of_decide_eq_true hgood)
  case idle =>
    refine sets_of (fun _ _ => rfl) (fun _ _ => rfl) (by decide) fun c u hgood => ?_
    obtain ⟨hact, hindex, hmode⟩ := of_decide_eq_true hgood
    exact (doCapTrigger_judged u hact hindex).trans (congrArg Res.ok (mapCap_id (trigger_disarmed hmode)))
  case early =>
    refine sets_of (fun _ _ => rfl) (fun _ _ => rfl) (by decide) fun c u hgood => ?_
    obtain ⟨hact, hindex, hmode, hearly⟩ := of_decide_eq_true hgood
    exact (doCapTrigger_judged u hact hindex).trans (congrArg Res.ok (mapCap_congr (trigger_early hmode hearly)))
  case refused =>
    refine sets_of (fun _ _ => rfl) (fun _ _ => rfl) (by decide) fun c u hgood => ?_
    obtain ⟨hjudged, hcovered⟩ := Bool.and_eq_true_iff.mp hgood
    obtain ⟨hact, hindex, hmode, hdue⟩ := of_decide_eq_true hjudged
    cases hdisarm : u.cap.disarmAt with
    | none => simp [hdisarm] at hcovered
    | some x =>
      rw [hdisarm] at hcovered
      exact (doCapTrigger_judged u hact hindex).trans
        (congrArg Res.ok (mapCap_id (trigger_refused hmode hdue hdisarm (of_decide_eq_true hcovered))))
  case accepted =>
    refine sets_of (fun _ _ => rfl) (fun _ _ => rfl) (by decide) fun c u hgood => ?_
    obtain ⟨hjudged, huncovered⟩ := Bool.and_eq_true_iff.mp hgood
    obtain ⟨hact, hindex, hmode, hdue⟩ := of_decide_eq_true hjudged
    have hopen : ∀ x, u.cap.disarmAt = some x → fld c.params 8 8 < x := fun x hdisarm => by
      rw [hdisarm] at huncovered
      exact of_decide_eq_true huncovered
    exact (doCapTrigger_judged u hact hindex).trans
      (congrArg Res.ok (mapCap_congr (trigger_accepted hmode hdue hopen (show (2 : Nat) ≠ 3 by decide))))
  case badTrigger => exact rejects_of (fun _ _ => rfl) fun c u hgood => doCapTrigger_badAction u (of_decide_eq_true hgood)
  case noIndex =>
    refine rejects_of (fun _ _ => rfl) fun c u hgood => ?_
    obtain ⟨hact, hindex⟩ := of_decide_eq_true hgood
    exact doCapTrigger_noIndex u hact hindex
  case status =>
    exact reads_of (fun _ _ => rfl) (fun _ _ => rfl) (by decide) fun c u hgood => doCapGetStatus_begins u (of_decide_eq_true hgood)

end Sys2Proof.Machine
end

section
/-! What the close of a window, the forced trigger, the end of a segment and its SEG_END lead to (R354, R355, R358, R359, R362). The
claim of O55 is put together from them. -/

namespace Sys2Proof.Machine

section Events
variable {s u : State}

/-! ## The close of a window (R355, R364) -/

/-- An export that is only to be completed is completed before a freeze. -/
theorem exportFirst_eq (s : State) : s.exportFirst =
    if s.cap.segs.head?.any (fun y => decide (y.mode = .exporting ∧ y.inFlight = 0)) then evSegmentDone s else s := by
  unfold State.exportFirst
  cases s.cap.segs with
  | nil => rfl
  | cons x rest => simp only [List.head?_cons, Option.any_some, Bool.decide_and]

theorem evCaptureWindowClose_early (hearly : s.cap.mode ≠ .deciding ∨ s.ns < s.cap.openedAt + s.cap.mergeUs * 1000) :
    evCaptureWindowClose s = s := by
  have hcond : (s.cap.mode ≠ .deciding || s.ns < s.cap.openedAt + s.cap.mergeUs * 1000 : Bool) = true := by simpa using hearly
  simp only [evCaptureWindowClose, if_pos hcond]

/-- A window that is due closes; of the triggers that count, the one preferred is frozen. -/
theorem evCaptureWindowClose_freezes {x : Trigger} {rest : List Trigger} (hmode : s.cap.mode = .deciding)
    (hdue : s.cap.openedAt + s.cap.mergeUs * 1000 ≤ s.ns) (hu : u = s.exportFirst) (hmode' : u.cap.mode = .deciding)
    (hdue' : u.cap.openedAt + u.cap.mergeUs * 1000 ≤ u.ns)
    (hwindow : (u.cap.window.filter fun e => !(decide (e.source = 3) &&
      u.cap.window.any fun y => decide (y.source ≠ 3) && decide (y.index = e.index))) = x :: rest) :
    evCaptureWindowClose s = (u.mapCap fun c => { c with
      merged := c.merged + rest.length,
      forced := c.forced + ((x :: rest).filter fun e => decide (e.source = 3)).length }).freeze
        (rest.foldl (fun m e => if e.before m then e else m) x) rest.length := by
  have hcond : ¬ (s.cap.mode ≠ .deciding || s.ns < s.cap.openedAt + s.cap.mergeUs * 1000 : Bool) = true := by
    simpa [hmode] using hdue
  have hcond' : ¬ (u.cap.mode ≠ .deciding || u.ns < u.cap.openedAt + u.cap.mergeUs * 1000 : Bool) = true := by
    simpa [hmode'] using hdue'
  simp only [evCaptureWindowClose, if_neg hcond, ← hu, if_neg hcond', hwindow]

/-! ## The forced trigger (R358) -/

theorem evAutoForcedTrigger_kept (hkept : s.cap.segMode ≠ 2 ∨ s.cap.autoSpent = true) : evAutoForcedTrigger s = s := by
  rw [evAutoForcedTrigger]
  refine if_pos ?_
  rcases hkept with hkept | hkept <;> simp [hkept]

/-- The moment for the forced trigger has come: in time, or, without a mapping, as the granules of the schedule show. -/
def State.forcedDue (s : State) : Bool :=
  match s.qz.mapping with
  | none => decide (s.cap.armGen ≤ s.cap.gen ∧ s.cap.rearm + s.cap.autoLen < s.cap.top)
  | some _ => (s.instantOfIndex (s.cap.rearm + s.cap.autoLen)).any fun x => decide (x + s.cap.mergeUs * 1000 * 65536 ≤ s.now)

theorem evAutoForcedTrigger_forces (hauto : s.cap.segMode = 2) (hunspent : s.cap.autoSpent = false)
    (hmode : s.cap.mode = .armed ∨ s.cap.mode = .deciding) (hdue : s.forcedDue = true) :
    evAutoForcedTrigger s = s.mapCap fun c =>
      { c.trigger ⟨s.cap.rearm + s.cap.autoLen, 3, 0xFF, 0⟩ s.ns with autoSpent := true } := by
  have hdue' : (match s.qz.mapping with
      | some _ => (match s.instantOfIndex (s.cap.rearm + s.cap.autoLen) with
        | some t => decide (t + s.cap.mergeUs * 1000 * 65536 ≤ s.now)
        | none => false)
      | none => decide (s.cap.armGen ≤ s.cap.gen ∧ s.cap.rearm + s.cap.autoLen < s.cap.top)) = true := by
    unfold State.forcedDue at hdue
    cases hmap : s.qz.mapping with
    | none => simpa [hmap] using hdue
    | some m =>
      rw [hmap] at hdue
      cases hinstant : s.instantOfIndex (s.cap.rearm + s.cap.autoLen) with
      | none => simp [hinstant] at hdue
      | some t => simpa [hinstant] using hdue
  rw [evAutoForcedTrigger]
  refine if_neg ?_
  rw [Bool.not_eq_true, Bool.or_eq_false_iff, Bool.or_eq_false_iff, Bool.or_eq_false_iff]
  refine ⟨⟨⟨by simp [hauto], hunspent⟩, (congrArg Bool.not hdue').trans rfl⟩, ?_⟩
  rcases hmode with hmode | hmode <;> simp [hmode]

/-! ## The end of a segment (R354, R358) -/

/-- What becomes of capture when its segment has ended. -/
def CaptureState.afterSegment (c : CaptureState) (ns : Nat) : CaptureState :=
  if c.segMode = 0 then { c with mode := .disarmed, disarmAt := none, held := none }
  else match c.rest.mode, c.rest.held with
    | .armed, some y => { c.rest with held := none }.trigger y ns
    | _, _ => c.rest

/-- Granules of a segment that no block holds: a stop has left them unwritten. -/
def State.unwritten (s : State) (x : Segment) : List Nat :=
  (List.range x.count).filter fun i => !x.lost.contains i && (s.blockFor x i).isNone

/-- The segment that is still capturing waits for its export, without the granules that are `gone`. -/
def State.segmentWaits (s : State) (x : Segment) (gone : List Nat) : State :=
  (s.mapSegment x.seq fun y => { y with mode := .waiting, lost := y.lost ++ gone }).mapCap fun c =>
    { c with lostGranules := c.lostGranules + gone.length }

theorem evSegmentEnd_rests (hmode : s.cap.mode ≠ .capturing) : evSegmentEnd s = s := by
  rw [evSegmentEnd]
  split
  · rfl
  · exact if_pos (by simp [hmode])

theorem evSegmentEnd_empty (hnone : s.cap.segs = []) : evSegmentEnd s = s := by
  simp [evSegmentEnd, hnone]

theorem evSegmentEnd_ends {x : Segment} (hsegs : s.cap.segs = [x]) (hx : x.mode = .capturing) (hmode : s.cap.mode = .capturing)
    (hended : s.segmentEnded x = true) :
    evSegmentEnd s = ((s.segmentWaits x (if x.stopped then s.unwritten x else [])).mapCap
      (·.afterSegment s.ns)).pumpSegments := by
  have hfind : s.cap.segs.find? (·.mode = .capturing) = some x := by simp [hsegs, hx]
  have hcond : ¬ (s.cap.mode ≠ .capturing || !s.segmentEnded x : Bool) = true := by simp [hmode, hended]
  simp only [evSegmentEnd, hfind, if_neg hcond]
  rfl

/-! ## SEG_END (R362) -/

theorem evSegmentDone_empty (hnone : s.cap.segs = []) : evSegmentDone s = s := by
  simp [evSegmentDone, hnone]

section Front
variable {x : Segment} {rest : List Segment} (hsegs : s.cap.segs = x :: rest)
include hsegs

theorem evSegmentDone_unfinished (hunfinished : x.mode ≠ .exporting ∨ x.inFlight ≠ 0) : evSegmentDone s = s.pumpSegments := by
  have hcond : (x.mode ≠ .exporting || x.inFlight ≠ 0 : Bool) = true := by simpa using hunfinished
  simp only [evSegmentDone, hsegs, if_pos hcond]

variable (hmode : x.mode = .exporting) (hgone : x.inFlight = 0)
include hmode hgone

/-- SEG_END follows to the port that the segment was exported to, or is discarded there. -/
theorem evSegmentDone_port (hport : x.dest.kind = 1) : evSegmentDone s = if s.portTransmits x.dest.port
    then (((s.setPort x.dest.port { s.portAt x.dest.port with
        txPackets := (s.portAt x.dest.port).txPackets + 1 }).emit
          (.frame x.dest.port (x.dest.frame (s.segmentEndFrame x.dest x)))).frameGone (.segment x.seq) false).releaseSegment x
    else ((s.setPort x.dest.port { s.portAt x.dest.port with
        txDiscard := (s.portAt x.dest.port).txDiscard + 1 }).frameGone (.segment x.seq) true).releaseSegment x := by
  have hcond : ¬ (x.mode ≠ .exporting || x.inFlight ≠ 0 : Bool) = true := by simp [hmode, hgone]
  simp only [evSegmentDone, hsegs, if_neg hcond, if_pos hport]

theorem evSegmentDone_queue {lost : Bool} (hqueue : x.dest.kind ≠ 1)
    (hpush : s.push x.dest.queue 4 (s.segmentEndFrame x.dest x) = (u, .done lost)) :
    evSegmentDone s = (u.frameGone (.segment x.seq) lost).releaseSegment x := by
  have hcond : ¬ (x.mode ≠ .exporting || x.inFlight ≠ 0 : Bool) = true := by simp [hmode, hgone]
  simp only [evSegmentDone, hsegs, if_neg hcond, if_neg hqueue, hpush]

end Front

/-! ## The claim -/

theorem happens_captureWindowClose (h : evCaptureWindowClose s = u) : Happens .captureWindowClose s u :=
  h ▸ happens_of_guarded rfl rfl

theorem happens_autoForcedTrigger (h : evAutoForcedTrigger s = u) : Happens .autoForcedTrigger s u :=
  h ▸ happens_of_guarded rfl rfl

theorem happens_segmentEnd (h : evSegmentEnd s = u) : Happens .segmentEnd s u := h ▸ happens_of_guarded rfl rfl

theorem happens_segmentDone (h : evSegmentDone s = u) : Happens .segmentDone s u := h ▸ happens_of_guarded rfl rfl

end Events

/-- Settles O55: each event happens as its meaning says, and the lemma for its case says what that leads to. -/
theorem captureEventsAct : Obligations.CaptureEventsAct := by
  unfold Obligations.CaptureEventsAct
  refine ⟨?freezes, ?early, ?forces, ?kept, ?ends, ?stopped, ?rests, ?empty, ?port, ?queue, ?unfinished⟩
  case freezes =>
    intro s u x rest hmode hdue hu hmode' hdue' hwindow
    exact happens_captureWindowClose
      (evCaptureWindowClose_freezes hmode hdue (hu.trans (exportFirst_eq s).symm) hmode' hdue' hwindow)
  case early => exact fun s hearly => happens_captureWindowClose (evCaptureWindowClose_early hearly)
  case forces =>
    intro s hauto hunspent hmode hdue
    exact happens_autoForcedTrigger (evAutoForcedTrigger_forces hauto hunspent hmode hdue)
  case kept => exact fun s hkept => happens_autoForcedTrigger (evAutoForcedTrigger_kept hkept)
  case ends =>
    intro s u x hsegs hx hmode hended hgoes hu
    have hevent := evSegmentEnd_ends hsegs hx hmode hended
    rw [hgoes, if_neg Bool.false_ne_true] at hevent
    exact happens_segmentEnd (hu ▸ hevent)
  case stopped =>
    intro s u x gone hsegs hx hmode hstopped hsingle hgone hu
    have hended : s.segmentEnded x = true := by simp [State.segmentEnded, hstopped]
    have hevent := evSegmentEnd_ends hsegs hx hmode hended
    rw [hstopped, if_pos rfl, ← show gone = s.unwritten x from hgone, ← show u = s.segmentWaits x gone from hu] at hevent
    have hsingle' : u.cap.segMode = 0 := by rw [hu]; exact hsingle
    exact happens_segmentEnd (hevent.trans (congrArg State.pumpSegments (mapCap_congr (if_pos hsingle'))))
  case rests => exact fun s hmode => happens_segmentEnd (evSegmentEnd_rests hmode)
  case empty =>
    exact fun s hnone => ⟨happens_segmentEnd (evSegmentEnd_empty hnone), happens_segmentDone (evSegmentDone_empty hnone)⟩
  case port =>
    intro s x rest hsegs hmode hgone hport
    exact happens_segmentDone (evSegmentDone_port hsegs hmode hgone hport)
  case queue =>
    intro s u x rest lost hsegs hmode hgone hqueue hpush
    exact happens_segmentDone (evSegmentDone_queue hsegs hmode hgone hqueue hpush)
  case unfinished =>
    intro s x rest hsegs hunfinished
    exact happens_segmentDone (evSegmentDone_unfinished hsegs hunfinished)

end Sys2Proof.Machine
end

section
/-! What a delivery by the event router, a descriptor's start and end, the end of a coalescing interval and the end of a DMA drain lead
to (R372, R377, R454, R459 to R461, R463, R467). The claim of O56 is put together from them. -/

namespace Sys2Proof.Machine

section Events
variable {s u : State}

/-! ## Deliveries (R372, R377) -/

/-- The events that one delivery may choose from: raised 8 ns ago, within 32 ns of the first. -/
def readyEvents (e : EventRec) (rest : List EventRec) (ns : Nat) : List EventRec :=
  e :: rest.filter fun y => decide (y.at_ + 8 ≤ ns) && decide (y.at_ < e.at_ + 32)

theorem getD_mod_mem {α : Type} (l : List α) (a : α) (n : Nat) (hl : l ≠ []) : l.getD (n % l.length) a ∈ l := by
  rw [List.getD_eq_getElem?_getD, List.getElem?_eq_getElem (Nat.mod_lt n (List.length_pos_iff.mpr hl)), Option.getD_some]
  exact List.getElem_mem _

theorem evEventDelivery_empty (hnone : s.er.raised = []) : evEventDelivery s = s := by
  simp [evEventDelivery, hnone]

section Raised
variable {e : EventRec} {rest : List EventRec} (hraised : s.er.raised = e :: rest)
include hraised

theorem evEventDelivery_early (hearly : s.ns < e.at_ + 8) : evEventDelivery s = s := by
  simp [evEventDelivery, hraised, hearly]

theorem evEventDelivery_delivers (hdue : e.at_ + 8 ≤ s.ns) : ∃ x ∈ readyEvents e rest s.ns,
    evEventDelivery s = (s.draw.mapEr fun r => { r with raised := r.raised.erase x }).deliver x := by
  refine ⟨_, getD_mod_mem (readyEvents e rest s.ns) e (Config.freeNat s.draws 0) (List.cons_ne_nil _ _), ?_⟩
  simp only [evEventDelivery, hraised, if_neg (Nat.not_lt.mpr hdue)]
  rfl

end Raised

theorem evEventDelivery_only {e : EventRec} (hraised : s.er.raised = [e]) (hdue : e.at_ + 8 ≤ s.ns) :
    evEventDelivery s = (s.draw.mapEr fun r => { r with raised := [] }).deliver e := by
  obtain ⟨x, hx, hevent⟩ := evEventDelivery_delivers hraised hdue
  obtain rfl : x = e := by simpa [readyEvents] using hx
  have herase : s.draw.er.raised.erase x = [] := by
    rw [show s.draw.er.raised = [x] from hraised, List.erase_cons_head]
  rw [hevent, State.mapEr, herase]
  rfl

/-! ## Descriptors (R459 to R461, R463) -/

/-- A channel that is not OFF is what was stored of it. -/
theorem dma_setDma_of_on (s : State) (n : Nat) {v : DmaChannel} (hon : v.mode ≠ .off) : (s.setDma n v).dma n = v :=
  kvGet_kvSet_of_ne (fun hinit => hon (by rw [hinit]; rfl)) _ n

theorem evDmaDescriptorStart_reads {n : Nat} (x : Option (List Byte)) (hn : n < 256) (hmode : (s.dma n).mode = .idle)
    (hrest : (s.dma n).running = none) (hdomain : s.domainOn 94 = true) (hwaiting : s.descWaiting (s.dma n) = true)
    (hevent : (s.dma n).eventStart = false) (hroom : s.complRoom (s.dma n).complQ = true) :
    ((evDmaDescriptorStart n x s).dma n).mode = .running ∧ ((evDmaDescriptorStart n x s).dma n).started = false ∧
      ((evDmaDescriptorStart n x s).dma n).running = some ⟨(s.queue (s.dma n).descQ).cons,
        (s.readElement (s.queue (s.dma n).descQ) (s.queue (s.dma n).descQ).cons x).2⟩ := by
  have hcond : ¬ (!(n < 256) || !((s.dma n).mode = .idle || (s.dma n).mode = .waitEvent) || (s.dma n).running.isSome ||
      !s.domainOn 94 || !s.descWaiting (s.dma n) || ((s.dma n).eventStart && !(s.dma n).started) ||
      !s.complRoom (s.dma n).complQ : Bool) = true := by
    simp [hn, hmode, hrest, hdomain, hwaiting, hevent, hroom]
  simp only [evDmaDescriptorStart, if_neg hcond]
  rw [dma_setDma_of_on _ n (by simp)]
  exact ⟨rfl, rfl, rfl⟩

theorem evDmaDescriptorStart_waits {n : Nat} (x : Option (List Byte)) (hwaits : 256 ≤ n ∨ s.domainOn 94 = false ∨
    s.descWaiting (s.dma n) = false ∨ s.complRoom (s.dma n).complQ = false) : evDmaDescriptorStart n x s = s := by
  have hcond : (!(n < 256) || !((s.dma n).mode = .idle || (s.dma n).mode = .waitEvent) || (s.dma n).running.isSome ||
      !s.domainOn 94 || !s.descWaiting (s.dma n) || ((s.dma n).eventStart && !(s.dma n).started) ||
      !s.complRoom (s.dma n).complQ : Bool) = true := by
    rcases hwaits with hn | hdomain | hwaiting | hroom
    · simp [Nat.not_lt.mpr hn]
    · simp [hdomain]
    · simp [hwaiting]
    · simp [hroom]
  simp only [evDmaDescriptorStart, if_pos hcond]

theorem evDmaDescriptorComplete_ends {n : Nat} {r : RunningDesc} (x : DmaOutcome) (hrun : (s.dma n).running = some r)
    (hdue : (s.dma n).doneAt ≤ s.ns) :
    evDmaDescriptorComplete n x s = (s.runDesc r x).1.endDesc n r (s.runDesc r x).2 := by
  simp only [evDmaDescriptorComplete, hrun, if_neg (Nat.not_lt.mpr hdue)]

theorem evDmaDescriptorComplete_waits {n : Nat} (x : DmaOutcome) (hwaits : (s.dma n).running = none ∨ s.ns < (s.dma n).doneAt) :
    evDmaDescriptorComplete n x s = s := by
  unfold evDmaDescriptorComplete
  cases hrun : (s.dma n).running with
  | none => rfl
  | some r => exact if_pos (hwaits.resolve_left (by simp [hrun]))

/-! ## Interrupts and drains (R454, R467) -/

theorem evMsixCoalesceExpiry_raises {q t : Nat} (hraised : (s.queue q).raisedAt = some t) (howed : (s.queue q).owed = true)
    (hdue : t + (s.queue q).coal * 1000 ≤ s.ns) : evMsixCoalesceExpiry q s =
      (s.setQueue q { s.queue q with raisedAt := some s.ns, owed := false }).msix (s.queue q).vector := by
  simp [evMsixCoalesceExpiry, hraised, howed, hdue]

theorem evMsixCoalesceExpiry_rests {q : Nat} (howed : (s.queue q).owed = false) : evMsixCoalesceExpiry q s = s := by
  cases hraised : (s.queue q).raisedAt with
  | none => simp only [evMsixCoalesceExpiry, hraised]
  | some t => simp [evMsixCoalesceExpiry, hraised, howed]

theorem evDmaDrainTimeout_aborts (hmode : (s.domain 94).state = .draining) (hdue : (s.domain 94).since + 90000 ≤ s.ns) :
    evDmaDrainTimeout s = s.abortChannels := if_pos (by simp [hmode, hdue])

theorem evDmaDrainTimeout_waits (hwaits : (s.domain 94).state ≠ .draining ∨ s.ns < (s.domain 94).since + 90000) :
    evDmaDrainTimeout s = s := by
  refine if_neg ?_
  rcases hwaits with hmode | hearly
  · simp [hmode]
  · simp [Nat.not_le.mpr hearly]

/-! ## The claim -/

theorem happens_eventDelivery (h : evEventDelivery s = u) : Happens .eventDelivery s u := h ▸ happens_of_guarded rfl rfl

theorem happens_dmaDescriptorStart {n : Nat} {x : Option (List Byte)} (h : evDmaDescriptorStart n x s = u) :
    Happens (.dmaDescriptorStart n x) s u := h ▸ happens_of_guarded rfl rfl

theorem happens_dmaDescriptorComplete {n : Nat} {x : DmaOutcome} (h : evDmaDescriptorComplete n x s = u) :
    Happens (.dmaDescriptorComplete n x) s u := h ▸ happens_of_guarded rfl rfl

theorem happens_msixCoalesceExpiry {q : Nat} (h : evMsixCoalesceExpiry q s = u) : Happens (.msixCoalesceExpiry q) s u :=
  h ▸ happens_of_guarded rfl rfl

theorem happens_dmaDrainTimeout (h : evDmaDrainTimeout s = u) : Happens .dmaDrainTimeout s u := h ▸ happens_of_guarded rfl rfl

end Events

/-- Settles O56: each event happens as its meaning says, and the lemma for its case says what that leads to. -/
theorem routerAndDmaAct : Obligations.RouterAndDmaAct := by
  unfold Obligations.RouterAndDmaAct
  refine ⟨?delivers, ?only, ?early, ?empty, ?starts, ?noStart, ?ends, ?runs, ?raises, ?rests, ?aborts, ?drains⟩
  case delivers =>
    intro s e rest hraised hdue
    obtain ⟨x, hx, hevent⟩ := evEventDelivery_delivers hraised hdue
    exact ⟨x, hx, happens_eventDelivery hevent⟩
  case only => exact fun s e hraised hdue => happens_eventDelivery (evEventDelivery_only hraised hdue)
  case early => exact fun s e rest hraised hearly => happens_eventDelivery (evEventDelivery_early hraised hearly)
  case empty => exact fun s hnone => happens_eventDelivery (evEventDelivery_empty hnone)
  case starts =>
    intro s n x hn hmode hrest hdomain hwaiting hevent hroom
    exact ⟨_, happens_dmaDescriptorStart rfl, evDmaDescriptorStart_reads x hn hmode hrest hdomain hwaiting hevent hroom⟩
  case noStart => exact fun s n x hwaits => happens_dmaDescriptorStart (evDmaDescriptorStart_waits x hwaits)
  case ends => exact fun s n r x hrun hdue => happens_dmaDescriptorComplete (evDmaDescriptorComplete_ends x hrun hdue)
  case runs => exact fun s n x hwaits => happens_dmaDescriptorComplete (evDmaDescriptorComplete_waits x hwaits)
  case raises => exact fun s q t hraised howed hdue => happens_msixCoalesceExpiry (evMsixCoalesceExpiry_raises hraised howed hdue)
  case rests => exact fun s q howed => happens_msixCoalesceExpiry (evMsixCoalesceExpiry_rests howed)
  case aborts => exact fun s hmode hdue => happens_dmaDrainTimeout (evDmaDrainTimeout_aborts hmode hdue)
  case drains => exact fun s hwaits => happens_dmaDrainTimeout (evDmaDrainTimeout_waits hwaits)

end Sys2Proof.Machine
end

section
/-! What the commands of queues and DMA channels do when they are accepted (R452, R456, R459, R466, R469, R470, R472 to R474). The claim
of O36 is put together from them. -/

namespace Sys2Proof.Machine

section Commands
variable {c : Cmd} {s : State}

/-! ## Queues (R452, R456, R469, R470, R473) -/

/-- R469: the fields of a RING_CREATE pass their checks. -/
structure RingValid (p : List Byte) (s : State) : Prop where
  queue : (8 ≤ fld p 0 2 ∧ fld p 0 2 < 4096) ∨ fld p 0 2 = 0xFFFF
  kind : fld p 2 1 ≤ 6
  entries : 1 ≤ fld p 4 1 ∧ fld p 4 1 ≤ 16
  vector : (16 ≤ fld p 8 2 ∧ fld p 8 2 < 2048) ∨ fld p 8 2 = 0xFFFF
  writeBack : fld p 24 8 % 8 = 0 ∧ fld p 24 8 < 2 ^ 48
  esize : esizeOk (fld p 2 1) (fld p 3 1) = true
  base : s.baseOk (fld p 16 8) = true
  pair : fld p 2 1 ≠ 0 ∨ s.pairOk (fld p 0 2) (fld p 6 2) (fld p 4 1) = true

/-- R469: the queue that RING_CREATE brings into being at a place, empty. -/
def ringCreated (p : List Byte) (old : Queue) : Queue :=
  { old with
    enable := true, kind := fld p 2 1, esize := fld p 3 1, entries := fld p 4 1, pair := if fld p 2 1 = 0 then fld p 6 2 else 0,
    vector := fld p 8 2, coal := fld p 10 2, base := fld p 16 8, wb := fld p 24 8, prod := 0, cons := 0, raisedAt := none,
    owed := false }

theorem doRingCreate_ok {n : Nat} (hvalid : RingValid c.params s) (hplace : s.queuePlace (fld c.params 0 2) = some n)
    (hfree : (s.queue n).enable = false) : doRingCreate c s =
      .okWith (beBytes 2 n ++ zeros 6 ++ beBytes 8 (doorbellAddr n)) (s.setQueue n (ringCreated c.params (s.queue n))) := by
  obtain ⟨hqueue, hkind, hentries, hvector, hwb, hesize, hbase, hpair⟩ := hvalid
  rw [doRingCreate, firstBad_eq_none.mpr]
  · unfold State.queuePlace at hplace
    simp only [hplace, hfree]
    rfl
  · simp only [List.all_cons, List.all_nil, Bool.and_eq_true, Bool.or_eq_true, decide_eq_true_eq, Bool.and_true]
    exact ⟨hqueue, hkind, hesize, hentries, hpair, hvector, hbase, hwb⟩

theorem doRingDelete_ok {q : Nat} (hq : q = fld c.params 0 2) (hrange : 8 ≤ q ∧ q < 4096) (hon : (s.queue q).enable = true)
    (hunnamed : s.queueNamed q = false) (hclient : ¬ (c.client.ep = 0 ∧ c.client.port = q))
    (howner : ∀ o, s.own.owner = some o → ¬ (o.ep = 0 ∧ o.port = q)) :
    doRingDelete c s = .ok (s.setQueue q { s.queue q with enable := false, prod := 0, cons := 0 }) := by
  subst hq
  have hexists : ¬ (fld c.params 0 2 < 8 || 4096 ≤ fld c.params 0 2 || !(s.queue (fld c.params 0 2)).enable : Bool) = true := by
    simp [hon, hrange]
  have hclient' : (c.client.ep = 0 && c.client.port = fld c.params 0 2 : Bool) = false := by
    simpa using hclient
  rw [doRingDelete, if_neg hexists, if_neg]
  cases hown : s.own.owner with
  | none => simp [hunnamed, hclient']
  | some o =>
    have hother : (o.ep = 0 && o.port = fld c.params 0 2 : Bool) = false := by simpa using howner o hown
    simp [hunnamed, hclient', hother]

theorem doRingDelete_absent {q : Nat} (hq : q = fld c.params 0 2)
    (habsent : (q < 8 ∨ 4096 ≤ q) ∨ (s.queue q).enable = false) : doRingDelete c s = .bad 0 s := by
  subst hq
  exact if_pos (by simpa using habsent)

theorem doRingGetStatus_begins (s : State) (hrange : fld c.params 0 2 < 4096) : ∃ rest, doRingGetStatus c s = .okWith
    (beBytes 8 (s.queue (fld c.params 0 2)).cfgWord ++ beBytes 8 (s.queue (fld c.params 0 2)).base ++
      beBytes 8 (s.queue (fld c.params 0 2)).wb ++ beBytes 4 (s.queue (fld c.params 0 2)).prod ++
      beBytes 4 (s.queue (fld c.params 0 2)).cons ++ rest) s := by
  simp only [doRingGetStatus, if_neg (Nat.not_le.mpr hrange), List.append_assoc]
  exact ⟨_, rfl⟩

/-! ## Channels (R459, R466, R472, R474) -/

/-- R472: the fields of a DMA_SET_CHANNEL pass their checks. -/
structure ChannelValid (p : List Byte) (s : State) : Prop where
  start : fld p 2 1 ≤ 1
  startInput : fld p 2 1 = 1 → fld p 0 1 < 64
  descs : s.isQueue (fld p 4 2) 2 = true
  records : s.isQueue (fld p 6 2) 3 = true
  alone : (s.ring.channels.all fun e => decide (e.1 = fld p 0 1 ∨ e.2.mode = .off ∨ e.2.descQ ≠ fld p 4 2)) = true

section Channel
variable (hvalid : ChannelValid c.params s) {n : Nat} (hn : n = fld c.params 0 1)
include hvalid hn

/-- What DMA_SET_CHANNEL comes to once its fields are in range. -/
theorem doDmaSetChannel_valid (hon : fld c.params 1 1 ≤ 1) : doDmaSetChannel c s =
    if !((s.dma n).mode = .off || (s.dma n).mode = .stopped) && ((s.dma n).descQ ≠ fld c.params 4 2 ||
        (s.dma n).complQ ≠ fld c.params 6 2 || (s.dma n).eventStart ≠ decide (fld c.params 2 1 = 1)) then .fail stBusy s
    else if !(fld c.params 1 1 = 1) && !((s.dma n).mode = .off || (s.dma n).mode = .stopped || (s.dma n).mode = .idle) then
      .fail stBusy s
    else
      let s1 := s.setDma n { s.dma n with
        mode := if !decide (fld c.params 1 1 = 1) then .off
          else if (s.dma n).mode = .off || (s.dma n).mode = .stopped then .idle else (s.dma n).mode,
        descQ := fld c.params 4 2, complQ := fld c.params 6 2, eventStart := decide (fld c.params 2 1 = 1),
        started := (s.dma n).started && !((s.dma n).mode = .off || (s.dma n).mode = .stopped) && decide (fld c.params 1 1 = 1) }
      .ok ((if fld c.params 1 1 = 1 then s1 else s1.freeStart n).settleChannel n) := by
  subst hn
  obtain ⟨hstart, hinput, hdescs, hrecords, halone⟩ := hvalid
  have hinput' : fld c.params 2 1 = 0 ∨ fld c.params 0 1 < 64 := by omega
  rw [doDmaSetChannel, firstBad_eq_none.mpr]
  · simp
  · simp only [List.all_cons, List.all_nil, Bool.and_eq_true, decide_eq_true_eq, Bool.and_true]
    refine ⟨hon, ⟨hstart, hinput'⟩, ⟨hdescs, ?_⟩, hrecords⟩
    simpa [or_assoc] using halone

/-- A channel at rest is configured, and looks for work. -/
theorem doDmaSetChannel_configures (hon : fld c.params 1 1 = 1) (hrest : (s.dma n).mode = .off ∨ (s.dma n).mode = .stopped) :
    doDmaSetChannel c s = .ok ((s.setDma n { s.dma n with
      mode := .idle, descQ := fld c.params 4 2, complQ := fld c.params 6 2, eventStart := decide (fld c.params 2 1 = 1),
      started := false }).settleChannel n) := by
  rw [doDmaSetChannel_valid hvalid hn (Nat.le_of_eq hon)]
  rcases hrest with hrest | hrest <;> simp [hon, hrest]

/-- The same setting of a channel that has work changes nothing. -/
theorem doDmaSetChannel_again (hon : fld c.params 1 1 = 1) (hwork : (s.dma n).mode ≠ .off ∧ (s.dma n).mode ≠ .stopped)
    (hdesc : (s.dma n).descQ = fld c.params 4 2) (hcompl : (s.dma n).complQ = fld c.params 6 2)
    (hevent : (s.dma n).eventStart = decide (fld c.params 2 1 = 1)) :
    doDmaSetChannel c s = .ok ((s.setDma n (s.dma n)).settleChannel n) := by
  rw [doDmaSetChannel_valid hvalid hn (Nat.le_of_eq hon)]
  simp [hon, hwork, ← hdesc, ← hcompl, ← hevent]

/-- A channel without work is set off. -/
theorem doDmaSetChannel_off (hoff : fld c.params 1 1 = 0) (hidle : (s.dma n).mode = .off ∨ (s.dma n).mode = .stopped ∨
      ((s.dma n).mode = .idle ∧ (s.dma n).descQ = fld c.params 4 2 ∧ (s.dma n).complQ = fld c.params 6 2 ∧
        (s.dma n).eventStart = decide (fld c.params 2 1 = 1))) :
    doDmaSetChannel c s = .ok (((s.setDma n { s.dma n with
      mode := .off, descQ := fld c.params 4 2, complQ := fld c.params 6 2, eventStart := decide (fld c.params 2 1 = 1),
      started := false }).freeStart n).settleChannel n) := by
  rw [doDmaSetChannel_valid hvalid hn (hoff ▸ Nat.zero_le 1)]
  rcases hidle with hmode | hmode | ⟨hmode, hdesc, hcompl, hevent⟩
  · simp [hoff, hmode]
  · simp [hoff, hmode]
  · simp [hoff, hmode, hdesc, hcompl, hevent]

end Channel

section Stop
variable {n : Nat} (hn : n = fld c.params 0 1)
include hn

theorem doDmaStop_atRest (hrest : (s.dma n).mode = .off ∨ (s.dma n).mode = .stopped) : doDmaStop c s = .fail stBusy s := by
  subst hn
  exact if_pos (by simpa using hrest)

theorem doDmaStop_stopping (hstopping : (s.dma n).mode = .stopping) : doDmaStop c s = .accepted s := by
  subst hn
  simp [doDmaStop, hstopping]

variable (hwork : (s.dma n).mode ≠ .off ∧ (s.dma n).mode ≠ .stopped ∧ (s.dma n).mode ≠ .stopping)
include hwork

/-- A channel that moves data stops when its descriptor has ended. -/
theorem doDmaStop_running (hrun : (s.dma n).running.isSome = true) :
    doDmaStop c s = .accepted (s.setDma n { s.dma n with mode := .stopping }) := by
  subst hn
  simp [doDmaStop, hwork, hrun]

theorem doDmaStop_idle (hidle : (s.dma n).running = none) : doDmaStop c s = .accepted ((s.stopNow n).freeStart n) := by
  subst hn
  simp [doDmaStop, hwork, hidle]

end Stop

theorem doDmaGetStatus_begins (c : Cmd) (s : State) : ∃ rest, doDmaGetStatus c s = .okWith
    (beBytes 8 (s.dcStatus (fld c.params 0 1)) ++ beBytes 8 (s.dma (fld c.params 0 1)).cfgWord ++ rest) s.draw := by
  simp only [doDmaGetStatus, List.append_assoc]
  exact ⟨_, rfl⟩

end Commands

/-! ## The claim -/

/-- Settles O36: each command's body does as claimed once its checks pass. -/
theorem ringAndDmaCommandsAct : Obligations.RingAndDmaCommandsAct := by
  unfold Obligations.RingAndDmaCommandsAct
  refine ⟨?create, ?delete, ?absent, ?configures, ?again, ?off, ?running, ?stopping, ?idle, ?atRest, ?ringStatus, ?dmaStatus⟩
  case create =>
    refine executes_body (fun _ _ => rfl) (fun _ _ => rfl) (by decide) fun c u hgood => ?_
    simp only [Bool.and_eq_true, Bool.or_eq_true, decide_eq_true_eq] at hgood
    obtain ⟨⟨⟨⟨⟨hqueue, hkind, hlow, hhigh, hvector, hwb⟩, hesize⟩, hbase⟩, hpair⟩, hplace⟩ := hgood
    obtain ⟨n, hplace, hfree⟩ := (Option.any_eq_true _ _).mp hplace
    exact ⟨_, doRingCreate_ok ⟨hqueue, hkind, ⟨hlow, hhigh⟩, hvector, hwb, hesize, hbase, hpair⟩ hplace (by simpa using hfree), n,
      hplace, rfl, rfl, rfl⟩
  case delete =>
    refine sets_of (fun _ _ => rfl) (fun _ _ => rfl) (by decide) fun c u hgood => ?_
    simp only [Bool.and_eq_true, decide_eq_true_eq, Bool.not_eq_true'] at hgood
    obtain ⟨⟨⟨⟨hrange, hon⟩, hunnamed⟩, hclient⟩, howner⟩ := hgood
    refine doRingDelete_ok rfl hrange hon hunnamed (by simpa using hclient) fun o ho => ?_
    simpa [ho, Decidable.imp_iff_not_or] using howner
  case absent =>
    refine rejects_of (fun _ _ => rfl) fun c u hgood => ?_
    simp only [Bool.or_eq_true, decide_eq_true_eq, Bool.not_eq_true'] at hgood
    exact doRingDelete_absent rfl hgood
  case configures =>
    refine sets_of (fun _ _ => rfl) (fun _ _ => rfl) (by decide) fun c u hgood => ?_
    simp only [Bool.and_eq_true, decide_eq_true_eq] at hgood
    obtain ⟨⟨⟨⟨⟨hon, hstart, hinput⟩, hdescs⟩, hrecords⟩, hrest⟩, halone⟩ := hgood
    exact doDmaSetChannel_configures ⟨hstart, hinput, hdescs, hrecords, halone⟩ rfl hon hrest
  case again =>
    refine sets_of (fun _ _ => rfl) (fun _ _ => rfl) (by decide) fun c u hgood => ?_
    simp only [Bool.and_eq_true, decide_eq_true_eq] at hgood
    obtain ⟨⟨⟨⟨⟨hon, hstart, hinput⟩, hdescs⟩, hrecords⟩, hnotOff, hnotStopped, hdesc, hcompl, hevent⟩, halone⟩ := hgood
    exact doDmaSetChannel_again ⟨hstart, hinput, hdescs, hrecords, halone⟩ rfl hon ⟨hnotOff, hnotStopped⟩ hdesc hcompl hevent
  case off =>
    refine sets_of (fun _ _ => rfl) (fun _ _ => rfl) (by decide) fun c u hgood => ?_
    simp only [Bool.and_eq_true, decide_eq_true_eq] at hgood
    obtain ⟨⟨⟨⟨⟨hoff, hstart, hinput⟩, hdescs⟩, hrecords⟩, hidle⟩, halone⟩ := hgood
    exact doDmaSetChannel_off ⟨hstart, hinput, hdescs, hrecords, halone⟩ rfl hoff hidle
  case running =>
    refine executes_body (fun _ _ => rfl) (fun _ _ => rfl) (by decide) fun c u hgood => ?_
    simp only [Bool.and_eq_true, decide_eq_true_eq] at hgood
    obtain ⟨hwork, hrun⟩ := hgood
    exact ⟨_, doDmaStop_running rfl hwork hrun, rfl, rfl⟩
  case stopping =>
    refine executes_body (fun _ _ => rfl) (fun _ _ => rfl) (by decide) fun c u hgood => ?_
    exact ⟨_, doDmaStop_stopping rfl (of_decide_eq_true hgood), rfl, rfl⟩
  case idle =>
    refine executes_body (fun _ _ => rfl) (fun _ _ => rfl) (by decide) fun c u hgood => ?_
    simp only [Bool.and_eq_true, decide_eq_true_eq] at hgood
    obtain ⟨hwork, hidle⟩ := hgood
    exact ⟨_, doDmaStop_idle rfl hwork (Option.isNone_iff_eq_none.mp hidle), rfl, rfl⟩
  case atRest => exact executes_fail (fun _ _ => rfl) (by decide) fun c u hgood => doDmaStop_atRest rfl (of_decide_eq_true hgood)
  case ringStatus =>
    exact reads_of (fun _ _ => rfl) (fun _ _ => rfl) (by decide) fun c u hgood => doRingGetStatus_begins u (of_decide_eq_true hgood)
  case dmaStatus =>
    refine executes_body (fun _ _ => rfl) (fun _ _ => rfl) (by decide) fun c u _ => ?_
    obtain ⟨rest, hbody⟩ := doDmaGetStatus_begins c u
    exact ⟨_, hbody, rfl, rfl, List.take_left' (by simp only [List.length_append, beBytes_length])⟩

end Sys2Proof.Machine
end

section
/-! What MEM_GET_ERRORS, MEM_GET_STATS and a read of the patrol scrubber do (R444 to R446, R448, R450). A memory error that is logged
meets no other: its record is written blind. The claim of O35 is put together from these. -/

namespace Sys2Proof.Machine

/-! ## The place of a scrub (R439, R445) -/

theorem xor_mod_cancel {p pc x : Nat} (hpc : pc < 2 ^ 7) (hp : p % 2 ^ 7 = (pc ^^^ x) % 2 ^ 7) : (p ^^^ x) % 2 ^ 7 = pc := by
  rw [Nat.xor_mod_two_pow, hp, ← Nat.xor_mod_two_pow, Nat.xor_assoc, Nat.xor_self, Nat.xor_zero, Nat.mod_eq_of_lt hpc]

/-- The low bits of a unit's piece undo the fold of its address: the unit lies in the pseudo-channel that the scrubber is at. -/
theorem hbmPc_scrubUnit (h i : Nat) (hh : h < 4) : hbmPc (scrubUnit h i) = 32 * h + i % 256 / 8 := by
  unfold scrubUnit
  extract_lets lp pc low
  have hlow : low < 128 := Nat.mod_lt _ (by decide)
  have hpiece : ((lp * 128 + low) * 256 + i % 8 * 32) / 256 = lp * 128 + low := by omega
  have hfold1 : (lp * 128 + low) / 128 = lp := by omega
  have hfold2 : (lp * 128 + low) / 2 ^ 14 = lp / 128 := by omega
  have hfold3 : (lp * 128 + low) / 2 ^ 21 = lp / 2 ^ 14 := by omega
  unfold hbmPc
  simp only [hpiece, hfold1, hfold2, hfold3, Nat.xor_assoc]
  refine xor_mod_cancel (show pc < 2 ^ 7 by omega) ?_
  have hmod : (lp * 128 + low) % 2 ^ 7 = low := by omega
  rw [hmod]
  simp only [low, Nat.xor_assoc]
  rfl

theorem stackOf_scrubUnit (h i : Nat) (hh : h < 4) : stackOf (scrubUnit h i) = h := by
  rw [stackOf, hbmPc_scrubUnit h i hh]
  omega

/-! ## What the record of an error leaves -/

/-- A management core, apart from where its missed intervals are counted from. -/
def McCore.apartFromMissed (c : McCore) : McCore := { c with wireFrom := 0, mailFrom := 0 }

/-- The parity errors that each stack has retried and failed to, the queues that the records of errors go to, and the management
cores, apart from their missed intervals. -/
structure BlindView where
  retried : Nat → Nat
  failed : Nat → Nat
  log : Nat
  bound : KV Nat
  cores : Fin 2 → McCore

def State.blindView (s : State) : BlindView :=
  { retried := fun h => (s.mem.hc h).parRetry, failed := fun h => (s.mem.hc h).parFail, log := s.mem.logQueue,
    bound := s.er.pqueue, cores := fun h => (s.core h).apartFromMissed }

theorem blindView_congr {s t : State} (hhc : t.mem.hc = s.mem.hc) (hlog : t.mem.logQueue = s.mem.logQueue)
    (her : t.er.pqueue = s.er.pqueue) (hmc : t.mc = s.mc) : t.blindView = s.blindView := by
  unfold State.blindView State.core
  rw [hhc, hlog, her, hmc]

/-- What a new controller has in common with the one whose place it takes, every stack's controller keeps. -/
theorem field_hc_setHc {α : Type} (g : HbmCtl → α) (m : MemState) (h : Nat) (c : HbmCtl) (hc : g c = g (m.hc h)) (k : Nat) :
    g ((m.setHc h c).hc k) = g (m.hc k) := by
  grind [MemState.setHc, MemState.hc]

@[simp] theorem logQueue_setHc (m : MemState) (h : Nat) (c : HbmCtl) : (m.setHc h c).logQueue = m.logQueue := by
  unfold MemState.setHc
  repeat' split
  all_goals rfl

@[simp] theorem errCount_setHc (m : MemState) (h : Nat) (c : HbmCtl) : (m.setHc h c).errCount = m.errCount := by
  unfold MemState.setHc
  repeat' split
  all_goals rfl

/-- A change of one stack's controller that counts no parity error. -/
theorem blindView_bumpHc (s : State) (h : Nat) (f : HbmCtl → HbmCtl) (hretried : ∀ c, (f c).parRetry = c.parRetry)
    (hfailed : ∀ c, (f c).parFail = c.parFail) : (s.bumpHc h f).blindView = s.blindView := by
  have hretried' := funext (field_hc_setHc HbmCtl.parRetry s.mem h (f (s.mem.hc h)) (hretried _))
  have hfailed' := funext (field_hc_setHc HbmCtl.parFail s.mem h (f (s.mem.hc h)) (hfailed _))
  simp only [State.blindView, State.bumpHc, State.mapMem, hretried', hfailed', logQueue_setHc]
  rfl

theorem blindView_countWrite (s : State) (unit : Nat) : (s.countWrite unit).blindView = s.blindView :=
  blindView_bumpHc s _ _ (fun _ => rfl) fun _ => rfl

/-- A fold whose steps leave the view as it is. -/
theorem blindView_foldl {σ β : Type} (g : σ → State) {f : σ → β → σ}
    (hstep : ∀ x b, (g (f x b)).blindView = (g x).blindView) (l : List β) (x : σ) :
    (g (l.foldl f x)).blindView = (g x).blindView :=
  List.foldlRecOn l f (motive := fun y => (g y).blindView = (g x).blindView) rfl fun y hy b _ => (hstep y b).trans hy

theorem blindView_ite {c : Prop} [Decidable c] {s t u : State} (ht : t.blindView = s.blindView)
    (hu : u.blindView = s.blindView) : (if c then t else u).blindView = s.blindView := by
  split
  · exact ht
  · exact hu

/-! ## A record that is written blind meets no parity error (log entry 50) -/

theorem blindView_touchResiduals (s : State) (off len : Nat) : (s.touchResiduals off len).blindView = s.blindView := by
  unfold State.touchResiduals
  dsimp only
  split <;> rfl

/-- What stores a byte in an area leaves the memories, the router and the cores. -/
structure AreaWriterLeaves (store : State → Nat → Nat → Byte → Option State) : Prop where
  leaves (s : State) (c x : Nat) (v : Byte) : ∀ t ∈ store s c x v, t.mem = s.mem ∧ t.er = s.er ∧ t.mc = s.mc

/-- `areaStore` is taken apart as in `areaWriterKeeps_areaStore`, and for its reason. -/
theorem areaWriterLeaves_areaStore : AreaWriterLeaves State.areaStore := by
  delta State.areaStore
  constructor
  intro s c x v t ht
  replace ht := Option.mem_def.mp ht
  with_reducible conv at ht => lhs; whnf
  generalize s.layout.areaByte x = place at ht
  cases place with
  | plain => cases ht
  | corner _ | header _ => exact Option.some.inj ht ▸ ⟨rfl, rfl, rfl⟩
  | acc _ _ | log _ _ _ =>
    obtain ⟨_, -, rfl⟩ := Option.map_eq_some_iff.mp ht
    split <;> exact ⟨rfl, rfl, rfl⟩
  | input _ _ | record _ _ =>
    dsimp only at ht
    repeat' split at ht
    all_goals cases ht
    all_goals exact ⟨rfl, rfl, rfl⟩

theorem blindView_hbmStoreGo (bs : List Byte) (s : State) (o : Nat) :
    (State.hbmStore.go s o bs).blindView = s.blindView := by
  induction bs generalizing s o with
  | nil => rfl
  | cons b t ih =>
    unfold State.hbmStore.go
    split
    · exact blindView_ite (ih _ _) (ih _ _)
    · refine (ih _ _).trans ?_
      split
      · next c x _ =>
        cases harea : s.areaStore c x b with
        | none => rfl
        | some u =>
          obtain ⟨hmem, her, hmc⟩ := areaWriterLeaves_areaStore.leaves s c x b u harea
          exact blindView_congr (congrArg MemState.hc hmem) (congrArg MemState.logQueue hmem) (congrArg Router.pqueue her) hmc
      · exact blindView_congr rfl rfl rfl rfl

theorem blindView_hbmWrite (s : State) (off : Nat) (bs : List Byte) : (s.hbmWrite off bs).blindView = s.blindView := by
  refine blindView_foldl id (fun u c => ?_) _ s
  calc (u.hbmWriteUnit c.1 (slice bs (c.1 - off) c.2)).blindView
    _ = ((u.unitWritten c.1 _).touchResiduals c.1 _).blindView := blindView_hbmStoreGo _ _ _
    _ = (u.unitWritten c.1 _).blindView := blindView_touchResiduals _ _ _
    _ = u.blindView := blindView_countWrite u _

theorem blindView_countMissed (s : State) (h : Fin 2) (wire mail : Bool) :
    (s.countMissed h wire mail).blindView = s.blindView := by
  have hcores : (fun k => ((s.countMissed h wire mail).core k).apartFromMissed) = fun k => (s.core k).apartFromMissed := by
    funext k
    match h, k with
    | 0, 0 | 0, 1 | 1, 0 | 1, 1 => rfl
  unfold State.blindView
  rw [hcores]
  unfold State.countMissed State.setCore
  split <;> rfl

theorem blindView_sramStore (s : State) (off : Nat) (bs : List Byte) : (s.sramStore off bs).blindView = s.blindView := by
  refine blindView_ite ?_ rfl
  exact blindView_foldl id (fun u h => blindView_ite rfl (blindView_countMissed u h _ _)) _ _

theorem blindView_putBlind (s : State) (addr : Nat) (bs : List Byte) : (putBlind s addr bs).1.blindView = s.blindView := by
  unfold putBlind
  split
  · split
    · rfl
    · exact blindView_sramStore s _ bs
  · split
    · exact blindView_hbmWrite s _ bs
    · rfl
  · split <;> rfl
  · rfl

theorem blindView_putBytesBy (s : State) (addr : Nat) (bs : List Byte) :
    (s.putBytesBy putBlind addr bs).1.blindView = s.blindView := by
  unfold State.putBytesBy
  split
  · rfl
  · refine blindView_foldl Prod.fst ?_ _ (s, true)
    exact fun x c => (blindView_putBlind (x.1.grant 4) c.1 (slice bs (c.1 - addr) c.2)).trans (blindView_congr rfl rfl rfl rfl)

theorem blindView_writeBackBy (s : State) (qn idx : Nat) : (s.writeBackBy putBlind qn idx).blindView = s.blindView := by
  have hput := blindView_putBytesBy s (s.queue qn).wb (leBytes 8 idx)
  refine blindView_ite rfl (blindView_ite hput (blindView_ite ?_ hput))
  exact blindView_ite hput hput

theorem blindView_pushOrDropBy (s : State) (qn kind : Nat) (bs : List Byte) :
    (s.pushOrDropBy putBlind qn kind bs).1.blindView = s.blindView := by
  have hpush : (s.pushBy putBlind qn kind bs).1.blindView = s.blindView := by
    unfold State.pushBy
    dsimp only
    split
    · rfl
    · split
      · rfl
      · exact (blindView_writeBackBy _ _ _).trans (blindView_putBytesBy s _ bs)
  unfold State.pushOrDropBy
  split
  all_goals next heq => rw [heq] at hpush; exact hpush

theorem blindView_of_pushOrDropBy {s u : State} {qn kind : Nat} {bs : List Byte} {ok : Bool}
    (h : s.pushOrDropBy putBlind qn kind bs = (u, ok)) : u.blindView = s.blindView := by
  have hpush := blindView_pushOrDropBy s qn kind bs
  rwa [h] at hpush

/-- What raising an event notes of it, before its record goes to a queue. -/
theorem blindView_setEvents (s : State) {er : Router} (dev : DevState) (h : er.pqueue = s.er.pqueue) :
    State.blindView { s with er := er, dev := dev } = s.blindView := blindView_congr rfl rfl h rfl

theorem blindView_raiseEventBy (s : State) (p index arg : Nat) (time : Option Instant) (late : Bool) :
    (s.raiseEventBy putBlind p index arg time late).blindView = s.blindView := by
  unfold State.raiseEventBy
  dsimp only
  split
  · exact blindView_setEvents s _ rfl
  · split
    · next heq => exact (blindView_of_pushOrDropBy heq).trans (blindView_setEvents s _ rfl)
    · next heq =>
      have hpushed := (blindView_of_pushOrDropBy heq).trans (blindView_setEvents s _ rfl)
      exact blindView_ite ((blindView_congr rfl rfl rfl rfl).trans hpushed) hpushed

theorem blindView_logMemErr (s : State) (kind stack pc req words : Nat) (write : Bool) (addr : Nat) :
    (s.logMemErr kind stack pc req words write addr).blindView = s.blindView := by
  unfold State.logMemErr
  extract_lets e s1
  have hs1 : s1.blindView = s.blindView := rfl
  generalize hlog : (if s.mem.logQueue = 0xFFFF then _ else _ : State × Bool) = logged
  have hlogged : logged.1.blindView = s.blindView := by
    rw [← hlog]
    split
    · exact hs1
    · exact (blindView_pushOrDropBy s1 _ _ _).trans hs1
  have hcounted := blindView_ite (c := logged.2 = true) (u := logged.1.mapMem fun m => { m with logLost := m.logLost + 1 })
    hlogged hlogged
  exact blindView_ite ((blindView_raiseEventBy _ _ _ _ _ _).trans hcounted) hcounted

/-- Error responses are counted apart from the log: without a queue for records of errors, an entry of the log adds none. -/
theorem logMemErr_errCount (s : State) (kind stack pc req words : Nat) (write : Bool) (addr : Nat)
    (hlog : s.mem.logQueue = 0xFFFF) (hbound : kvGet 0xFFFF s.er.pqueue 195 = 0xFFFF) :
    (s.logMemErr kind stack pc req words write addr).mem.errCount = s.mem.errCount := by
  unfold State.logMemErr
  simp only [hlog, if_true, Bool.false_eq_true, if_false]
  split
  · unfold State.raiseEventBy
    simp only [State.mapMem, hbound, if_true]
  · rfl

theorem addCandidate_mem (s : State) (off : Nat) : (s.addCandidate off).mem = s.mem := by
  unfold State.addCandidate
  dsimp only
  split <;> rfl

theorem noteScrub_mem (s : State) (unit : Nat) : (s.noteScrub unit).mem = s.mem := by
  unfold State.noteScrub
  dsimp only
  split
  · split
    · exact addCandidate_mem s unit
    · rfl
  · rfl

/-! ## A read of the scrubber (R444 to R446) -/

section Scrub
variable {s : State} {h : Fin 4} {unit : Nat}

/-- The unit is read, and the scrubber goes on to the next, or begins a new pass. -/
def State.scrubbed (s : State) (h : Fin 4) : State :=
  (s.grant 15).bumpHc h.val fun c => { c with
    reads := c.reads + 1,
    scrubPos := if (s.mem.hc h.val).scrubPos + 1 = stackUnits then 0 else (s.mem.hc h.val).scrubPos + 1,
    scrubPasses := c.scrubPasses + b2n (decide ((s.mem.hc h.val).scrubPos + 1 = stackUnits)) }

/-- The wrong single bits of a unit are counted, corrected and written back. -/
def State.scrubCorrected (s : State) (h : Fin 4) (unit words : Nat) : State :=
  ((s.bumpHc h.val fun c => { c with ceCount := c.ceCount + (bitsOf 4 words).length }).countWrite unit).mapMem fun m =>
    { m with bad := kvSet 0 m.bad unit 0 }

/-- What is done with a unit once it has been read. -/
def State.scrubJudged (s : State) (h : Fin 4) (unit : Nat) : State :=
  let bad := kvGet 0 s.mem.bad unit
  if bad / 16 % 16 ≠ 0 then
    ((s.bumpHc h.val fun c => { c with ueCount := c.ueCount + 1 }).logMemErr 5 h.val (hbmPc unit % 32) 15 (bad / 16 % 16) false
      (0x1000000000 + unit)).addCandidate unit
  else if bad % 16 = 0 then s
  else
    ((s.scrubCorrected h unit (bad % 16)).logMemErr 4 h.val (hbmPc unit % 32) 15 (bad % 16) false
      (0x1000000000 + unit)).noteScrub unit

theorem evScrubRead_off (hoff : s.domainOn (76 + h.val) = false) : evScrubRead h s = s := by
  simp [evScrubRead, hoff]

theorem evScrubRead_on (hon : s.domainOn (76 + h.val) = true) (hunit : unit = scrubUnit h.val (s.mem.hc h.val).scrubPos) :
    evScrubRead h s = if ((s.scrubbed h).meetParity 15 unit false).2 = true
      then ((s.scrubbed h).meetParity 15 unit false).1.scrubJudged h unit
      else ((s.scrubbed h).meetParity 15 unit false).1.errResp := by
  subst hunit
  have hpowered : ¬ (!s.domainOn (76 + h.val)) = true := by simp [hon]
  unfold evScrubRead
  rw [if_neg hpowered]
  cases hmet : (s.scrubbed h).meetParity 15 (scrubUnit h.val (s.mem.hc h.val).scrubPos) false with
  | mk u ok => 
    unfold State.scrubbed at hmet
    simp only [hmet]
    cases ok
    · rfl
    · rfl

variable (hon : s.domainOn (76 + h.val) = true) (hunit : unit = scrubUnit h.val (s.mem.hc h.val).scrubPos)
include hon hunit

/-- With no parity error at the unit, its words are judged at once. -/
theorem evScrubRead_judges (hparity : kvGet 0 (s.mem.hc h.val).parity unit = 0) :
    evScrubRead h s = (s.scrubbed h).scrubJudged h unit := by
  have hstack : stackOf unit = h.val := hunit ▸ stackOf_scrubUnit h.val _ h.isLt
  have hnone : kvGet 0 ((s.scrubbed h).mem.hc (stackOf unit)).parity unit = 0 := by
    rw [hstack, State.scrubbed, State.bumpHc, State.mapMem, hc_setHc]
    exact hparity
  have hmet : (s.scrubbed h).meetParity 15 unit false = (s.scrubbed h, true) := if_pos hnone
  rw [evScrubRead_on hon hunit, hmet, if_pos rfl]

end Scrub

theorem bad_scrubbed (s : State) (h : Fin 4) : (s.scrubbed h).mem.bad = s.mem.bad := bad_setHc _ _ _

/-- Before the last unit, the scrubber goes on to the next. -/
theorem scrubbed_next {s : State} {h : Fin 4} (hnext : (s.mem.hc h.val).scrubPos + 1 < stackUnits) :
    s.scrubbed h = (s.grant 15).bumpHc h.val fun c =>
      { c with reads := c.reads + 1, scrubPos := (s.mem.hc h.val).scrubPos + 1, scrubPasses := c.scrubPasses + 0 } := by
  simp only [State.scrubbed, Nat.ne_of_lt hnext, if_false, decide_false]
  rfl

/-- The last unit ends a pass. -/
theorem scrubbed_last {s : State} {h : Fin 4} (hlast : (s.mem.hc h.val).scrubPos + 1 = stackUnits) :
    s.scrubbed h = (s.grant 15).bumpHc h.val fun c =>
      { c with reads := c.reads + 1, scrubPos := 0, scrubPasses := c.scrubPasses + 1 } := by
  simp only [State.scrubbed, hlast, if_true, decide_true]
  rfl

section Judged
variable {s : State} (h : Fin 4) {unit bad : Nat} (hbad : bad = kvGet 0 s.mem.bad unit)
include hbad

theorem scrubJudged_clean (hclean : bad = 0) : s.scrubJudged h unit = s := by
  subst hbad
  simp [State.scrubJudged, hclean]

theorem scrubJudged_single (hsingle : bad % 16 ≠ 0) (hdouble : bad / 16 % 16 = 0) : s.scrubJudged h unit =
    ((s.scrubCorrected h unit (bad % 16)).logMemErr 4 h.val (hbmPc unit % 32) 15 (bad % 16) false
      (0x1000000000 + unit)).noteScrub unit := by
  subst hbad
  exact (if_neg (not_not_intro hdouble)).trans (if_neg hsingle)

theorem scrubJudged_double (hdouble : bad / 16 % 16 ≠ 0) : s.scrubJudged h unit =
    ((s.bumpHc h.val fun c => { c with ueCount := c.ueCount + 1 }).logMemErr 5 h.val (hbmPc unit % 32) 15 (bad / 16 % 16) false
      (0x1000000000 + unit)).addCandidate unit := by
  subst hbad
  exact if_pos hdouble

end Judged

/-! ## A unit with a parity error (R446) -/

section Parity
variable (s : State) (h : Fin 4) (unit : Nat)

theorem blindView_scrubCorrected (words : Nat) : (s.scrubCorrected h unit words).blindView = s.blindView :=
  calc (s.scrubCorrected h unit words).blindView
    _ = ((s.bumpHc h.val fun c => { c with ceCount := c.ceCount + (bitsOf 4 words).length }).countWrite unit).blindView :=
      blindView_congr rfl rfl rfl rfl
    _ = (s.bumpHc h.val fun c => { c with ceCount := c.ceCount + (bitsOf 4 words).length }).blindView :=
      blindView_countWrite _ unit
    _ = s.blindView := blindView_bumpHc s h.val _ (fun _ => rfl) fun _ => rfl

/-- What a scrub does with the words of a unit counts no parity error. -/
theorem scrubJudged_parity (k : Nat) : ((s.scrubJudged h unit).mem.hc k).parRetry = (s.mem.hc k).parRetry ∧
    ((s.scrubJudged h unit).mem.hc k).parFail = (s.mem.hc k).parFail := by
  have hkeeps {t : State} (hview : t.blindView = s.blindView) :
      (t.mem.hc k).parRetry = (s.mem.hc k).parRetry ∧ (t.mem.hc k).parFail = (s.mem.hc k).parFail :=
    ⟨congrFun (congrArg BlindView.retried hview) k, congrFun (congrArg BlindView.failed hview) k⟩
  by_cases hdouble : kvGet 0 s.mem.bad unit / 16 % 16 = 0
  · by_cases hsingle : kvGet 0 s.mem.bad unit % 16 = 0
    · rw [show s.scrubJudged h unit = s from (if_neg (not_not_intro hdouble)).trans (if_pos hsingle)]
      exact ⟨rfl, rfl⟩
    · rw [scrubJudged_single h rfl hsingle hdouble, noteScrub_mem]
      exact hkeeps ((blindView_logMemErr _ _ _ _ _ _ _ _).trans (blindView_scrubCorrected s h unit _))
  · rw [scrubJudged_double h rfl hdouble, addCandidate_mem]
    refine hkeeps ((blindView_logMemErr _ _ _ _ _ _ _ _).trans (blindView_bumpHc s h.val _ ?_ ?_))
    · exact fun _ => rfl
    · exact fun _ => rfl

/-- No queue takes the records of memory errors. -/
def State.unreported (s : State) : Prop := s.mem.logQueue = 0xFFFF ∧ kvGet 0xFFFF s.er.pqueue 195 = 0xFFFF

theorem unreported_of_view {s t : State} (hview : t.blindView = s.blindView) (hquiet : s.unreported) : t.unreported := by
  obtain ⟨hlog, hbound⟩ := hquiet
  have hlog' : t.mem.logQueue = s.mem.logQueue := congrArg BlindView.log hview
  have hbound' : t.er.pqueue = s.er.pqueue := congrArg BlindView.bound hview
  exact ⟨hlog'.trans hlog, hbound' ▸ hbound⟩

theorem logMemErr_unreported {s : State} (kind stack pc req words : Nat) (write : Bool) (addr : Nat) (hquiet : s.unreported) :
    (s.logMemErr kind stack pc req words write addr).mem.errCount = s.mem.errCount :=
  logMemErr_errCount s kind stack pc req words write addr hquiet.1 hquiet.2

theorem bumpHc_unreported {s : State} (h : Nat) (f : HbmCtl → HbmCtl) (hquiet : s.unreported) : (s.bumpHc h f).unreported := by
  obtain ⟨hlog, hbound⟩ := hquiet
  exact ⟨(logQueue_setHc _ _ _).trans hlog, hbound⟩

theorem bumpHc_errCount (s : State) (h : Nat) (f : HbmCtl → HbmCtl) : (s.bumpHc h f).mem.errCount = s.mem.errCount :=
  errCount_setHc _ _ _

theorem scrubCorrected_errCount (words : Nat) : (s.scrubCorrected h unit words).mem.errCount = s.mem.errCount :=
  calc (s.scrubCorrected h unit words).mem.errCount
    _ = ((s.bumpHc h.val fun c => { c with ceCount := c.ceCount + (bitsOf 4 words).length }).countWrite unit).mem.errCount := rfl
    _ = (s.bumpHc h.val fun c => { c with ceCount := c.ceCount + (bitsOf 4 words).length }).mem.errCount :=
      bumpHc_errCount _ _ _
    _ = s.mem.errCount := bumpHc_errCount s _ _

theorem scrubJudged_errCount (hquiet : s.unreported) : (s.scrubJudged h unit).mem.errCount = s.mem.errCount := by
  by_cases hdouble : kvGet 0 s.mem.bad unit / 16 % 16 = 0
  · by_cases hsingle : kvGet 0 s.mem.bad unit % 16 = 0
    · rw [show s.scrubJudged h unit = s from (if_neg (not_not_intro hdouble)).trans (if_pos hsingle)]
    · rw [scrubJudged_single h rfl hsingle hdouble, noteScrub_mem, logMemErr_unreported]
      · exact scrubCorrected_errCount s h unit _
      · exact unreported_of_view (blindView_scrubCorrected s h unit _) hquiet
  · rw [scrubJudged_double h rfl hdouble, addCandidate_mem, logMemErr_unreported]
    · exact bumpHc_errCount s _ _
    · exact bumpHc_unreported _ _ hquiet

/-- What meeting parity errors at a unit of a stack counts: one is retried, and so many retries fail. -/
structure ParityMet (s t : State) (k fails : Nat) : Prop where
  retried : (t.mem.hc k).parRetry = (s.mem.hc k).parRetry + 1
  failed : (t.mem.hc k).parFail = (s.mem.hc k).parFail + fails
  quiet : s.unreported → t.unreported ∧ t.mem.errCount = s.mem.errCount

/-- The log of a parity error that was retried. -/
theorem parityMet_log {k fails : Nat} {f : HbmCtl → HbmCtl} (hretried : ∀ c, (f c).parRetry = c.parRetry + 1)
    (hfailed : ∀ c, (f c).parFail = c.parFail + fails) (kind pc req words addr : Nat) (write : Bool) :
    ParityMet s ((s.bumpHc k f).logMemErr kind k pc req words write addr) k fails := by
  have hview := blindView_logMemErr (s.bumpHc k f) kind k pc req words write addr
  have hctl : (s.bumpHc k f).mem.hc k = f (s.mem.hc k) := hc_setHc _ _ _
  refine ⟨?_, ?_, fun hquiet => ?_⟩
  · calc _ = ((s.bumpHc k f).mem.hc k).parRetry := congrFun (congrArg BlindView.retried hview) k
      _ = (s.mem.hc k).parRetry + 1 := by rw [hctl, hretried]
  · calc _ = ((s.bumpHc k f).mem.hc k).parFail := congrFun (congrArg BlindView.failed hview) k
      _ = (s.mem.hc k).parFail + fails := by rw [hctl, hfailed]
  · have hbumped := bumpHc_unreported k f hquiet
    exact ⟨unreported_of_view hview hbumped, (logMemErr_unreported _ _ _ _ _ _ _ hbumped).trans (bumpHc_errCount s _ _)⟩

theorem meetParity_met (req : Nat) (write : Bool) {n : Nat} (hn : n = kvGet 0 (s.mem.hc (stackOf unit)).parity unit)
    (hpos : 0 < n) : ParityMet s (s.meetParity req unit write).1 (stackOf unit) (if n = 1 then 0 else 1) ∧
      (s.meetParity req unit write).2 = decide (n = 1) := by
  subst hn
  unfold State.meetParity
  dsimp only
  rw [if_neg (Nat.ne_of_gt hpos)]
  by_cases hone : kvGet 0 (s.mem.hc (stackOf unit)).parity unit = 1
  · rw [if_pos hone, if_pos hone]
    refine ⟨?_, (decide_eq_true hone).symm⟩
    dsimp only
    exact parityMet_log s (fun _ => rfl) (fun _ => rfl) _ _ _ _ _ _
  · rw [if_neg hone, if_neg hone]
    refine ⟨?_, (decide_eq_false hone).symm⟩
    dsimp only
    exact parityMet_log s (fun _ => rfl) (fun _ => rfl) _ _ _ _ _ _

/-- A unit with a parity error, met by the scrubber: one alone is retried, and the words are judged; two end the read. -/
theorem evScrubRead_parity {s : State} {h : Fin 4} {unit n : Nat} (hon : s.domainOn (76 + h.val) = true)
    (hunit : unit = scrubUnit h.val (s.mem.hc h.val).scrubPos) (hn : n = kvGet 0 (s.mem.hc h.val).parity unit) (hpos : 0 < n) :
    ((evScrubRead h s).mem.hc h.val).parRetry = (s.mem.hc h.val).parRetry + 1 ∧
      ((evScrubRead h s).mem.hc h.val).parFail = (s.mem.hc h.val).parFail + (if n = 1 then 0 else 1) ∧
      (s.unreported → (evScrubRead h s).mem.errCount = s.mem.errCount + (if n = 1 then 0 else 1)) := by
  have hstack : stackOf unit = h.val := hunit ▸ stackOf_scrubUnit h.val _ h.isLt
  have hkept : ((s.scrubbed h).mem.hc h.val).parity = (s.mem.hc h.val).parity ∧
      ((s.scrubbed h).mem.hc h.val).parRetry = (s.mem.hc h.val).parRetry ∧
      ((s.scrubbed h).mem.hc h.val).parFail = (s.mem.hc h.val).parFail := by
    rw [State.scrubbed, State.bumpHc, State.mapMem, hc_setHc]
    exact ⟨rfl, rfl, rfl⟩
  obtain ⟨hparity, hretry, hfail⟩ := hkept
  have hn' : n = kvGet 0 ((s.scrubbed h).mem.hc (stackOf unit)).parity unit := by rw [hstack, hparity, hn]
  obtain ⟨⟨hretried, hfailed, hquiet⟩, hok⟩ := meetParity_met (s.scrubbed h) unit 15 false hn' hpos
  rw [hstack, hretry] at hretried
  rw [hstack, hfail] at hfailed
  have hquiet' (hs : s.unreported) := hquiet (bumpHc_unreported (s := s.grant 15) h.val _ hs)
  have hcount : (s.scrubbed h).mem.errCount = s.mem.errCount := bumpHc_errCount (s.grant 15) _ _
  rw [evScrubRead_on hon hunit, hok]
  by_cases hone : n = 1
  · obtain ⟨hretry', hfail'⟩ := scrubJudged_parity ((s.scrubbed h).meetParity 15 unit false).1 h unit h.val
    rw [if_pos (decide_eq_true hone), hretry', hfail', hretried, hfailed]
    refine ⟨rfl, rfl, fun hs => ?_⟩
    obtain ⟨hmet, hsame⟩ := hquiet' hs
    rw [scrubJudged_errCount _ h unit hmet, hsame, hcount, if_pos hone, Nat.add_zero]
  · rw [if_neg (by simpa using hone)]
    refine ⟨hretried, hfailed, fun hs => ?_⟩
    obtain ⟨-, hsame⟩ := hquiet' hs
    rw [if_neg hone, ← hcount, ← hsame]
    rfl

end Parity

/-! ## The reports (R450) -/

theorem doMemGetErrors_begins (c : Cmd) (s : State) : ∃ rest, doMemGetErrors c s = .okWith
    (beCount 8 (s.mem.sumHc (·.ceCount)) ++ beCount 8 (s.mem.sumHc (·.ueCount) + s.mem.sramUe) ++
      beCount 8 (s.mem.sumHc (·.parRetry)) ++ beCount 8 (s.mem.sumHc (·.parFail)) ++ rest) s := by
  simp only [doMemGetErrors, List.append_assoc]
  exact ⟨_, rfl⟩

theorem doMemGetStats_begins {c : Cmd} (s : State) (hstack : fld c.params 0 1 ≤ 3) : ∃ rest, doMemGetStats c s = .okWith
    (beBytes 8 (if s.mem.hostMib = 0 then 0 else s.hostBase) ++ beBytes 4 s.mem.hostMib ++ rest) s.draw := by
  simp only [doMemGetStats, if_neg (Nat.not_lt.mpr hstack), List.append_assoc]
  exact ⟨_, rfl⟩

/-! ## The claim -/

theorem happens_scrubRead {s u : State} {h : Fin 4} (hev : evScrubRead h s = u) : Happens (.scrubRead h) s u :=
  hev ▸ happens_of_guarded rfl rfl

/-- Settles O35: the reports begin with their counters, and a read of the scrubber comes to the case of its unit. That a parity
error alone is retried with success, that two fail, and that a unit with an uncorrectable word stays as it is, are the model's
reading (log entries 50 and 103). -/
theorem memoryIsReportedAndScrubbed : Obligations.MemoryIsReportedAndScrubbed := by
  unfold Obligations.MemoryIsReportedAndScrubbed
  refine ⟨?errors, ?stats, ?badStack, ?clean, ?last, ?single, ?double, ?off, ?parity⟩
  case errors => exact reads_of (fun _ _ => rfl) (fun _ _ => rfl) (by decide) fun c u _ => doMemGetErrors_begins c u
  case stats =>
    refine executes_body (fun _ _ => rfl) (fun _ _ => rfl) (by decide) fun c u hgood => ?_
    obtain ⟨rest, hbody⟩ := doMemGetStats_begins u (of_decide_eq_true hgood)
    exact ⟨_, hbody, rfl, rfl, List.take_left' (by simp only [List.length_append, beBytes_length])⟩
  case badStack => exact rejects_of (fun _ _ => rfl) fun c u hgood => if_pos (of_decide_eq_true hgood)
  case clean =>
    intro s h hon hparity hclean hnext
    refine happens_scrubRead ((evScrubRead_judges hon rfl hparity).trans ?_)
    rw [scrubJudged_clean h rfl (by rw [bad_scrubbed]; exact hclean), scrubbed_next hnext]
  case last =>
    intro s h hon hparity hclean hlast
    refine happens_scrubRead ((evScrubRead_judges hon rfl hparity).trans ?_)
    rw [scrubJudged_clean h rfl (by rw [bad_scrubbed]; exact hclean), scrubbed_last hlast]
  case single =>
    intro s u h unit bad hon hparity hunit hbad hsingle hdouble hnext hu
    refine happens_scrubRead ((evScrubRead_judges hon hunit hparity).trans ?_)
    rw [scrubJudged_single h (by rw [bad_scrubbed]; exact hbad) hsingle hdouble, State.scrubCorrected, scrubbed_next hnext, hu]
  case double =>
    intro s h unit bad hon hparity hunit hbad hdouble hnext
    refine happens_scrubRead ((evScrubRead_judges hon hunit hparity).trans ?_)
    rw [scrubJudged_double h (by rw [bad_scrubbed]; exact hbad) hdouble, scrubbed_next hnext]
  case off => exact fun s h hoff => happens_scrubRead (evScrubRead_off hoff)
  case parity =>
    intro s h unit n hon hunit _ hn hpos
    obtain ⟨hretried, hfailed, hquiet⟩ := evScrubRead_parity hon hunit hn hpos
    exact ⟨_, happens_scrubRead rfl, hretried, hfailed, fun hlog hbound => hquiet ⟨hlog, hbound⟩⟩

end Sys2Proof.Machine
end

section
/-! What the commands of the management cores and of the spare tiles do when they are accepted (R487, R488, R508 to R510). Whether
SPARE_RETIRE is journalled depends on the tile's state. The claim of O37 is put together from these. -/

namespace Sys2Proof.Machine

/-! ## Commands whose records depend on the state (R503) -/

section Claims
variable {i : Cmd → Instr} {spec : OpSpec} {good : Cmd → State → Bool} {after : Cmd → State → State}

/-- What is before a command's execution differs from what it starts from by the ownership state alone. -/
theorem takes_before_at {s : State} {c : Cmd} {k : Taken} (htakes : s.takes spec c = some k) :
    k.before = { k.at_ with own := k.before.own } := by
  obtain ⟨hbefore, hat⟩ := takes_before htakes
  rw [hat]
  exact hbefore

/-- A setting of a command that then has no records. -/
theorem sets_of_unrecorded (he : ∀ c s, exec (i c) s = s.submit spec c)
    (hr : ∀ c u o, good c u = true → spec.records { c with tag := none } { u with own := o } = [])
    (hf : spec.row.code ≠ 0x0E31) (h : ∀ c u, good c u = true → spec.body c u = .ok (after c u)) : Sets i spec good after := by
  intro s c k htakes hgood
  have hrecords : spec.records k.held.cmd k.before = [] := by
    rw [takes_before_at htakes]
    exact hr k.cmd k.at_ _ hgood
  refine ⟨_, (he c s).trans (submit_executes htakes hrecords hf), ?_⟩
  rw [h _ _ hgood]
  exact ⟨rfl, rfl, rfl⟩

/-- A setting of a command that then has records is journalled. -/
theorem setsJournalled_of_recorded (he : ∀ c s, exec (i c) s = s.submit spec c) (hs : specOf spec.row.code = some spec)
    (hr : ∀ c u o, good c u = true → spec.records { c with tag := none } { u with own := o } ≠ [])
    (h : ∀ c u, good c u = true → spec.body c u = .ok (after c u)) : SetsJournalled i spec good after := by
  constructor
  · intro s c k htakes hgood hsize hfull
    have hrecords : spec.records k.held.cmd k.before ≠ [] := by
      rw [takes_before_at htakes]
      exact hr k.cmd k.at_ _ hgood
    have hopen : k.before.jrnl.full = false := by rw [(takes_before htakes).1]; exact hfull
    have hbody : (spec.body k.cmd k.at_).good = true := h _ _ hgood ▸ rfl
    exact (he c s).trans (submit_journals htakes hbody hrecords hsize hopen)
  · intro s w g rest failing x d hm hgap hgr hf hw hok hx hgood
    refine ⟨_, commit_applies hm hgap hgr hf (by rw [hw]; exact hs) hok hx, ?_⟩
    rw [h _ _ hgood]
    exact ⟨rfl, rfl, rfl⟩

end Claims

section Commands
variable {c : Cmd} {s : State}

/-! ## Management cores (R487, R488) -/

theorem doMcRehearse_starts (hmode : fld c.params 0 1 ≤ 1) (hready : s.standbyReady = true) (hnone : s.mc.rehearsal = none) :
    doMcRehearse c s = .accepted
      { s with mc := { s.mc with rehearsal := some (fld c.params 0 1), rehearsals := s.mc.rehearsals + 1 } } := by
  simp [doMcRehearse, Nat.not_lt.mpr hmode, hready, hnone, State.mapMc]

theorem doMcRehearse_busy (hmode : fld c.params 0 1 ≤ 1) (hbusy : (s.standbyReady && s.mc.rehearsal.isNone) = false) :
    doMcRehearse c s = .fail stBusy s := by
  have hcond : (!s.standbyReady || s.mc.rehearsal.isSome) = true := by
    rw [Bool.and_eq_false_iff] at hbusy
    rcases hbusy with hready | hrunning
    · simp [hready]
    · simp [Option.isNone_eq_false_iff.mp hrunning]
  rw [doMcRehearse, if_neg (Nat.not_lt.mpr hmode), if_pos hcond]

/-- Missed intervals apart, what is counted of the cores stays when they are counted up to now. -/
theorem countMissed_counts (s : State) (h : Fin 2) (wire mail : Bool) :
    (s.countMissed h wire mail).mc.lastCause = s.mc.lastCause ∧ (s.countMissed h wire mail).mc.rehearsal = s.mc.rehearsal ∧
    (s.countMissed h wire mail).mc.lastGapUs = s.mc.lastGapUs ∧ (s.countMissed h wire mail).mc.maxGapUs = s.mc.maxGapUs ∧
    (s.countMissed h wire mail).mc.switchovers = s.mc.switchovers ∧ (s.countMissed h wire mail).mc.rehearsals = s.mc.rehearsals ∧
    (s.countMissed h wire mail).mc.timeouts = s.mc.timeouts := by
  unfold State.countMissed State.setCore
  split <;> exact ⟨rfl, rfl, rfl, rfl, rfl, rfl, rfl⟩

theorem doMcGetStatus_begins (c : Cmd) (s : State) : ∃ rest, doMcGetStatus c s = .okWith
    (beBytes 1 s.activeId.val ++ beBytes 1 s.standbyCode ++ beBytes 1 s.mc.lastCause ++ beBytes 1 (b2n s.mc.rehearsal.isSome) ++
      beCount 4 s.mc.lastGapUs ++ beCount 4 s.mc.maxGapUs ++ beCount 4 s.mc.switchovers ++ beCount 4 s.mc.rehearsals ++
      beCount 4 s.mc.timeouts ++ rest) s := by
  obtain ⟨hcause, hrehearsal, hgap, hmax, hover, hrehearsals, htimeouts⟩ := countMissed_counts s 0 true true
  obtain ⟨hcause', hrehearsal', hgap', hmax', hover', hrehearsals', htimeouts'⟩ :=
    countMissed_counts (s.countMissed 0 true true) 1 true true
  simp only [doMcGetStatus, hcause', hcause, hrehearsal', hrehearsal, hgap', hgap, hmax', hmax, hover', hover, hrehearsals',
    hrehearsals, htimeouts', htimeouts, List.append_assoc]
  exact ⟨_, rfl⟩

/-! ## Spare tiles (R508 to R510) -/

theorem doSpareSetAudit_ok (s : State) (hrange : fld c.params 0 4 = 0 ∨ (10 ≤ fld c.params 0 4 ∧ fld c.params 0 4 ≤ 86400)) :
    doSpareSetAudit c s = .ok { s with spare := { s.spare with auditS := fld c.params 0 4 } } := by
  refine if_neg ?_
  simp only [Bool.and_eq_true, Bool.or_eq_true, decide_eq_true_eq]
  omega

theorem doSpareSetAudit_bad (s : State)
    (hrange : (0 < fld c.params 0 4 ∧ fld c.params 0 4 < 10) ∨ 86400 < fld c.params 0 4) : doSpareSetAudit c s = .bad 0 s := by
  refine if_pos ?_
  simp only [Bool.and_eq_true, Bool.or_eq_true, decide_eq_true_eq]
  omega

section Retire
variable {t : Nat} (ht : t = fld c.params 0 2)
include ht

theorem doSpareRetire_badTile (hrange : 271 < t) : doSpareRetire c s = .bad 0 s := by
  subst ht
  simp [doSpareRetire, firstBad, Nat.not_le.mpr hrange]

variable (hrange : t ≤ 271)
include hrange

theorem doSpareRetire_badAction (haction : 1 < fld c.params 2 1) : doSpareRetire c s = .bad 2 s := by
  subst ht
  simp [doSpareRetire, firstBad, hrange, Nat.not_le.mpr haction]

/-- Action 0 acts as the tile's mode says. -/
theorem doSpareRetire_retires (haction : fld c.params 2 1 = 0) : doSpareRetire c s =
    match (s.tileInfo t).mode with
    | .ready => .ok (s.setTileInfo t { s.tileInfo t with mode := .retired, reason := 3 })
    | .testing => .ok (s.setTileInfo t { s.tileInfo t with doom := 3, reportNs := s.ns })
    | .backing => if s.readyTile.isNone && !s.own.accepted then .fail stBusy s
        else .ok (s.setTileInfo t { s.tileInfo t with doom := 3, reportNs := s.ns })
    | .retired => .ok s := by
  subst ht
  rw [doSpareRetire, firstBad_eq_none.mpr (by simp [hrange, haction])]
  cases hmode : (s.tileInfo (fld c.params 0 2)).mode <;> simp [haction, hmode]

/-- Action 1 puts a tile to the test, if a command retired it (log entry 93). -/
theorem doSpareRetire_tests (haction : fld c.params 2 1 = 1) : doSpareRetire c s =
    if (s.tileInfo t).mode = .retired && (s.tileInfo t).reason = 3 then
      .ok (s.setTileInfo t { s.tileInfo t with mode := .testing, reason := 0, fails := 0 })
    else .bad 0 s := by
  subst ht
  rw [doSpareRetire, firstBad_eq_none.mpr (by simp [hrange, haction])]
  exact if_pos haction

end Retire

/-- Action 0 on a tile that is not retired is journalled (R503). -/
theorem retireRecords_retires (o : OwnState) (haction : fld c.params 2 1 = 0)
    (hmode : (s.tileInfo (fld c.params 0 2)).mode ≠ .retired) :
    retireRecords { c with tag := none } { s with own := o } ≠ [] := by
  have hcond : (fld c.params 2 1 = 0 && (s.tileInfo (fld c.params 0 2)).mode ≠ .retired : Bool) = true := by simp [haction, hmode]
  unfold retireRecords
  exact fun hnil => List.cons_ne_nil _ _ ((if_pos hcond).symm.trans hnil)

theorem retireRecords_none (o : OwnState)
    (hnone : fld c.params 2 1 ≠ 0 ∨ (s.tileInfo (fld c.params 0 2)).mode = .retired) :
    retireRecords { c with tag := none } { s with own := o } = [] := by
  have hcond : ¬ (fld c.params 2 1 = 0 && (s.tileInfo (fld c.params 0 2)).mode ≠ .retired : Bool) = true := by
    rcases hnone with haction | hmode
    · simp [haction]
    · simp [hmode]
  exact if_neg hcond

theorem doSpareGetStatus_begins (s : State) (hrange : fld c.params 0 2 ≤ 271) : ∃ rest, doSpareGetStatus c s = .okWith
    (beBytes 2 ((List.range 272).filter fun i => decide ((s.tileInfo i).mode = .ready)).length ++
      beBytes 2 ((List.range 272).filter fun i => decide ((s.tileInfo i).mode = .testing)).length ++ rest) s := by
  simp only [doSpareGetStatus, if_neg (Nat.not_lt.mpr hrange), List.append_assoc]
  exact ⟨_, rfl⟩

end Commands

/-! ## The claim -/

/-- Settles O37: each command's body does as claimed once its checks pass. That action 1 of SPARE_RETIRE is not journalled, and is
BAD_PARAM at 0 for a tile that was retired for another reason, is the model's choice (log entry 93). -/
theorem coreAndSpareCommandsAct : Obligations.CoreAndSpareCommandsAct := by
  unfold Obligations.CoreAndSpareCommandsAct
  refine ⟨?rehearse, ?badMode, ?busy, ?mcStatus, ?audit, ?badAudit, ?ready, ?marked, ?stuck, ?retired, ?test, ?badTile, ?badAction,
    ?badStatus, ?status⟩
  case rehearse =>
    refine executes_body (fun _ _ => rfl) (fun _ _ => rfl) (by decide) fun c u hgood => ?_
    simp only [Bool.and_eq_true, decide_eq_true_eq] at hgood
    obtain ⟨⟨hmode, hready⟩, hnone⟩ := hgood
    exact ⟨_, doMcRehearse_starts hmode hready (Option.isNone_iff_eq_none.mp hnone), rfl, rfl⟩
  case badMode => exact rejects_of (fun _ _ => rfl) fun c u hgood => if_pos (of_decide_eq_true hgood)
  case busy =>
    refine executes_fail (fun _ _ => rfl) (by decide) fun c u hgood => ?_
    simp only [Bool.and_eq_true, decide_eq_true_eq, Bool.not_eq_true'] at hgood
    obtain ⟨hmode, hbusy⟩ := hgood
    exact doMcRehearse_busy hmode hbusy
  case mcStatus => exact reads_of (fun _ _ => rfl) (fun _ _ => rfl) (by decide) fun c u _ => doMcGetStatus_begins c u
  case audit =>
    exact setsJournalled_of (fun _ _ => rfl) rfl (ownRecord_ne_nil _) fun c u hgood =>
      doSpareSetAudit_ok u (of_decide_eq_true hgood)
  case badAudit => exact rejects_of (fun _ _ => rfl) fun c u hgood => doSpareSetAudit_bad u (of_decide_eq_true hgood)
  case ready =>
    refine setsJournalled_of_recorded (fun _ _ => rfl) rfl (fun c u o hgood => ?_) fun c u hgood => ?_
    all_goals
      simp only [Bool.and_eq_true, decide_eq_true_eq] at hgood
      obtain ⟨⟨hrange, haction⟩, hmode⟩ := hgood
    · exact retireRecords_retires o haction (by simp [hmode])
    · exact (doSpareRetire_retires rfl hrange haction).trans (by rw [hmode])
  case marked =>
    refine setsJournalled_of_recorded (fun _ _ => rfl) rfl (fun c u o hgood => ?_) fun c u hgood => ?_
    all_goals
      simp only [Bool.and_eq_true, Bool.or_eq_true, decide_eq_true_eq] at hgood
      obtain ⟨⟨hrange, haction⟩, hmode⟩ := hgood
    · exact retireRecords_retires o haction (by rcases hmode with hmode | ⟨hmode, -⟩ <;> simp [hmode])
    · refine (doSpareRetire_retires rfl hrange haction).trans ?_
      rcases hmode with hmode | ⟨hmode, hready⟩
      · rw [hmode]
      · rw [hmode]
        exact if_neg (by simp [Option.isSome_iff_ne_none.mp hready])
  case stuck =>
    refine executes_of_unaccepted (executes_fail (fun _ _ => rfl) (by decide) fun c u hgood => ?_)
    simp only [Bool.and_eq_true, decide_eq_true_eq] at hgood
    obtain ⟨⟨⟨⟨hrange, haction⟩, hmode⟩, hnone⟩, hnew⟩ := hgood
    refine (doSpareRetire_retires rfl hrange haction).trans ?_
    rw [hmode]
    exact if_pos (Bool.and_eq_true_iff.mpr ⟨hnone, hnew⟩)
  case retired =>
    refine sets_of_unrecorded (fun _ _ => rfl) (fun c u o hgood => ?_) (by decide) fun c u hgood => ?_
    all_goals
      simp only [Bool.and_eq_true, decide_eq_true_eq] at hgood
      obtain ⟨⟨hrange, haction⟩, hmode⟩ := hgood
    · exact retireRecords_none o (Or.inr hmode)
    · exact (doSpareRetire_retires rfl hrange haction).trans (by rw [hmode])
  case test =>
    refine sets_of_unrecorded (fun _ _ => rfl) (fun c u o hgood => ?_) (by decide) fun c u hgood => ?_
    all_goals
      simp only [Bool.and_eq_true, decide_eq_true_eq] at hgood
      obtain ⟨⟨hrange, haction⟩, hmode, hreason⟩ := hgood
    · exact retireRecords_none o (Or.inl (by simp [haction]))
    · exact (doSpareRetire_tests rfl hrange haction).trans (if_pos (by simp [hmode, hreason]))
  case badTile =>
    refine rejects_of (fun _ _ => rfl) fun c u hgood => ?_
    simp only [Bool.or_eq_true, Bool.and_eq_true, decide_eq_true_eq, Bool.not_eq_true', decide_eq_false_iff_not] at hgood
    by_cases hrange : fld c.params 0 2 ≤ 271
    · obtain ⟨haction, hother⟩ := hgood.resolve_left (Nat.not_lt.mpr hrange)
      exact (doSpareRetire_tests rfl hrange haction).trans (if_neg (by simpa using hother))
    · exact doSpareRetire_badTile rfl (Nat.lt_of_not_le hrange)
  case badAction =>
    refine rejects_of (fun _ _ => rfl) fun c u hgood => ?_
    obtain ⟨hrange, haction⟩ := of_decide_eq_true hgood
    exact doSpareRetire_badAction rfl hrange haction
  case badStatus => exact rejects_of (fun _ _ => rfl) fun c u hgood => if_pos (of_decide_eq_true hgood)
  case status =>
    exact reads_of (fun _ _ => rfl) (fun _ _ => rfl) (by decide) fun c u hgood =>
      doSpareGetStatus_begins u (of_decide_eq_true hgood)

end Sys2Proof.Machine
end

section
/-! What heartbeats, the token's lease, a core that fails, takeovers, claims and the lapse of a challenge lead to (R407, R476 to R480,
R483, R485). The claim of O57 is put together from them. -/

namespace Sys2Proof.Machine

/-! ## Cores under the operations on them (R477) -/

theorem core_setCore_self (s : State) (h : Fin 2) (c : McCore) : (s.setCore h c).core h = c := by
  match h with
  | 0 | 1 => rfl

theorem core_setCore_other (s : State) (h : Fin 2) (c : McCore) : (s.setCore (otherCore h) c).core h = s.core h := by
  match h with
  | 0 | 1 => rfl

theorem countMissed_core (s : State) (h k : Fin 2) (wire mail : Bool) :
    ((s.countMissed h wire mail).core k).apartFromMissed = (s.core k).apartFromMissed :=
  congrFun (congrArg BlindView.cores (blindView_countMissed s h wire mail)) k

/-- A core's write to the mailbox is one to working SRAM: it moves no more of a core than where its missed intervals begin. -/
theorem writeMail_core (s : State) (h k : Fin 2) : ((s.writeMail h).core k).apartFromMissed = (s.core k).apartFromMissed :=
  congrFun (congrArg BlindView.cores (blindView_sramStore (s.grant h.val) _ _)) k

theorem writeMail_outside (s : State) (h : Fin 2) : (s.writeMail h).outsideStores = s.outsideStores :=
  ((stored_grant s h.val).trans (stored_sramStore _ _ _)).outside

/-- A heartbeat of a core: counted, and sent on the paths named. -/
theorem beat_core (s : State) (h : Fin 2) (wire : Bool) : ((s.beat h wire).core h).apartFromMissed =
    { (s.core h).apartFromMissed with
      hbCount := (s.core h).hbCount + 1, mailTime := s.nowInstant, mailAt := s.ns,
      wireAt := if wire then s.ns else (s.core h).wireAt } := by
  have hcounted := countMissed_core s h h wire false
  have hcount : ((s.countMissed h wire false).core h).hbCount = (s.core h).hbCount :=
    show ((s.countMissed h wire false).core h).apartFromMissed.hbCount = _ by rw [hcounted]; rfl
  have hwire : ((s.countMissed h wire false).core h).wireAt = (s.core h).wireAt :=
    show ((s.countMissed h wire false).core h).apartFromMissed.wireAt = _ by rw [hcounted]; rfl
  rw [← hcounted, ← hcount, ← hwire]
  unfold State.beat
  dsimp only
  rw [writeMail_core, core_setCore_self]
  rfl

/-! ## Stopping (R478) -/

theorem enterGap_core (s : State) (h k : Fin 2) : (s.enterGap h).core k = s.core k := by
  unfold State.enterGap
  dsimp only
  split <;> rfl

theorem enterGap_inGap (s : State) (h : Fin 2) : (s.enterGap h).mc.inGap = true := by
  unfold State.enterGap
  dsimp only
  split
  · assumption
  · rfl

theorem stopCore_stops (s : State) (h : Fin 2) : (s.stopCore h).mc.inGap = true ∧ ((s.stopCore h).core h).mode = .stopping ∧
    ((s.stopCore h).core h).role = 3 := by
  unfold State.stopCore
  dsimp only
  refine ⟨enterGap_inGap _ _, ?_⟩
  rw [enterGap_core]
  have hstopped := writeMail_core ((s.countMissed (otherCore h) true true).setCore h
    { (s.countMissed (otherCore h) true true).core h with mode := .stopping, role := 3, run := 0 }) h h
  rw [core_setCore_self] at hstopped
  exact ⟨congrArg McCore.mode hstopped, congrArg McCore.role hstopped⟩

theorem repairRow_mc (s : State) (macro_ row : Nat) : (s.repairRow macro_ row).1.mc = s.mc := by
  unfold State.repairRow
  split <;> rfl

theorem failRow_mc (s : State) (off : Nat) : (s.failRow off).mc = s.mc := by
  unfold State.failRow
  dsimp only
  split
  · rfl
  · have hrepaired := repairRow_mc s (272 + Config.sramMacro (off / 262144) % 752) (off % 262144 / 512)
    split
    all_goals next heq => rw [heq] at hrepaired; exact hrepaired

/-- The log of an error in working SRAM leaves the cores' modes. -/
theorem sramError_mode (s : State) (req off words : Nat) (write : Bool) (addr : Nat) (k : Fin 2) :
    ((s.sramError req off words write addr).core k).mode = (s.core k).mode := by
  have hview := blindView_logMemErr (s.mapMem fun m => { m with sramUe := m.sramUe + 1 }) 1 0xFF 0 req words write addr
  have hlogged := congrArg McCore.mode (congrFun (congrArg BlindView.cores hview) k)
  refine Eq.trans ?_ hlogged
  unfold State.sramError State.core
  rw [failRow_mc]
  rfl

section Events
variable {s u : State} {h : Fin 2}

theorem evWatchdogExpiry_active (hactive : (s.core h).mode = .active) : evWatchdogExpiry h s = s.stopCore h :=
  if_pos (decide_eq_true hactive)

theorem evWatchdogExpiry_other (hother : (s.core h).mode ≠ .active) : evWatchdogExpiry h s = s :=
  if_neg (by simpa [State.activeCore] using hother)

theorem evCoreFault_active (hactive : (s.core h).mode = .active) : evCoreFault ⟨h, none⟩ s = s.stopCore h :=
  if_pos (decide_eq_true hactive)

theorem evCoreFault_other (hother : (s.core h).mode ≠ .active) : evCoreFault ⟨h, none⟩ s = s :=
  if_neg (by simpa [State.activeCore] using hother)

/-- An error that an active core meets in working SRAM is logged before the core stops (log entry 99). -/
theorem evCoreFault_sram {unit words : Nat} (hactive : (s.core h).mode = .active)
    (hu : u = (s.mapMem fun m => { m with sramBad := kvSet 0 m.sramBad unit words }).sramError h.val unit words false
      (0x40000000 + unit)) : evCoreFault ⟨h, some (unit, words)⟩ s = u.stopCore h := by
  have hpowered : ¬ (s.core h).mode = .off := by simp [hactive]
  have hstill : u.activeCore h = true := by
    refine decide_eq_true ?_
    rw [hu, sramError_mode]
    exact hactive
  unfold evCoreFault
  dsimp only
  rw [if_neg hpowered, ← hu, if_pos hstill]

/-! ## The lease of the token (R476) -/

theorem expireToken_kept (hkept : s.tokenLapsed = false) : s.expireToken = s := if_neg (by simp [hkept])

theorem expireToken_lapsed (hlapsed : s.tokenLapsed = true) : s.expireToken = s.dropToken := if_pos hlapsed

/-- The expiry of the token ends service, and moves no core. -/
theorem expireToken_leaves (s : State) : s.expireToken.ns = s.ns ∧ s.expireToken.pwr = s.pwr ∧
    s.expireToken.mc.claimed = s.mc.claimed ∧ ∀ k, s.expireToken.core k = s.core k := by
  unfold State.expireToken State.dropToken
  split
  · split
    · exact ⟨rfl, rfl, rfl, fun _ => rfl⟩
    · next k _ =>
      unfold State.enterGap
      dsimp only
      split <;> exact ⟨rfl, rfl, rfl, fun _ => rfl⟩
  · exact ⟨rfl, rfl, rfl, fun _ => rfl⟩

theorem dropToken_token (s : State) : s.dropToken.mc.token = none := by
  unfold State.dropToken
  split
  · assumption
  · rfl

/-! ## Heartbeats (R476, R477, R483) -/

theorem evHeartbeat_early (hearly : s.ns < max (s.core h).wireAt (s.core h).mailAt + 100000) : evHeartbeat h s = s := by
  obtain ⟨hns, -, -, hcore⟩ := expireToken_leaves s
  unfold evHeartbeat
  dsimp only
  rw [hns, hcore]
  exact if_pos hearly

section Due
variable (hdue : max (s.core h).wireAt (s.core h).mailAt + 100000 ≤ s.ns)
include hdue

theorem evHeartbeat_standby (hkept : s.tokenLapsed = false) (hmode : (s.core h).mode = .standby) :
    evHeartbeat h s = s.standbyBeat h := by
  unfold evHeartbeat
  dsimp only
  rw [expireToken_kept hkept, if_neg (Nat.not_lt.mpr hdue), hmode]

theorem evHeartbeat_holder (hkept : s.tokenLapsed = false) (hmode : (s.core h).mode = .active)
    (hrehearsal : s.mc.rehearsal = none) (htoken : s.mc.token = some h) : evHeartbeat h s = s.renewToken.beat h true := by
  unfold evHeartbeat
  dsimp only
  rw [expireToken_kept hkept, if_neg (Nat.not_lt.mpr hdue), hmode]
  dsimp only
  rw [if_neg (not_not_intro htoken), hrehearsal]

/-- The lease is judged before a renewal: a holder whose lease has lapsed finds the token lost, and stops. -/
theorem evHeartbeat_lapsed (hlapsed : s.tokenLapsed = true) (hmode : (s.core h).mode = .active) :
    evHeartbeat h s = s.expireToken.stopCore h := by
  obtain ⟨hns, -, -, hcore⟩ := expireToken_leaves s
  have hlost : s.expireToken.mc.token ≠ some h := by
    simp [expireToken_lapsed hlapsed, dropToken_token]
  unfold evHeartbeat
  dsimp only
  rw [hns, hcore, if_neg (Nat.not_lt.mpr hdue), hmode]
  exact if_pos hlost

end Due

/-- A standby's beat, with the count that makes it ready. -/
theorem standbyBeat_core (s : State) (h : Fin 2) : ((s.standbyBeat h).core h).run = (s.core h).run + 1 ∧
    ((s.standbyBeat h).core h).role = (if 10 ≤ (s.core h).run + 1 then 1 else 0) ∧
    ((s.standbyBeat h).core h).hbCount = (s.core h).hbCount + 1 ∧ ((s.standbyBeat h).core h).wireAt = s.ns ∧
    ((s.standbyBeat h).core h).mailAt = s.ns := by
  have hbeat := beat_core (s.setCore h { s.core h with
    run := (s.core h).run + 1, role := if 10 ≤ (s.core h).run + 1 then 1 else 0 }) h true
  rw [core_setCore_self] at hbeat
  exact ⟨congrArg McCore.run hbeat, congrArg McCore.role hbeat, congrArg McCore.hbCount hbeat, congrArg McCore.wireAt hbeat,
    congrArg McCore.mailAt hbeat⟩

/-! ## Claims (R480, R485) -/

theorem claimToken_core (s : State) (h : Fin 2) : ((s.claimToken h).core h).mode = .active ∧ ((s.claimToken h).core h).role = 2 := by
  have hmail := writeMail_core ((s.setCore h { s.core h with mode := .active, role := 2, bootedAt := none }).setCore (otherCore h)
    { s.core (otherCore h) with bootedAt := none }) h h
  rw [core_setCore_other, core_setCore_self] at hmail
  exact ⟨congrArg McCore.mode hmail, congrArg McCore.role hmail⟩

theorem claimToken_pwr (s : State) (h : Fin 2) : (s.claimToken h).pwr = s.pwr := by
  refine (congrArg State.pwr (writeMail_outside _ h)).trans ?_
  match h with
  | 0 | 1 => rfl

/-- The core that claims: MC-A goes before MC-B. -/
theorem bootClaim_claims (hdue : s.claimDue h = true) (hfirst : h = 1 → s.claimDue 0 = false) (hnew : s.mc.claimed = false)
    (hphase : s.pwr.phase = 2) : (s.bootClaim h).pwr.phase = 3 ∧ (s.bootClaim h).mc.token = some h ∧
      (s.bootClaim h).mc.tokenAt = s.ns ∧ ((s.bootClaim h).core h).mode = .active ∧ ((s.bootClaim h).core h).role = 2 ∧
      (s.bootClaim h).mc.claimed = true := by
  have hturn : ¬ (h = 1 && s.claimDue 0 : Bool) = true := by
    simpa using hfirst
  unfold State.bootClaim
  dsimp only
  rw [if_neg hturn, if_neg (by simp [hdue]), hnew, if_neg Bool.false_ne_true]
  obtain ⟨hmode, hrole⟩ := claimToken_core (s.mapMc fun m => { m with
    standbyBoots := m.standbyBoots + b2n ((s.core (otherCore h)).mode = .standby && (s.core (otherCore h)).bootedAt.isSome) }) h
  have hpwr := claimToken_pwr (s.mapMc fun m => { m with
    standbyBoots := m.standbyBoots + b2n ((s.core (otherCore h)).mode = .standby && (s.core (otherCore h)).bootedAt.isSome) }) h
  have hphase' := (congrArg PowerState.phase hpwr).trans hphase
  exact ⟨if_pos hphase', rfl, rfl, hmode, hrole, rfl⟩

theorem bootClaim_waits (hwaits : s.claimDue h = false) (hwaits0 : s.claimDue 0 = false) : s.bootClaim h = s := by
  have hturn : ¬ (h = 1 && s.claimDue 0 : Bool) = true := by simp [hwaits0]
  have hcond : (!s.claimDue h) = true := by simp [hwaits]
  unfold State.bootClaim
  dsimp only
  rw [if_neg hturn, if_pos hcond]

/-! ## The claim -/

theorem happens_heartbeat (hev : evHeartbeat h s = u) : Happens (.heartbeat h) s u := hev ▸ happens_of_guarded rfl rfl

theorem happens_tokenExpiry (hev : s.expireToken = u) : Happens .tokenExpiry s u := hev ▸ happens_of_guarded rfl rfl

theorem happens_watchdogExpiry (hev : evWatchdogExpiry h s = u) : Happens (.watchdogExpiry h) s u :=
  hev ▸ happens_of_guarded rfl rfl

theorem happens_coreFault (hev : evCoreFault ⟨h, none⟩ s = u) : Happens (.coreFault ⟨h, none⟩) s u :=
  hev ▸ happens_of_guarded rfl rfl

theorem happens_coreFault_sram {unit words : Nat} (hline : unit % 32 = 0) (hunit : unit < 0x400000) (hsome : 0 < words)
    (hwords : words < 16) (hev : evCoreFault ⟨h, some (unit, words)⟩ s = u) :
    Happens (.coreFault ⟨h, some (unit, words)⟩) s u :=
  hev ▸ happens_of_guarded rfl (by simp [Instr.wf, hline, hunit, hsome, hwords])

theorem happens_standbyTakeover (hev : evStandbyTakeover s = u) : Happens .standbyTakeover s u :=
  hev ▸ happens_of_guarded rfl rfl

theorem happens_coreBootClaim (hev : (s.expireToken.bootClaim h).resume = u) : Happens (.coreBootClaim h) s u :=
  hev ▸ happens_of_guarded rfl rfl

end Events

/-- Settles O57: each event happens as its meaning says, and the lemma for its case says what that leads to. That an error which an
active core meets in working SRAM stops it, and is logged before, is the model's choice (log entries 85 and 99). -/
theorem coresShareTheToken : Obligations.CoresShareTheToken := by
  unfold Obligations.CoresShareTheToken
  refine ⟨?beats, ?renews, ?early, ?expires, ?kept, ?fails, ?stopped, ?other, ?takes, ?takesB, ?noTake, ?claims, ?noClaim,
    ?challenge, ?sram, ?lapsed⟩
  case beats =>
    intro s h hkept hdue hmode
    exact ⟨_, happens_heartbeat (evHeartbeat_standby hdue hkept hmode), standbyBeat_core s h⟩
  case renews =>
    intro s h hkept hdue hmode hrehearsal htoken
    exact happens_heartbeat (evHeartbeat_holder hdue hkept hmode hrehearsal htoken)
  case early => exact fun s h hearly => happens_heartbeat (evHeartbeat_early hearly)
  case expires => exact fun s hheld hdue => happens_tokenExpiry (expireToken_lapsed (by simp [State.tokenLapsed, hheld, hdue]))
  case kept =>
    intro s hkept
    refine happens_tokenExpiry (expireToken_kept ?_)
    rcases hkept with hnone | hearly
    · simp [State.tokenLapsed, hnone]
    · simp [State.tokenLapsed, Nat.not_le.mpr hearly]
  case fails =>
    exact fun s h hactive => ⟨happens_watchdogExpiry (evWatchdogExpiry_active hactive), happens_coreFault (evCoreFault_active hactive)⟩
  case stopped => exact stopCore_stops
  case other =>
    exact fun s h hother => ⟨happens_watchdogExpiry (evWatchdogExpiry_other hother), happens_coreFault (evCoreFault_other hother)⟩
  case takes =>
    intro s u hu hdue
    subst hu
    exact happens_standbyTakeover (if_pos hdue)
  case takesB =>
    intro s u hu hwaits hdue
    subst hu
    exact happens_standbyTakeover ((if_neg (by simp [hwaits])).trans (if_pos hdue))
  case noTake =>
    intro s u hu hwaits hwaitsB
    subst hu
    exact happens_standbyTakeover ((if_neg (by simp [hwaits])).trans (if_neg (by simp [hwaitsB])))
  case claims =>
    intro s u h hu hdue hfirst hnew hphase
    obtain ⟨hns, hpwr, hclaimed, -⟩ := expireToken_leaves s
    subst hu
    obtain ⟨hphase', htoken, hat, hmode, hrole, hclaimed'⟩ :=
      bootClaim_claims hdue hfirst (hclaimed.trans hnew) ((congrArg PowerState.phase hpwr).trans hphase)
    exact ⟨_, happens_coreBootClaim rfl, hphase', htoken, hat.trans hns, hmode, hrole, hclaimed'⟩
  case noClaim =>
    intro s u h hu hwaits hwaits0
    subst hu
    exact happens_coreBootClaim (congrArg State.resume (bootClaim_waits hwaits hwaits0))
  case challenge => exact fun s c hwf => happens_of_guarded rfl hwf
  case sram =>
    intro s u h unit words hline hunit hsome hwords hactive hu
    exact happens_coreFault_sram hline hunit hsome hwords (evCoreFault_sram hactive hu)
  case lapsed =>
    intro s h _ hlapsed hmode hdue
    exact happens_heartbeat (evHeartbeat_lapsed hdue hlapsed hmode)

end Sys2Proof.Machine
end

section
/-! What resets, links, the boot ROM and the bring-up lead to (R416, R485, R520, R521, R523 to R525, R527, R539). The claim of O58 is
put together from them. -/

namespace Sys2Proof.Machine

section Events
variable {s u : State}

/-! ## Resets (R518, R520) -/

/-- OTP, flash and the straps are kept; nothing is served, owned or claimed. -/
theorem deviceReset_keeps (s : State) (c : Nat) : (s.deviceReset c).flash = s.flash ∧ (s.deviceReset c).pwr.cause = c ∧
    (s.deviceReset c).pwr.phase = 0 ∧ (s.deviceReset c).pwr.otp 0 = s.pwr.otp 0 ∧ (s.deviceReset c).pwr.otp 1 = s.pwr.otp 1 ∧
    (s.deviceReset c).pwr.otp 2 = s.pwr.otp 2 ∧ (s.deviceReset c).pwr.straps = s.pwr.straps ∧
    (s.deviceReset c).mc.token = none ∧ (s.deviceReset c).own.mode = .unowned :=
  ⟨rfl, rfl, rfl, rfl, rfl, rfl, rfl, rfl, rfl⟩

theorem evPwrResetFire_due {t : Nat} (hasked : s.pwr.resetAt = some t) (hdue : t ≤ s.ns) : evPwrResetFire s = s.deviceReset 2 := by
  simp [evPwrResetFire, hasked, hdue]

theorem evPwrResetFire_waits (hwaits : ∀ x ∈ s.pwr.resetAt, s.ns < x) : evPwrResetFire s = s := by
  cases hasked : s.pwr.resetAt with
  | none => simp [evPwrResetFire, hasked]
  | some t => simp [evPwrResetFire, hasked, Nat.not_le.mpr (hwaits t hasked)]

/-! ## Links (R416, R521) -/

theorem evPcieResetFunction (x : InboundCut) :
    evPcieReset ⟨.function, x⟩ s = (if s.linkUp then s.finishInbound x else s).pcieReset true :=
  congrArg (State.pcieReset _) (decide_eq_true rfl)

theorem evPcieResetLink {k : PcieResetKind} (x : InboundCut) (hkind : k ≠ .function) :
    evPcieReset ⟨k, x⟩ s = (if s.linkUp then s.finishInbound x else s).pcieReset false :=
  congrArg (State.pcieReset _) (decide_eq_false hkind)

theorem pcieReset_down (s : State) : (s.pcieReset false).pwr.pcieGen = 0 ∧ (s.pcieReset false).pwr.pcieWidth = 0 := ⟨rfl, rfl⟩

theorem evPcieLinkUp_on (g w : Nat) (hon : s.domainOn 85 = true) :
    evPcieLinkUp g w s = { s with pwr := { s.pwr with pcieGen := g, pcieWidth := w } } := if_pos hon

theorem evPcieLinkUp_off (g w : Nat) (hoff : s.domainOn 85 = false) : evPcieLinkUp g w s = s := if_neg (by simp [hoff])

theorem evMgmtLinkChange_sets (p : Fin 2) {up : Bool} (hserves : up = false ∨ s.domainOn 86 = true ∧ (s.mgmt p.val).mode ≠ 0) :
    evMgmtLinkChange p up s = s.setMgmt p.val { s.mgmt p.val with link := up } := by
  refine if_neg ?_
  rcases hserves with hdown | ⟨hon, hmode⟩
  · simp [hdown]
  · simp [hon, hmode]

theorem evMgmtLinkChange_stays (p : Fin 2) (hoff : (s.mgmt p.val).mode = 0 ∨ s.domainOn 86 = false) :
    evMgmtLinkChange p true s = s := by
  refine if_pos ?_
  rcases hoff with hmode | hoff
  · simp [hmode]
  · simp [hoff]

/-! ## The boot ROM (R523 to R525, R527) -/

/-- Without a committed image there is none to try: the device is in RECOVERY. -/
theorem romBoot_empty (hslot0 : s.slotCommitted 0 = false) (hslot1 : s.slotCommitted 1 = false) :
    s.romBoot.pwr.phase = 5 ∧ s.romBoot.pwr.fail = 1 ∧ s.romBoot.flash = s.flash := by
  have horder (t : State) (hflash : t.flash = s.flash) : t.bootOrder = [] := by
    have hcommitted (n : Nat) : t.slotCommitted n = s.slotCommitted n := by unfold State.slotCommitted; rw [hflash]
    simp [State.bootOrder, hcommitted, hslot0, hslot1]
  unfold State.romBoot
  extract_lets on s1
  rw [horder s1 rfl]
  exact ⟨rfl, rfl, rfl⟩

/-- At a reset of the device MC-A's ROM boots; a core that has an image then draws the boot identifier of Freran. -/
theorem evBootRom_first (hphase : s.pwr.phase = 0) : evBootRom 0 s =
    if s.romBoot.pwr.phase = 2 then
      State.coreBooted { s.romBoot.draw with fr := { s.romBoot.fr with boot := Config.freeNat s.romBoot.draws 1 % 65536 } } 0
    else s.romBoot := (if_pos hphase).trans (if_pos rfl)

theorem evBootRom_waits (hphase : s.pwr.phase = 0) : evBootRom 1 s = s := (if_pos hphase).trans (if_neg (by decide))

section Alone
variable {h : Fin 2} (hphase : s.pwr.phase ≠ 0) (hrecovery : s.pwr.phase ≠ 5) (hmode : (s.core h).mode = .booting)
  (hon : s.domainOn (87 + h.val) = true)
include hphase hrecovery hmode hon

/-- A core that boots alone, its copy in SRAM being whole or not yet asked for. -/
theorem evBootRom_boots (hcopy : s.mc.claimed = false) : evBootRom h s = s.coreBooted h := by
  have hidle : ¬ (s.pwr.phase = 5 || !((s.core h).mode = .booting || ((s.core h).mode = .stopping && s.mc.token ≠ some h)) ||
      !s.domainOn (87 + h.val) : Bool) = true := by
    simp [hrecovery, hmode, hon]
  exact (if_neg hphase).trans ((if_neg hidle).trans (if_neg (by simp [hcopy])))

/-- Only after the first claim is the copy checked (log entry 86). -/
theorem evBootRom_broken (hclaimed : s.mc.claimed = true) (hcopy : s.copyIntact = false) : evBootRom h s =
    (s.setCore h { s.core h with mode := .failed }).mapPwr fun p => { p with fail := 7 } := by
  have hidle : ¬ (s.pwr.phase = 5 || !((s.core h).mode = .booting || ((s.core h).mode = .stopping && s.mc.token ≠ some h)) ||
      !s.domainOn (87 + h.val) : Bool) = true := by
    simp [hrecovery, hmode, hon]
  exact (if_neg hphase).trans ((if_neg hidle).trans (if_pos (by simp [hclaimed, hcopy])))

end Alone

/-! ## Bring-up (R525, R539) -/

theorem evServiceBringUp_other (r : BootReport) (hphase : s.pwr.phase ≠ 3) : evServiceBringUp r s = s := by
  unfold evServiceBringUp
  split
  · rfl
  · exact if_pos (by simp [hphase])

theorem evServiceBringUp_serves {h : Fin 2} {r : BootReport} {x : State × List JParsed} (htoken : s.mc.token = some h)
    (hactive : (s.core h).mode = .active) (hphase : s.pwr.phase = 3) (hx : x = s.recoverJournal r.failingBlocks)
    (hu : u = (x.2.foldl State.replay
      ((((r.badRows.foldl State.bootRow (x.2.foldl State.applyRecord x.1)).bootHbm r.failedHbm).bootBist
        r.badTiles).assignSlots)).restoreLoadMap) :
    evServiceBringUp r s =
      (((u.mapEr fun e => { e with mode := e.jMode.getD 1 }).recordBoot h.val (r.failingBlocks.filter (· < 64))).enterService).resume := by
  have hmine : ¬ (s.pwr.phase ≠ 3 || !s.activeCore h : Bool) = true := by simp [hphase, State.activeCore, hactive]
  subst hu
  unfold evServiceBringUp
  rw [htoken]
  dsimp only
  rw [if_neg hmine, ← hx]

/-! ## The claim -/

theorem happens_pwrResetFire (hev : evPwrResetFire s = u) : Happens .pwrResetFire s u := hev ▸ happens_of_guarded rfl rfl

theorem happens_pcieReset {k : PcieResetKind} {x : InboundCut} (hwf : x.wf = true) (hev : evPcieReset ⟨k, x⟩ s = u) :
    Happens (.pcieReset ⟨k, x⟩) s u := hev ▸ happens_of_guarded rfl hwf

theorem happens_pcieLinkUp {g w : Nat} (hev : evPcieLinkUp g w s = u) : Happens (.pcieLinkUp g w) s u :=
  hev ▸ happens_of_guarded rfl rfl

theorem happens_mgmtLinkChange {p : Fin 2} {up : Bool} (hev : evMgmtLinkChange p up s = u) : Happens (.mgmtLinkChange p up) s u :=
  hev ▸ happens_of_guarded rfl rfl

theorem happens_bootRom {h : Fin 2} (hev : evBootRom h s = u) : Happens (.bootRom h) s u := hev ▸ happens_of_guarded rfl rfl

theorem happens_serviceBringUp {r : BootReport} (htiles : r.badTiles.all (decide <| · < 272) = true)
    (hrows : (r.badRows.all fun x => decide (x.1 < 65536) && decide (x.2 < 65536)) = true) (hev : evServiceBringUp r s = u) :
    Happens (.serviceBringUp r) s u := hev ▸ happens_of_guarded rfl (Bool.and_eq_true_iff.mpr ⟨htiles, hrows⟩)

end Events

/-- Settles O58: each event happens as its meaning says, and the lemma for its case says what that leads to. That a core's copy is
checked only after the first claim, that a rotation cut short leaves the hash, and when the straps are sampled, are the model's
reading (log entries 86, 92, 99 and 112). -/
theorem resetsAndBootAct : Obligations.ResetsAndBootAct := by
  unfold Obligations.ResetsAndBootAct
  refine ⟨?powerOn, ?reset, ?fires, ?noFire, ?function, ?link, ?linkUp, ?linkOff, ?mgmt, ?mgmtOff, ?mgmtDown, ?recovery, ?rom, ?romB,
    ?boots, ?broken, ?noBringUp, ?bringUp, ?rotation⟩
  case powerOn => exact fun s c x => happens_of_guarded rfl rfl
  case reset => exact deviceReset_keeps
  case fires => exact fun s t hasked hdue => happens_pwrResetFire (evPwrResetFire_due hasked hdue)
  case noFire => exact fun s hwaits => happens_pwrResetFire (evPwrResetFire_waits hwaits)
  case function => exact fun s x hwf => happens_pcieReset hwf (evPcieResetFunction x)
  case link =>
    exact fun s k x hwf hkind => ⟨_, happens_pcieReset hwf (evPcieResetLink x hkind), rfl, pcieReset_down _⟩
  case linkUp => exact fun s g w hon => happens_pcieLinkUp (evPcieLinkUp_on g w hon)
  case linkOff => exact fun s g w hoff => happens_pcieLinkUp (evPcieLinkUp_off g w hoff)
  case mgmt => exact fun s p up hon hmode => happens_mgmtLinkChange (evMgmtLinkChange_sets p (Or.inr ⟨hon, hmode⟩))
  case mgmtOff => exact fun s p hoff => happens_mgmtLinkChange (evMgmtLinkChange_stays p hoff)
  case mgmtDown => exact fun s p => happens_mgmtLinkChange (evMgmtLinkChange_sets p (Or.inl rfl))
  case recovery =>
    intro s hphase hslot0 hslot1
    obtain ⟨hrecovery, hfail, hflash⟩ := romBoot_empty hslot0 hslot1
    refine ⟨s.romBoot, happens_bootRom ((evBootRom_first hphase).trans (if_neg ?_)), hrecovery, hfail, hflash⟩
    rw [hrecovery]
    decide
  case rom => exact fun s hphase => happens_bootRom (evBootRom_first hphase)
  case romB => exact fun s hphase => happens_bootRom (evBootRom_waits hphase)
  case boots =>
    intro s h hphase hrecovery hmode hon hnew
    exact happens_bootRom (evBootRom_boots hphase hrecovery hmode hon hnew)
  case broken =>
    intro s h hphase hrecovery hmode hon hclaimed hcopy
    exact happens_bootRom (evBootRom_broken hphase hrecovery hmode hon hclaimed hcopy)
  case noBringUp =>
    intro s r htiles hrows hphase
    exact happens_serviceBringUp htiles hrows (evServiceBringUp_other r hphase)
  case bringUp =>
    intro s u h r x htiles hrows htoken hactive hphase hx hu
    exact happens_serviceBringUp htiles hrows (evServiceBringUp_serves htoken hactive hphase hx hu)
  case rotation => exact fun s c x p fuse hlen => happens_of_guarded rfl (decide_eq_true hlen)

end Sys2Proof.Machine
end

section
/-! What the security commands do when they are accepted (R523, R529, R531, R532, R539, R540). The claim of O40 is put together from
them. -/

namespace Sys2Proof.Machine

section Commands
variable {c : Cmd} {s : State}

/-! ## Identity and attestation (R532, R540) -/

theorem doSecGetIdentity_begins (c : Cmd) (s : State) : ∃ rest, doSecGetIdentity c s = .okWith
    (dieIdBytes ++ publicKey Config.identityScalar ++ zeros 3 ++ beBytes 4 Config.endorseId ++
      (List.range 96).map Config.endorsement ++ beBytes 1 s.keyMask ++ beBytes 1 s.pwr.otpWord ++ beBytes 2 s.pwr.signMask ++
      rest) s := ⟨zeros 4, rfl⟩

/-- The report comes before its signature. -/
theorem doSecAttest_begins (c : Cmd) (s : State) : ∃ rest, doSecAttest c s = .okWith
    (beBytes 1 1 ++ beBytes 1 s.pwr.slot ++ beBytes 1 s.pwr.keySlot ++ beBytes 1 s.pwr.otpWord ++ beBytes 4 s.pwr.secVer ++
      dieIdBytes ++ beBytes 4 s.jrnl.bootCount ++ beBytes 4 s.pwr.minVersion ++ padTo 0 32 c.params ++ padTo 0 48 s.pwr.measure ++
      s.configDigest ++ beBytes 8 s.jrnl.lastSeq ++ beInstant s.nowInstant ++ rest) s :=
  ⟨zeros 4 ++ ecdsaSign Config.identityScalar _ _, by rw [← List.append_assoc]; rfl⟩

/-! ## Command keys and the signing policy (R531) -/

theorem doSecSetCmdKey_enrols (hslot : fld c.params 0 1 ≤ 7) (haction : fld c.params 1 1 = 1)
    (hkey : (pointOf (slice c.params 4 97)).isSome = true) : doSecSetCmdKey c s =
      if kvGet [] s.pwr.cmdKeys (fld c.params 0 1) ≠ [] then .fail stBusy s
      else .ok { s with pwr := { s.pwr with cmdKeys := kvSet [] s.pwr.cmdKeys (fld c.params 0 1) (slice c.params 4 97) } } := by
  rw [doSecSetCmdKey, firstBad_eq_none.mpr (by simp [hslot, haction, hkey])]
  exact if_pos haction

theorem doSecSetCmdKey_deletes (hslot : fld c.params 0 1 ≤ 7) (haction : fld c.params 1 1 = 0) : doSecSetCmdKey c s =
      if kvGet [] s.pwr.cmdKeys (fld c.params 0 1) ≠ [] && s.pwr.cmdKeys.length = 1 &&
        (s.pwr.signMask ≠ 0 || s.own.policy.claimAuth) then .fail stBusy s
      else .ok { s with pwr := { s.pwr with cmdKeys := kvSet [] s.pwr.cmdKeys (fld c.params 0 1) [] } } := by
  rw [doSecSetCmdKey, firstBad_eq_none.mpr (by simp [hslot, haction])]
  exact if_neg (by simp [haction])

theorem doSecSetSignPolicy_ok (hkeys : fld c.params 0 2 < 2 ∨ s.pwr.cmdKeys ≠ []) :
    doSecSetSignPolicy c s = .ok { s with pwr := { s.pwr with signMask := fld c.params 0 2 / 2 * 2 } } := by
  refine if_neg ?_
  rcases hkeys with hnone | hkeys
  · simp [Nat.div_eq_of_lt hnone]
  · simp [hkeys]

theorem doSecSetSignPolicy_bad (hmask : 2 ≤ fld c.params 0 2) (hnone : s.pwr.cmdKeys = []) : doSecSetSignPolicy c s = .bad 0 s := by
  have hsome : fld c.params 0 2 / 2 * 2 ≠ 0 := by omega
  exact if_pos (by simp [hsome, hnone])

/-! ## Rotation and revocation (R529) -/

/-- R529: the authorisation of a SEC_OTP_ROTATE. -/
def rotationAuthorised (p : List Byte) (s : State) : Bool :=
  s.authorised (fld p 1 1) 1 (fld p 0 1) (slice p 4 48) (slice p 52 97) (slice p 152 96)

/-- R529: the authorisation of a SEC_OTP_REVOKE. -/
def revocationAuthorised (p : List Byte) (s : State) : Bool :=
  s.authorised (fld p 1 1) 2 (fld p 0 1) (zeros 48) (slice p 4 97) (slice p 104 96)

section Slots
variable (hslots : fld c.params 0 1 ≤ 2 ∧ fld c.params 1 1 ≤ 2)
include hslots

/-- The authorisation is judged before the slot's state (log entry 89). -/
theorem doSecOtpRotate_valid : doSecOtpRotate c s =
    if rotationAuthorised c.params s then
      if (s.pwr.otp (fld c.params 0 1)).code ≠ 0 then .bad 0 s
      else .ok { s with pwr := s.pwr.setOtp (fld c.params 0 1) { hash := slice c.params 4 48, active := true } }
    else .fail stNotAuth s := by
  rw [doSecOtpRotate, rotate, firstBad_eq_none.mpr (by simp [hslots])]
  unfold rotationAuthorised
  cases hauth : s.authorised (fld c.params 1 1) 1 (fld c.params 0 1) (slice c.params 4 48) (slice c.params 52 97)
    (slice c.params 152 96)
  · exact (if_pos (by simp)).trans (if_neg Bool.false_ne_true).symm
  · exact (if_neg (by simp)).trans (if_pos rfl).symm

theorem doSecOtpRevoke_valid : doSecOtpRevoke c s =
    if revocationAuthorised c.params s then
      if (s.pwr.otp (fld c.params 0 1)).code ≠ 1 then .bad 0 s
      else if ((List.range 3).filter fun n => (s.pwr.otp n).isActive).length ≤ 1 then .fail stBusy s
      else .ok { s with pwr := s.pwr.setOtp (fld c.params 0 1) { s.pwr.otp (fld c.params 0 1) with revoked := true } }
    else .fail stNotAuth s := by
  rw [doSecOtpRevoke, firstBad_eq_none.mpr (by simp [hslots])]
  unfold revocationAuthorised
  cases hauth : s.authorised (fld c.params 1 1) 2 (fld c.params 0 1) (zeros 48) (slice c.params 4 97) (slice c.params 104 96)
  · exact (if_pos (by simp)).trans (if_neg Bool.false_ne_true).symm
  · exact (if_neg (by simp)).trans (if_pos rfl).symm

end Slots

/-! ## Staging (R539) -/

/-- A piece starts at offset 0, or where the staged image ends or beyond. -/
def State.stageAscends (s : State) (off : Nat) : Bool := decide (off = 0) || s.pwr.staged.any fun e => decide (e ≤ off)

theorem stageAscends_eq (s : State) (off : Nat) : s.stageAscends off =
    (decide (off = 0) || match s.pwr.staged with | some e => decide (e ≤ off) | none => false) := by
  unfold State.stageAscends
  cases s.pwr.staged <;> rfl

theorem doSecFwStage_ok (hlow : 1 ≤ fld c.params 4 2) (hhigh : fld c.params 4 2 ≤ 1024)
    (hfits : fld c.params 0 4 + fld c.params 4 2 ≤ 0x400000) (hascends : s.stageAscends (fld c.params 0 4) = true) :
    doSecFwStage c s = .ok (s.stageBytes (fld c.params 0 4) (slice c.params 8 (fld c.params 4 2))) := by
  rw [stageAscends_eq] at hascends
  rw [doSecFwStage, firstBad_eq_none.mpr]
  simp only [List.all_cons, List.all_nil, Bool.and_true, Bool.and_eq_true, decide_eq_true_eq]
  exact ⟨hascends, ⟨hlow, hhigh⟩, hfits⟩

theorem doSecFwStage_descends (hdescends : s.stageAscends (fld c.params 0 4) = false) : doSecFwStage c s = .bad 0 s := by
  obtain ⟨hlater, hbefore⟩ := Bool.or_eq_false_iff.mp hdescends
  have hoff : fld c.params 0 4 ≠ 0 := of_decide_eq_false hlater
  cases hstaged : s.pwr.staged with
  | none => simp [doSecFwStage, firstBad, hoff, hstaged]
  | some e =>
    have hearlier : ¬ e ≤ fld c.params 0 4 := by simpa [hstaged] using hbefore
    simp [doSecFwStage, firstBad, hoff, hstaged, hearlier]

/-! ## Activation (R523, R539) -/

/-- R523: what the staged image comes to; 0: valid. -/
def State.stagedVerdict (s : State) : Nat := s.pwr.imageFail (s.slotImage s.stageSlot)

/-- The staged image is committed, and the stage is over. -/
def State.stageCommitted (s : State) (flags : Nat) : State :=
  s.commitSlot.mapPwr fun p => { p with
    staged := none, stagedBlocks := [], raiseMin := if bit flags 1 then some (s.slotImage s.stageSlot).measure else none }

theorem doSecFwActivate_judged (hflags : fld c.params 0 1 ≤ 3) : doSecFwActivate c s =
    if s.stagedVerdict = 3 || s.stagedVerdict = 4 || s.stagedVerdict = 5 then .fail stNotAuth s
    else if s.stagedVerdict ≠ 0 || s.pwr.staged.isNone then .fail stBadParam s
    else if bit (fld c.params 0 1) 0 then
      .accepted (((s.stageCommitted (fld c.params 0 1)).mapQuiesce fun q => { q with byCommand := true, thenReset := true }).requestQuiesce
        s.pwr.quiesce.pinMs)
    else .accepted ((s.stageCommitted (fld c.params 0 1)).mapPwr fun p => { p with fwReset := true }) :=
  if_neg (Nat.not_lt.mpr hflags)

/-- A staged image whose key or signature fails is NOT_AUTH, one invalid otherwise BAD_PARAM; a valid one is committed. -/
theorem activation_outcome (hflags : fld c.params 0 1 ≤ 3) (hstaged : s.pwr.staged.isSome = true) :
    let r := doSecFwActivate c s
    if s.stagedVerdict = 3 ∨ s.stagedVerdict = 4 ∨ s.stagedVerdict = 5 then r.status = stNotAuth ∧ r.st = s
    else if s.stagedVerdict ≠ 0 then r.status = stBadParam ∧ r.st = s
    else r.status = stAccepted ∧ r.st =
      if bit (fld c.params 0 1) 0
      then ((s.stageCommitted (fld c.params 0 1)).mapQuiesce fun q => { q with byCommand := true, thenReset := true }).requestQuiesce
        s.pwr.quiesce.pinMs
      else (s.stageCommitted (fld c.params 0 1)).mapPwr fun p => { p with fwReset := true } := by
  dsimp only
  rw [doSecFwActivate_judged hflags]
  have hkeys : (s.stagedVerdict = 3 || s.stagedVerdict = 4 || s.stagedVerdict = 5 : Bool) = true ↔
      s.stagedVerdict = 3 ∨ s.stagedVerdict = 4 ∨ s.stagedVerdict = 5 := by simp [or_assoc]
  by_cases hkey : s.stagedVerdict = 3 ∨ s.stagedVerdict = 4 ∨ s.stagedVerdict = 5
  · rw [if_pos hkey, if_pos (hkeys.mpr hkey)]
    exact ⟨rfl, rfl⟩
  · rw [if_neg hkey, if_neg (mt hkeys.mp hkey)]
    by_cases hinvalid : s.stagedVerdict ≠ 0
    · have hbad : (decide (s.stagedVerdict ≠ 0) || s.pwr.staged.isNone) = true := by simp [hinvalid]
      rw [if_pos hinvalid, if_pos hbad]
      exact ⟨rfl, rfl⟩
    · have hgood : ¬ (decide (s.stagedVerdict ≠ 0) || s.pwr.staged.isNone) = true := by
        simp [Decidable.not_not.mp hinvalid, Option.isSome_iff_ne_none.mp hstaged]
      rw [if_neg hinvalid, if_neg hgood]
      split <;> exact ⟨rfl, rfl⟩

theorem doSecFwActivate_unstaged (hflags : fld c.params 0 1 ≤ 3) (hnone : s.pwr.staged = none) :
    doSecFwActivate c s = .fail stNotAuth s ∨ doSecFwActivate c s = .fail stBadParam s := by
  rw [doSecFwActivate_judged hflags]
  by_cases hkey : (s.stagedVerdict = 3 || s.stagedVerdict = 4 || s.stagedVerdict = 5 : Bool) = true
  · exact Or.inl (if_pos hkey)
  · exact Or.inr ((if_neg hkey).trans (if_pos (by simp [hnone])))

end Commands

/-! ## Commands that wait while a snapshot is written (R505) -/

/-- What an activation comes to, once its checks let it through. -/
theorem activation_performs {s : State} {c : Cmd} {k : Taken} (htakes : s.takes specSecFwActivate c = some k) :
    exec (.secFwActivate c) s = .next (s.settled (k.before.perform specSecFwActivate k.what k.at_ k.cmd.params)) ∧
      { k.what.cmd with params := k.cmd.params } = k.cmd := by
  obtain ⟨params, hc, hsubmit⟩ := submit_takes htakes
  obtain ⟨-, -, -, -, hw, -⟩ := takes_spec htakes
  have hcmd : k.what.cmd = c := by rw [hw]
  rw [hcmd, hc]
  exact ⟨hsubmit, rfl⟩

/-- While no snapshot is written, an activation is answered at once with what its execution comes to. -/
theorem executes_unpaused {good : Cmd → State → Bool} {holds : Cmd → State → Res → Prop}
    (hstep : ∀ c u, good c u = true → ¬ (2 ≤ u.jrnl.step ∧ u.jrnl.step ≤ 4))
    (h : ∀ c u, good c u = true → holds c u (doSecFwActivate c u)) : Executes .secFwActivate specSecFwActivate good holds := by
  intro s c k htakes hgood
  obtain ⟨hexec, hcmd⟩ := activation_performs htakes
  have hidle : ¬ (2 ≤ k.before.jrnl.step ∧ k.before.jrnl.step ≤ 4) := by
    rw [takes_before_at htakes]
    exact hstep k.cmd k.at_ hgood
  refine ⟨doSecFwActivate k.cmd k.at_, hexec.trans ?_, h _ _ hgood⟩
  unfold State.perform
  rw [hcmd]
  refine congrArg (fun t => Host.Outcome.next (s.settled t)) (if_pos (Bool.or_eq_true_iff.mpr (Or.inr ?_)))
  simp only [specSecFwActivate, decide_true, Bool.true_and, Bool.not_eq_true', Bool.and_eq_false_iff, decide_eq_false_iff_not]
  omega

/-- While a snapshot is written, an activation that would succeed waits with the journal; any other is answered at once. -/
theorem activation_waits {s : State} {c : Cmd} {k : Taken} (htakes : s.takes specSecFwActivate c = some k)
    (hlow : 2 ≤ s.jrnl.step) (hhigh : s.jrnl.step ≤ 4)
    (hsize : snapshotSize (doSecFwActivate k.cmd k.at_).st.snapshot ≤ 1048576) :
    exec (.secFwActivate c) s = .next (s.settled (if (doSecFwActivate k.cmd k.at_).good then k.before.awaitGroup k.held []
      else State.answer k.before k.what rowSecFwActivate (doSecFwActivate k.cmd k.at_))) := by
  obtain ⟨hexec, hcmd⟩ := activation_performs htakes
  have hjrnl : k.before.jrnl = s.jrnl := by rw [(takes_before htakes).1]
  have hheld : ({ k.what with cmd := { k.what.cmd with params := k.cmd.params, tag := none } } : Waiting) = k.held :=
    congrArg (fun d : Cmd => ({ k.what with cmd := { d with tag := none } } : Waiting)) hcmd
  refine hexec.trans (congrArg (fun t => Host.Outcome.next (s.settled t)) ?_)
  unfold State.perform
  dsimp only
  rw [hheld, hcmd, hjrnl]
  cases hgood : (doSecFwActivate k.cmd k.at_).good with
  | false => exact if_pos (by simp [specSecFwActivate, hgood])
  | true =>
    refine (if_neg ?answered).trans ((if_neg (Nat.not_lt.mpr hsize)).trans (if_neg ?full))
    case answered => simp [specSecFwActivate, hgood, rowSecFwActivate, hlow, hhigh]
    case full => simp [specSecFwActivate]

/-! ## The claim -/

/-- Settles O40: each command's body does as claimed once its checks pass. That an authorisation is judged before the slot's state,
that bit 0 of the mask is ignored, and how a stage is written and committed, are the model's reading (log entries 88 and 89). -/
theorem securityCommandsAct : Obligations.SecurityCommandsAct := by
  unfold Obligations.SecurityCommandsAct
  refine ⟨?identity, ?attest, ?enrols, ?deletes, ?enrolBusy, ?deleteBusy, ?policy, ?badPolicy, ?rotates, ?rotateAuth, ?revokeAuth,
    ?revokes, ?stages, ?descends, ?activates, ?unstaged, ?badRotate, ?badRevoke, ?lastKey, ?waits⟩
  case identity => exact reads_of (fun _ _ => rfl) (fun _ _ => rfl) (by decide) fun c u _ => doSecGetIdentity_begins c u
  case attest => exact reads_of (fun _ _ => rfl) (fun _ _ => rfl) (by decide) fun c u _ => doSecAttest_begins c u
  case enrols =>
    refine setsJournalled_of (fun _ _ => rfl) rfl (ownRecord_ne_nil _) fun c u hgood => ?_
    simp only [Bool.and_eq_true, decide_eq_true_eq] at hgood
    obtain ⟨⟨⟨hslot, haction⟩, hkey⟩, hnone⟩ := hgood
    exact (doSecSetCmdKey_enrols hslot haction hkey).trans (if_neg (not_not_intro hnone))
  case deletes =>
    refine setsJournalled_of (fun _ _ => rfl) rfl (ownRecord_ne_nil _) fun c u hgood => ?_
    simp only [Bool.and_eq_true, decide_eq_true_eq] at hgood
    obtain ⟨⟨hslot, haction⟩, hkept⟩ := hgood
    refine (doSecSetCmdKey_deletes hslot haction).trans (if_neg ?_)
    simpa only [Bool.not_eq_true', Bool.eq_false_iff, ne_eq, Bool.and_eq_true, Bool.or_eq_true, decide_eq_true_eq] using hkept
  case enrolBusy =>
    intro u c hslot haction hkey hsome
    exact (doSecSetCmdKey_enrols hslot haction hkey).trans (if_pos hsome)
  case deleteBusy =>
    intro u c hslot haction hsome hlast hneeded
    refine (doSecSetCmdKey_deletes hslot haction).trans (if_pos ?_)
    simpa [hsome, hlast] using hneeded
  case policy =>
    exact setsJournalled_of (fun _ _ => rfl) rfl (ownRecord_ne_nil _) fun c u hgood =>
      doSecSetSignPolicy_ok (of_decide_eq_true hgood)
  case badPolicy =>
    refine rejects_of (fun _ _ => rfl) fun c u hgood => ?_
    obtain ⟨hmask, hnone⟩ := of_decide_eq_true hgood
    exact doSecSetSignPolicy_bad hmask hnone
  case rotates =>
    refine executes_body (fun _ _ => rfl) (fun _ _ => rfl) (by decide) fun c u hgood => ?_
    simp only [Bool.and_eq_true, decide_eq_true_eq] at hgood
    obtain ⟨hslots, hblank⟩ := hgood
    refine ⟨_, doSecOtpRotate_valid hslots, ?_⟩
    rw [if_neg (not_not_intro hblank), ← rotationAuthorised]
    split
    · exact ⟨rfl, rfl, rfl⟩
    · exact ⟨rfl, rfl⟩
  case rotateAuth =>
    refine executes_fail (fun _ _ => rfl) (by decide) fun c u hgood => ?_
    simp only [Bool.and_eq_true, decide_eq_true_eq] at hgood
    obtain ⟨hslots, hunsigned⟩ := hgood
    exact (doSecOtpRotate_valid hslots).trans (if_neg (by simpa [rotationAuthorised] using hunsigned))
  case revokeAuth =>
    refine executes_fail (fun _ _ => rfl) (by decide) fun c u hgood => ?_
    simp only [Bool.and_eq_true, decide_eq_true_eq] at hgood
    obtain ⟨hslots, hunsigned⟩ := hgood
    exact (doSecOtpRevoke_valid hslots).trans (if_neg (by simpa [revocationAuthorised] using hunsigned))
  case revokes =>
    refine executes_body (fun _ _ => rfl) (fun _ _ => rfl) (by decide) fun c u hgood => ?_
    simp only [Bool.and_eq_true, decide_eq_true_eq] at hgood
    obtain ⟨⟨hslots, hactive⟩, htwo⟩ := hgood
    refine ⟨_, doSecOtpRevoke_valid hslots, ?_⟩
    rw [if_neg (not_not_intro hactive), if_neg (Nat.not_le.mpr htwo), ← revocationAuthorised]
    split
    · exact ⟨rfl, rfl, rfl⟩
    · exact ⟨rfl, rfl⟩
  case stages =>
    refine sets_of (fun _ _ => rfl) (fun _ _ => rfl) (by decide) fun c u hgood => ?_
    obtain ⟨hrange, hascends⟩ := Bool.and_eq_true_iff.mp hgood
    obtain ⟨hlow, hhigh, hfits⟩ := of_decide_eq_true hrange
    exact doSecFwStage_ok hlow hhigh hfits hascends
  case descends =>
    refine rejects_of (fun _ _ => rfl) fun c u hgood => ?_
    exact doSecFwStage_descends ((Bool.not_eq_true' _).mp hgood)
  case activates =>
    refine executes_unpaused (fun c u hgood => ?_) fun c u hgood => ?_
    all_goals
      simp only [Bool.and_eq_true, decide_eq_true_eq] at hgood
      obtain ⟨⟨hflags, hstaged⟩, hstep⟩ := hgood
    · omega
    · exact activation_outcome hflags hstaged
  case unstaged =>
    refine executes_bad (fun _ _ => rfl) (fun c u hgood => ?_) fun c u hgood => ?_
    all_goals
      simp only [Bool.and_eq_true, decide_eq_true_eq, Option.isNone_iff_eq_none] at hgood
      obtain ⟨hflags, hnone⟩ := hgood
    · rcases doSecFwActivate_unstaged hflags hnone with hbody | hbody <;> exact congrArg Res.good hbody
    · rcases doSecFwActivate_unstaged hflags hnone with hbody | hbody
      · exact ⟨Or.inl (congrArg Res.status hbody), congrArg Res.st hbody⟩
      · exact ⟨Or.inr (congrArg Res.status hbody), congrArg Res.st hbody⟩
  case badRotate =>
    refine executes_body (fun _ _ => rfl) (fun _ _ => rfl) (by decide) fun c u hgood => ?_
    simp only [Bool.and_eq_true, decide_eq_true_eq] at hgood
    obtain ⟨hslots, hused⟩ := hgood
    refine ⟨_, doSecOtpRotate_valid hslots, ?_⟩
    rw [if_pos hused, ← rotationAuthorised]
    split
    · exact ⟨rfl, rfl, rfl⟩
    · exact ⟨rfl, rfl⟩
  case badRevoke =>
    refine executes_body (fun _ _ => rfl) (fun _ _ => rfl) (by decide) fun c u hgood => ?_
    simp only [Bool.and_eq_true, decide_eq_true_eq] at hgood
    obtain ⟨hslots, hother⟩ := hgood
    refine ⟨_, doSecOtpRevoke_valid hslots, ?_⟩
    rw [if_pos hother, ← revocationAuthorised]
    split
    · exact ⟨rfl, rfl, rfl⟩
    · exact ⟨rfl, rfl⟩
  case lastKey =>
    refine executes_body (fun _ _ => rfl) (fun _ _ => rfl) (by decide) fun c u hgood => ?_
    simp only [Bool.and_eq_true, decide_eq_true_eq] at hgood
    obtain ⟨⟨hslots, hactive⟩, hlast⟩ := hgood
    refine ⟨_, doSecOtpRevoke_valid hslots, ?_⟩
    rw [if_neg (not_not_intro hactive), if_pos hlast, ← revocationAuthorised]
    split
    · exact ⟨rfl, rfl⟩
    · exact ⟨rfl, rfl⟩
  case waits => exact fun s c k htakes hlow hhigh hsize => activation_waits htakes hlow hhigh hsize

end Sys2Proof.Machine
end

section
/-! What the power commands do when they are accepted, and how a quiesce starts and ends (R513, R517, R533, R534, R536, R539,
R540). The claim of O39 is put together from them. -/

namespace Sys2Proof.Machine

/-! ## How a quiesce starts (R533, R534)

The first step stops the data path; it leaves power alone. -/

theorem settleSched_pwr (s : State) : s.settleSched.pwr = s.pwr := by
  unfold State.settleSched
  split <;> rfl

theorem tryStop_pwr (s : State) : s.tryStop.pwr = s.pwr := by
  unfold State.tryStop
  split
  · split
    · exact settleSched_pwr _
    · exact settleSched_pwr s
  · exact settleSched_pwr s

theorem stopSchedule_pwr (s : State) : s.stopSchedule.pwr = s.pwr := by
  unfold State.stopSchedule
  split
  · rfl
  · exact tryStop_pwr _

theorem frameGone_pwr (s : State) (o : FrameOwner) (lost : Bool) : (s.frameGone o lost).pwr = s.pwr := by
  cases o <;> rfl

theorem handFrame_pwr (s : State) (o : FrameOwner) (d : Dest) (bytes : List Byte) : (s.handFrame o d bytes).pwr = s.pwr := by
  unfold State.handFrame
  split
  · split
    · rfl
    · exact frameGone_pwr _ o true
  · rfl

/-- A fold whose every step leaves power alone. -/
theorem foldl_pwr {β : Type} {f : State → β → State} (hstep : ∀ u b, (f u b).pwr = u.pwr) (l : List β) (s : State) :
    (l.foldl f s).pwr = s.pwr :=
  List.foldlRecOn l f (motive := fun u => u.pwr = s.pwr) rfl fun u hu b _ => (hstep u b).trans hu

theorem pumpSegments_pwr (s : State) : s.pumpSegments.pwr = s.pwr := by
  unfold State.pumpSegments
  split
  · split
    · exact foldl_pwr (fun u f => handFrame_pwr u _ _ f) _ _
    · rfl
  · rfl

theorem setLevel_pwr (s : State) (l : Nat) : (s.setLevel l).pwr = s.pwr := by
  unfold State.setLevel
  split
  · rfl
  · exact (stored_raise _ 191 l).pwr

/-- λ falls by one, where a segment's release lets it. -/
theorem ite_setLevel_pwr {c : Prop} [Decidable c] (s : State) (l : Nat) : (if c then s else s.setLevel l).pwr = s.pwr := by
  split
  · rfl
  · exact setLevel_pwr s l

theorem releaseSegment_pwr (s : State) (x : Segment) : (s.releaseSegment x).pwr = s.pwr :=
  (pumpSegments_pwr _).trans ((stored_raiseEvent _ 192 _ _ _ _).pwr.trans (ite_setLevel_pwr _ _))

theorem discardSegment_pwr (s : State) (x : Segment) :
    ((s.mapCap fun c => { c with ringFull := c.ringFull + 1 }).releaseSegment x).pwr = s.pwr := releaseSegment_pwr _ x

theorem quietCapture_pwr (s : State) : s.quietCapture.pwr = s.pwr := by
  unfold State.quietCapture
  exact foldl_pwr discardSegment_pwr _ _

theorem disableChains_pwr (s : State) : s.disableChains.pwr = s.pwr := by
  unfold State.disableChains
  refine foldl_pwr (fun u e => ?_) _ s
  rfl

theorem startQuiesce_pwr (s : State) (limitMs : Nat) : (s.startQuiesce limitMs).pwr =
    { s.pwr with phase := 6, quiesce := { s.pwr.quiesce with
        active := true, step := 2, startedAt := s.ns, limitMs := limitMs, deferred := false } } := by
  have hkept : s.stopSchedule.quietCapture.disableChains.pwr = s.pwr :=
    (disableChains_pwr _).trans ((quietCapture_pwr _).trans (stopSchedule_pwr s))
  rw [← hkept]
  rfl

section Bodies
variable {c : Cmd} {s : State}

theorem requestQuiesce_service (limitMs : Nat) (hphase : s.pwr.phase = 4) : s.requestQuiesce limitMs = s.startQuiesce limitMs :=
  if_pos hphase

theorem requestQuiesce_boot (limitMs : Nat) (hphase : s.pwr.phase < 4) :
    s.requestQuiesce limitMs = s.mapQuiesce fun q => { q with deferred := true } :=
  (if_neg (by omega)).trans (if_pos hphase)

theorem requestQuiesce_joins (limitMs : Nat) (hphase : 5 ≤ s.pwr.phase) : s.requestQuiesce limitMs = s :=
  (if_neg (by omega)).trans (if_neg (by omega))

/-! ## PWR_SET_DOMAIN and PWR_GET_DOMAINS (R513, R517) -/

theorem doPwrSetDomain_ok (hdomain : fld c.params 0 1 ≤ 95) (hmode : modeAccepted (fld c.params 0 1) (fld c.params 1 1) = true)
    (hfree : (decide (fld c.params 1 1 = 2) && s.offBusy (fld c.params 0 1)) = false) : doPwrSetDomain c s =
      .ok (s.setDomain (fld c.params 0 1) { s.domain (fld c.params 0 1) with mode := fld c.params 1 1 }) := by
  rw [doPwrSetDomain, firstBad_eq_none.mpr (by simp [hdomain, hmode])]
  exact if_neg (by simp [hfree])

theorem doPwrSetDomain_busy (hdomain : fld c.params 0 1 ≤ 95) (hmode : modeAccepted (fld c.params 0 1) (fld c.params 1 1) = true)
    (hoff : fld c.params 1 1 = 2) (hbusy : s.offBusy (fld c.params 0 1) = true) : doPwrSetDomain c s = .fail stBusy s := by
  rw [doPwrSetDomain, firstBad_eq_none.mpr (by simp [hdomain, hmode])]
  exact if_pos (by simp [hoff, hbusy])

/-- R517: a management core's domain cannot be switched off under the active core. -/
theorem offBusy_core {d : Nat} (hcore : d = 87 ∨ d = 88) : s.offBusy d = decide (s.activeId.val = d - 87) := by
  rcases hcore with rfl | rfl <;> rfl

theorem modeAccepted_core {d m : Nat} (hcore : d = 87 ∨ d = 88) (hmode : m = 1 ∨ m = 2) : modeAccepted d m = true := by
  rcases hcore with rfl | rfl <;> rcases hmode with rfl | rfl <;> rfl

theorem doPwrGetDomains_begins (c : Cmd) (s : State) : ∃ rest, doPwrGetDomains c s = .okWith
    (((List.range 96).map fun d => beBytes 1 ((s.domain d).state.code + 4 * (s.domain d).mode)).flatten ++
      beCount 8 ((s.pwr.domains.toList.map (·.fences)).sum) ++ beBytes 1 s.pwr.phase ++ beBytes 1 s.pwr.cause ++ rest) s :=
  ⟨zeros 2, rfl⟩

/-! ## PWR_QUIESCE (R533, R534, R536) -/

/-- Action 2 alone is journalled. -/
theorem quiesceRecords_none (haction : fld c.params 0 1 ≠ 2) (s : State) :
    specPwrQuiesce.records { c with tag := none } s = [] := if_neg haction

section Valid
variable (hlow : 100 ≤ fld c.params 4 4) (hhigh : fld c.params 4 4 ≤ 60000)
include hlow hhigh

theorem doPwrQuiesce_request (haction : fld c.params 0 1 = 0) : doPwrQuiesce c s =
    .accepted ((s.mapQuiesce fun q => { q with byCommand := true }).requestQuiesce (fld c.params 4 4)) := by
  rw [doPwrQuiesce, firstBad_eq_none.mpr (by simp [haction, hlow, hhigh])]
  exact if_pos haction

theorem doPwrQuiesce_starts (haction : fld c.params 0 1 = 0) (hphase : s.pwr.phase = 4) : doPwrQuiesce c s =
    .accepted ((s.mapQuiesce fun q => { q with byCommand := true }).startQuiesce (fld c.params 4 4)) :=
  (doPwrQuiesce_request hlow hhigh haction).trans (congrArg Res.accepted (requestQuiesce_service _ hphase))

theorem doPwrQuiesce_joins (haction : fld c.params 0 1 = 0) (hphase : 5 ≤ s.pwr.phase) : doPwrQuiesce c s =
    .accepted (s.mapQuiesce fun q => { q with byCommand := true }) :=
  (doPwrQuiesce_request hlow hhigh haction).trans (congrArg Res.accepted (requestQuiesce_joins _ hphase))

theorem doPwrQuiesce_limit (haction : fld c.params 0 1 = 2) :
    doPwrQuiesce c s = .ok (s.mapQuiesce fun q => { q with pinMs := fld c.params 4 4 }) := by
  rw [doPwrQuiesce, firstBad_eq_none.mpr (by simp [haction, hlow, hhigh])]
  exact (if_neg (by omega)).trans (if_pos haction)

theorem doPwrQuiesce_end (haction : fld c.params 0 1 = 1) : doPwrQuiesce c s =
    if !s.pwr.quiesce.active then .ok s
    else if s.pwr.phase = 7 && s.pwr.quiesce.ack = .low && ({ s.pwr.quiesce with leave := true } : QuiesceState).over
      then .ok (s.mapQuiesce fun q => { q with leave := true }).leaveQuiesce
    else .ok (s.mapQuiesce fun q => { q with leave := true }) := by
  rw [doPwrQuiesce, firstBad_eq_none.mpr (by simp [haction, hlow, hhigh])]
  exact (if_neg (by omega)).trans (if_neg (by omega))

end Valid

theorem doPwrQuiesce_badAction (haction : 2 < fld c.params 0 1) : doPwrQuiesce c s = .bad 0 s := by
  simp [doPwrQuiesce, firstBad, Nat.not_le.mpr haction]

theorem doPwrQuiesce_badLimit (haction : fld c.params 0 1 ≤ 2) (hlimit : fld c.params 4 4 < 100 ∨ 60000 < fld c.params 4 4) :
    doPwrQuiesce c s = .bad 4 s := by
  have hbad : ¬ (100 ≤ fld c.params 4 4 ∧ fld c.params 4 4 ≤ 60000) := by omega
  simp [doPwrQuiesce, firstBad, haction, hbad]

/-! ## PWR_RESET (R539) -/

theorem doPwrReset_device (hscope : fld c.params 0 1 = 0) :
    doPwrReset c s = .ok { s with pwr := { s.pwr with resetAsked := true } } :=
  (if_neg (by omega)).trans (if_pos hscope)

theorem doPwrReset_pcie (hscope : fld c.params 0 1 = 1) : doPwrReset c s = .ok ((s.resetRequester 2).pcieReset true) :=
  (if_neg (by omega)).trans ((if_neg (by omega)).trans (if_pos hscope))

theorem doPwrReset_core (hscope : fld c.params 0 1 = 2) : doPwrReset c s =
    if (s.core s.standbyId).mode = .off then .fail stBusy s else .ok (s.resetCore s.standbyId) :=
  (if_neg (by omega)).trans ((if_neg (by omega)).trans (if_neg (by omega)))

theorem doPwrReset_bad (hscope : 2 < fld c.params 0 1) : doPwrReset c s = .bad 0 s := if_pos hscope

end Bodies

/-! ## Commands that then have no records -/

/-- What holds of the result of a command that then has no records. -/
theorem executes_of_unrecorded {i : Cmd → Instr} {spec : OpSpec} {good : Cmd → State → Bool} {holds : Cmd → State → Res → Prop}
    (he : ∀ c s, exec (i c) s = s.submit spec c)
    (hr : ∀ c u o, good c u = true → spec.records { c with tag := none } { u with own := o } = [])
    (hf : spec.row.code ≠ 0x0E31) (h : ∀ c u, good c u = true → holds c u (spec.body c u)) : Executes i spec good holds := by
  intro s c k htakes hgood
  have hrecords : spec.records k.held.cmd k.before = [] := by
    rw [takes_before_at htakes]
    exact hr k.cmd k.at_ _ hgood
  exact ⟨_, (he c s).trans (submit_executes htakes hrecords hf), h _ _ hgood⟩

/-! ## The claim -/

/-- Settles O39: each command's body does as claimed once its checks pass. That action 1 of PWR_QUIESCE outside a quiesce is OK
without an effect is the model's reading (log entry 90). -/
theorem powerCommandsAct : Obligations.PowerCommandsAct := by
  unfold Obligations.PowerCommandsAct
  refine ⟨?setDomain, ?setCore, ?offBusy, ?domains, ?starts, ?joins, ?leaves, ?ends, ?idle, ?badAction, ?badLimit, ?limit, ?device,
    ?pcie, ?standby, ?standbyOff, ?badScope⟩
  case setDomain =>
    refine setsJournalled_of_recorded (fun _ _ => rfl) rfl (fun c u o hgood => ?_) fun c u hgood => ?_
    all_goals
      simp only [Bool.and_eq_true, decide_eq_true_eq, Bool.not_eq_true'] at hgood
      obtain ⟨⟨⟨hdomain, hfirst, hsecond⟩, hmode⟩, hfree⟩ := hgood
    · simp [specPwrSetDomain, domainRecords, hfirst, hsecond]
    · exact doPwrSetDomain_ok hdomain hmode hfree
  case setCore =>
    refine sets_of_unrecorded (fun _ _ => rfl) (fun c u o hgood => ?_) (by decide) fun c u hgood => ?_
    all_goals
      simp only [Bool.and_eq_true, decide_eq_true_eq, Bool.not_eq_true'] at hgood
      obtain ⟨⟨hcore, hmode⟩, hfree⟩ := hgood
    · exact if_pos (by simpa using hcore)
    · exact doPwrSetDomain_ok (by omega) (modeAccepted_core hcore hmode) (by rw [offBusy_core hcore]; exact hfree)
  case offBusy =>
    refine executes_fail (fun _ _ => rfl) (by decide) fun c u hgood => ?_
    simp only [Bool.and_eq_true, decide_eq_true_eq] at hgood
    obtain ⟨⟨⟨hdomain, hmode⟩, hoff⟩, hbusy⟩ := hgood
    exact doPwrSetDomain_busy hdomain hmode hoff hbusy
  case domains => exact reads_of (fun _ _ => rfl) (fun _ _ => rfl) (by decide) fun c u _ => doPwrGetDomains_begins c u
  case starts =>
    refine executes_of_unrecorded (fun _ _ => rfl) (fun c u o hgood => ?_) (by decide) fun c u hgood => ?_
    all_goals obtain ⟨haction, hlow, hhigh, hphase⟩ := of_decide_eq_true hgood
    · exact quiesceRecords_none (by omega) _
    · rw [show specPwrQuiesce.body = doPwrQuiesce from rfl, doPwrQuiesce_starts hlow hhigh haction hphase]
      refine ⟨rfl, ?_⟩
      simp [Res.accepted, startQuiesce_pwr, State.mapQuiesce, State.mapPwr]
  case joins =>
    refine executes_of_unrecorded (fun _ _ => rfl) (fun c u o hgood => ?_) (by decide) fun c u hgood => ?_
    all_goals obtain ⟨haction, hlow, hhigh, hphase⟩ := of_decide_eq_true hgood
    · exact quiesceRecords_none (by omega) _
    · rw [show specPwrQuiesce.body = doPwrQuiesce from rfl, doPwrQuiesce_joins hlow hhigh haction hphase]
      exact ⟨rfl, rfl⟩
  case leaves =>
    refine sets_of_unrecorded (fun _ _ => rfl) (fun c u o hgood => ?_) (by decide) fun c u hgood => ?_
    all_goals
      obtain ⟨hvalid, hactive⟩ := Bool.and_eq_true_iff.mp hgood
      obtain ⟨haction, hlow, hhigh, hphase⟩ := of_decide_eq_true hvalid
    · exact quiesceRecords_none (by omega) _
    · exact (doPwrQuiesce_end hlow hhigh haction).trans ((if_neg (by simp [hactive])).trans (if_neg (by simp [hphase])))
  case ends =>
    refine executes_of_unrecorded (fun _ _ => rfl) (fun c u o hgood => ?_) (by decide) fun c u hgood => ?_
    all_goals
      simp only [Bool.and_eq_true, decide_eq_true_eq] at hgood
      obtain ⟨⟨⟨⟨haction, hlow, hhigh, hphase⟩, hactive⟩, hack⟩, hpin⟩ := hgood
    · exact quiesceRecords_none (by omega) _
    · have hover : ({ u.pwr.quiesce with leave := true } : QuiesceState).over = true := by simpa [QuiesceState.over] using hpin
      rw [show specPwrQuiesce.body = doPwrQuiesce from rfl, doPwrQuiesce_end hlow hhigh haction, if_neg (by simp [hactive]),
        if_pos (Bool.and_eq_true_iff.mpr ⟨by simp [hphase, hack], hover⟩)]
      exact ⟨rfl, rfl, rfl, rfl, rfl⟩
  case idle =>
    refine sets_of_unrecorded (fun _ _ => rfl) (fun c u o hgood => ?_) (by decide) fun c u hgood => ?_
    all_goals
      obtain ⟨hvalid, hidle⟩ := Bool.and_eq_true_iff.mp hgood
      obtain ⟨haction, hlow, hhigh⟩ := of_decide_eq_true hvalid
    · exact quiesceRecords_none (by omega) _
    · exact (doPwrQuiesce_end hlow hhigh haction).trans (if_pos hidle)
  case badAction => exact rejects_of (fun _ _ => rfl) fun c u hgood => doPwrQuiesce_badAction (of_decide_eq_true hgood)
  case badLimit =>
    refine rejects_of (fun _ _ => rfl) fun c u hgood => ?_
    obtain ⟨haction, hlimit⟩ := of_decide_eq_true hgood
    exact doPwrQuiesce_badLimit haction hlimit
  case limit =>
    refine setsJournalled_of_recorded (fun _ _ => rfl) rfl (fun c u o hgood => ?_) fun c u hgood => ?_
    all_goals obtain ⟨haction, hlow, hhigh⟩ := of_decide_eq_true hgood
    · simp [specPwrQuiesce, quiesceRecords, haction]
    · exact doPwrQuiesce_limit hlow hhigh haction
  case device =>
    exact sets_of (fun _ _ => rfl) (fun _ _ => rfl) (by decide) fun c u hgood => doPwrReset_device (of_decide_eq_true hgood)
  case pcie =>
    exact sets_of (fun _ _ => rfl) (fun _ _ => rfl) (by decide) fun c u hgood => doPwrReset_pcie (of_decide_eq_true hgood)
  case standby =>
    refine sets_of (fun _ _ => rfl) (fun _ _ => rfl) (by decide) fun c u hgood => ?_
    simp only [Bool.and_eq_true, decide_eq_true_eq] at hgood
    obtain ⟨hscope, hon⟩ := hgood
    exact (doPwrReset_core hscope).trans (if_neg hon)
  case standbyOff =>
    refine executes_fail (fun _ _ => rfl) (by decide) fun c u hgood => ?_
    simp only [Bool.and_eq_true, decide_eq_true_eq] at hgood
    obtain ⟨hscope, hoff⟩ := hgood
    exact (doPwrReset_core hscope).trans (if_pos hoff)
  case badScope => exact rejects_of (fun _ _ => rfl) fun c u hgood => doPwrReset_bad (of_decide_eq_true hgood)

end Sys2Proof.Machine
end

section
/-! What the power domains' events and the rest of a quiesce do (R515, R516, R533, R534, R536). The claim of O59 is put together from
them. -/

namespace Sys2Proof.Machine

/-! ## Pieces that the fence completes (R516)

A store counts no error response; each piece is then answered with one. -/

theorem errCount_touchResiduals (s : State) (off len : Nat) : (s.touchResiduals off len).mem.errCount = s.mem.errCount := by
  unfold State.touchResiduals
  dsimp only
  split <;> rfl

theorem errCount_hbmStoreGo (bs : List Byte) (s : State) (o : Nat) :
    (State.hbmStore.go s o bs).mem.errCount = s.mem.errCount := by
  induction bs generalizing s o with
  | nil => rfl
  | cons b t ih =>
    unfold State.hbmStore.go
    split
    · dsimp only
      split
      · exact ih _ _
      · exact ih _ _
    · refine (ih _ _).trans ?_
      split
      · next c x _ =>
        cases harea : s.areaStore c x b with
        | none => rfl
        | some u => exact congrArg MemState.errCount (areaWriterLeaves_areaStore.leaves s c x b u harea).1
      · rfl

theorem errCount_scramble (s : State) (off len : Nat) : (s.scramble off len).mem.errCount = s.mem.errCount :=
  (errCount_hbmStoreGo _ _ _).trans (errCount_touchResiduals s.draw _ _)

/-- A fold whose every step counts no error response. -/
theorem errCount_foldl {β : Type} {f : State → β → State} (hstep : ∀ u b, (f u b).mem.errCount = u.mem.errCount) (l : List β)
    (s : State) : (l.foldl f s).mem.errCount = s.mem.errCount :=
  List.foldlRecOn l f (motive := fun u => u.mem.errCount = s.mem.errCount) rfl fun u hu b _ => (hstep u b).trans hu

theorem mem_countMissed (s : State) (h : Fin 2) (wire mail : Bool) : (s.countMissed h wire mail).mem = s.mem := by
  unfold State.countMissed State.setCore
  split <;> rfl

theorem errCount_sramStore (s : State) (off : Nat) (bs : List Byte) : (s.sramStore off bs).mem.errCount = s.mem.errCount := by
  have hmail (t : State) : (State.sawMail s t).mem.errCount = t.mem.errCount := by
    refine errCount_foldl (fun u h => ?_) _ t
    split
    · rfl
    · exact congrArg MemState.errCount (mem_countMissed u h _ _)
  unfold State.sramStore
  split
  · exact hmail _
  · rfl

theorem setBank_mem (s : State) (b : Nat) (v : Bank) : (s.setBank b v).mem = s.mem := rfl

theorem mem_setStagingByte (s : State) (off : Nat) (v : Byte) : (s.setStagingByte off v).mem = s.mem := by
  unfold State.setStagingByte
  split
  · exact setBank_mem _ _ _
  · exact setBank_mem _ _ _

theorem errCount_fencePiece (s : State) (x : FencePiece) : (s.fencePiece x).mem.errCount = s.mem.errCount + 1 := by
  have hanswered {t : State} (hsame : t.mem.errCount = s.mem.errCount) : t.errResp.mem.errCount = s.mem.errCount + 1 :=
    congrArg Nat.succ hsame
  have hmaybe {c : Prop} [Decidable c] {t u : State} (ht : t.mem.errCount = s.mem.errCount)
      (hu : u.mem.errCount = s.mem.errCount) : (if c then t else u).errResp.mem.errCount = s.mem.errCount + 1 := by
    split
    · exact hanswered ht
    · exact hanswered hu
  have hbytes (g : State → Nat → State) (hg : ∀ u i, (g u i).mem = u.mem) (l : List Nat) :
      (l.foldl g s.draw).mem.errCount = s.mem.errCount :=
    errCount_foldl (fun u i => congrArg MemState.errCount (hg u i)) l s.draw
  unfold State.fencePiece
  dsimp only
  split
  · rfl
  · split
    · exact hmaybe (errCount_scramble s _ _) rfl
    · exact hmaybe rfl (errCount_sramStore s.draw _ _)
    · exact hmaybe rfl (errCount_sramStore s.draw _ _)
    · exact hmaybe (hbytes _ (fun u i => mem_setStagingByte u _ _) _) rfl
    · rfl

/-! ## Domains (R515, R516) -/

section Events
variable {s : State}

theorem domain_setDomain (s : State) (d : Fin 96) (v : Domain) : (s.setDomain d.val v).domain d.val = v := by
  simp [State.setDomain, State.domain]

theorem domainUp_domain (d : Fin 96) (hup : (s.domain d.val).state = .poweringUp) :
    (s.domainUp d.val).domain d.val = { s.domain d.val with state := .on, since := s.ns } := by
  have hdomain := domain_setDomain s d { s.domain d.val with state := .on, since := s.ns }
  unfold State.domainUp
  dsimp only
  rw [if_neg (not_not_intro hup)]
  repeat' split
  all_goals exact hdomain

theorem evDomainPowerUpDone_up (d : Fin 96) (hup : (s.domain d.val).state = .poweringUp) :
    evDomainPowerUpDone d s = (s.domainUp d.val).settleHold.resume := if_neg (not_not_intro hup)

theorem evDomainPowerUpDone_other (d : Fin 96) (hother : (s.domain d.val).state ≠ .poweringUp) : evDomainPowerUpDone d s = s :=
  if_pos hother

theorem evDomainFence_acts (d : Fin 96) (l : List FencePiece) (hdraining : (s.domain d.val).state = .draining)
    (hdue : (s.domain d.val).since + 100000 ≤ s.ns) : evDomainFence d l s =
      (l.foldl State.fencePiece (s.setDomain d.val { s.domain d.val with
        state := .off, fences := (s.domain d.val).fences + l.length, since := s.ns })).loseDomain d.val :=
  if_neg (by simp [hdraining, hdue])

theorem evDomainFence_waits (d : Fin 96) (l : List FencePiece)
    (hwaits : (s.domain d.val).state ≠ .draining ∨ s.ns < (s.domain d.val).since + 100000) : evDomainFence d l s = s :=
  if_pos (by simpa using hwaits)

/-! ## The quiesce and its pins (R533, R534, R536) -/

theorem evQuiescePinLow_service (hphase : s.pwr.phase = 4) : (evQuiescePinLow s).pwr =
    { s.pwr with phase := 6, quiesce := { s.pwr.quiesce with
        pinLow := true, byPin := true, active := true, step := 2, startedAt := s.ns, limitMs := s.pwr.quiesce.pinMs,
        deferred := false } } := by
  have hstarts : evQuiescePinLow s = (s.mapQuiesce fun q => { q with
      pinLow := true, byPin := decide (s.pwr.phase ≠ 5) }).startQuiesce s.pwr.quiesce.pinMs := requestQuiesce_service _ hphase
  rw [hstarts, startQuiesce_pwr]
  simp [State.mapQuiesce, State.mapPwr, hphase]

theorem evQuiescePinLow_boot (hphase : s.pwr.phase < 4) :
    (evQuiescePinLow s).pwr.phase = s.pwr.phase ∧ (evQuiescePinLow s).pwr.quiesce.deferred = true := by
  have hwaits : evQuiescePinLow s = (s.mapQuiesce fun q => { q with
      pinLow := true, byPin := decide (s.pwr.phase ≠ 5) }).mapQuiesce fun q => { q with deferred := true } :=
    requestQuiesce_boot _ hphase
  rw [hwaits]
  exact ⟨rfl, rfl⟩

theorem evQuiescePinHigh_running (hlow : 4 ≤ s.pwr.phase) (hphase : s.pwr.phase ≠ 7) : evQuiescePinHigh s =
    { s with pwr := { s.pwr with quiesce := { s.pwr.quiesce with pinLow := false } } } := by
  simp [evQuiescePinHigh, State.mapQuiesce, State.mapPwr, hphase, Nat.not_lt.mpr hlow]

theorem evQuiescePinHigh_boot (hphase : s.pwr.phase < 4) : evQuiescePinHigh s =
    { s with pwr := { s.pwr with quiesce := { s.pwr.quiesce with pinLow := false, deferred := false, byPin := false } } } := by
  simp [evQuiescePinHigh, State.mapQuiesce, State.mapPwr, hphase, Nat.ne_of_lt (Nat.lt_trans hphase (by decide : 4 < 7))]

theorem evQuiescePinHigh_ends (hphase : s.pwr.phase = 7) (hack : s.pwr.quiesce.ack = .low)
    (halone : s.pwr.quiesce.byCommand = false) : (evQuiescePinHigh s).pwr.phase = 4 ∧
      (evQuiescePinHigh s).pwr.quiesce.active = false ∧ (evQuiescePinHigh s).pwr.quiesce.ack = .released := by
  have hends : evQuiescePinHigh s = (s.mapQuiesce fun q => { q with
      pinLow := false, deferred := q.deferred && !decide (s.pwr.phase < 4),
      byPin := q.byPin && !decide (s.pwr.phase < 4) }).leaveQuiesce :=
    if_pos (by simp [State.mapQuiesce, State.mapPwr, QuiesceState.over, hphase, hack, halone])
  rw [hends]
  exact ⟨rfl, rfl, rfl⟩

/-- The journal has nothing left to commit, and the pin still asks. -/
theorem evQuiesceDone_enters (hphase : s.pwr.phase = 6) (hstep : s.pwr.quiesce.step = 4) (hquiet : s.journalQuiet = true)
    (hreset : s.pwr.quiesce.thenReset = false) (hpin : s.pwr.quiesce.byPin = true) (hlow : s.pwr.quiesce.pinLow = true) :
    (evQuiesceDone s).pwr.phase = 7 ∧ (evQuiesceDone s).pwr.quiesce.ack = .low ∧ (evQuiesceDone s).jrnl.step = 0 := by
  have henters : evQuiesceDone s = s.enterQuiesced := by
    simp [evQuiesceDone, hphase, hstep, hquiet]
  have hstays : s.enterQuiesced = (((s.mapPwr fun p => { p with phase := 7 }).mapQuiesce fun q =>
      { q with step := 5, ack := .low }).mapJrnl fun j => { j with step := 0 }).emit (.pin "QUIESCE_ACK_N" 0 false s.now) :=
    (if_neg (by simp [State.mapJrnl, State.mapQuiesce, State.mapPwr, hreset])).trans
      (if_pos (by simp [State.mapJrnl, State.mapQuiesce, State.mapPwr, QuiesceState.over, hpin, hlow]))
  rw [henters, hstays]
  exact ⟨rfl, rfl, rfl⟩

theorem evQuiesceTimeout_cuts (hphase : s.pwr.phase = 6) (hstep : s.pwr.quiesce.step < 4)
    (hdue : s.pwr.quiesce.startedAt + s.pwr.quiesce.limitMs * 1000000 ≤ s.ns) :
    (evQuiesceTimeout s).pwr.quiesce.step = 4 ∧ (evQuiesceTimeout s).pwr.quiesce.timeout = true ∧
      (evQuiesceTimeout s).dump.jobs = [] ∧ (evQuiesceTimeout s).cap.segs = [] := by
  have hcuts : evQuiesceTimeout s = s.abandonDrain.mapQuiesce fun q => { q with step := 4, timeout := true } := by
    simp [evQuiesceTimeout, hphase, hstep, Nat.ne_of_lt hstep, Nat.not_lt.mpr hdue]
  rw [hcuts]
  exact ⟨rfl, rfl, rfl, rfl⟩

theorem evQuiesceAckPulseEnd_over {x : Nat} (hack : s.pwr.quiesce.ack = .pulse x) (hdue : x + 10000 ≤ s.ns)
    (hover : s.pwr.quiesce.over = true) : evQuiesceAckPulseEnd s = s.leaveQuiesce := by
  simp only [evQuiesceAckPulseEnd, hack, if_neg (Nat.not_lt.mpr hdue), if_pos hover]

theorem evQuiesceAckPulseEnd_low (hack : s.pwr.quiesce.ack = .low) : evQuiesceAckPulseEnd s = s := by
  simp only [evQuiesceAckPulseEnd, hack]

theorem happensTo_of_event {i : Instr} {ev : State → State} {p : State → Prop} (hexec : exec i s = guarded i s (ev s))
    (hwf : i.wf = true) (hev : p (ev s)) : HappensTo i s p := ⟨ev s, happens_of_guarded hexec hwf, hev⟩

end Events

/-! ## The claim -/

/-- Settles O59: each event does as claimed. -/
theorem domainsAndQuiesceAct : Obligations.DomainsAndQuiesceAct := by
  unfold Obligations.DomainsAndQuiesceAct
  refine ⟨?up, ?on, ?notUp, ?fences, ?notFenced, ?pieces, ?pinStarts, ?pinBoots, ?pinRises, ?pinForgets, ?pinEnds, ?quiesced,
    ?notQuiescing, ?timeout, ?pulseEnds, ?noPulse⟩
  case up => exact fun s d hup => evDomainPowerUpDone_up d hup ▸ happens_of_guarded rfl rfl
  case on =>
    intro s d hup
    rw [domainUp_domain d hup]
    exact ⟨rfl, rfl⟩
  case notUp =>
    intro s d hother
    have hev := evDomainPowerUpDone_other d hother
    exact (happens_of_guarded rfl rfl : Happens (.domainPowerUpDone d) s (evDomainPowerUpDone d s)).trans (by rw [hev])
  case fences => exact fun s d l hwf hdraining hdue => evDomainFence_acts d l hdraining hdue ▸ happens_of_guarded rfl hwf
  case notFenced =>
    intro s d l hwf hwaits
    have hev := evDomainFence_waits d l hwaits
    exact (happens_of_guarded rfl hwf : Happens (.domainFence d l) s (evDomainFence d l s)).trans (by rw [hev])
  case pieces => exact errCount_fencePiece
  case pinStarts =>
    intro s hphase
    refine happensTo_of_event (ev := evQuiescePinLow) rfl rfl ?_
    rw [evQuiescePinLow_service hphase]
    exact ⟨rfl, rfl, rfl, rfl, rfl⟩
  case pinBoots => exact fun s hphase => happensTo_of_event (ev := evQuiescePinLow) rfl rfl (evQuiescePinLow_boot hphase)
  case pinRises => exact fun s hlow hphase => evQuiescePinHigh_running hlow hphase ▸ happens_of_guarded rfl rfl
  case pinForgets => exact fun s hphase => evQuiescePinHigh_boot hphase ▸ happens_of_guarded rfl rfl
  case pinEnds =>
    exact fun s hphase hack halone =>
      happensTo_of_event (ev := evQuiescePinHigh) rfl rfl (evQuiescePinHigh_ends hphase hack halone)
  case quiesced =>
    exact fun s hphase hstep hquiet hreset hpin hlow =>
      happensTo_of_event (ev := evQuiesceDone) rfl rfl (evQuiesceDone_enters hphase hstep hquiet hreset hpin hlow)
  case notQuiescing =>
    intro s hphase
    have hdone : evQuiesceDone s = s := if_pos hphase
    have htimeout : evQuiesceTimeout s = s := if_pos (by simp [hphase])
    exact ⟨(happens_of_guarded rfl rfl : Happens .quiesceDone s (evQuiesceDone s)).trans (by rw [hdone]),
      (happens_of_guarded rfl rfl : Happens .quiesceTimeout s (evQuiesceTimeout s)).trans (by rw [htimeout])⟩
  case timeout =>
    exact fun s hphase hstep hdue =>
      happensTo_of_event (ev := evQuiesceTimeout) rfl rfl (evQuiesceTimeout_cuts hphase hstep hdue)
  case pulseEnds => exact fun s x hack hdue hover => evQuiesceAckPulseEnd_over hack hdue hover ▸ happens_of_guarded rfl rfl
  case noPulse =>
    intro s hack
    have hev := evQuiesceAckPulseEnd_low hack
    exact (happens_of_guarded rfl rfl : Happens .quiesceAckPulseEnd s (evQuiesceAckPulseEnd s)).trans (by rw [hev])

end Sys2Proof.Machine
end

section
/-! How packets come in and replies go out on the endpoints (R385, R387 to R389, R416, R456). The claim of O41 is put together from
it. -/

namespace Sys2Proof.Machine

/-! ## MGMT-A and MGMT-B (R387, R416) -/

section Mgmt
variable {s : State} {port : Fin 2} {f : Frame}

/-- The port takes frames: it is on, linked and powered. -/
def State.mgmtTakes (s : State) (port : Fin 2) : Prop :=
  (s.mgmt port.val).mode ≠ 0 ∧ (s.mgmt port.val).link = true ∧ s.domainOn 86 = true

theorem mgmtTakes_cond (htakes : s.mgmtTakes port) :
    ¬ (decide ((s.mgmt port.val).mode = 0) || !(s.mgmt port.val).link || !s.domainOn 86) = true := by
  obtain ⟨hmode, hlink, hpower⟩ := htakes
  simp [hmode, hlink, hpower]

theorem evMgmtDatagramReceive_other (htakes : s.mgmtTakes port) (hother : f.dst ≠ (s.mgmtAddresses port.val).mac)
    (hgroup : f.dst / 2 ^ 40 % 2 = 0) : evMgmtDatagramReceive port f s = s.rxDiscard port.val := by
  have hnot : (!vlanOk (s.mgmtAddresses port.val).vlan f ||
      !(decide (f.dst = (s.mgmtAddresses port.val).mac) || decide (f.dst / 2 ^ 40 % 2 = 1))) = true := by
    rw [decide_eq_false hother, decide_eq_false (by omega)]
    exact Bool.or_true _
  exact (if_neg (mgmtTakes_cond htakes)).trans (if_pos hnot)

/-- An ARP request is no message of PTP. -/
theorem ptpTo_arp (c : PtpPortCfg) (a : Addresses) (harp : f.etherType = 0x0806) : ptpTo c a f = false := by
  simp [ptpTo, parseIp, harp]

section Addressed
variable (htakes : s.mgmtTakes port) (hvlan : vlanOk (s.mgmtAddresses port.val).vlan f = true)
include htakes hvlan

/-- A broadcast reaches the port as its own address does. -/
theorem evMgmtDatagramReceive_arp {r : Frame} (hall : f.dst = 0xFFFFFFFFFFFF) (harp : f.etherType = 0x0806)
    (hreply : arpReply (s.mgmtAddresses port.val) f = some r) :
    evMgmtDatagramReceive port f s = (s.rxFrame port.val).sendMgmt port.val r := by
  have hreaches : ¬ (!vlanOk (s.mgmtAddresses port.val).vlan f ||
      !(decide (f.dst = (s.mgmtAddresses port.val).mac) || decide (f.dst / 2 ^ 40 % 2 = 1))) = true := by simp [hvlan, hall]
  unfold evMgmtDatagramReceive
  dsimp only
  rw [if_neg (mgmtTakes_cond htakes), if_neg hreaches, ptpTo_arp _ _ harp, hreply]
  dsimp only
  rw [if_neg Bool.false_ne_true]
  exact if_pos (by simp [hall])

variable {ip : Ip} (hmac : f.dst = (s.mgmtAddresses port.val).mac)
  (hptp : ptpTo (kvGet {} s.qz.ptp.ports (128 + port.val)) (s.mgmtAddresses port.val) f = false)
  (harp : arpReply (s.mgmtAddresses port.val) f = none) (hip : parseIp f.etherType f.payload = some ip)
  (hmine : (if ip.v6 then (s.mgmtAddresses port.val).ipv6.contains ip.dst
      else (s.mgmtAddresses port.val).ipv4 ≠ 0 && beNat ip.dst = (s.mgmtAddresses port.val).ipv4) = true)
include hmac hptp harp hip hmine

theorem evMgmtDatagramReceive_fragment (hfragment : ip.fragment = true) :
    evMgmtDatagramReceive port f s = (s.rxDiscard port.val).malformed (mgmtEp port.val) := by
  have hreaches : ¬ (!vlanOk (s.mgmtAddresses port.val).vlan f ||
      !(decide (f.dst = (s.mgmtAddresses port.val).mac) || decide (f.dst / 2 ^ 40 % 2 = 1))) = true := by simp [hvlan, hmac]
  unfold evMgmtDatagramReceive
  dsimp only
  rw [if_neg (mgmtTakes_cond htakes), if_neg hreaches, hptp, harp, hip]
  exact (if_pos hfragment).trans (if_pos (Bool.and_eq_true_iff.mpr ⟨decide_eq_true hmac, hmine⟩))

theorem evMgmtDatagramReceive_udp (hwhole : ip.fragment = false) (hneighbour : neighbourReply (s.mgmtAddresses port.val) f ip = none)
    (hecho : echoReply (s.mgmtAddresses port.val) f ip = none) (hproto : ip.proto = 17) :
    evMgmtDatagramReceive port f s = s.mgmtUdp port.val f ip := by
  have hreaches : ¬ (!vlanOk (s.mgmtAddresses port.val).vlan f ||
      !(decide (f.dst = (s.mgmtAddresses port.val).mac) || decide (f.dst / 2 ^ 40 % 2 = 1))) = true := by simp [hvlan, hmac]
  have hours : ¬ (!decide (f.dst = (s.mgmtAddresses port.val).mac) || !(if ip.v6 then (s.mgmtAddresses port.val).ipv6.contains ip.dst
      else (s.mgmtAddresses port.val).ipv4 ≠ 0 && beNat ip.dst = (s.mgmtAddresses port.val).ipv4)) = true := by
    rw [hmine]
    simp [hmac]
  unfold evMgmtDatagramReceive
  dsimp only
  rw [if_neg (mgmtTakes_cond htakes), if_neg hreaches, hptp, harp, hip]
  dsimp only
  rw [if_neg Bool.false_ne_true, hwhole, if_neg Bool.false_ne_true, hneighbour]
  dsimp only
  rw [if_neg hours, hecho]
  exact if_pos hproto

end Addressed

theorem mgmtUdp_command {ip : Ip} {u : Udp} (hudp : parseUdp ip = some u) (hport : u.dst = 47100) (hsum : u.sumOk = true) :
    s.mgmtUdp port.val f ip = (s.rxFrame port.val).receivePacket (udpClient port.val ip u) f.src
      (readPacket (udpClient port.val ip u) f.src true u.body) := by
  simp [State.mgmtUdp, hudp, hport, hsum]

end Mgmt

/-! ## SMBus (R388) -/

section Smbus
variable {s : State} {b : Byte} {part : List Byte}

/-- The fragments of a command so far, this one's bytes among them. -/
def State.smbusJoined (s : State) (first : Prop) [Decidable first] (part : List Byte) : List Byte :=
  if first then part else s.own.smbusIn ++ part

/-- The packet is all there. -/
def State.smbusTaken (s : State) (bs : List Byte) : State :=
  (s.mapOwn fun o => { o with smbusIn := [], smbusNext := 0, smbusOut := none, smbusRead := 0 }).receivePacket
    smbusClient 0 (readPacket smbusClient 0 true bs)

/-- A fragment in its place, with a right code. -/
theorem evSmbusBlockWrite_inPlace (hplace : b.toNat % 128 = 0 ∨ b.toNat % 128 = s.own.smbusNext) :
    evSmbusBlockWrite ⟨s.smbusAddress, 0xC0⟩ (b :: part) (some (smbusPec (smbusWriteBytes s.smbusAddress 0xC0 (b :: part)))) s =
      if 128 ≤ b.toNat then s.smbusTaken (s.smbusJoined (b.toNat % 128 = 0) part)
      else s.mapOwn fun o =>
        { o with smbusIn := s.smbusJoined (b.toNat % 128 = 0) part, smbusNext := b.toNat % 128 + 1 } := by
  have hnext : ¬ (decide (b.toNat % 128 ≠ 0) && decide (b.toNat % 128 ≠ s.own.smbusNext)) = true := by
    simpa [Decidable.or_iff_not_imp_left] using hplace
  exact (if_neg (not_not_intro rfl)).trans ((if_neg (not_not_intro rfl)).trans ((if_neg (not_not_intro rfl)).trans (if_neg hnext)))

theorem evSmbusBlockWrite_joins (hmore : b.toNat < 128) (hplace : b.toNat = 0 ∨ b.toNat = s.own.smbusNext) :
    evSmbusBlockWrite ⟨s.smbusAddress, 0xC0⟩ (b :: part) (some (smbusPec (smbusWriteBytes s.smbusAddress 0xC0 (b :: part)))) s =
      { s with own := { s.own with
        smbusIn := if b.toNat = 0 then part else s.own.smbusIn ++ part, smbusNext := b.toNat + 1 } } := by
  have hindex : b.toNat % 128 = b.toNat := Nat.mod_eq_of_lt hmore
  rw [evSmbusBlockWrite_inPlace (by rwa [hindex]), if_neg (Nat.not_le.mpr hmore)]
  simp only [hindex]
  rfl

theorem evSmbusBlockWrite_completes (hlast : 128 ≤ b.toNat) (hplace : b.toNat = 128 ∨ b.toNat = 128 + s.own.smbusNext) :
    evSmbusBlockWrite ⟨s.smbusAddress, 0xC0⟩ (b :: part) (some (smbusPec (smbusWriteBytes s.smbusAddress 0xC0 (b :: part)))) s =
      s.smbusTaken (if b.toNat = 128 then part else s.own.smbusIn ++ part) := by
  have hbyte : b.toNat < 256 := b.isLt
  have hfirst : b.toNat % 128 = 0 ↔ b.toNat = 128 := by omega
  rw [evSmbusBlockWrite_inPlace (by omega), if_pos hlast]
  simp only [State.smbusJoined, hfirst]

theorem evSmbusBlockWrite_elsewhere {a : Nat} {code : Byte} {data : List Byte} {pec : Option Byte} (hother : a ≠ s.smbusAddress) :
    evSmbusBlockWrite ⟨a, code⟩ data pec s = s := if_pos hother

theorem evSmbusBlockWrite_wrongCode {code : Byte} {data : List Byte} {pec : Option Byte}
    (hwrong : pec ≠ some (smbusPec (smbusWriteBytes s.smbusAddress code data))) :
    evSmbusBlockWrite ⟨s.smbusAddress, code⟩ data pec s = s.malformed 3 :=
  (if_neg (not_not_intro rfl)).trans (if_pos hwrong)

theorem evSmbusBlockRead_elsewhere {a : Nat} {code : Byte} (hother : a ≠ s.smbusAddress) : evSmbusBlockRead ⟨a, code⟩ s = s :=
  if_pos (by simp [hother])

theorem evSmbusBlockRead_none (hnone : s.own.smbusOut = none) :
    evSmbusBlockRead ⟨s.smbusAddress, 0xC1⟩ s = s.smbusAnswer 0xC1 [0xFF] := by
  simp [evSmbusBlockRead, hnone]

theorem evSmbusBlockRead_last {p : List Byte} (hreply : s.own.smbusOut = some p)
    (hlast : p.length ≤ 254 * (s.own.smbusRead + 1)) : evSmbusBlockRead ⟨s.smbusAddress, 0xC1⟩ s =
      State.smbusAnswer { s with own := { s.own with smbusOut := none, smbusRead := 0 } } 0xC1
        (BitVec.ofNat 8 (s.own.smbusRead % 128 + 128) :: slice p (254 * s.own.smbusRead) 254) := by
  simp [evSmbusBlockRead, hreply, hlast, State.mapOwn, b2n]

theorem evSmbusBlockRead_more {p : List Byte} (hreply : s.own.smbusOut = some p)
    (hmore : 254 * (s.own.smbusRead + 1) < p.length) : evSmbusBlockRead ⟨s.smbusAddress, 0xC1⟩ s =
      State.smbusAnswer { s with own := { s.own with smbusRead := s.own.smbusRead + 1 } } 0xC1
        (BitVec.ofNat 8 (s.own.smbusRead % 128) :: slice p (254 * s.own.smbusRead) 254) := by
  simp [evSmbusBlockRead, hreply, Nat.not_le.mpr hmore, State.mapOwn, b2n]

end Smbus

/-! ## Command queues (R389, R456) -/

section Queues
variable {s : State} {q : Nat}

theorem evCommandQueueRead_command {bs : List Byte} {code : Nat} {c : Cmd} (hdue : s.elementDue q = true)
    (hread : (s.readElement (s.queue q) (s.queue q).cons (some bs)).2 = some bs)
    (hpacket : readPacket (queueClient q) (s.queue q).cons false bs = .cmd code c) :
    ∃ u : State, u = (s.readElement (s.queue q) (s.queue q).cons (some bs)).1 ∧
      evCommandQueueRead q (some bs) s =
        ((u.setQueue q { u.queue q with cons := ((s.queue q).cons + 1) % 2 ^ 32, accessErr := (u.queue q).accessErr }).writeBack q
          (((s.queue q).cons + 1) % 2 ^ 32)).receivePacket (queueClient q) (s.queue q).cons (.cmd code c) := by
  refine ⟨_, rfl, ?_⟩
  cases helement : s.readElement (s.queue q) (s.queue q).cons (some bs) with
  | mk u element =>
    rw [helement] at hread
    simp only [evCommandQueueRead, hdue, helement, show element = some bs from hread, hpacket, Option.isNone_some, Bool.or_false,
      Bool.not_true, if_neg Bool.false_ne_true]

theorem evCommandQueueRead_waits {e : Option (List Byte)} (hwaits : s.elementDue q = false) : evCommandQueueRead q e s = s :=
  if_pos (by rw [hwaits]; rfl)

end Queues

/-! ## The claim -/

section Events
variable {s u : State}

theorem happens_mgmtDatagramReceive {port : Fin 2} {f : Frame} (hwf : f.wf = true) (hev : evMgmtDatagramReceive port f s = u) :
    Happens (.mgmtDatagramReceive port f) s u := hev ▸ happens_of_guarded rfl hwf

theorem happens_smbusBlockWrite {a : Nat} {code : Byte} {data : List Byte} {pec : Option Byte} (ha : a < 128)
    (hdata : data.length ≤ 255) (hev : evSmbusBlockWrite ⟨a, code⟩ data pec s = u) :
    Happens (.smbusBlockWrite ⟨a, code⟩ data pec) s u :=
  hev ▸ happens_of_guarded rfl (Bool.and_eq_true_iff.mpr ⟨decide_eq_true ha, decide_eq_true hdata⟩)

theorem happens_smbusBlockRead {a : Nat} {code : Byte} (ha : a < 128) (hev : evSmbusBlockRead ⟨a, code⟩ s = u) :
    Happens (.smbusBlockRead ⟨a, code⟩) s u := hev ▸ happens_of_guarded rfl (decide_eq_true ha)

theorem happens_commandQueueRead {q : Nat} {e : Option (List Byte)} (hq : q < 4096) (he : ∀ b ∈ e, b.length ≤ 16384)
    (hev : evCommandQueueRead q e s = u) : Happens (.commandQueueRead q e) s u := by
  refine hev ▸ happens_of_guarded rfl (Bool.and_eq_true_iff.mpr ⟨decide_eq_true hq, ?_⟩)
  cases e with
  | none => rfl
  | some b => exact decide_eq_true (he b rfl)

end Events

/-- Settles O41: each event does as claimed. How a fragment out of its place, an unread reply and a reply read to its end are
treated, and the SMBus code, are the model's reading (log entries 37, 41, 42 and 107). -/
theorem transportsCarryPackets : Obligations.TransportsCarryPackets := by
  unfold Obligations.TransportsCarryPackets
  refine ⟨?other, ?arp, ?command, ?joins, ?completes, ?elsewhere, ?wrongCode, ?noReply, ?lastFragment, ?fragment, ?queue, ?queueWaits,
    ?ipFragment⟩
  case other =>
    intro s port f hwf hmode hlink hpower hother hgroup
    exact happens_mgmtDatagramReceive hwf (evMgmtDatagramReceive_other ⟨hmode, hlink, hpower⟩ hother hgroup)
  case arp =>
    intro s port f r hwf hmode hlink hpower hvlan hall harp hreply
    exact happens_mgmtDatagramReceive hwf (evMgmtDatagramReceive_arp ⟨hmode, hlink, hpower⟩ hvlan hall harp hreply)
  case command =>
    intro s port f ip u hwf hmode hlink hpower hvlan hmac hptp harp hip hneighbour hmine hecho hproto hwhole hudp hport hsum
    refine happens_mgmtDatagramReceive hwf ?_
    exact (evMgmtDatagramReceive_udp ⟨hmode, hlink, hpower⟩ hvlan hmac hptp harp hip hmine hwhole hneighbour hecho hproto).trans
      (mgmtUdp_command hudp hport hsum)
  case joins =>
    intro s b part haddress hpart hmore hplace
    exact happens_smbusBlockWrite haddress (Nat.succ_le_succ hpart) (evSmbusBlockWrite_joins hmore hplace)
  case completes =>
    intro s b part haddress hpart hlast hplace
    exact happens_smbusBlockWrite haddress (Nat.succ_le_succ hpart) (evSmbusBlockWrite_completes hlast hplace)
  case elsewhere =>
    intro s a code data pec ha hdata hother
    exact ⟨happens_smbusBlockWrite ha hdata (evSmbusBlockWrite_elsewhere hother),
      happens_smbusBlockRead ha (evSmbusBlockRead_elsewhere hother)⟩
  case wrongCode =>
    intro s code data pec haddress hdata hwrong
    exact happens_smbusBlockWrite haddress hdata (evSmbusBlockWrite_wrongCode hwrong)
  case noReply => exact fun s haddress hnone => happens_smbusBlockRead haddress (evSmbusBlockRead_none hnone)
  case lastFragment =>
    exact fun s p haddress hreply hlast => happens_smbusBlockRead haddress (evSmbusBlockRead_last hreply hlast)
  case fragment =>
    exact fun s p haddress hreply hmore => happens_smbusBlockRead haddress (evSmbusBlockRead_more hreply hmore)
  case queue =>
    intro s q bs code c hq hlen hdue hread hpacket
    obtain ⟨u, hu, hev⟩ := evCommandQueueRead_command hdue hread hpacket
    refine ⟨u, hu, happens_commandQueueRead hq (fun b hb => ?_) hev⟩
    cases hb
    exact hlen
  case queueWaits => exact fun s q e hq he hwaits => happens_commandQueueRead hq he (evCommandQueueRead_waits hwaits)
  case ipFragment =>
    intro s port f ip hwf hmode hlink hpower hvlan hmac hptp harp hip hfragment hmine
    exact happens_mgmtDatagramReceive hwf
      (evMgmtDatagramReceive_fragment ⟨hmode, hlink, hpower⟩ hvlan hmac hptp harp hip hmine hfragment)

end Sys2Proof.Machine
end

section
/-! What the journal's commands and events do (R501, R503, R505, R506, R511, R512). The claim of O38 is put together from them. -/

namespace Sys2Proof.Machine

section Journal
variable {c : Cmd} {s : State}

/-! ## JRNL_GET_STATUS, JRNL_COMPACT, JRNL_READ (R511, R512) -/

theorem doJrnlGetStatus_begins (c : Cmd) (s : State) : ∃ rest, doJrnlGetStatus c s = .okWith
    (beBytes 1 s.jrnl.code ++ beBytes 1 s.jrnl.half ++ beBytes 1 s.jrnl.recovered ++
      beBytes 1 ((List.range 64).filter (bit s.jrnl.badMap)).length ++ beBytes 4 s.jrnl.generation ++
      beBytes 8 s.jrnl.baseSeq ++ beBytes 8 s.jrnl.lastSeq ++ beBytes 4 (s.jrnl.fill * 65536 / max s.jrnl.capacity 1) ++
      beBytes 4 s.jrnl.snapshotBytes ++ beCount 4 s.jrnl.compactions ++ beCount 4 s.jrnl.pauseMaxUs ++
      beCount 4 s.jrnl.commitMaxUs ++ beCount 4 s.jrnl.recordsLost ++ rest) s := ⟨[], by rw [List.append_nil]; rfl⟩

theorem doJrnlCompact_starts (hidle : s.jrnl.step = 0) (hsound : s.jrnl.degraded = false) :
    doJrnlCompact c s = .accepted { s with jrnl := { s.jrnl with step := 1 } } := if_neg (by simp [hidle, hsound])

theorem doJrnlCompact_busy (hbusy : (decide (s.jrnl.step ≠ 0) || s.jrnl.degraded) = true) : doJrnlCompact c s = .fail stBusy s :=
  if_pos hbusy

theorem doJrnlRead_begins (hhalf : fld c.params 0 1 ≤ 1) (hlow : 1 ≤ fld c.params 2 2) (hhigh : fld c.params 2 2 ≤ 1024)
    (hinside : fld c.params 4 4 + fld c.params 2 2 ≤ halfBytes) : ∃ rest, doJrnlRead c s = .okWith
      (memRead 0xFF s.flash (halfBase (if fld c.params 0 1 = 0 then s.jrnl.half else 1 - s.jrnl.half) + fld c.params 4 4)
        (fld c.params 2 2) ++ rest) s := by
  refine ⟨[], ?_⟩
  rw [doJrnlRead, firstBad_eq_none.mpr (by simp [hhalf, hlow, hhigh, hinside]), List.append_nil]

/-! ## Commits (R503) -/

theorem evJournalCommitDone_unasked {g : JGroup} {rest : List JGroup} {f : List Nat} (hmay : s.mayCommit = true)
    (hgroups : s.jrnl.groups = g :: rest) (hunasked : g.forCommand = false) :
    evJournalCommitDone f s = (s.commitOldest f).1.noteRecorded.resume := by
  simp [evJournalCommitDone, hmay, hgroups, hunasked]

theorem evJournalCommitDone_waits {f : List Nat} (hmay : s.mayCommit = false) : evJournalCommitDone f s = s := by
  simp [evJournalCommitDone, hmay]

/-! ## Compaction (R505, R506) -/

/-- The engine is powered, and the device is not QUIESCED. -/
def State.engineRuns (s : State) : Prop := s.domainOn 95 = true ∧ s.pwr.phase ≠ 7

section Steps
variable {f : List Nat} (hruns : s.engineRuns)
include hruns

theorem evCompactionStepDone_check (hstep : s.jrnl.step = 1) : evCompactionStepDone f s = (s.pieces 7).checkHalf f := by
  simp [evCompactionStepDone, hruns.1, hruns.2, hstep]

theorem evCompactionStepDone_erase (hstep : s.jrnl.step = 5) :
    evCompactionStepDone f s = ((s.pieces 7).eraseOld f).maybeCompact := by
  simp [evCompactionStepDone, hruns.1, hruns.2, hstep]

theorem evCompactionStepDone_idle (hstep : s.jrnl.step = 0) : evCompactionStepDone f s = s := by
  simp [evCompactionStepDone, hruns.1, hruns.2, hstep]

theorem evCompactionStepDone_header (hstep : s.jrnl.step = 2) (hgap : s.mc.inGap = false) :
    evCompactionStepDone f s = (s.pieces 7).writeHeader f := by
  simp [evCompactionStepDone, hruns.1, hruns.2, hstep, hgap]

theorem evCompactionStepDone_snapshot (hstep : s.jrnl.step = 3) (hgap : s.mc.inGap = false) :
    evCompactionStepDone f s = (s.pieces 7).writeSnapshot f := by
  simp [evCompactionStepDone, hruns.1, hruns.2, hstep, hgap]

theorem evCompactionStepDone_switch (hstep : s.jrnl.step = 4) (hgap : s.mc.inGap = false) :
    evCompactionStepDone f s = (s.pieces 7).switchHalves f := by
  simp [evCompactionStepDone, hruns.1, hruns.2, hstep, hgap]

end Steps

theorem evCompactionStepDone_gap {f : List Nat} (hlow : 2 ≤ s.jrnl.step) (hhigh : s.jrnl.step ≤ 4) (hgap : s.mc.inGap = true) :
    evCompactionStepDone f s = s := if_pos (by simp [hlow, hhigh, hgap])

theorem evCompactionStepDone_stopped {f : List Nat} (hstopped : s.domainOn 95 = false ∨ s.pwr.phase = 7) :
    evCompactionStepDone f s = s := if_pos (by rcases hstopped with hoff | hquiesced <;> simp [*])

theorem switchHalves_commits {f : List Nat} (hheader : f.contains 0 = false) : s.switchHalves f =
    (({ s with flash := memWrite 0xFF s.flash (halfBase (1 - s.jrnl.half) + 60) (zeros 4) }).mapJrnl fun j =>
      { j with half := 1 - s.jrnl.half, generation := (j.generation + 1) % 2 ^ 32, baseSeq := j.lastSeq + 1,
               lastSeq := j.next.2.2 }).mapJrnl fun j =>
      { j with tailBlock := j.next.1, tailOff := j.next.2.1, badMap := j.otherBad, otherBad := 0, step := 5, full := false,
               degraded := false, compactions := j.compactions + 1,
               pauseMaxUs := max j.pauseMaxUs ((s.ns - s.jrnl.pauseFrom) / 1000) } :=
  if_neg (by rw [hheader]; exact Bool.false_ne_true)

variable {u : State} {f : List Nat}

theorem happens_journalCommitDone (hev : evJournalCommitDone f s = u) : Happens (.journalCommitDone f) s u :=
  hev ▸ happens_of_guarded rfl rfl

theorem happens_compactionStepDone (hev : evCompactionStepDone f s = u) : Happens (.compactionStepDone f) s u :=
  hev ▸ happens_of_guarded rfl rfl

end Journal

/-! ## The claim -/

/-- Settles O38: each command's body and each event does as claimed. -/
theorem journalKeepsItsRecords : Obligations.JournalKeepsItsRecords := by
  unfold Obligations.JournalKeepsItsRecords
  refine ⟨?status, ?starts, ?busy, ?reads, ?commits, ?waits, ?steps, ?stopped, ?switches⟩
  case status => exact reads_of (fun _ _ => rfl) (fun _ _ => rfl) (by decide) fun c u _ => doJrnlGetStatus_begins c u
  case starts =>
    refine executes_body (fun _ _ => rfl) (fun _ _ => rfl) (by decide) fun c u hgood => ?_
    simp only [Bool.and_eq_true, decide_eq_true_eq, Bool.not_eq_true'] at hgood
    obtain ⟨hidle, hsound⟩ := hgood
    exact ⟨_, doJrnlCompact_starts (c := c) hidle hsound, rfl, rfl⟩
  case busy => exact executes_fail (fun _ _ => rfl) (by decide) fun c u hgood => doJrnlCompact_busy (c := c) hgood
  case reads =>
    refine reads_of (fun _ _ => rfl) (fun _ _ => rfl) (by decide) fun c u hgood => ?_
    obtain ⟨hhalf, hlow, hhigh, hinside⟩ := of_decide_eq_true hgood
    exact doJrnlRead_begins hhalf hlow hhigh hinside
  case commits =>
    exact fun s g rest f hmay hgroups hunasked => happens_journalCommitDone (evJournalCommitDone_unasked hmay hgroups hunasked)
  case waits => exact fun s f hmay => happens_journalCommitDone (evJournalCommitDone_waits hmay)
  case steps =>
    intro s f hpower hphase
    have hruns : s.engineRuns := ⟨hpower, hphase⟩
    exact ⟨fun hstep => happens_compactionStepDone (evCompactionStepDone_check hruns hstep),
      fun hstep hgap => happens_compactionStepDone (evCompactionStepDone_header hruns hstep hgap),
      fun hstep hgap => happens_compactionStepDone (evCompactionStepDone_snapshot hruns hstep hgap),
      fun hstep hgap => happens_compactionStepDone (evCompactionStepDone_switch hruns hstep hgap),
      fun hlow hhigh hgap => happens_compactionStepDone (evCompactionStepDone_gap hlow hhigh hgap),
      fun hstep => happens_compactionStepDone (evCompactionStepDone_erase hruns hstep),
      fun hstep => happens_compactionStepDone (evCompactionStepDone_idle hruns hstep)⟩
  case stopped => exact fun s f hstopped => happens_compactionStepDone (evCompactionStepDone_stopped hstopped)
  case switches =>
    intro s f hheader
    rw [switchHalves_commits hheader]
    exact ⟨rfl, rfl, rfl, rfl, rfl⟩

end Sys2Proof.Machine
end

section
/-! That nothing in the model takes HBM, working SRAM or flash out of canonical form (R425, R433, R436, R503, R527), function by
function in the order of the model's files: first memory and the command protocol. -/

namespace Sys2Proof.Machine

/-! ## What the proofs share -/

/-- A fold whose every step keeps the canonical form. -/
theorem wf_foldl {β : Type} {f : State → β → State} (hstep : ∀ u b, u.memoryWf = true → (f u b).memoryWf = true) (l : List β)
    {s : State} (hwf : s.memoryWf = true) : (l.foldl f s).memoryWf = true :=
  List.foldlRecOn l f (motive := fun u => u.memoryWf = true) hwf fun u hu b _ => hstep u b hu

/-- A fold that carries a result beside the state. -/
theorem wf_foldl_fst {α β : Type} {f : State × α → β → State × α}
    (hstep : ∀ x b, x.1.memoryWf = true → (f x b).1.memoryWf = true) (l : List β) {x : State × α}
    (hwf : x.1.memoryWf = true) : (l.foldl f x).1.memoryWf = true :=
  List.foldlRecOn l f (motive := fun y => y.1.memoryWf = true) hwf fun y hy b _ => hstep y b hy

theorem wf_ite {c : Prop} [Decidable c] {s t : State} (hs : s.memoryWf = true) (ht : t.memoryWf = true) :
    (if c then s else t).memoryWf = true := by
  split
  · exact hs
  · exact ht

theorem wf_fst_of_eq {α : Type} {x : State × α} {t : State} {b : α} (hx : x.1.memoryWf = true) (h : x = (t, b)) :
    t.memoryWf = true := by
  rw [h] at hx
  exact hx

theorem wf_ite_fst {α : Type} {c : Prop} [Decidable c] {p q : State × α} (hp : p.1.memoryWf = true) (hq : q.1.memoryWf = true) :
    (if c then p else q).1.memoryWf = true := by
  split
  · exact hp
  · exact hq


section Keep
variable {s : State} (hwf : s.memoryWf = true)
include hwf

theorem wf_hbmStore (off : Nat) (bs : List Byte) : (s.hbmStore off bs).memoryWf = true :=
  (stored_hbmStore s off bs).wf hwf

theorem wf_bumpHc (h : Nat) (f : HbmCtl → HbmCtl) : (s.bumpHc h f).memoryWf = true :=
  (stored_bumpHc s h f).wf hwf

theorem wf_countWrite (unit : Nat) : (s.countWrite unit).memoryWf = true :=
  (stored_countWrite s unit).wf hwf

theorem wf_unitWritten (o n : Nat) : (s.unitWritten o n).memoryWf = true :=
  (stored_unitWritten s o n).wf hwf

theorem wf_hbmWrite (off : Nat) (bs : List Byte) : (s.hbmWrite off bs).memoryWf = true :=
  (stored_hbmWrite s off bs).wf hwf

theorem wf_sramStore (off : Nat) (bs : List Byte) : (s.sramStore off bs).memoryWf = true :=
  (stored_sramStore s off bs).wf hwf

theorem wf_msix (v : Nat) : (s.msix v).memoryWf = true :=
  (stored_msix s v).wf hwf

theorem wf_logMemErr (kind stack pc req words : Nat) (write : Bool) (addr : Nat) : (s.logMemErr kind stack pc req words write
    addr).memoryWf = true :=
  (stored_logMemErr s kind stack pc req words write addr).wf hwf

theorem wf_addCandidate (off : Nat) : (s.addCandidate off).memoryWf = true :=
  (stored_addCandidate s off).wf hwf

theorem wf_meetParity (req unit : Nat) (write : Bool) : (s.meetParity req unit write).1.memoryWf = true :=
  (stored_meetParity s req unit write).wf hwf

theorem wf_readHbmUnit (req unit : Nat) (write : Bool) : (s.readHbmUnit req unit write).1.memoryWf = true :=
  (stored_readHbmUnit s req unit write).wf hwf

theorem wf_writeUnit (req o n : Nat) : (s.writeUnit req o n).1.memoryWf = true :=
  (stored_writeUnit s req o n).wf hwf

theorem wf_scramble (off len : Nat) : (s.scramble off len).memoryWf = true :=
  (stored_scramble s off len).wf hwf

theorem wf_storeUnit (req o : Nat) (bs : List Byte) : (s.storeUnit req o bs).1.memoryWf = true :=
  (stored_storeUnit s req o bs).wf hwf

theorem wf_storePiece (req off : Nat) (bs : List Byte) : (s.storePiece req off bs).1.memoryWf = true :=
  (stored_storePiece s req off bs).wf hwf

theorem wf_putBytes (addr : Nat) (bs : List Byte) : (s.putBytes addr bs).1.memoryWf = true :=
  (stored_putBytes s addr bs).wf hwf

theorem wf_writeBack (qn idx : Nat) : (s.writeBack qn idx).memoryWf = true :=
  (stored_writeBack s qn idx).wf hwf

theorem wf_pushOrDrop (qn kind : Nat) (bs : List Byte) : (s.pushOrDrop qn kind bs).1.memoryWf = true :=
  (stored_pushOrDrop s qn kind bs).wf hwf

theorem wf_raiseEvent (p index arg : Nat) (time : Option Instant) (late : Bool) : (s.raiseEvent p index arg time late).memoryWf
    = true :=
  (stored_raiseEvent s p index arg time late).wf hwf

theorem wf_raise (p arg : Nat) : (s.raise p arg).memoryWf = true :=
  (stored_raise s p arg).wf hwf

theorem wf_deviceReset (cause : Nat) : (s.deviceReset cause).memoryWf = true := by
  obtain ⟨-, -, hflash⟩ := memoryWf_iff.mp hwf
  exact memoryWf_iff.mpr ⟨rfl, rfl, hflash⟩

theorem wf_push (qn kind : Nat) (bs : List Byte) : (s.push qn kind bs).1.memoryWf = true :=
  (stored_pushBy putPiece_stores s qn kind bs).wf hwf

theorem wf_hbmWriteUnit (o : Nat) (bs : List Byte) : (s.hbmWriteUnit o bs).memoryWf = true := by
  grind [State.hbmWriteUnit, wf_hbmStore, wf_unitWritten, State.memoryWf]

theorem wf_repairRow (macro_ row : Nat) : (s.repairRow macro_ row).1.memoryWf = true := by
  grind [State.repairRow, State.handGroup, State.memoryWf]

theorem wf_failRow (off : Nat) : (s.failRow off).memoryWf = true := by
  grind [State.failRow, wf_repairRow, State.memoryWf]

theorem wf_sramError (req off words : Nat) (write : Bool) (addr : Nat) : (s.sramError req off words write addr).memoryWf = true
    := by
  grind [State.sramError, wf_failRow, wf_logMemErr, State.mapMem, State.memoryWf]

theorem wf_enginePiece (req : Nat) (p : Nat × Nat) (write : Bool) : (s.enginePiece req p write).memoryWf = true := by
  grind [State.enginePiece, wf_writeUnit, wf_readHbmUnit, State.grant, State.mapMem, wf_foldl, wf_foldl_fst, State.memoryWf]

theorem wf_engineRange (req off len : Nat) (write : Bool) : (s.engineRange req off len write).memoryWf = true := by
  grind [State.engineRange, wf_enginePiece, wf_foldl, wf_foldl_fst, State.memoryWf]

theorem wf_powerUp (d : Nat) : (s.powerUp d).memoryWf = true := by
  grind [State.powerUp, State.setDomain, State.memoryWf]

theorem wf_settleDomains : s.settleDomains.memoryWf = true := by
  grind [State.settleDomains, State.memoryWf]

theorem wf_sendMgmt (p : Nat) (f : Frame) : (s.sendMgmt p f).memoryWf = true := by
  grind [State.sendMgmt, State.emit, State.setMgmt, State.memoryWf]

theorem wf_completeElement (qn via : Nat) (bs : List Byte) : (s.completeElement qn via bs).memoryWf = true := by
  grind [State.completeElement, wf_putBytes, wf_writeBack, State.setQueue, State.memoryWf]

theorem wf_sendReply (c : Client) (via : Nat) (packet : List Byte) : (s.sendReply c via packet).memoryWf = true := by
  grind [State.sendReply, wf_completeElement, State.mapOwn, wf_sendMgmt, State.memoryWf]

theorem wf_renewed (c : Client) (stamp : Nat) : (s.renewed c stamp).memoryWf = true := by
  grind [State.renewed, State.mapOwn, State.memoryWf]

theorem wf_noteCommit : s.noteCommit.memoryWf = true := by
  grind [State.noteCommit, State.setCore, State.memoryWf]

theorem wf_adoptMgmt : s.adoptMgmt.memoryWf = true := by
  grind [State.adoptMgmt, State.setMgmt, State.memoryWf]

theorem wf_afterReply : s.afterReply.memoryWf = true := by
  grind [State.afterReply, wf_adoptMgmt, wf_deviceReset, State.memoryWf]

theorem wf_finish (w : Waiting) (status : Nat) (data : List Byte) : (s.finish w status data).memoryWf = true := by
  grind [State.finish, State.count, State.mapOwn, wf_afterReply, wf_sendReply, wf_noteCommit, State.memoryWf]

theorem wf_awaitGroup (w : Waiting) (records : List JRecord) : (s.awaitGroup w records).memoryWf = true := by
  grind [State.awaitGroup, State.mapOwn, State.handGroup, wf_renewed, State.memoryWf]

theorem wf_entered {w : Waiting} {t : State} {v : SeqVerdict} (hentered : s.entered w = some (t, v)) : t.memoryWf = true := by
  grind [State.entered, State.memoryWf]

theorem wf_judged_ok {row : OpRow} {c : Cmd} {stamp : Nat} {u : State} {params : List Byte}
    (hjudged : s.judged row c stamp = .ok (u, params)) : u.memoryWf = true := by
  rw [judged_ok hjudged]
  exact hwf

theorem wf_judged_error {row : OpRow} {c : Cmd} {stamp : Nat} {r : Res} (hjudged : s.judged row c stamp = .error r) :
    r.st.memoryWf = true := by
  grind [State.judged, Res.fail, Res.bad, State.consumeChallenge, State.mapOwn, wf_renewed, State.memoryWf]

theorem wf_enqueue (spec : Option OpSpec) (w : Waiting) : (s.enqueue spec w).memoryWf = true := by
  grind [State.enqueue, State.malformed, State.count, State.mapOwn, State.setMgmt, wf_renewed, State.memoryWf]

end Keep

/-! ## Commands (R386, R389, R390, R503) -/

/-- Executing the command keeps the canonical form. -/
def OpSpec.Keeps (sp : OpSpec) : Prop := ∀ c s, s.memoryWf = true → (sp.body c s).st.memoryWf = true

theorem wf_settled (s : State) {t : State} (ht : t.memoryWf = true) : (s.settled t).memoryWf = true := wf_settleDomains ht

theorem wf_answer (before : State) (w : Waiting) (row : OpRow) {r : Res} (hr : r.st.memoryWf = true) :
    (State.answer before w row r).memoryWf = true := by
  grind [State.answer, wf_settleDomains, State.mapOwn, wf_finish, State.memoryWf]

section Served
variable {s : State} (hwf : s.memoryWf = true) {sp : OpSpec} (hkeeps : sp.Keeps)
include hwf hkeeps

theorem wf_perform (w : Waiting) {u : State} (hu : u.memoryWf = true) (params : List Byte) :
    (s.perform sp w u params).memoryWf = true := by
  have hbody := hkeeps { w.cmd with params := params } u hu
  unfold State.perform
  dsimp only
  split
  · exact wf_answer s w sp.row hbody
  · split
    · exact wf_finish (wf_renewed hwf _ _) _ _ _
    · split
      · exact wf_finish (wf_renewed hwf _ _) _ _ _
      · exact wf_awaitGroup hwf _ _

theorem wf_serve (w : Waiting) : (s.serve sp w).memoryWf = true := by
  cases hjudged : s.judged sp.row w.cmd w.stamp with
  | error r =>
    simp only [State.serve, hjudged]
    exact wf_answer s w sp.row (wf_judged_error hwf hjudged)
  | ok x =>
    simp only [State.serve, hjudged]
    exact wf_perform hwf hkeeps w (wf_judged_ok hwf hjudged) _

end Served

section Arriving
variable {s : State} (hwf : s.memoryWf = true) {spec : Option OpSpec} (hkeeps : ∀ sp ∈ spec, sp.Keeps)
include hwf hkeeps

theorem wf_process (w : Waiting) : (s.process spec w).memoryWf = true := by
  have hcounted : (s.counted w).memoryWf = true := hwf
  unfold State.process
  dsimp only
  split
  · exact wf_sendReply hwf _ _ _
  · split
    · exact wf_sendReply hcounted _ _ _
    · next s2 packet hentered =>
      have hnew : s2.memoryWf = true := wf_entered hcounted hentered
      exact wf_sendReply (s := s2.count _ _) hnew _ _ _
    · next s2 hentered => exact wf_finish (wf_entered hcounted hentered) w _ _
    · next s2 hentered =>
      have hnew : s2.memoryWf = true := wf_entered hcounted hentered
      have hadvanced : (s2.advanced w).memoryWf = true := hnew
      split
      · exact wf_finish hadvanced w _ _
      · split
        · exact hadvanced
        · exact wf_serve hadvanced (hkeeps _ rfl) w

theorem wf_arrive (w : Waiting) : (s.arrive spec w).memoryWf = true := by
  unfold State.arrive
  split
  · exact hwf
  · split
    · exact wf_process hwf hkeeps w
    · exact wf_enqueue hwf spec w

end Arriving

/-- What a command row leads to. -/
theorem wf_submit {s t : State} {spec : OpSpec} {c : Cmd} (hwf : s.memoryWf = true) (hkeeps : spec.Keeps)
    (hnext : s.submit spec c = .next t) : t.memoryWf = true := by
  have hreachable : ∀ sp ∈ spec.reachable c.v2, sp.Keeps := by
    intro sp hsp
    unfold OpSpec.reachable at hsp
    split at hsp
    · exact Option.mem_some.mp hsp ▸ hkeeps
    · cases hsp
  unfold State.submit at hnext
  split at hnext
  · cases hnext
    exact wf_settled s (wf_arrive hwf hreachable _)
  · cases hnext

/-- What an event row leads to. -/
theorem wf_guarded {i : Instr} {s after t : State} (hafter : after.memoryWf = true) (hnext : guarded i s after = .next t) :
    t.memoryWf = true := by
  unfold guarded at hnext
  split at hnext
  · cases hnext
    exact wf_settled s hafter
  · cases hnext

end Sys2Proof.Machine
end

section
/-! That what leaves through the ports, the ports' and lanes' events, ownership and time keep memory in canonical form, in the order of
the model's files (Output, Ports, Ownership, Time). -/

namespace Sys2Proof.Machine

section Keep
variable {s : State} (hwf : s.memoryWf = true)
include hwf

theorem wf_frameGone (o : FrameOwner) (lost : Bool) : (s.frameGone o lost).memoryWf = true := by
  cases o with
  | dump _ _ _ | beam _ _ | chain _ _ | segment _ | own => exact hwf

theorem wf_dropTxq (p : Nat) : (s.dropTxq p).memoryWf = true := by
  grind [State.dropTxq, wf_frameGone, State.setTxq, State.setPort, wf_foldl, wf_foldl_fst, State.memoryWf]

theorem wf_handFrame (o : FrameOwner) (d : Dest) (bytes : List Byte) : (s.handFrame o d bytes).memoryWf = true := by
  grind [State.handFrame, State.setTxq, wf_frameGone, State.setPort, State.memoryWf]

theorem wf_evEgressFrameSent (port : Nat) : (evEgressFrameSent port s).memoryWf = true := by
  grind [evEgressFrameSent, State.emit, State.setTxq, wf_frameGone, State.setPort, wf_push, State.memoryWf]

theorem wf_sendOwn (p : Nat) (f : Frame) : (s.sendOwn p f).memoryWf = true := by
  grind [State.sendOwn, State.emit, State.setPort, State.memoryWf]

theorem wf_reportChange (p : Nat) (m : Membership) (leave : Bool) : (s.reportChange p m leave).memoryWf = true := by
  grind [State.reportChange, wf_sendOwn, State.setInPort, State.memoryWf]

theorem wf_evMcastReportRepeat (port : Fin 80) : (evMcastReportRepeat port s).memoryWf = true := by
  grind [evMcastReportRepeat, State.setInPort, wf_sendOwn, wf_foldl, wf_foldl_fst, State.memoryWf]

theorem wf_evMcastQueryResponse (port : Fin 80) : (evMcastQueryResponse port s).memoryWf = true := by
  grind [evMcastQueryResponse, wf_sendOwn, State.setInPort, wf_foldl, wf_foldl_fst, State.memoryWf]

theorem wf_enterPort (p new : Nat) : (s.enterPort p new).memoryWf = true := by
  grind [State.enterPort, State.setPort, wf_raise, wf_dropTxq, wf_reportChange, wf_foldl, wf_foldl_fst, State.memoryWf]

theorem wf_countLoss (l : Nat) (c : PortCfg) (before : Lane) : (s.countLoss l c before).memoryWf = true := by
  grind [State.countLoss, State.abortScan, State.setLane, State.memoryWf]

theorem wf_dropLock (l : Nat) (c : PortCfg) (after : Lane) : (s.dropLock l c after).memoryWf = true := by
  grind [State.dropLock, wf_countLoss, State.setLane, State.memoryWf]

theorem wf_settlePort (p : Nat) : (s.settlePort p).memoryWf = true := by
  grind [State.settlePort, wf_enterPort, State.setPort, State.memoryWf]

theorem wf_restartPort (p : Nat) (c : PortCfg) : (s.restartPort p c).memoryWf = true := by
  grind [State.restartPort, wf_dropLock, wf_settlePort, State.setPort, wf_foldl, wf_foldl_fst, State.memoryWf]

theorem wf_agreeSheds (p : Nat) : (s.agreeSheds p).memoryWf = true := by
  grind [State.agreeSheds, wf_raise, wf_settlePort, State.setPort, wf_foldl, wf_foldl_fst, State.memoryWf]

theorem wf_restoreLanes (p : Nat) : (s.restoreLanes p).memoryWf = true := by
  grind [State.restoreLanes, wf_raise, wf_settlePort, State.setPort, wf_foldl, wf_foldl_fst, State.memoryWf]

theorem wf_laneLost (l : Nat) (before : Lane) : (s.laneLost l before).memoryWf = true := by
  grind [State.laneLost, wf_countLoss, wf_settlePort, wf_dropLock, wf_agreeSheds, State.setPort, wf_restartPort, wf_foldl,
    wf_foldl_fst, State.memoryWf]

theorem wf_evLaneLockLoss (lane : Fin 80) (cause : LossCause) : (evLaneLockLoss lane cause s).memoryWf = true := by
  grind [evLaneLockLoss, wf_laneLost, State.setLane, State.memoryWf]

theorem wf_evShedAgreeTimeout (port : Fin 80) : (evShedAgreeTimeout port s).memoryWf = true := by
  grind [evShedAgreeTimeout, wf_restartPort, State.memoryWf]

theorem wf_evLaneLock (lane : Fin 80) (step : LockStep) : (evLaneLock lane step s).memoryWf = true := by
  grind [evLaneLock, wf_settlePort, State.setLane, wf_restoreLanes, State.memoryWf]

theorem wf_evPolarityTryTimeout (lane : Fin 80) : (evPolarityTryTimeout lane s).memoryWf = true := by
  grind [evPolarityTryTimeout, State.setLane, State.memoryWf]

theorem wf_evBringupRetry (lane : Fin 80) : (evBringupRetry lane s).memoryWf = true := by
  grind [evBringupRetry, wf_settlePort, State.setLane, State.memoryWf]

theorem wf_evSfmTransmit (port : Fin 80) : (evSfmTransmit port s).memoryWf = true := by
  grind [evSfmTransmit, State.setPort, wf_restoreLanes, wf_agreeSheds, State.emit, wf_foldl, wf_foldl_fst, State.memoryWf]

theorem wf_followInversion (p : Nat) (c : PortCfg) (map : Nat) : (s.followInversion p c map).memoryWf = true := by
  grind [State.followInversion, State.setLane, wf_foldl, wf_foldl_fst, State.memoryWf]

theorem wf_evSfmReceive (lane : Fin 80) (block : List Byte) : (evSfmReceive lane block s).memoryWf = true := by
  grind [evSfmReceive, State.setPort, wf_followInversion, wf_restoreLanes, wf_agreeSheds, wf_settlePort, State.memoryWf]

theorem wf_evUncorrectableCodeword (lane : Fin 80) (packets : Nat) : (evUncorrectableCodeword lane packets s).memoryWf = true :=
    by
  grind [evUncorrectableCodeword, State.setPort, State.memoryWf]

theorem wf_restartQuad (q : Nat) : (s.restartQuad q).memoryWf = true := by
  grind [State.restartQuad, State.abortScan, State.setLane, wf_foldl, wf_foldl_fst, State.memoryWf]

theorem wf_doPortSetQuad (c : Cmd) : (doPortSetQuad c s).st.memoryWf = true := by
  grind [doPortSetQuad, Res.bad, wf_enterPort, wf_restartQuad, Res.ok, State.setPort, wf_foldl, wf_foldl_fst, State.memoryWf]

theorem wf_doPortSetLane (c : Cmd) : (doPortSetLane c s).st.memoryWf = true := by
  grind [doPortSetLane, Res.bad, State.setLane, State.abortScan, wf_laneLost, Res.ok, wf_settlePort, State.memoryWf]

theorem wf_doPortSetKlp (c : Cmd) : (doPortSetKlp c s).st.memoryWf = true := by
  grind [doPortSetKlp, Res.bad, Res.ok, State.setPort, State.memoryWf]

theorem wf_doPortGetStatus (c : Cmd) : (doPortGetStatus c s).st.memoryWf = true := by
  dsimp only [doPortGetStatus]
  repeat' split
  all_goals exact hwf

theorem wf_doPortGetLane (c : Cmd) : (doPortGetLane c s).st.memoryWf = true := by
  dsimp only [doPortGetLane]
  repeat' split
  all_goals exact hwf

theorem wf_doPortEyeScan (c : Cmd) : (doPortEyeScan c s).st.memoryWf = true := by
  grind [doPortEyeScan, Res.bad, Res.fail, Res.accepted, State.memoryWf]

theorem wf_evEyeScanDone (lane : Fin 80) (errors : List Nat) : (evEyeScanDone lane errors s).memoryWf = true := by
  grind [evEyeScanDone, wf_raise, State.memoryWf]

theorem wf_doPortEyeRead (c : Cmd) : (doPortEyeRead c s).st.memoryWf = true := by
  dsimp only [doPortEyeRead]
  repeat' split
  all_goals exact hwf

theorem wf_doOwnClaim (c : Cmd) : (doOwnClaim c s).st.memoryWf = true := by
  unfold doOwnClaim
  dsimp only
  repeat' split
  all_goals exact hwf

theorem wf_doOwnRelease (c : Cmd) : (doOwnRelease c s).st.memoryWf = true := by
  grind [doOwnRelease, Res.ok, State.mapOwn, State.memoryWf]

theorem wf_doOwnKeepalive (c : Cmd) : (doOwnKeepalive c s).st.memoryWf = true := by
  grind [doOwnKeepalive, Res.ok, State.memoryWf]

theorem wf_doOwnHandover (c : Cmd) : (doOwnHandover c s).st.memoryWf = true := by
  grind [doOwnHandover, Res.bad, Res.ok, State.mapOwn, State.memoryWf]

theorem wf_doOwnSetLease (c : Cmd) : (doOwnSetLease c s).st.memoryWf = true := by
  grind [doOwnSetLease, Res.bad, Res.ok, State.mapOwn, State.memoryWf]

theorem wf_doOwnSetPolicy (c : Cmd) : (doOwnSetPolicy c s).st.memoryWf = true := by
  grind [doOwnSetPolicy, Res.bad, Res.ok, State.mapOwn, State.memoryWf]

theorem wf_doOwnGetChallenge (c : Cmd) : (doOwnGetChallenge c s).st.memoryWf = true := by
  dsimp only [doOwnGetChallenge]
  exact hwf

theorem wf_doOwnGetStatus (c : Cmd) : (doOwnGetStatus c s).st.memoryWf = true := by
  dsimp only [doOwnGetStatus]
  repeat' split
  all_goals exact hwf

theorem wf_loseOwner : s.loseOwner.memoryWf = true := by
  grind [State.loseOwner, wf_raise, State.mapOwn, State.memoryWf]

theorem wf_chargeLease (prevRenewal : Nat) : (s.chargeLease prevRenewal).memoryWf = true := by
  grind [State.chargeLease, State.mapOwn, wf_loseOwner, State.memoryWf]

theorem wf_causeIf (n : Nat) (v : Bool) : (s.causeIf n v).memoryWf = true := by
  grind [State.causeIf, State.setCause, State.mapQz, State.clearCause, State.memoryWf]

theorem wf_skipPulses (t : Nat) : (s.skipPulses t).memoryWf = true := by
  grind [State.skipPulses, State.mapQz, State.setPulse, wf_foldl, wf_foldl_fst, State.memoryWf]

theorem wf_drivePins (before : State) (t : Nat) : (s.drivePins before t).memoryWf = true := by
  grind [State.drivePins, State.emit, wf_foldl, wf_foldl_fst, State.memoryWf]

theorem wf_startPulse (g : Nat) : (s.startPulse g).memoryWf = true := by
  grind [State.startPulse, State.setPulse, State.mapQz, State.memoryWf]

theorem wf_evPulseEdge (gen : Fin 8) : (evPulseEdge gen s).memoryWf = true := by
  grind [evPulseEdge, State.mapQz, State.setPulse, wf_raiseEvent, wf_drivePins, State.memoryWf]

theorem wf_evPulseTrailingEdge (gen : Fin 8) : (evPulseTrailingEdge gen s).memoryWf = true := by
  grind [evPulseTrailingEdge, wf_drivePins, State.setPulse, State.mapQz, State.memoryWf]

theorem wf_stepTime (units : Int) : (s.stepTime units).memoryWf = true := by
  grind [State.stepTime, State.mapQz, wf_skipPulses, wf_raise, State.memoryWf]

theorem wf_resyncTick (src : Nat) : (s.resyncTick src).memoryWf = true := by
  grind [State.resyncTick, State.mapQz, State.setCause, wf_raise, wf_skipPulses, State.memoryWf]

theorem wf_tick : s.tick.memoryWf = true := by
  grind [State.tick, wf_resyncTick, State.mapQz, State.clearCause, State.memoryWf]

theorem wf_setDisc (d : Nat) : (s.setDisc d).memoryWf = true := by
  grind [State.setDisc, State.mapQz, State.clearCause, State.memoryWf]

theorem wf_discipline (offset : Int) (phaseOnly : Bool) : (s.discipline offset phaseOnly).memoryWf = true := by
  grind [State.discipline, State.mapQz, wf_causeIf, wf_setDisc, wf_stepTime, State.setAdj, State.memoryWf]

theorem wf_evPpsEdge (phase : Nat) : (evPpsEdge phase s).memoryWf = true := by
  grind [evPpsEdge, State.mapQz, wf_discipline, State.clearCause, wf_stepTime, wf_setDisc, State.memoryWf]

theorem wf_evPpsHoldoverTimeout : (evPpsHoldoverTimeout s).memoryWf = true := by
  grind [evPpsHoldoverTimeout, wf_setDisc, State.memoryWf]

theorem wf_evSuspectHoldoverTimeout : (evSuspectHoldoverTimeout s).memoryWf = true := by
  grind [evSuspectHoldoverTimeout, State.setCause, State.mapQz, State.memoryWf]

theorem wf_evQzSnapTake (value : Nat) : (evQzSnapTake value s).memoryWf = true := by
  grind [evQzSnapTake, State.takeSnapshot, State.mapQz, State.memoryWf]

theorem wf_dissent (r : Fin 3) : (s.dissent r).memoryWf = true := by
  grind [State.dissent, State.mapQz, State.setReplica, wf_raise, State.memoryWf]

theorem wf_noMajority : s.noMajority.memoryWf = true := by
  grind [State.noMajority, State.mapQz, State.setCause, wf_drivePins, State.setPulse, wf_foldl, wf_foldl_fst, State.memoryWf]

theorem wf_evReplicaDissent (replica : Fin 3) (fault : ReplicaFault) : (evReplicaDissent replica fault s).memoryWf = true := by
  cases fault with
  | time value => grind [evReplicaDissent, State.setReplica, State.mapQz, wf_dissent, wf_noMajority, State.memoryWf]
  | output => grind [evReplicaDissent, wf_dissent]
  | conversion => grind [evReplicaDissent, wf_dissent, State.mapQz, State.memoryWf]
  | delay input => grind [evReplicaDissent, wf_dissent, State.mapQz, State.memoryWf]

theorem wf_evReplicaRejoin (replica : Fin 3) : (evReplicaRejoin replica s).memoryWf = true := by
  grind [evReplicaRejoin, State.mapQz, State.setReplica, State.memoryWf]

theorem wf_doTimeSetSource (c : Cmd) : (doTimeSetSource c s).st.memoryWf = true := by
  unfold doTimeSetSource
  extract_lets p adj src old s1 s2 s3
  split
  · exact hwf
  · have hsource : s1.memoryWf = true := hwf
    have hreference : s2.memoryWf = true := wf_ite hsource hsource
    have hmode : s3.memoryWf = true := wf_ite hreference hreference
    exact wf_ite (s := s3.setAdj adj) hmode hmode

theorem wf_doTimeSet (c : Cmd) : (doTimeSet c s).st.memoryWf = true := by
  grind [doTimeSet, Res.bad, Res.fail, Res.ok, State.mapQz, State.clearCause, wf_stepTime, State.memoryWf]

theorem wf_doTimeSetPulse (c : Cmd) : (doTimeSetPulse c s).st.memoryWf = true := by
  grind [doTimeSetPulse, Res.bad, Res.fail, State.setPulse, State.mapQz, Res.ok, wf_drivePins, State.memoryWf]

theorem wf_doTimeSetEvt (c : Cmd) : (doTimeSetEvt c s).st.memoryWf = true := by
  grind [doTimeSetEvt, Res.bad, State.setEvtPin, State.mapQz, Res.ok, wf_drivePins, State.setPulse, wf_foldl, wf_foldl_fst,
    State.memoryWf]

theorem wf_doTimeSetMapping (c : Cmd) : (doTimeSetMapping c s).st.memoryWf = true := by
  unfold doTimeSetMapping
  dsimp only
  repeat' split
  all_goals exact hwf

theorem wf_doTimeConvert (c : Cmd) : (doTimeConvert c s).st.memoryWf = true := by
  grind [doTimeConvert, Res.bad, State.mapQz, State.draw, Res.okWith, State.memoryWf]

theorem wf_doTimeSetEpoch (c : Cmd) : (doTimeSetEpoch c s).st.memoryWf = true := by
  grind [doTimeSetEpoch, Res.bad, Res.fail, Res.ok, State.mapQz, State.memoryWf]

theorem wf_doTimeResync (c : Cmd) : (doTimeResync c s).st.memoryWf = true := by
  grind [doTimeResync, Res.bad, Res.ok, State.mapQz, State.memoryWf]

theorem wf_doTimeGetStatus (c : Cmd) : (doTimeGetStatus c s).st.memoryWf = true := by
  dsimp only [doTimeGetStatus]
  repeat' split
  all_goals exact hwf

end Keep

end Sys2Proof.Machine
end

section
/-! That schedules, integrations, dumps, the ring, ingest, phase steps and staging keep memory in canonical form, in the order of the
model's files (Schedule to Staging). -/

namespace Sys2Proof.Machine

section Keep
variable {s : State} (hwf : s.memoryWf = true)
include hwf

theorem wf_countDrop (c k : Nat) : (s.countDrop c k).memoryWf = true := by
  grind [State.countDrop, State.mapRound, State.mapLoad, wf_raiseEvent, State.memoryWf]

theorem wf_countShed (c k : Nat) : (s.countShed c k).memoryWf = true := by
  grind [State.countShed, State.mapRound, State.mapLoad, wf_raiseEvent, State.memoryWf]

theorem wf_enterNormal : s.enterNormal.memoryWf = true := by
  grind [State.enterNormal, wf_raise, State.mapLoad, State.memoryWf]

theorem wf_adoptPolicy : s.adoptPolicy.memoryWf = true := by
  grind [State.adoptPolicy, State.mapLoad, wf_enterNormal, State.memoryWf]

theorem wf_planRound (k : Nat) : (s.planRound k).memoryWf = true := by
  grind [State.planRound, State.mapRound, State.mapLoad, State.memoryWf]

theorem wf_startRound (k : Nat) : (s.startRound k).memoryWf = true := by
  grind [State.startRound, wf_adoptPolicy, State.mapLoad, wf_planRound, State.memoryWf]

theorem wf_tryRound : s.tryRound.memoryWf = true := by
  grind [State.tryRound, wf_startRound, State.memoryWf]

theorem wf_showRound : s.showRound.memoryWf = true := by
  grind [State.showRound, State.mapLoad, State.memoryWf]

theorem wf_endRound (r : Round) : (s.endRound r).memoryWf = true := by
  grind [State.endRound, State.mapRound, State.mapLoad, wf_raise, wf_tryRound, wf_showRound, wf_foldl, wf_foldl_fst,
    State.memoryWf]

theorem wf_judgeRound (r : Round) : (s.judgeRound r).memoryWf = true := by
  grind [State.judgeRound, State.mapLoad, wf_enterNormal, State.memoryWf]

theorem wf_noteSlack (c k slack : Nat) : (s.noteSlack c k slack).memoryWf = true := by
  grind [State.noteSlack, wf_showRound, State.mapRound, State.mapLoad, State.memoryWf]

theorem wf_resolveSlacks : s.resolveSlacks.memoryWf = true := by
  grind [State.resolveSlacks, wf_noteSlack, wf_foldl, wf_foldl_fst, State.memoryWf]

theorem wf_evRoundEnd : (evRoundEnd s).memoryWf = true := by
  grind [evRoundEnd, wf_resolveSlacks, wf_endRound, wf_judgeRound, State.memoryWf]

theorem wf_slackKnown (c k : Nat) : (s.slackKnown c k).memoryWf = true := by
  grind [State.slackKnown, wf_noteSlack, State.memoryWf]

theorem wf_chainGap (n : Nat) : (s.chainGap n).memoryWf = true := by
  grind [State.chainGap, wf_raise, State.setChain, State.mapFilt, State.memoryWf]

theorem wf_chainLost (n k : Nat) : (s.chainLost n k).memoryWf = true := by
  grind [State.chainLost, State.setChain, State.mapFilt, wf_chainGap, State.memoryWf]

theorem wf_beamsLost (c k : Nat) : (s.beamsLost c k).memoryWf = true := by
  grind [State.beamsLost, State.setBeamSet, wf_chainLost, wf_foldl, wf_foldl_fst, State.memoryWf]

theorem wf_accountLost (c k kind : Nat) : (s.accountLost c k kind).memoryWf = true := by
  grind [State.accountLost, State.forgetVisit, State.mapBas, wf_beamsLost, State.setInteg, State.memoryWf]

theorem wf_skipOthers (c : Nat) : (s.skipOthers c).memoryWf = true := by
  grind [State.skipOthers, State.skipVisit, State.setInteg, State.mapBas, wf_foldl, wf_foldl_fst, State.memoryWf]

theorem wf_skipVisit (c k : Nat) : (s.skipVisit c k).memoryWf = true := hwf

theorem wf_settleLostGo (c fuel : Nat) : (State.settleLost.go c fuel s).memoryWf = true := by
  induction fuel generalizing s with
  | zero => exact hwf
  | succ fuel ih => grind [State.settleLost.go, wf_skipVisit, wf_accountLost]

theorem wf_settleLost (c : Nat) : (s.settleLost c).memoryWf = true := by
  grind [State.settleLost, wf_settleLostGo, State.memoryWf]

theorem wf_loseVisit (c k kind : Nat) : (s.loseVisit c k kind).memoryWf = true := by
  grind [State.loseVisit, State.mapBas, State.setBeamSet, wf_settleLost, wf_foldl, wf_foldl_fst, State.memoryWf]

theorem wf_handAll (j : DumpJob) (frames : List (List Byte × Nat)) : (s.handAll j frames).memoryWf = true := by
  grind [State.handAll, State.mapJob, State.mapDump, wf_handFrame, wf_foldl, wf_foldl_fst, State.memoryWf]

theorem wf_pumpJobs : s.pumpJobs.memoryWf = true := by
  grind [State.pumpJobs, wf_handAll, State.mapJob, State.mapDump, wf_foldl, wf_foldl_fst, State.memoryWf]

theorem wf_sendDump (b : DumpBody) (half : Nat) (values : Nat → Int × Int) (entries : List LogEntry) (limits : List (Nat × Nat))
    (given : Option (KV Nat)) : (s.sendDump b half values entries limits given).memoryWf = true := by
  grind [State.sendDump, State.mapDump, wf_raiseEvent, wf_pumpJobs, State.memoryWf]

theorem wf_combine (x : Collect) : (s.combine x).memoryWf = true := by
  grind [State.combine, State.mapBas, wf_sendDump, State.memoryWf]

theorem wf_tryCombine (x : Collect) : (s.tryCombine x).memoryWf = true := by
  grind [State.tryCombine, wf_combine, State.memoryWf]

theorem wf_expireCollects : s.expireCollects.memoryWf = true := by
  grind [State.expireCollects, wf_combine, wf_foldl, wf_foldl_fst, State.memoryWf]

theorem wf_notePass : s.notePass.memoryWf = true := by
  grind [State.notePass, State.memoryWf]

theorem wf_endInteg (c : Nat) : (s.endInteg c).memoryWf = true := by
  grind [State.endInteg, wf_notePass, wf_expireCollects, State.settleDumps, State.mapDump, State.setInteg, State.mapBas,
    wf_tryCombine, State.putCollect, wf_sendDump, State.memoryWf]

theorem wf_catchUpGo (c fuel : Nat) : (State.catchUp.go c fuel s).memoryWf = true := by
  induction fuel generalizing s with
  | zero => exact hwf
  | succ fuel ih => grind [State.catchUp.go, wf_settleLost, wf_endInteg]

theorem wf_catchUp (c k : Nat) : (s.catchUp c k).memoryWf = true := by
  grind [State.catchUp, wf_catchUpGo, State.memoryWf]

theorem wf_evDumpPass (channel : Nat) : (evDumpPass channel s).memoryWf = true := by
  grind [evDumpPass, wf_settleLost, wf_endInteg, State.memoryWf]

theorem wf_finishDumps : s.finishDumps.memoryWf = true := by
  grind [State.finishDumps, wf_catchUp, wf_settleLost, State.mapDump, wf_combine, wf_foldl, wf_foldl_fst, State.memoryWf]

theorem wf_evCombineTimeout (channel : Nat) : (evCombineTimeout channel s).memoryWf = true := by
  grind [evCombineTimeout, wf_combine, State.memoryWf]

theorem wf_evDumpWeightFrames (channel : Nat) : (evDumpWeightFrames channel s).memoryWf = true := by
  grind [evDumpWeightFrames, wf_handAll, State.mapJob, State.mapDump, State.memoryWf]

theorem wf_evDumpDone (channel : Nat) : (evDumpDone channel s).memoryWf = true := by
  grind [evDumpDone, State.mapDump, wf_pumpJobs, wf_raiseEvent, State.emit, State.setPort, wf_frameGone, wf_push,
    State.memoryWf]

theorem wf_engineRecords (req : Nat) : (s.engineRecords req).memoryWf = true := hwf

theorem wf_flintWrite (input channel idx : Nat) (bytes : List Nat) (_invalid : Bool) :
    (s.flintWrite input channel idx bytes _invalid).memoryWf = true := by
  have hdrawn : s.draw.memoryWf = true := hwf
  unfold State.flintWrite
  dsimp only
  split
  · exact hwf
  · split
    · exact hwf
    · refine wf_foldl (fun u _ hu => ?_) _ (wf_ite hdrawn (wf_engineRecords hdrawn 6))
      exact hu

theorem wf_flintClose (channel visit : Nat) : (s.flintClose channel visit).memoryWf = true := by
  grind [State.flintClose, State.mapCap, wf_foldl, wf_foldl_fst, State.memoryWf]

theorem wf_closeVisit (c k : Nat) : (s.closeVisit c k).memoryWf = true := by
  grind [State.closeVisit, State.setInputCount, State.mapIng, State.setVisit, State.setChan, wf_tryRound, wf_flintClose,
    State.noteClose, State.mapBas, wf_foldl, wf_foldl_fst, State.memoryWf]

theorem wf_accepted (c k : Nat) : (s.accepted c k).memoryWf = true := by
  grind [State.accepted, State.setVisit, State.setChan, wf_slackKnown, State.memoryWf]

theorem wf_storeSamples (c k i pos : Nat) (bytes : List Byte) : (s.storeSamples c k i pos bytes).memoryWf = true := by
  grind [State.storeSamples, State.setChan, wf_engineRange, wf_foldl, wf_foldl_fst, State.memoryWf]

theorem wf_writePiece (p : Piece) : (s.writePiece p).memoryWf = true := by
  grind [State.writePiece, State.countIn, State.setInPort, wf_storeSamples, State.setVisit, State.setChan, State.setInputCount,
    State.mapIng, wf_flintWrite, wf_closeVisit, wf_foldl, wf_foldl_fst, State.memoryWf]

theorem wf_judgePiece (p : Piece) : (s.judgePiece p).memoryWf = true := by
  grind [State.judgePiece, State.countIn, State.setInPort, wf_accepted, wf_writePiece, State.hold, State.mapIng, State.memoryWf]

theorem wf_mapPart (p : Part) (k : Nat) : (s.mapPart p k).memoryWf = true := by
  grind [State.mapPart, wf_judgePiece, State.countIn, State.setInPort, wf_foldl, wf_foldl_fst, State.memoryWf]

theorem wf_judgeWhole (p : Part) : (s.judgeWhole p).memoryWf = true := by
  grind [State.judgeWhole, State.countIn, State.setInPort, State.notMine, wf_mapPart, wf_accepted, State.hold, State.mapIng,
    wf_foldl, wf_foldl_fst, State.memoryWf]

theorem wf_judgePart (p : Part) : (s.judgePart p).memoryWf = true := by
  grind [State.judgePart, wf_judgeWhole, State.memoryWf]

theorem wf_klpPacket (port : Nat) (from_ : Option (Nat × List Byte × Nat)) (b : List Byte) : (s.klpPacket port from_ b).memoryWf
    = true := by
  grind [State.klpPacket, State.countIn, State.setInPort, wf_judgePart, wf_foldl, wf_foldl_fst, State.memoryWf]

theorem wf_evKlpPacketReceive (port : Fin 80) (bytes : List Byte) : (evKlpPacketReceive port bytes s).memoryWf = true := by
  grind [evKlpPacketReceive, wf_klpPacket, State.countPort, State.setPort, State.memoryWf]

theorem wf_evHeldPartRelease : (evHeldPartRelease s).memoryWf = true := by
  grind [evHeldPartRelease, State.mapIng, wf_judgePart, State.countIn, State.setInPort, wf_judgePiece, State.memoryWf]

theorem wf_evVisitHoldExpiry (channel visit : Nat) : (evVisitHoldExpiry channel visit s).memoryWf = true := by
  grind [evVisitHoldExpiry, wf_closeVisit, State.memoryWf]

theorem wf_ingestIp (p : Nat) (f : Frame) : (s.ingestIp p f).memoryWf = true := by
  unfold State.ingestIp
  extract_lets v
  split
  · exact hwf
  · extract_lets fam mine joined
    split
    · exact hwf
    · refine wf_ite hwf (wf_ite hwf ?_)
      grind [State.badFrame, State.countIn, State.setInPort, State.filtered, wf_klpPacket, State.memoryWf]

theorem wf_evEthFrameReceive (port : Fin 80) (f : Frame) : (evEthFrameReceive port f s).memoryWf = true := by
  unfold evEthFrameReceive
  extract_lets p v good
  have hgood : good.memoryWf = true := hwf
  split
  · exact hwf
  · extract_lets lost
    have hlost : lost.memoryWf = true := wf_ite hwf hwf
    split
    · exact hwf
    · split
      · exact hwf
      · split
        · exact hlost
        · split
          · exact hgood
          · split
            · grind [wf_sendOwn]
            · split
              · exact wf_sendOwn hgood _ _
              · grind [State.setInPort, wf_ingestIp, State.memoryWf]

theorem wf_doIngestSetPort (c : Cmd) : (doIngestSetPort c s).st.memoryWf = true := by
  grind [doIngestSetPort, Res.bad, Res.ok, State.setInPort, State.memoryWf]

theorem wf_doIngestMcast (c : Cmd) : (doIngestMcast c s).st.memoryWf = true := by
  grind [doIngestMcast, Res.bad, Res.ok, wf_reportChange, State.setInPort, Res.fail, State.memoryWf]

theorem wf_doIngestSetSource (c : Cmd) : (doIngestSetSource c s).st.memoryWf = true := by
  grind [doIngestSetSource, Res.bad, Res.ok, State.mapIng, State.memoryWf]

theorem wf_doIngestLoadMap (c : Cmd) : (doIngestLoadMap c s).st.memoryWf = true := by
  grind [doIngestLoadMap, Res.bad, Res.ok, State.mapIng, wf_foldl, wf_foldl_fst, State.memoryWf]

theorem wf_doIngestApplyMap (c : Cmd) : (doIngestApplyMap c s).st.memoryWf = true := by
  grind [doIngestApplyMap, Res.bad, Res.ok, State.mapIng, Res.fail, State.memoryWf]

theorem wf_doIngestLoadGain (c : Cmd) : (doIngestLoadGain c s).st.memoryWf = true := by
  grind [doIngestLoadGain, Res.bad, Res.fail, Res.ok, State.mapIng, wf_foldl, wf_foldl_fst, State.memoryWf]

theorem wf_doIngestApplyGain (c : Cmd) : (doIngestApplyGain c s).st.memoryWf = true := by
  grind [doIngestApplyGain, Res.ok, State.mapIng, Res.fail, State.memoryWf]

theorem wf_doIngestSetTiming (c : Cmd) : (doIngestSetTiming c s).st.memoryWf = true := by
  grind [doIngestSetTiming, Res.bad, Res.ok, State.mapIng, State.memoryWf]

theorem wf_doIngestGetPort (c : Cmd) : (doIngestGetPort c s).st.memoryWf = true := by
  dsimp only [doIngestGetPort]
  repeat' split
  all_goals exact hwf

theorem wf_doIngestGetInput (c : Cmd) : (doIngestGetInput c s).st.memoryWf = true := by
  dsimp only [doIngestGetInput]
  repeat' split
  all_goals exact hwf

theorem wf_loadBeams (c k : Nat) : (s.loadBeams c k).1.memoryWf = true := by
  grind [State.loadBeams, State.setBeamSet, wf_foldl, wf_foldl_fst, State.memoryWf]

theorem wf_swapDone (n : Nat) : (s.swapDone n).memoryWf = true := by
  grind [State.swapDone, State.setBeamSet, wf_raise, State.memoryWf]

theorem wf_finishSwap (n : Nat) : (s.finishSwap n).memoryWf = true := by
  grind [State.finishSwap, State.setBeamSet, wf_swapDone, State.memoryWf]

theorem wf_filtersDone (mask : Nat) : (s.filtersDone mask).memoryWf = true := by
  grind [State.filtersDone, wf_raise, State.memoryWf]

theorem wf_finishFilters (mask : Nat) : (s.finishFilters mask).memoryWf = true := by
  grind [State.finishFilters, State.setChain, State.mapFilt, wf_filtersDone, wf_foldl, wf_foldl_fst, State.memoryWf]

theorem wf_settleSwaps : s.settleSwaps.memoryWf = true := by
  grind [State.settleSwaps, wf_finishSwap, wf_finishFilters, State.mapFilt, wf_foldl, wf_foldl_fst, State.memoryWf]

theorem wf_settleSettings : s.settleSettings.memoryWf = true := by
  grind [State.settleSettings, State.mapIng, State.mapBas, State.mapDump, State.mapFilt, State.memoryWf]

theorem wf_endSchedule : s.endSchedule.memoryWf = true := by
  grind [State.endSchedule, wf_settleSettings, wf_settleSwaps, wf_finishDumps, State.memoryWf]

theorem wf_settleSched : s.settleSched.memoryWf = true := by
  grind [State.settleSched, State.mapCap, State.mapTile, State.settleDumps, State.mapDump, State.memoryWf]

theorem wf_stopSched : s.stopSched.memoryWf = true := by
  grind [State.stopSched, wf_settleSched, State.mapTile, State.memoryWf]

theorem wf_tryStop : s.tryStop.memoryWf = true := by
  grind [State.tryStop, wf_stopSched, wf_settleSched, State.memoryWf]

theorem wf_beginRounds (fuel : Nat) : (State.beginRounds fuel s).memoryWf = true := by
  induction fuel generalizing s with
  | zero => exact hwf
  | succ fuel ih => grind [State.beginRounds, wf_startRound]

theorem wf_readyLoad : s.readyLoad.memoryWf = true := by
  grind [State.readyLoad, wf_tryStop, wf_beginRounds, State.memoryWf]

theorem wf_evMicaLoadStart : (evMicaLoadStart s).memoryWf = true := by
  grind [evMicaLoadStart, wf_readyLoad, State.mapQz, State.mapStg, wf_foldl, wf_foldl_fst, State.memoryWf]

theorem wf_loadTraffic (c k : Nat) (delays : List (Option Nat)) : (s.loadTraffic c k delays).memoryWf = true := by
  unfold State.loadTraffic
  exact wf_foldl (fun u _ hu => wf_engineRange (wf_engineRange (wf_engineRange hu _ _ _ _) _ _ _ _) _ _ _ _) _ hwf

theorem wf_evMicaLoadComplete : (evMicaLoadComplete s).memoryWf = true := by
  grind [evMicaLoadComplete, wf_loadBeams, State.mapStg, State.setBank, wf_loadTraffic, State.setChan, State.leave,
    State.setVisit, wf_foldl, wf_foldl_fst, State.memoryWf]

theorem wf_evShedVisitSkip (channel visit : Nat) : (evShedVisitSkip channel visit s).memoryWf = true := by
  grind [evShedVisitSkip, wf_stopSched, wf_tryStop, wf_loseVisit, wf_countShed, State.leave, State.setVisit, State.setChan,
    State.memoryWf]

theorem wf_roundStart (c k : Nat) : (s.roundStart c k).memoryWf = true := by
  grind [State.roundStart, State.mapRound, State.mapLoad, wf_slackKnown, State.memoryWf]

theorem wf_evVisitStart : (evVisitStart s).memoryWf = true := by
  grind [evVisitStart, State.mapStg, State.setBank, wf_roundStart, State.mapTile, State.memoryWf]

theorem wf_leave (c k : Nat) : (s.leave c k).memoryWf = true := hwf

theorem wf_dropVisit (c k : Nat) (how : DropState) : (s.dropVisit c k how).memoryWf = true := by
  have hafter {t : State} (ht : t.memoryWf = true) :
      ((((t.closeVisit c k).leave c k).countDrop c k).loseVisit c k 1).tryStop.memoryWf = true :=
    wf_tryStop (wf_loseVisit (wf_countDrop (wf_leave (wf_closeVisit ht c k) c k) c k) c k 1)
  unfold State.dropVisit
  refine hafter ?_
  cases how with
  | waiting | started | loading | loaded b => exact hwf

theorem wf_evVisitDeadline (channel visit : Nat) : (evVisitDeadline channel visit s).memoryWf = true := by
  grind [evVisitDeadline, wf_stopSched, wf_dropVisit, State.memoryWf]

theorem wf_doCorrLoadCoarse (c : Cmd) : (doCorrLoadCoarse c s).st.memoryWf = true := by
  grind [doCorrLoadCoarse, Res.bad, Res.fail, Res.ok, State.mapStg, wf_foldl, wf_foldl_fst, State.memoryWf]

theorem wf_doCorrApplyCoarse (c : Cmd) : (doCorrApplyCoarse c s).st.memoryWf = true := by
  grind [doCorrApplyCoarse, Res.bad, Res.ok, State.mapStg, Res.fail, State.memoryWf]

theorem wf_doCorrGetStaging (c : Cmd) : (doCorrGetStaging c s).st.memoryWf = true := by
  dsimp only [doCorrGetStaging]
  repeat' split
  all_goals exact hwf

theorem wf_startSchedule (start : Nat) : (s.startSchedule start).memoryWf = true := by
  grind [State.startSchedule, wf_endSchedule, State.mapTile, State.mapIng, State.mapStg, State.mapLoad, wf_enterNormal,
    State.mapBas, State.mapFilt, State.mapCap, State.mapQz, State.memoryWf]

theorem wf_doCorrStart (c : Cmd) : (doCorrStart c s).st.memoryWf = true := by
  grind [doCorrStart, Res.fail, Res.bad, Res.ok, wf_startSchedule, State.memoryWf]

theorem wf_doCorrStop (c : Cmd) : (doCorrStop c s).st.memoryWf = true := by
  grind [doCorrStop, Res.fail, Res.ok, wf_tryStop, State.mapTile, State.memoryWf]

end Keep

end Sys2Proof.Machine
end

section
/-! That beams, capture, filters, Basalt, the dump commands and admission keep memory in canonical form, in the order of the model's
files (Beams to Admission). -/

namespace Sys2Proof.Machine

section Keep
variable {s : State} (hwf : s.memoryWf = true)
include hwf

theorem wf_offerBeam (n c kind : Nat) (d : Dest) (make : Nat → Nat → List Byte) : (s.offerBeam n c kind d make).1.memoryWf =
    true := by
  grind [State.offerBeam, wf_handFrame, State.setBeamSet, State.memoryWf]

theorem wf_beamLoss (n c k : Nat) : (s.beamLoss n c k).memoryWf = true := by
  grind [State.beamLoss, wf_raiseEvent, State.setBeamSet, State.memoryWf]

theorem wf_formBeams (w : TileWork) (load : BeamLoad) : (s.formBeams w load).1.memoryWf = true := by
  unfold State.formBeams
  extract_lets n d per set first samples valid nInt intervals sat s1
  have hcounted : s1.memoryWf = true := hwf
  clear_value s1 intervals valid samples
  split
  next s2 l1 hvoltage =>
  have hs2 : s2.memoryWf = true := by
    refine wf_fst_of_eq ?_ hvoltage
    split
    · exact hcounted
    · refine wf_foldl_fst ?_ _ hcounted
      rintro ⟨u, l⟩ e hu
      dsimp only
      exact wf_offerBeam (s := u) hu _ _ _ _ _
  split
  next s3 l2 hdetected =>
  have hs3 : s3.memoryWf = true := by
    refine wf_fst_of_eq ?_ hdetected
    split
    · exact hs2
    · refine wf_foldl_fst ?_ _ hs2
      rintro ⟨u, l⟩ e hu
      dsimp only
      exact wf_offerBeam (s := u) hu _ _ _ _ _
  exact wf_ite (wf_beamLoss hs3 _ _ _) hs3

theorem wf_evBeamSwapDone (set : Fin 16) : (evBeamSwapDone set s).memoryWf = true := by
  grind [evBeamSwapDone, wf_swapDone, wf_finishSwap, State.memoryWf]

theorem wf_swapBeam (n idx : Nat) : (s.swapBeam n idx).memoryWf = true := by
  grind [State.swapBeam, wf_finishSwap, State.setBeamSet, State.memoryWf]

theorem wf_doBeamApply (c : Cmd) : (doBeamApply c s).st.memoryWf = true := by
  grind [doBeamApply, Res.bad, Res.fail, Res.ok, wf_swapBeam, wf_foldl, wf_foldl_fst, State.memoryWf]

theorem wf_doBeamLoadWeights (c : Cmd) : (doBeamLoadWeights c s).st.memoryWf = true := by
  grind [doBeamLoadWeights, Res.bad, Res.fail, Res.ok, State.setBeamSet, wf_foldl, wf_foldl_fst, State.memoryWf]

theorem wf_doBeamLoadScale (c : Cmd) : (doBeamLoadScale c s).st.memoryWf = true := by
  grind [doBeamLoadScale, Res.bad, Res.fail, Res.ok, State.setBeamSet, wf_foldl, wf_foldl_fst, State.memoryWf]

theorem wf_doBeamGetSet (c : Cmd) : (doBeamGetSet c s).st.memoryWf = true := by
  dsimp only [doBeamGetSet]
  repeat' split
  all_goals exact hwf

theorem wf_setLevel (l : Nat) : (s.setLevel l).memoryWf = true := by
  grind [State.setLevel, wf_raise, State.mapCap, State.memoryWf]

theorem wf_freeze (t : Trigger) (merged : Nat) : (s.freeze t merged).memoryWf = true := by
  grind [State.freeze, State.mapCap, wf_setLevel, State.memoryWf]

theorem wf_evAutoForcedTrigger : (evAutoForcedTrigger s).memoryWf = true := by
  grind [evAutoForcedTrigger, State.mapCap, State.memoryWf]

theorem wf_pumpSegments : s.pumpSegments.memoryWf = true := by
  grind [State.pumpSegments, State.mapSegment, State.mapCap, wf_handFrame, wf_foldl, wf_foldl_fst, State.memoryWf]

theorem wf_evSegmentEnd : (evSegmentEnd s).memoryWf = true := by
  grind [evSegmentEnd, State.mapCap, State.mapSegment, wf_pumpSegments, State.memoryWf]

theorem wf_releaseSegment (x : Segment) : (s.releaseSegment x).memoryWf = true := by
  grind [State.releaseSegment, State.mapCap, wf_setLevel, wf_pumpSegments, wf_raiseEvent, State.memoryWf]

theorem wf_evSegmentDone : (evSegmentDone s).memoryWf = true := by
  grind [evSegmentDone, wf_pumpSegments, wf_releaseSegment, wf_frameGone, State.emit, State.setPort, wf_push, State.memoryWf]

theorem wf_exportFirst : s.exportFirst.memoryWf = true := by
  grind [State.exportFirst, wf_evSegmentDone, State.memoryWf]

theorem wf_evCaptureWindowClose : (evCaptureWindowClose s).memoryWf = true := by
  grind [evCaptureWindowClose, wf_exportFirst, State.mapCap, wf_freeze, wf_foldl, wf_foldl_fst, State.memoryWf]

theorem wf_fireDetector (n idx : Nat) (value : Int) : (s.fireDetector n idx value).memoryWf = true := by
  grind [State.fireDetector, wf_raiseEvent, State.setDet, State.mapCap, State.memoryWf]

theorem wf_offerOutput (chain series label : Nat) (x : Int) (weight : Nat) (gap : Bool) : (s.offerOutput chain series label x
    weight gap).memoryWf = true := by
  grind [State.offerOutput, State.setDet, State.mapCap, wf_fireDetector, wf_foldl, wf_foldl_fst, State.memoryWf]

theorem wf_offerEdge (pin : Nat) (rising : Bool) (idx : Nat) : (s.offerEdge pin rising idx).memoryWf = true := by
  grind [State.offerEdge, State.setDet, State.mapCap, wf_fireDetector, wf_foldl, wf_foldl_fst, State.memoryWf]

theorem wf_doCapSetSegment (c : Cmd) : (doCapSetSegment c s).st.memoryWf = true := by
  unfold doCapSetSegment
  dsimp only
  repeat' split
  all_goals exact hwf

theorem wf_doCapSetDetector (c : Cmd) : (doCapSetDetector c s).st.memoryWf = true := by
  grind [doCapSetDetector, Res.bad, Res.ok, State.setDet, State.mapCap, State.draw, State.memoryWf]

theorem wf_doCapArm (c : Cmd) : (doCapArm c s).st.memoryWf = true := by
  grind [doCapArm, Res.bad, Res.ok, State.mapCap, State.memoryWf]

theorem wf_doCapTrigger (c : Cmd) : (doCapTrigger c s).st.memoryWf = true := by
  grind [doCapTrigger, Res.bad, Res.ok, State.mapCap, State.memoryWf]

theorem wf_doCapGetStatus (c : Cmd) : (doCapGetStatus c s).st.memoryWf = true := by
  dsimp only [doCapGetStatus]
  repeat' split
  all_goals exact hwf

theorem wf_offerChain (n step : Nat) (d : Dest) (l : List ChainOut) : (s.offerChain n step d l).1.memoryWf = true := by
  grind [State.offerChain, State.setChain, State.mapFilt, wf_handFrame, State.setBeamSet, State.memoryWf]

theorem wf_emitOutputs (n visit step : Nat) (outs : List ChainOut) : (s.emitOutputs n visit step outs).memoryWf = true := by
  grind [State.emitOutputs, wf_offerOutput, wf_offerChain, wf_beamLoss, wf_foldl, wf_foldl_fst, State.memoryWf]

theorem wf_handChains (n channel visit : Nat) (samples : List (List BeamSample)) (intervals : List Interval) (valid : List Nat)
    : (s.handChains n channel visit samples intervals valid).memoryWf = true := by
  grind [State.handChains, State.setChain, State.mapFilt, wf_foldl, wf_foldl_fst, State.memoryWf]

theorem wf_evChainVisitProcess (chain : Fin 32) : (evChainVisitProcess chain s).memoryWf = true := by
  grind [evChainVisitProcess, State.setChain, State.mapFilt, wf_chainGap, State.settleSyncs, wf_emitOutputs, State.memoryWf]

theorem wf_decSync (idx : Nat) : (s.decSync idx).memoryWf = true := by
  grind [State.decSync, State.mapFilt, State.memoryWf]

theorem wf_evFilterSwapDone : (evFilterSwapDone s).memoryWf = true := by
  grind [evFilterSwapDone, wf_filtersDone, State.mapFilt, wf_finishFilters, State.memoryWf]

theorem wf_swapFilters (mask idx : Nat) : (s.swapFilters mask idx).memoryWf = true := by
  grind [State.swapFilters, wf_finishFilters, State.mapFilt, State.setChain, wf_foldl, wf_foldl_fst, State.memoryWf]

theorem wf_doFiltSetChain (c : Cmd) : (doFiltSetChain c s).st.memoryWf = true := by
  grind [doFiltSetChain, Res.bad, Res.fail, Res.ok, State.setChain, State.mapFilt, State.memoryWf]

theorem wf_doFiltEnable (c : Cmd) : (doFiltEnable c s).st.memoryWf = true := by
  grind [doFiltEnable, Res.bad, Res.fail, Res.ok, State.setChain, State.mapFilt, wf_foldl, wf_foldl_fst, State.memoryWf]

theorem wf_doFiltSync (c : Cmd) : (doFiltSync c s).st.memoryWf = true := by
  grind [doFiltSync, Res.fail, Res.ok, wf_raiseEvent, State.memoryWf]

theorem wf_doFiltLoadCoef (c : Cmd) : (doFiltLoadCoef c s).st.memoryWf = true := by
  grind [doFiltLoadCoef, Res.bad, Res.fail, Res.ok, State.setChain, State.mapFilt, wf_foldl, wf_foldl_fst, State.memoryWf]

theorem wf_doFiltApply (c : Cmd) : (doFiltApply c s).st.memoryWf = true := by
  grind [doFiltApply, Res.fail, Res.ok, wf_swapFilters, State.memoryWf]

theorem wf_doFiltGetChain (c : Cmd) : (doFiltGetChain c s).st.memoryWf = true := by
  dsimp only [doFiltGetChain]
  repeat' split
  all_goals exact hwf

theorem wf_discardSlot (slot tile : Nat) (diag pres : Bool) : (s.discardSlot slot tile diag pres).memoryWf = true := by
  grind [State.discardSlot, State.mapTile, State.setSlot, State.mapBas, wf_raise, State.setTileInfo, State.memoryWf]

theorem wf_checkSlots (w : TileWork) : (s.checkSlots w).1.memoryWf = true := by
  grind [State.checkSlots, State.mapTile, wf_discardSlot, wf_foldl, wf_foldl_fst, State.memoryWf]

theorem wf_accTraffic (c : Nat) (g : Integ) : (s.accTraffic c g).memoryWf = true := by
  grind [State.accTraffic, wf_engineRange, wf_engineRecords, State.memoryWf]

theorem wf_accumulate (w : TileWork) : (s.accumulate w).memoryWf = true := by
  grind [State.accumulate, wf_checkSlots, State.mapBas, State.setInteg, wf_accTraffic, State.memoryWf]

theorem wf_visitBeams (w : TileWork) : (s.visitBeams w).memoryWf = true := by
  grind [State.visitBeams, wf_formBeams, wf_handChains, wf_foldl, wf_foldl_fst, State.memoryWf]

theorem wf_roundVisitDone (w : TileWork) : (s.roundVisitDone w).memoryWf = true := by
  grind [State.roundVisitDone, wf_showRound, State.mapRound, State.mapLoad, State.memoryWf]

theorem wf_evBasaltVisitProcess : (evBasaltVisitProcess s).memoryWf = true := by
  grind [evBasaltVisitProcess, wf_catchUp, State.mapStg, wf_skipOthers, State.forgetVisit, State.mapBas, wf_visitBeams,
    wf_accumulate, wf_endInteg, wf_settleSched, State.settleSyncs, State.mapFilt, State.settleDumps, State.mapDump,
    wf_settleLost, State.memoryWf]

theorem wf_evTileVisitComplete (slot : Nat) (upsets : List Upset) : (evTileVisitComplete slot upsets s).memoryWf = true := by
  grind [evTileVisitComplete, State.mapTile, State.setSlot, State.setTileInfo, wf_tryStop, wf_roundVisitDone, State.mapStg,
    State.setBank, State.memoryWf]

theorem wf_doCorrSetPreload (c : Cmd) : (doCorrSetPreload c s).st.memoryWf = true := by
  dsimp only [doCorrSetPreload]
  split
  · exact hwf
  · split
    · exact hwf
    · exact hwf

theorem wf_doCorrLoadFringe (c : Cmd) : (doCorrLoadFringe c s).st.memoryWf = true := by
  grind [doCorrLoadFringe, Res.bad, Res.fail, Res.ok, State.mapBas, wf_foldl, wf_foldl_fst, State.memoryWf]

theorem wf_doCorrSetRotation (c : Cmd) : (doCorrSetRotation c s).st.memoryWf = true := by
  grind [doCorrSetRotation, Res.bad, Res.fail, Res.ok, State.mapBas, State.memoryWf]

theorem wf_doCorrSetCombine (c : Cmd) : (doCorrSetCombine c s).st.memoryWf = true := by
  grind [doCorrSetCombine, Res.bad, Res.fail, Res.ok, State.mapBas, State.memoryWf]

theorem wf_doCorrGetAccum (c : Cmd) : (doCorrGetAccum c s).st.memoryWf = true := by
  dsimp only [doCorrGetAccum]
  repeat' split
  all_goals exact hwf

theorem wf_doCorrSetDump (c : Cmd) : (doCorrSetDump c s).st.memoryWf = true := by
  grind [doCorrSetDump, Res.bad, Res.fail, Res.ok, State.mapDump, State.memoryWf]

theorem wf_doCorrDumpAt (c : Cmd) : (doCorrDumpAt c s).st.memoryWf = true := by
  grind [doCorrDumpAt, Res.bad, Res.fail, Res.ok, State.scheduleDump, State.mapDump, State.memoryWf]

theorem wf_doCorrMapDest (c : Cmd) : (doCorrMapDest c s).st.memoryWf = true := by
  grind [doCorrMapDest, Res.bad, Res.fail, wf_settleLost, Res.ok, State.mapDump, wf_foldl, wf_foldl_fst, State.memoryWf]

theorem wf_doCorrGetDump (c : Cmd) : (doCorrGetDump c s).st.memoryWf = true := by
  dsimp only [doCorrGetDump]
  repeat' split
  all_goals exact hwf

theorem wf_doCorrSetDest (c : Cmd) : (doCorrSetDest c s).st.memoryWf = true := by
  grind [doCorrSetDest, Res.bad, Res.ok, State.mapDump, State.memoryWf]

theorem wf_doBeamSetDest (c : Cmd) : (doBeamSetDest c s).st.memoryWf = true := by
  grind [doBeamSetDest, Res.bad, Res.fail, Res.ok, State.memoryWf]

theorem wf_doCapSetDest (c : Cmd) : (doCapSetDest c s).st.memoryWf = true := by
  grind [doCapSetDest, Res.bad, Res.ok, wf_pumpSegments, State.mapCap, State.memoryWf]

theorem wf_whenAdmitted {changed : State} (hchanged : changed.memoryWf = true) : (s.whenAdmitted changed).st.memoryWf = true := by
  unfold State.whenAdmitted
  split
  · exact hchanged
  · exact hwf

theorem wf_doPwrSetOp (c : Cmd) : (doPwrSetOp c s).st.memoryWf = true := by
  grind [doPwrSetOp, Res.bad, wf_whenAdmitted, State.mapLoad, State.memoryWf]

theorem wf_doPwrGetOp (c : Cmd) : (doPwrGetOp c s).st.memoryWf = true := by
  dsimp only [doPwrGetOp]
  exact hwf

theorem wf_doCorrSetShed (c : Cmd) : (doCorrSetShed c s).st.memoryWf = true := by
  grind [doCorrSetShed, Res.bad, Res.ok, State.mapLoad, State.memoryWf]

theorem wf_doCorrGetLoad (c : Cmd) : (doCorrGetLoad c s).st.memoryWf = true := by
  grind [doCorrGetLoad, wf_resolveSlacks, Res.okWith, State.memoryWf]

theorem wf_loadLayout (l : CorrLayout) : (s.loadLayout l).memoryWf = true := by
  grind [State.loadLayout, State.mapDump, State.mapStg, State.mapTile, wf_endSchedule, State.memoryWf]

theorem wf_doCorrSetLayout (c : Cmd) : (doCorrSetLayout c s).st.memoryWf = true := by
  grind [doCorrSetLayout, Res.bad, Res.fail, wf_loadLayout, wf_whenAdmitted, State.memoryWf]

theorem wf_doCorrGetLayout (c : Cmd) : (doCorrGetLayout c s).st.memoryWf = true := by
  dsimp only [doCorrGetLayout]
  repeat' split
  all_goals exact hwf

theorem wf_doCorrGetTiles (c : Cmd) : (doCorrGetTiles c s).st.memoryWf = true := by
  dsimp only [doCorrGetTiles]
  repeat' split
  all_goals exact hwf

theorem wf_doBeamSetConfig (c : Cmd) : (doBeamSetConfig c s).st.memoryWf = true := by
  grind [doBeamSetConfig, Res.bad, State.setBeamSet, Res.fail, wf_whenAdmitted, State.memoryWf]

theorem wf_doCorrSetSplit (c : Cmd) : (doCorrSetSplit c s).st.memoryWf = true := by
  grind [doCorrSetSplit, Res.bad, Res.fail, wf_whenAdmitted, State.memoryWf]

theorem wf_doCapSetRing (c : Cmd) : (doCapSetRing c s).st.memoryWf = true := by
  grind [doCapSetRing, Res.bad, Res.fail, wf_whenAdmitted, State.mapCap, State.memoryWf]

theorem wf_doMemSetHost (c : Cmd) : (doMemSetHost c s).st.memoryWf = true := by
  grind [doMemSetHost, Res.bad, State.mapMem, Res.fail, Res.ok, State.memoryWf]

end Keep

end Sys2Proof.Machine
end

section
/-! That the journal keeps memory in canonical form (R433, R503): the cursor that appends records, the halves it erases, and what its
steps write. -/

namespace Sys2Proof.Machine

/-! ## The flash under the journal's cursor -/

theorem flashWf_enter {c : JCursor} (hc : Memory.wf 0xFF c.flash = true) (b : Nat) : Memory.wf 0xFF (c.enter b).flash = true :=
  memErase_wf 0xFF _ _ _ hc

theorem flashWf_write {c : JCursor} (hc : Memory.wf 0xFF c.flash = true) (bs : List Byte) :
    Memory.wf 0xFF (c.write bs).flash = true := memWrite_wf 0xFF _ _ _ hc

theorem flashWf_seek (fuel : Nat) {c : JCursor} (hc : Memory.wf 0xFF c.flash = true) (r : Nat) :
    Memory.wf 0xFF (JCursor.seek fuel c r).flash = true := by
  induction fuel generalizing c with
  | zero => exact hc
  | succ fuel ih => grind [JCursor.seek, flashWf_enter]

theorem flashWf_append (opened : Bool) (fuel : Nat) {c : JCursor} (hc : Memory.wf 0xFF c.flash = true) (type_ : Nat) (last : Bool)
    (payload : List Byte) : Memory.wf 0xFF (JCursor.append opened fuel c type_ last payload).flash = true := by
  induction fuel generalizing c type_ last payload with
  | zero => exact hc
  | succ fuel ih =>
    unfold JCursor.append
    extract_lets r cursor b zeroed skipping skipped
    have hsought : Memory.wf 0xFF cursor.flash = true := flashWf_seek 64 hc r
    have hskipping : Memory.wf 0xFF skipping.flash = true := memWrite_wf 0xFF _ _ _ hsought
    clear_value cursor skipping
    split
    · exact hc
    · split
      · split
        · exact hc
        · have hskipped : Memory.wf 0xFF skipped.flash = true := ih hskipping _ _ _
          clear_value skipped
          exact ih (c := { skipped with bad := withBit skipped.bad b true }) hskipped _ _ _
      · exact flashWf_write hsought _

theorem flashWf_appendAll {c : JCursor} (hc : Memory.wf 0xFF c.flash = true) (rs : List JRecord) :
    Memory.wf 0xFF (c.appendAll rs).flash = true := by
  refine List.foldlRecOn rs _ (motive := fun a : JCursor × Bool => Memory.wf 0xFF a.1.flash = true) hc fun a ha r _ => ?_
  split
  · exact ha
  · exact flashWf_append _ _ ha _ _ _

theorem flashWf_eraseHalf {fl : Mem} (hfl : Memory.wf 0xFF fl = true) (h : Nat) (failing : List Nat) :
    Memory.wf 0xFF (eraseHalf fl h failing) = true := by
  refine List.foldlRecOn (List.range 64) _ (motive := fun f : Mem => Memory.wf 0xFF f = true) hfl fun f hf b _ => ?_
  split
  · exact hf
  · exact memErase_wf 0xFF _ _ _ hf

section Keep
variable {s : State} (hwf : s.memoryWf = true)
include hwf

theorem wf_flash : Memory.wf 0xFF s.flash = true := (memoryWf_iff.mp hwf).2.2

/-- What the journal writes goes to flash alone. -/
theorem wf_setFlash {fl : Mem} (hfl : Memory.wf 0xFF fl = true) : ({ s with flash := fl } : State).memoryWf = true := by
  obtain ⟨hhbm, hsram, -⟩ := memoryWf_iff.mp hwf
  exact memoryWf_iff.mpr ⟨hhbm, hsram, hfl⟩

theorem wf_pieces (req : Nat) : (s.pieces req).memoryWf = true := hwf

theorem wf_mapJrnl (f : JrnlState → JrnlState) : (s.mapJrnl f).memoryWf = true := hwf

theorem wf_abandonHalf : s.abandonHalf.memoryWf = true := hwf

/-! ## Commits (R503) -/

theorem wf_maybeCompact : s.maybeCompact.memoryWf = true := wf_ite (wf_mapJrnl hwf _) hwf

theorem wf_appendRecords (rs : List JRecord) (failing : List Nat) : (s.appendRecords rs failing).1.memoryWf = true := by
  have hcursor := flashWf_appendAll (c := s.cursor failing) (wf_flash hwf) rs
  unfold State.appendRecords
  dsimp only
  split
  · exact hwf
  · exact wf_maybeCompact (wf_mapJrnl (wf_setFlash (wf_pieces hwf 7) hcursor) _)

theorem wf_commitOldest (failing : List Nat) : (s.commitOldest failing).1.memoryWf = true := by
  grind [State.commitOldest, wf_mapJrnl, wf_appendRecords]

/-! ## Compaction (R505, R506) -/

theorem wf_checkHalf (failing : List Nat) : (s.checkHalf failing).memoryWf = true := by
  have herased := wf_setFlash hwf (flashWf_eraseHalf (wf_flash hwf) (1 - s.jrnl.half) failing)
  exact wf_ite (wf_mapJrnl herased _) (wf_abandonHalf (wf_mapJrnl herased _))

theorem wf_writeHeader (failing : List Nat) : (s.writeHeader failing).memoryWf = true :=
  wf_ite (wf_abandonHalf hwf) (wf_mapJrnl (wf_setFlash hwf (memWrite_wf 0xFF _ _ _ (wf_flash hwf))) _)

theorem wf_writeSnapshot (failing : List Nat) : (s.writeSnapshot failing).memoryWf = true := by
  unfold State.writeSnapshot
  extract_lets j rs first c0 c s1
  have hwritten : s1.memoryWf = true := wf_setFlash hwf (flashWf_appendAll (c := c0) (wf_flash hwf) _)
  exact wf_ite (wf_abandonHalf hwritten) (wf_mapJrnl hwritten _)

theorem wf_switchHalves (failing : List Nat) : (s.switchHalves failing).memoryWf = true :=
  wf_ite (wf_abandonHalf hwf) (wf_mapJrnl (wf_mapJrnl (wf_setFlash hwf (memWrite_wf 0xFF _ _ _ (wf_flash hwf))) _) _)

theorem wf_eraseOld (failing : List Nat) : (s.eraseOld failing).memoryWf = true :=
  wf_mapJrnl (wf_setFlash hwf (flashWf_eraseHalf (wf_flash hwf) _ failing)) _

theorem wf_evCompactionStepDone (failing : List Nat) : (evCompactionStepDone failing s).memoryWf = true := by
  have hpieces := wf_pieces hwf 7
  unfold evCompactionStepDone
  dsimp only
  split
  · exact hwf
  · split
    · exact wf_checkHalf hpieces failing
    · exact wf_writeHeader hpieces failing
    · exact wf_writeSnapshot hpieces failing
    · exact wf_switchHalves hpieces failing
    · exact wf_maybeCompact (wf_eraseOld hpieces failing)
    · exact hwf

/-! ## Recovery (R507) -/

theorem wf_formatJournal (failing : List Nat) : (s.formatJournal failing).memoryWf = true := by
  unfold State.formatJournal
  extract_lets bad fl first
  have herased : Memory.wf 0xFF fl = true := flashWf_eraseHalf (flashWf_eraseHalf (wf_flash hwf) 0 failing) 1 _
  refine wf_mapJrnl (wf_setFlash (wf_pieces hwf 7) ?_) _
  split
  · exact herased
  · exact memWrite_wf 0xFF _ _ _ herased

theorem wf_recoverJournal (failing : List Nat) : (s.recoverJournal failing).1.memoryWf = true := by
  unfold State.recoverJournal
  split
  · exact wf_formatJournal hwf failing
  · exact wf_maybeCompact (wf_mapJrnl (wf_setFlash (wf_pieces hwf 7) (flashWf_eraseHalf (wf_flash hwf) _ _)) _)

/-! ## Commands (R511, R512) -/

theorem wf_doJrnlGetStatus (c : Cmd) : (doJrnlGetStatus c s).st.memoryWf = true := hwf

theorem wf_doJrnlCompact (c : Cmd) : (doJrnlCompact c s).st.memoryWf = true := by
  unfold doJrnlCompact
  split <;> exact hwf

theorem wf_doJrnlRead (c : Cmd) : (doJrnlRead c s).st.memoryWf = true := by
  dsimp only [doJrnlRead]
  split <;> exact hwf

end Keep

end Sys2Proof.Machine
end

section
/-! That accesses of the matrix, queues and DMA channels keep memory in canonical form (Bus, Rings; R425, R433). -/

namespace Sys2Proof.Machine

section Keep
variable {s : State} (hwf : s.memoryWf = true)
include hwf

theorem wf_setBank (b : Nat) (v : Bank) : (s.setBank b v).memoryWf = true := hwf

theorem wf_setStagingByte (off : Nat) (v : Byte) : (s.setStagingByte off v).memoryWf = true :=
  wf_ite (wf_setBank hwf _ _) (wf_setBank hwf _ _)

theorem wf_sramBeat (req addr off len : Nat) : (s.sramBeat req addr off len).1.memoryWf = true := by
  grind [State.sramBeat, State.errResp, State.mapMem, wf_sramError, State.memoryWf]

theorem wf_readBeat (req addr len : Nat) (host : List Byte) : (s.readBeat req addr len host).1.memoryWf = true := by
  grind [State.readBeat, State.errResp, State.mapMem, State.decErr, wf_sramBeat, wf_readHbmUnit, State.memoryWf]

theorem wf_readRangeGo (req addr : Nat) (host : List Byte) (ahead : Nat) (l : List (Nat × Nat)) (acc : List Byte)
    (f : Option (Nat × Resp)) : (State.readRange.go req addr host ahead s l acc f).st.memoryWf = true := by
  induction l generalizing s acc f with
  | nil => exact hwf
  | cons c l ih =>
    have hbeat {u : State} (hu : u.memoryWf = true) (bs : List Byte) : (u.readBeat req c.1 c.2 bs).1.memoryWf = true :=
      wf_readBeat hu req c.1 c.2 bs
    have hgranted {p : Prop} [Decidable p] : (if p then s.grant req else s).memoryWf = true := wf_ite hwf hwf
    unfold State.readRange.go
    extract_lets dropped granted
    split
    · exact hwf
    · have hread := hbeat (u := granted) hgranted (slice host (c.1 - addr) c.2)
      split
      next u r bs hanswer =>
      have hu : u.memoryWf = true := wf_fst_of_eq hread hanswer
      split
      · exact ih hu _ _
      · exact ih hu _ _
      · exact ih hu _ _

theorem wf_readRange (req addr len : Nat) (host : List Byte) (ahead : Nat) :
    (s.readRange req addr len host ahead).st.memoryWf = true := wf_readRangeGo hwf _ _ _ _ _ _ _

theorem wf_errResp : s.errResp.memoryWf = true := hwf

theorem wf_decErr (req addr : Nat) (write : Bool) : (s.decErr req addr write).memoryWf = true := hwf

theorem wf_pieceWrite (req addr : Nat) (bs : List Byte) : (s.pieceWrite req addr bs).1.memoryWf = true := by
  have hfailed : (s.errResp, Resp.err).1.memoryWf = true := wf_errResp hwf
  have hrefused : (s.decErr req addr true, Resp.decerr).1.memoryWf = true := wf_decErr hwf req addr true
  unfold State.pieceWrite
  refine wf_ite_fst hrefused (wf_ite_fst hfailed ?_)
  split
  · exact hrefused
  · exact hfailed
  · exact wf_ite_fst hfailed (wf_sramStore hwf _ _)
  · exact wf_ite_fst hfailed (wf_sramStore hwf _ _)
  · exact hfailed
  · exact wf_ite_fst (wf_foldl (fun u i hu => wf_setStagingByte hu _ _) _ hwf) hfailed
  · exact wf_ite_fst (wf_setFlash hwf (memWrite_wf 0xFF _ _ _ (wf_flash hwf))) hfailed
  · exact wf_ite_fst hfailed (wf_storePiece hwf req _ bs)
  · exact wf_ite_fst hwf hfailed

theorem wf_busPiece (req addr : Nat) (bs : List Byte) : (s.busPiece req addr bs).1.memoryWf = true := by
  grind [State.busPiece, wf_pieceWrite, State.grant, State.mapMem, State.memoryWf]

theorem wf_writeRangeGo (req addr : Nat) (bs : List Byte) (l : List (Nat × Nat)) :
    (State.writeRange.go req addr bs s l).1.memoryWf = true := by
  induction l generalizing s with
  | nil => exact hwf
  | cons c l ih =>
    have hpiece := wf_busPiece hwf req c.1 (slice bs (c.1 - addr) c.2)
    unfold State.writeRange.go
    dsimp only
    exact wf_ite_fst (ih hpiece) hpiece

theorem wf_writeRange (req addr : Nat) (bs : List Byte) : (s.writeRange req addr bs).1.memoryWf = true :=
  wf_writeRangeGo hwf req addr bs _

theorem wf_inboundPiece (addr : Nat) (bs : List Byte) : (s.inboundPiece addr bs).memoryWf = true := by
  grind [State.inboundPiece, State.errResp, State.mapMem, State.grant, wf_busPiece, State.memoryWf]

theorem wf_readElement (q : Queue) (i : Nat) (host : Option (List Byte)) : (s.readElement q i host).1.memoryWf = true := by
  grind [State.readElement, wf_readRange, State.memoryWf]

theorem wf_settleChannel (n : Nat) : (s.settleChannel n).memoryWf = true := by
  grind [State.settleChannel, State.setDma, State.mapRing, State.memoryWf]

theorem wf_writeRecord (n : Nat) (r : DmaRecord) : (s.writeRecord n r).1.memoryWf = true := by
  grind [State.writeRecord, wf_push, State.setDma, State.mapRing, State.memoryWf]

theorem wf_stopNow (n : Nat) : (s.stopNow n).memoryWf = true := by
  grind [State.stopNow, State.setDma, State.mapRing, wf_writeRecord, State.memoryWf]

theorem wf_settleQueue (q : Nat) : (s.settleQueue q).memoryWf = true := by
  grind [State.settleQueue, wf_settleChannel, wf_stopNow, wf_foldl, wf_foldl_fst, State.memoryWf]

theorem wf_freeStart (n : Nat) : (s.freeStart n).memoryWf = true := by
  grind [State.freeStart, State.memoryWf]

theorem wf_dmaStart (n : Nat) : (s.dmaStart n).memoryWf = true := by
  grind [State.dmaStart, State.setDma, State.mapRing, wf_settleChannel, State.memoryWf]

theorem wf_evRqDb (qn value : Nat) : (evRqDb qn value s).memoryWf = true := by
  grind [evRqDb, State.errResp, State.mapMem, wf_settleQueue, State.setQueue, State.mapRing, State.memoryWf]

theorem wf_writeRqCfg (qn value : Nat) : (s.writeRqCfg qn value).memoryWf = true := by
  grind [State.writeRqCfg, wf_settleQueue, State.setQueue, State.memoryWf]

theorem wf_evRqCfgEnable (qn value : Nat) : (evRqCfgEnable qn value s).memoryWf = true := by
  grind [evRqCfgEnable, wf_writeRqCfg, State.errResp, State.mapMem, State.memoryWf]

theorem wf_evMsixCoalesceExpiry (qn : Nat) : (evMsixCoalesceExpiry qn s).memoryWf = true := by
  grind [evMsixCoalesceExpiry, wf_msix, State.setQueue, State.memoryWf]

theorem wf_evDmaDescriptorStart (n : Nat) (element : Option (List Byte)) : (evDmaDescriptorStart n element s).memoryWf = true :=
    by
  grind [evDmaDescriptorStart, wf_readElement, State.setDma, State.mapRing, State.setQueue, State.memoryWf]

theorem wf_writeUnits (units : List (Nat × Nat)) (dst : Nat) (bs : List Byte) : (s.writeUnits units dst bs).memoryWf = true :=
    by
  grind [State.writeUnits, State.mapMem, wf_pieceWrite, State.grant, wf_foldl, wf_foldl_fst, State.memoryWf]

theorem wf_maybeWrite (dst from_ : Nat) (bs : List Byte) : (s.maybeWrite dst from_ bs).memoryWf = true := by
  grind [State.maybeWrite, wf_writeUnits, State.draw, wf_foldl, wf_foldl_fst, State.memoryWf]

theorem wf_draw : s.draw.memoryWf = true := hwf

theorem wf_dmaWrite (dst : Nat) (bs : List Byte) (hostErr : Option Nat) : (s.dmaWrite dst bs hostErr).1.memoryWf = true := by
  unfold State.dmaWrite
  split
  · split
    · exact wf_writeRange hwf 4 dst bs
    · next a len _ =>
      have hahead := wf_writeRange hwf 4 dst (bs.take (a - dst))
      split
      · next hcut => exact wf_fst_of_eq hahead hcut
      · next s1 hcut =>
        have hpiece := wf_draw (wf_busPiece (wf_fst_of_eq hahead hcut) 4 a ((List.range len).map (Config.freeByte s1.draws)))
        exact wf_maybeWrite (wf_ite (wf_errResp hpiece) hpiece) _ _ _
  · have hall := wf_writeRange hwf 4 dst bs
    split
    · next hwritten => exact wf_fst_of_eq hall hwritten
    · next hcut => exact wf_maybeWrite (wf_fst_of_eq hall hcut) _ _ _

theorem wf_dmaCopy (d : Desc) (index : Nat) (x : DmaOutcome) : (s.dmaCopy d index x).1.memoryWf = true := by
  grind [State.dmaCopy, wf_readRange, State.draw, wf_dmaWrite, State.memoryWf]

theorem wf_dmaFill (d : Desc) (index : Nat) (x : DmaOutcome) : (s.dmaFill d index x).1.memoryWf = true := by
  grind [State.dmaFill, wf_dmaWrite, State.memoryWf]

theorem wf_dmaCompare (d : Desc) (index : Nat) (x : DmaOutcome) : (s.dmaCompare d index x).1.memoryWf = true := by
  grind [State.dmaCompare, wf_readRange, State.draw, State.memoryWf]

theorem wf_runDesc (r : RunningDesc) (x : DmaOutcome) : (s.runDesc r x).1.memoryWf = true := by
  grind [State.runDesc, wf_dmaCopy, wf_dmaFill, wf_dmaCompare, State.memoryWf]

theorem wf_endDesc (n : Nat) (r : RunningDesc) (rec_ : DmaRecord) : (s.endDesc n r rec_).memoryWf = true := by
  grind [State.endDesc, wf_writeRecord, State.setDma, State.mapRing, wf_writeBack, State.setQueue, wf_freeStart, wf_raise,
    wf_stopNow, wf_settleChannel, State.memoryWf]

theorem wf_evDmaDescriptorComplete (n : Nat) (x : DmaOutcome) : (evDmaDescriptorComplete n x s).memoryWf = true := by
  grind [evDmaDescriptorComplete, wf_runDesc, wf_endDesc, State.memoryWf]

theorem wf_cutDesc (r : RunningDesc) : (s.cutDesc r).1.memoryWf = true := by
  grind [State.cutDesc, State.draw, wf_readRange, wf_writeRange, wf_maybeWrite, State.memoryWf]

theorem wf_abortChannel (n : Nat) : (s.abortChannel n).memoryWf = true := by
  grind [State.abortChannel, State.setDma, State.mapRing, wf_cutDesc, wf_endDesc, State.memoryWf]

theorem wf_abortChannels : s.abortChannels.memoryWf = true := by
  grind [State.abortChannels, wf_abortChannel, wf_foldl, wf_foldl_fst, State.memoryWf]

theorem wf_evDmaDrainTimeout : (evDmaDrainTimeout s).memoryWf = true := by
  grind [evDmaDrainTimeout, wf_abortChannels, State.memoryWf]

theorem wf_doRingCreate (c : Cmd) : (doRingCreate c s).st.memoryWf = true := by
  grind [doRingCreate, Res.bad, Res.fail, Res.okWith, State.setQueue, State.memoryWf]

theorem wf_doRingDelete (c : Cmd) : (doRingDelete c s).st.memoryWf = true := by
  grind [doRingDelete, Res.bad, Res.fail, Res.ok, State.setQueue, State.memoryWf]

theorem wf_doDmaSetChannel (c : Cmd) : (doDmaSetChannel c s).st.memoryWf = true := by
  grind [doDmaSetChannel, Res.bad, Res.fail, State.setDma, State.mapRing, Res.ok, wf_settleChannel, wf_freeStart,
    State.memoryWf]

theorem wf_doDmaStop (c : Cmd) : (doDmaStop c s).st.memoryWf = true := by
  grind [doDmaStop, Res.fail, Res.accepted, State.setDma, State.mapRing, wf_freeStart, wf_stopNow, State.memoryWf]

theorem wf_doRingGetStatus (c : Cmd) : (doRingGetStatus c s).st.memoryWf = true := by
  dsimp only [doRingGetStatus]
  repeat' split
  all_goals exact hwf

theorem wf_doDmaGetStatus (p : Cmd) : (doDmaGetStatus p s).st.memoryWf = true := by
  dsimp only [doDmaGetStatus]
  exact hwf

end Keep

end Sys2Proof.Machine
end

section
/-! That the cores, the spares and the power commands keep memory in canonical form (Cores, Spares, Reset; R527). -/

namespace Sys2Proof.Machine

section Keep
variable {s : State} (hwf : s.memoryWf = true)
include hwf

theorem wf_writeMail (h : Fin 2) : (s.writeMail h).memoryWf = true := by
  grind [State.writeMail, wf_sramStore, State.grant, State.mapMem, State.memoryWf]

theorem wf_beat (h : Fin 2) (wire : Bool) : (s.beat h wire).memoryWf = true := by
  grind [State.beat, State.countMissed, State.setCore, State.mapMc, wf_writeMail, State.memoryWf]

theorem wf_enterGap (h : Fin 2) : (s.enterGap h).memoryWf = true := by
  grind [State.enterGap, State.mapMc, State.memoryWf]

theorem wf_stopCore (h : Fin 2) : (s.stopCore h).memoryWf = true := by
  grind [State.stopCore, State.countMissed, State.setCore, State.mapMc, wf_enterGap, wf_writeMail, State.memoryWf]

theorem wf_evWatchdogExpiry (core : Fin 2) : (evWatchdogExpiry core s).memoryWf = true := by
  grind [evWatchdogExpiry, wf_stopCore, State.memoryWf]

theorem wf_evCoreFault (fault : CoreFault) : (evCoreFault fault s).memoryWf = true := by
  grind [evCoreFault, wf_sramError, State.mapMem, wf_stopCore, State.memoryWf]

theorem wf_dropToken : s.dropToken.memoryWf = true := by
  grind [State.dropToken, State.mapMc, wf_enterGap, State.memoryWf]

theorem wf_expireToken : s.expireToken.memoryWf = true := by
  grind [State.expireToken, wf_dropToken, State.memoryWf]

theorem wf_evTokenExpiry : (evTokenExpiry s).memoryWf = true := by
  grind [evTokenExpiry, wf_expireToken, State.memoryWf]

theorem wf_renewToken : s.renewToken.memoryWf = true := by
  grind [State.renewToken, State.mapMc, wf_chargeLease, State.memoryWf]

theorem wf_standbyBeat (h : Fin 2) : (s.standbyBeat h).memoryWf = true := by
  grind [State.standbyBeat, wf_beat, State.setCore, State.memoryWf]

theorem wf_evHeartbeat (core : Fin 2) : (evHeartbeat core s).memoryWf = true := by
  grind [evHeartbeat, wf_expireToken, wf_standbyBeat, wf_stopCore, wf_beat, wf_renewToken, wf_enterGap, State.memoryWf]

theorem wf_resetCore (h : Fin 2) : (s.resetCore h).memoryWf = true := by
  grind [State.resetCore, State.resetRequester, State.mapMem, State.draw, State.countMissed, State.setCore, State.mapMc,
    State.memoryWf]

theorem wf_timeOut : s.timeOut.memoryWf = true := by
  grind [State.timeOut, wf_finish, State.memoryWf]

theorem wf_timeOutWaiting (w : Waiting) : (s.timeOutWaiting w).memoryWf = true := by
  have hcounted : ((s.counted w).mapMc fun m => { m with timeouts := m.timeouts + 1 }).memoryWf = true := hwf
  unfold State.timeOutWaiting
  dsimp only
  split
  · next s2 hentered =>
    have hadvanced {t : State} (ht : t.memoryWf = true) : (t.advanced w).memoryWf = true := ht
    exact wf_finish (hadvanced (wf_entered hcounted hentered)) w _ _
  · next s2 v _ hentered => exact wf_sendReply (wf_entered hcounted hentered) _ _ _
  · exact wf_sendReply hcounted _ _ _

theorem wf_readCommits (h : Fin 2) : (s.readCommits h).memoryWf = true := by
  grind [State.readCommits, wf_timeOut, State.mapMem, wf_sramError, wf_timeOutWaiting, State.mapOwn, wf_foldl, wf_foldl_fst,
    State.memoryWf]

theorem wf_claimToken (h : Fin 2) : (s.claimToken h).memoryWf = true := by
  grind [State.claimToken, State.mapMc, wf_writeMail, State.setCore, State.memoryWf]

theorem wf_takeOver (h : Fin 2) (cause : Nat) : (s.takeOver h cause).memoryWf = true := by
  grind [State.takeOver, wf_claimToken, wf_readCommits, wf_resetCore, State.mapMc, wf_raise, State.memoryWf]

theorem wf_standbyTakes (h : Fin 2) : (s.standbyTakes h).memoryWf = true := by
  grind [State.standbyTakes, wf_takeOver, State.memoryWf]

theorem wf_bootClaim (core : Fin 2) : (s.bootClaim core).memoryWf = true := by
  grind [State.bootClaim, State.mapMc, wf_takeOver, wf_claimToken, State.memoryWf]

theorem wf_doMcRehearse (c : Cmd) : (doMcRehearse c s).st.memoryWf = true := by
  grind [doMcRehearse, Res.bad, Res.fail, Res.accepted, State.mapMc, State.memoryWf]

theorem wf_doMcGetStatus (c : Cmd) : (doMcGetStatus c s).st.memoryWf = true := by
  dsimp only [doMcGetStatus]
  exact hwf

theorem wf_repairRows (macro_ : Nat) (rows : List Nat) : (s.repairRows macro_ rows).1.memoryWf = true := by
  grind [State.repairRows, wf_repairRow, wf_foldl, wf_foldl_fst, State.memoryWf]

theorem wf_moveSlot (slot tile : Nat) : (s.moveSlot slot tile).memoryWf = true := by
  grind [State.moveSlot, State.setSlot, State.mapTile, State.setTileInfo, State.memoryWf]

theorem wf_retireTile (t reason : Nat) : (s.retireTile t reason).memoryWf = true := by
  grind [State.retireTile, State.setTileInfo, State.handGroup, State.mapTile, State.memoryWf]

theorem wf_faultMoveNow (slot : Nat) : (s.faultMoveNow slot).memoryWf = true := by
  grind [State.faultMoveNow, State.mapSpare, wf_moveSlot, wf_powerUp, wf_retireTile, State.memoryWf]

theorem wf_evFaultMove (slot : Nat) : (evFaultMove slot s).memoryWf = true := by
  grind [evFaultMove, wf_faultMoveNow, State.memoryWf]

theorem wf_evAuditStep : (evAuditStep s).memoryWf = true := by
  grind [evAuditStep, State.endAudit, State.mapSpare, wf_moveSlot, wf_powerUp, State.memoryWf]

theorem wf_evSlotMove (slot tile : Nat) : (evSlotMove slot tile s).memoryWf = true := by
  grind [evSlotMove, wf_evFaultMove, wf_evAuditStep, State.memoryWf]

theorem wf_evSlotWithdraw (slot : Nat) : (evSlotWithdraw slot s).memoryWf = true := by
  grind [evSlotWithdraw, State.setSlot, State.mapTile, wf_raise, State.memoryWf]

theorem wf_evAuditStepDue : (evAuditStepDue s).memoryWf = true := by
  grind [evAuditStepDue, State.mapSpare, State.memoryWf]

theorem wf_evBistDone (tile : Nat) (pass : Bool) (rows : List Nat) : (evBistDone tile pass rows s).memoryWf = true := by
  grind [evBistDone, wf_repairRows, State.mapSpare, wf_retireTile, State.setTileInfo, State.memoryWf]

theorem wf_doSpareSetAudit (c : Cmd) : (doSpareSetAudit c s).st.memoryWf = true := by
  grind [doSpareSetAudit, Res.bad, Res.ok, State.mapSpare, State.memoryWf]

theorem wf_doSpareRetire (c : Cmd) : (doSpareRetire c s).st.memoryWf = true := by
  grind [doSpareRetire, Res.bad, Res.ok, State.setTileInfo, Res.fail, State.memoryWf]

theorem wf_doSpareGetStatus (c : Cmd) : (doSpareGetStatus c s).st.memoryWf = true := by
  dsimp only [doSpareGetStatus]
  repeat' split
  all_goals exact hwf

theorem wf_evPwrResetFire : (evPwrResetFire s).memoryWf = true := by
  grind [evPwrResetFire, wf_deviceReset, State.memoryWf]

theorem wf_loseQueues (lost : Nat → Queue → Bool) : (s.loseQueues lost).memoryWf = true := by
  grind [State.loseQueues, State.setQueue, wf_abortChannel, wf_freeStart, State.setDma, State.mapRing, wf_foldl, wf_foldl_fst,
    State.memoryWf]

theorem wf_finishInbound (cut : InboundCut) : (s.finishInbound cut).memoryWf = true := by
  grind [State.finishInbound, wf_inboundPiece, State.mapMem, State.memoryWf]

theorem wf_pcieReset (link : Bool) : (s.pcieReset link).memoryWf = true := by
  grind [State.pcieReset, wf_loseQueues, wf_loseOwner, State.mapPwr, State.memoryWf]

theorem wf_evPcieReset (event : PcieResetEvent) : (evPcieReset event s).memoryWf = true := by
  grind [evPcieReset, wf_pcieReset, wf_finishInbound, State.memoryWf]

theorem wf_evPcieLinkUp (gen width : Nat) : (evPcieLinkUp gen width s).memoryWf = true := by
  grind [evPcieLinkUp, State.mapPwr, State.memoryWf]

theorem wf_evMgmtLinkChange (port : Fin 2) (up : Bool) : (evMgmtLinkChange port up s).memoryWf = true := by
  grind [evMgmtLinkChange, State.setMgmt, State.memoryWf]

theorem wf_hbmOff (h : Nat) : (s.hbmOff h).memoryWf = true := by
  obtain ⟨hhbm, hsram, hflash⟩ := memoryWf_iff.mp hwf
  have hlost : (s.mapMem fun m => { m with
      hbm := m.hbm.filter fun e => !decide (stackOf e.1 = h), bad := m.bad.filter fun e => !decide (stackOf e.1 = h) }).memoryWf =
        true := memoryWf_iff.mpr ⟨kvWf_filter 0 _ _ hhbm, hsram, hflash⟩
  exact wf_bumpHc hlost h _

theorem wf_tilesOff (g : Nat) : (s.tilesOff g).memoryWf = true := by
  grind [State.tilesOff, State.setTileInfo, wf_foldl, wf_foldl_fst, State.memoryWf]

theorem wf_loseDomain (d : Nat) : (s.loseDomain d).memoryWf = true := by
  grind [State.loseDomain, wf_tilesOff, State.stagingOff, State.setBank, State.mapStg, wf_hbmOff, wf_loseQueues,
    State.resetRequester, State.mapMem, State.draw, State.mapPwr, State.mapRing, State.setMgmt, State.coreOff, State.setCore,
    State.setDma, wf_foldl, wf_foldl_fst, State.memoryWf]

theorem wf_fencePiece (p : FencePiece) : (s.fencePiece p).memoryWf = true := by
  grind [State.fencePiece, State.errResp, State.mapMem, wf_scramble, wf_sramStore, State.draw, wf_setStagingByte, wf_foldl,
    wf_foldl_fst, State.memoryWf]

theorem wf_evDomainFence (domain : Fin 96) (outstanding : List FencePiece) : (evDomainFence domain outstanding s).memoryWf =
    true := by
  grind [evDomainFence, State.setDomain, wf_loseDomain, wf_fencePiece, wf_foldl, wf_foldl_fst, State.memoryWf]

theorem wf_domainUp (d : Nat) : (s.domainUp d).memoryWf = true := by
  grind [State.domainUp, State.setDomain, wf_bumpHc, State.setCore, State.memoryWf]

theorem wf_doPwrSetDomain (c : Cmd) : (doPwrSetDomain c s).st.memoryWf = true := by
  grind [doPwrSetDomain, Res.bad, Res.fail, Res.ok, State.setDomain, State.memoryWf]

theorem wf_doPwrReset (c : Cmd) : (doPwrReset c s).st.memoryWf = true := by
  grind [doPwrReset, Res.bad, Res.ok, State.mapPwr, wf_pcieReset, State.resetRequester, State.mapMem, State.draw, Res.fail,
    wf_resetCore, State.memoryWf]

theorem wf_doPwrGetDomains (c : Cmd) : (doPwrGetDomains c s).st.memoryWf = true := by
  dsimp only [doPwrGetDomains]
  exact hwf

end Keep

end Sys2Proof.Machine
end

section
/-! That boot, Freran, the router, the memory's reports and the registers keep memory in canonical form, in the order of the model's
files (Boot to Csr). -/

namespace Sys2Proof.Machine

section Keep
variable {s : State} (hwf : s.memoryWf = true)
include hwf

theorem wf_loadImage (slot : Nat) : (s.loadImage slot).memoryWf = true := by
  grind [State.loadImage, State.mapPwr, State.mapMem, wf_sramStore, State.memoryWf]

theorem wf_romBoot : s.romBoot.memoryWf = true := by
  grind [State.romBoot, State.setDomain, wf_loadImage, State.enterRecovery, State.mapPwr, State.draw, State.memoryWf]

theorem wf_coreBooted (h1 : Fin 2) : (s.coreBooted h1).memoryWf = true := by
  grind [State.coreBooted, wf_expireToken, State.setCore, State.mapMc, wf_writeMail, State.draw, State.memoryWf]

theorem wf_evBootRom (core : Fin 2) : (evBootRom core s).memoryWf = true := by
  grind [evBootRom, wf_romBoot, State.draw, wf_coreBooted, State.mapPwr, State.setCore, State.memoryWf]

theorem wf_evBtRecData (value : Nat) : (evBtRecData value s).memoryWf = true := by
  grind [evBtRecData, State.mapPwr, wf_sramStore, State.memoryWf]

theorem wf_programSlot0 (i : Image) : (s.programSlot0 i).memoryWf = true := by
  have herased := memErase_wf 0xFF _ 0 (roundUp (0x1000 + (i.header ++ i.body).length) 65536) (wf_flash hwf)
  exact wf_setFlash hwf (memWrite_wf 0xFF _ _ _ (memWrite_wf 0xFF _ _ _ (memWrite_wf 0xFF _ _ _ herased)))

theorem wf_evBtRecGo (value : Nat) : (evBtRecGo value s).memoryWf = true := by
  grind [evBtRecGo, wf_deviceReset, wf_programSlot0, State.mapPwr, State.memoryWf]

theorem wf_doSecSetCmdKey (c : Cmd) : (doSecSetCmdKey c s).st.memoryWf = true := by
  grind [doSecSetCmdKey, Res.bad, Res.fail, Res.ok, State.mapPwr, State.memoryWf]

theorem wf_doSecSetSignPolicy (c : Cmd) : (doSecSetSignPolicy c s).st.memoryWf = true := by
  grind [doSecSetSignPolicy, Res.bad, Res.ok, State.mapPwr, State.memoryWf]

theorem wf_rotate (p : List Byte) (fuse : Bool) : (rotate p fuse s).st.memoryWf = true := by
  grind [rotate, Res.bad, Res.fail, Res.ok, State.mapPwr, State.memoryWf]

theorem wf_doSecOtpRotate (c : Cmd) : (doSecOtpRotate c s).st.memoryWf = true := by
  grind [doSecOtpRotate, wf_rotate, State.memoryWf]

theorem wf_evPowerOnReset (event : PowerOn) : (evPowerOnReset event s).memoryWf = true := by
  grind [evPowerOnReset, wf_rotate, wf_deviceReset, State.memoryWf]

theorem wf_doSecOtpRevoke (c : Cmd) : (doSecOtpRevoke c s).st.memoryWf = true := by
  grind [doSecOtpRevoke, Res.bad, Res.fail, Res.ok, State.mapPwr, State.memoryWf]

theorem wf_mapPwr (f : PowerState → PowerState) : (s.mapPwr f).memoryWf = true := hwf

theorem wf_stageBytes (off : Nat) (bs : List Byte) : (s.stageBytes off bs).memoryWf = true := by
  unfold State.stageBytes
  extract_lets base done touched fresh fl skip fl1
  have herased : Memory.wf 0xFF fl = true :=
    List.foldlRecOn fresh _ (motive := fun f : Mem => Memory.wf 0xFF f = true) (wf_flash hwf) fun f hf b _ =>
      memErase_wf 0xFF f _ _ hf
  have hstaged : ({ s with flash := fl1 } : State).memoryWf = true := wf_setFlash hwf (memWrite_wf 0xFF _ _ _ herased)
  exact wf_mapPwr hstaged _

theorem wf_doSecFwStage (c : Cmd) : (doSecFwStage c s).st.memoryWf = true := by
  grind [doSecFwStage, Res.bad, Res.ok, wf_stageBytes, State.memoryWf]

theorem wf_commitSlot : s.commitSlot.memoryWf = true := by
  exact wf_setFlash hwf (memWrite_wf 0xFF _ _ _ (memWrite_wf 0xFF _ _ _ (wf_flash hwf)))

theorem wf_doSecGetIdentity (c : Cmd) : (doSecGetIdentity c s).st.memoryWf = true := by
  dsimp only [doSecGetIdentity]
  exact hwf

theorem wf_doSecAttest (c : Cmd) : (doSecAttest c s).st.memoryWf = true := by
  dsimp only [doSecAttest]
  exact hwf

theorem wf_frSend (kind a b c : Nat) : (s.frSend kind a b c).memoryWf = true := by
  grind [State.frSend, State.emit, State.frCounted, State.mapFr, State.memoryWf]

theorem wf_frFire (idx at_ : Nat) : (s.frFire idx at_).memoryWf = true := by
  grind [State.frFire, State.mapFr, State.frCollect, wf_frSend, State.memoryWf]

theorem wf_mapFr (f : FreranState → FreranState) : (s.mapFr f).memoryWf = true := hwf

theorem wf_setFrPort (p : Fin 2) (v : FreranPort) : (s.setFrPort p v).memoryWf = true := hwf

theorem wf_frCommit (g : Nat) (fires : List Fire) : (s.frCommit g fires).memoryWf = true := by
  unfold State.frCommit
  split
  · exact hwf
  · extract_lets best s1 s2
    have hcommitted : s1.memoryWf = true := hwf
    have hnext : s2.memoryWf = true := by
      cases harm : s1.fr.armNext with
      | none => simpa only [s2, harm] using hcommitted
      | some g => simpa only [s2, harm] using wf_ite (wf_mapFr hcommitted _) hcommitted
    exact wf_raiseEvent hnext _ _ _ _ _

theorem wf_evFreranWindowClose : (evFreranWindowClose s).memoryWf = true := by
  grind [evFreranWindowClose, wf_frCommit, State.memoryWf]

theorem wf_evFreranRearm : (evFreranRearm s).memoryWf = true := by
  grind [evFreranRearm, State.mapFr, State.frArm, wf_frSend, State.memoryWf]

theorem wf_frLink (p : Fin 2) (up : Bool) : (s.frLink p up).memoryWf = true := by
  grind [State.frLink, wf_raise, State.setFrPort, State.mapFr, State.memoryWf]

theorem wf_evFreranEchoSend (ask : FreranAsk) : (evFreranEchoSend ask s).memoryWf = true := by
  grind [evFreranEchoSend, State.setFrPort, State.mapFr, State.frCounted, State.emit, State.memoryWf]

theorem wf_evFreranLinkTimeout (port : Fin 2) : (evFreranLinkTimeout port s).memoryWf = true := by
  exact wf_ite (wf_setFrPort (wf_frLink hwf _ _) _ _) hwf

theorem wf_frEcho (p : Fin 2) (m : FrMsg) (t4 : Nat) : (s.frEcho p m t4).memoryWf = true := by
  grind [State.frEcho, State.setFrPort, State.mapFr, wf_frLink, State.memoryWf]

theorem wf_frCompare (e index t : Nat) : (s.frCompare e index t).memoryWf = true := by
  grind [State.frCompare, State.mapFr, wf_raiseEvent, State.memoryWf]

theorem wf_frEpoch (m : FrMsg) : (s.frEpoch m).memoryWf = true := by
  grind [State.frEpoch, wf_frCompare, State.mapFr, State.memoryWf]

theorem wf_frOwnEpoch (e : Nat) : (s.frOwnEpoch e).memoryWf = true := by
  grind [State.frOwnEpoch, State.mapFr, wf_frCompare, wf_frSend, wf_foldl, wf_foldl_fst, State.memoryWf]

theorem wf_frReceived (m : FrMsg) (c : Int) (t : Nat) : (s.frReceived m c t).memoryWf = true := by
  grind [State.frReceived, State.mapFr, State.frCollect, State.frArm, State.memoryWf]

theorem wf_frAct (m : FrMsg) (c : Int) (t : Nat) : (s.frAct m c t).memoryWf = true := by
  grind [State.frAct, State.frArm, State.mapFr, State.frDisarm, wf_frReceived, wf_frEpoch, State.memoryWf]

theorem wf_frForwarded (p : Fin 2) (m : FrMsg) (t : Nat) : (s.frForwarded p m t).memoryWf = true := by
  grind [State.frForwarded, State.mapFr, State.draw, State.emit, wf_frAct, State.memoryWf]

theorem wf_evFreranMessageReceive (port : Fin 2) (message : FreranArrival) : (evFreranMessageReceive port message s).memoryWf =
    true := by
  grind [evFreranMessageReceive, State.mapFr, State.setFrPort, State.draw, State.frCounted, State.emit, wf_frEcho,
    wf_frForwarded, State.memoryWf]

theorem wf_doFreranSetNode (c : Cmd) : (doFreranSetNode c s).st.memoryWf = true := by
  grind [doFreranSetNode, Res.bad, Res.ok, State.mapFr, State.memoryWf]

theorem wf_doFreranSetPort (c : Cmd) : (doFreranSetPort c s).st.memoryWf = true := by
  grind [doFreranSetPort, Res.bad, wf_frLink, Res.ok, State.setFrPort, State.mapFr, State.memoryWf]

theorem wf_doFreranArm (c : Cmd) : (doFreranArm c s).st.memoryWf = true := by
  grind [doFreranArm, Res.fail, Res.bad, Res.ok, State.frArm, State.mapFr, wf_frSend, State.frDisarm, State.memoryWf]

theorem wf_doFreranGetStatus (c : Cmd) : (doFreranGetStatus c s).st.memoryWf = true := by
  dsimp only [doFreranGetStatus]
  repeat' split
  all_goals exact hwf

theorem wf_eventDump (index : Nat) : (s.eventDump index).memoryWf = true := by
  grind [State.eventDump, State.scheduleDump, State.mapDump, State.memoryWf]

theorem wf_eventSwap (c idx : Nat) : (s.eventSwap c idx).memoryWf = true := by
  grind [State.eventSwap, State.mapEr, wf_swapBeam, State.setBeamSet, wf_swapFilters, State.mapFilt, State.memoryWf]

theorem wf_mapCap (f : CaptureState → CaptureState) : (s.mapCap f).memoryWf = true := hwf

theorem wf_takeSnapshot : s.takeSnapshot.memoryWf = true := hwf

theorem wf_activate (c : Nat) (e : EventRec) : (s.activate c e).memoryWf = true := by
  unfold State.activate
  exact wf_ite (wf_dmaStart hwf c) (wf_ite (wf_startPulse hwf _) (wf_ite (wf_eventDump hwf _) (wf_ite (wf_decSync hwf _)
    (wf_ite (wf_mapCap hwf _) (wf_ite (wf_mapCap hwf _) (wf_ite (wf_mapCap hwf _) (wf_ite (wf_frFire hwf _ _)
    (wf_ite (wf_ite (wf_eventSwap hwf c _) hwf) (wf_ite (wf_eventSwap hwf c _) (wf_ite (wf_takeSnapshot hwf)
    (wf_ite (wf_msix hwf _) hwf)))))))))))

theorem wf_deliverTo (c : Nat) (e : EventRec) : (s.deliverTo c e).memoryWf = true := by
  grind [State.deliverTo, State.mapEr, wf_activate, State.memoryWf]

theorem wf_deliver (e : EventRec) : (s.deliver e).memoryWf = true := by
  grind [State.deliver, wf_deliverTo, wf_foldl, wf_foldl_fst, State.memoryWf]

theorem wf_evEventDelivery : (evEventDelivery s).memoryWf = true := by
  grind [evEventDelivery, wf_deliver, State.mapEr, State.draw, State.memoryWf]

theorem wf_evErSwFire (value : Nat) : (evErSwFire value s).memoryWf = true := by
  grind [evErSwFire, wf_raiseEvent, wf_foldl, wf_foldl_fst, State.memoryWf]

theorem wf_evErCfire (value : Nat) : (evErCfire value s).memoryWf = true := by
  grind [evErCfire, wf_deliverTo, State.memoryWf]

theorem wf_evErConfigWrite (offset value : Nat) : (evErConfigWrite offset value s).memoryWf = true := by
  grind [evErConfigWrite, State.mapEr, State.memoryWf]

theorem wf_doEventSetRoute (c : Cmd) : (doEventSetRoute c s).st.memoryWf = true := by
  grind [doEventSetRoute, Res.bad, Res.ok, State.mapEr, State.memoryWf]

theorem wf_doEventSetMode (c : Cmd) : (doEventSetMode c s).st.memoryWf = true := by
  grind [doEventSetMode, Res.ok, State.mapEr, Res.bad, State.memoryWf]

theorem wf_doEventFire (c : Cmd) : (doEventFire c s).st.memoryWf = true := by
  grind [doEventFire, Res.ok, wf_raiseEvent, Res.bad, State.memoryWf]

theorem wf_doEventSetQueue (c : Cmd) : (doEventSetQueue c s).st.memoryWf = true := by
  grind [doEventSetQueue, Res.ok, State.mapEr, Res.bad, State.memoryWf]

theorem wf_doEventGetStatus (c : Cmd) : (doEventGetStatus c s).st.memoryWf = true := by
  dsimp only [doEventGetStatus]
  repeat' split
  all_goals exact hwf

theorem wf_evHcInjAddr (stack : Fin 4) (value : Nat) : (evHcInjAddr stack value s).memoryWf = true := by
  grind [evHcInjAddr, wf_bumpHc, State.mapMem, State.draw, State.memoryWf]

theorem wf_noteScrub (unit : Nat) : (s.noteScrub unit).memoryWf = true := by
  grind [State.noteScrub, wf_addCandidate, State.memoryWf]

theorem wf_evScrubRead (stack : Fin 4) : (evScrubRead stack s).memoryWf = true := by
  grind [evScrubRead, wf_bumpHc, State.grant, State.mapMem, wf_meetParity, State.errResp, wf_addCandidate, wf_logMemErr,
    wf_countWrite, wf_noteScrub, State.memoryWf]

theorem wf_evMxCtrlRemap (value master : Nat) : (evMxCtrlRemap value master s).memoryWf = true := by
  grind [evMxCtrlRemap, State.grant, State.mapMem, State.errResp, State.memoryWf]

theorem wf_doMemGetErrors (c : Cmd) : (doMemGetErrors c s).st.memoryWf = true := by
  dsimp only [doMemGetErrors]
  exact hwf

theorem wf_doMemGetStats (c : Cmd) : (doMemGetStats c s).st.memoryWf = true := by
  dsimp only [doMemGetStats]
  repeat' split
  all_goals exact hwf

theorem wf_csrRead (req addr : Nat) : (s.csrRead req addr).1.memoryWf = true := by
  grind [State.csrRead, State.grant, State.mapMem, State.decErr, State.errResp, State.draw, State.memoryWf]

theorem wf_writeMatrix (off value : Nat) : (s.writeMatrix off value).memoryWf = true := by
  grind [State.writeMatrix, State.mapMem, State.memoryWf]

theorem wf_writeBoot (off value : Nat) : (s.writeBoot off value).memoryWf = true := by
  grind [State.writeBoot, State.mapPwr, wf_evBtRecData, wf_evBtRecGo, State.memoryWf]

theorem wf_writeQuartz (off value : Nat) : (s.writeQuartz off value).memoryWf = true := by
  grind [State.writeQuartz, wf_evQzSnapTake, State.mapQz, wf_foldl, wf_foldl_fst, State.memoryWf]

theorem wf_writeRouter (off value : Nat) : (s.writeRouter off value).memoryWf = true := by
  grind [State.writeRouter, wf_evErSwFire, State.mapEr, wf_evErCfire, wf_evErConfigWrite, State.memoryWf]

theorem wf_writeHbmCtl (h1 off value : Nat) : (s.writeHbmCtl h1 off value).memoryWf = true := by
  grind [State.writeHbmCtl, wf_bumpHc, wf_evHcInjAddr, State.memoryWf]

theorem wf_writeRings (off value : Nat) : (s.writeRings off value).memoryWf = true := by
  have hqueue (n : Nat) (v : Queue) : (s.setQueue n v).memoryWf = true := hwf
  refine wf_ite (wf_ite (wf_evRqDb hwf _ _) hwf) (wf_ite ?_ hwf)
  split
  · exact wf_ite (hqueue _ _) hwf
  · exact wf_evRqCfgEnable hwf _ _
  · exact wf_ite (hqueue _ _) hwf
  · exact wf_ite (hqueue _ _) hwf
  · exact hqueue _ _
  · exact hwf

theorem wf_writeReg (addr value : Nat) : (s.writeReg addr value).memoryWf = true := by
  grind [State.writeReg, wf_writeMatrix, wf_writeBoot, wf_writeQuartz, wf_writeRouter, wf_writeHbmCtl, wf_writeRings,
    State.draw, State.memoryWf]

theorem wf_csrStore (req addr value : Nat) : (s.csrStore req addr value).1.memoryWf = true := by
  grind [State.csrStore, State.grant, State.mapMem, State.decErr, State.errResp, wf_writeReg, State.memoryWf]

theorem wf_evCsrWrite (addr value master : Nat) : (evCsrWrite addr value master s).memoryWf = true := by
  grind [evCsrWrite, wf_csrStore, State.memoryWf]

theorem wf_completeRead (r : Resp) (data : List Byte) : (s.completeRead r data).memoryWf = true := by
  cases r with
  | ok | err | decerr => exact hwf

theorem wf_evPcieInboundRead (place : BarPlace) (len : Nat) : (evPcieInboundRead place len s).memoryWf = true := by
  grind [evPcieInboundRead, wf_completeRead, State.errResp, State.mapMem, State.grant, wf_csrRead, wf_readRange, State.memoryWf]

theorem wf_evPcieInboundWrite (place : BarPlace) (data : List Byte) : (evPcieInboundWrite place data s).memoryWf = true := by
  grind [evPcieInboundWrite, State.errResp, State.mapMem, State.grant, wf_csrStore, wf_inboundPiece, wf_foldl, wf_foldl_fst,
    State.memoryWf]

end Keep

end Sys2Proof.Machine
end

section
/-! That the device and diagnostic commands, epochs, PTP and quiesce keep memory in canonical form, in the order of the model's files
(Device to Quiesce). -/

namespace Sys2Proof.Machine

section Keep
variable {s : State} (hwf : s.memoryWf = true)
include hwf

theorem wf_doDevGetInfo (c : Cmd) : (doDevGetInfo c s).st.memoryWf = true := by
  dsimp only [doDevGetInfo]
  exact hwf

theorem wf_doDevGetStatus (c : Cmd) : (doDevGetStatus c s).st.memoryWf = true := by
  dsimp only [doDevGetStatus]
  repeat' split
  all_goals exact hwf

theorem wf_doDevQueryOpcode (c : Cmd) : (doDevQueryOpcode c s).st.memoryWf = true := by
  dsimp only [doDevQueryOpcode]
  repeat' split
  all_goals exact hwf

theorem wf_doDevSetLabel (c : Cmd) : (doDevSetLabel c s).st.memoryWf = true := by
  grind [doDevSetLabel, Res.ok, State.memoryWf]

theorem wf_doDevSetMgmt (c : Cmd) : (doDevSetMgmt c s).st.memoryWf = true := by
  have hnext : ({ s with dev := { s.dev with next := some (fld c.params 0 1, { s.mgmt (fld c.params 0 1) with
      mode := fld c.params 1 1, vlan := fld c.params 2 2, mac := fld c.params 4 6, ipv4 := fld c.params 12 4,
      ipv6 := fld c.params 16 16 }) } } : State).memoryWf = true := hwf
  dsimp only [doDevSetMgmt]
  split
  · exact hwf
  · exact wf_ite (wf_adoptMgmt hnext) hnext

theorem wf_doDevGetMgmt (c : Cmd) : (doDevGetMgmt c s).st.memoryWf = true := by
  dsimp only [doDevGetMgmt]
  repeat' split
  all_goals exact hwf

theorem wf_doDiagEcho (c : Cmd) : (doDiagEcho c s).st.memoryWf = true := by
  dsimp only [doDiagEcho]
  exact hwf

theorem wf_readRegs (req addr n : Nat) : (s.readRegs req addr n).1.memoryWf = true := by
  induction n generalizing s addr with
  | zero => exact hwf
  | succ n ih => grind [State.readRegs, wf_csrRead]

theorem wf_doDiagReadCsr (c : Cmd) : (doDiagReadCsr c s).st.memoryWf = true := by
  grind [doDiagReadCsr, Res.bad, wf_readRegs, Res.okWith, State.memoryWf]

theorem wf_writeRegs (req addr : Nat) (vs : List Nat) : (s.writeRegs req addr vs).1.memoryWf = true := by
  induction vs generalizing s addr with
  | nil => exact hwf
  | cons v vs ih => grind [State.writeRegs, wf_csrStore]

theorem wf_doDiagWriteCsr (c : Cmd) : (doDiagWriteCsr c s).st.memoryWf = true := by
  grind [doDiagWriteCsr, Res.bad, wf_writeRegs, Res.okWith, State.memoryWf]

theorem wf_doDiagReadMem (c : Cmd) : (doDiagReadMem c s).st.memoryWf = true := by
  grind [doDiagReadMem, Res.bad, wf_readRange, Res.okWith, State.memoryWf]

theorem wf_doDiagWriteMem (c : Cmd) : (doDiagWriteMem c s).st.memoryWf = true := by
  grind [doDiagWriteMem, Res.bad, wf_writeRange, Res.okWith, State.memoryWf]

theorem wf_doTimeLoadDelay (c : Cmd) : (doTimeLoadDelay c s).st.memoryWf = true := by
  grind [doTimeLoadDelay, Res.bad, Res.fail, Res.ok, State.mapQz, wf_foldl, wf_foldl_fst, State.memoryWf]

theorem wf_doTimeApplyDelay (c : Cmd) : (doTimeApplyDelay c s).st.memoryWf = true := by
  grind [doTimeApplyDelay, Res.ok, State.mapQz, Res.bad, Res.fail, State.memoryWf]

theorem wf_evtDetected (n : Nat) (rising : Bool) (t : Nat) : (s.evtDetected n rising t).memoryWf = true := by
  grind [State.evtDetected, State.setEvtPin, State.mapQz, wf_pushOrDrop, wf_offerEdge, wf_raiseEvent, State.memoryWf]

theorem wf_evEvtEdge (pin : Fin 16) (edge : LineEdge) : (evEvtEdge pin edge s).memoryWf = true := by
  grind [evEvtEdge, State.setEvtPin, State.mapQz, wf_evtDetected, State.memoryWf]

theorem wf_evEpochEvent : (evEpochEvent s).memoryWf = true := by
  grind [evEpochEvent, wf_frOwnEpoch, wf_raiseEvent, State.mapQz, State.memoryWf]

theorem wf_lateEpoch : s.lateEpoch.memoryWf = true := by
  grind [State.lateEpoch, State.mapQz, wf_frOwnEpoch, wf_raiseEvent, State.memoryWf]

theorem wf_evMajorityReturn : (evMajorityReturn s).memoryWf = true := by
  grind [evMajorityReturn, State.mapQz, wf_lateEpoch, wf_skipPulses, State.memoryWf]

theorem wf_sendPtp (n : Nat) (blank bytes : List Byte) : (s.sendPtp n blank bytes).memoryWf = true := by
  grind [State.sendPtp, wf_sendOwn, wf_sendMgmt, State.memoryWf]

theorem wf_announce (n : Nat) (m : PtpMsg) : (s.announce n m).memoryWf = true := by
  grind [State.announce, State.selectSlave, State.mapPtp, State.mapQz, State.setPtpPort, State.memoryWf]

theorem wf_ptpMeasured (n : Nat) : (s.ptpMeasured n).memoryWf = true := by
  grind [State.ptpMeasured, wf_discipline, State.selectSlave, State.mapPtp, State.mapQz, State.clearCause, State.memoryWf]

theorem wf_ptpSync (n : Nat) (m : PtpMsg) : (s.ptpSync n m).memoryWf = true := by
  grind [State.ptpSync, State.mapEx, State.mapPtp, State.mapQz, wf_ptpMeasured, State.memoryWf]

theorem wf_ptpFollowUp (n : Nat) (m : PtpMsg) : (s.ptpFollowUp n m).memoryWf = true := by
  grind [State.ptpFollowUp, wf_ptpMeasured, State.mapEx, State.mapPtp, State.mapQz, State.memoryWf]

theorem wf_ptpDelayResp (n : Nat) (m : PtpMsg) : (s.ptpDelayResp n m).memoryWf = true := by
  grind [State.ptpDelayResp, State.mapEx, State.mapPtp, State.mapQz, State.memoryWf]

theorem wf_ptpPdelayResp (n : Nat) (m : PtpMsg) : (s.ptpPdelayResp n m).memoryWf = true := by
  grind [State.ptpPdelayResp, State.mapEx, State.mapPtp, State.mapQz, State.memoryWf]

theorem wf_ptpPdelayFollow (n : Nat) (m : PtpMsg) : (s.ptpPdelayFollow n m).memoryWf = true := by
  grind [State.ptpPdelayFollow, State.mapEx, State.mapPtp, State.mapQz, State.memoryWf]

theorem wf_answerDelay (n : Nat) (m : PtpMsg) : (s.answerDelay n m).memoryWf = true := by
  grind [State.answerDelay, wf_sendPtp, State.memoryWf]

theorem wf_answerPeer (n : Nat) (m : PtpMsg) : (s.answerPeer n m).memoryWf = true := by
  grind [State.answerPeer, State.draw, wf_sendPtp, State.memoryWf]

theorem wf_ptpSignaling (m : PtpMsg) : (s.ptpSignaling m).memoryWf = true := by
  grind [State.ptpSignaling, State.mapPtp, State.mapQz, State.memoryWf]

theorem wf_ptpMessage (n : Nat) (m : PtpMsg) : (s.ptpMessage n m).memoryWf = true := by
  grind [State.ptpMessage, wf_ptpSync, wf_answerDelay, wf_answerPeer, wf_ptpPdelayResp, wf_ptpFollowUp, wf_ptpDelayResp,
    wf_ptpPdelayFollow, wf_announce, wf_ptpSignaling, State.memoryWf]

theorem wf_evPtpMessageReceive (port : PtpPort) (bytes : List Byte) : (evPtpMessageReceive port bytes s).memoryWf = true := by
  grind [evPtpMessageReceive, wf_ptpMessage, State.memoryWf]

theorem wf_setPtpPort (n : Nat) (v : PtpPortCfg) : (s.setPtpPort n v).memoryWf = true := hwf

theorem wf_mapEx (f : PtpExchange → PtpExchange) : (s.mapEx f).memoryWf = true := hwf

theorem wf_ptpSend (n : Nat) (kind : PtpSend) : (s.ptpSend n kind).memoryWf = true := by
  unfold State.ptpSend
  dsimp only
  split
  · exact wf_ite hwf (wf_setPtpPort (wf_sendPtp hwf _ _ _) _ _)
  · exact wf_ite hwf (wf_setPtpPort (wf_sendPtp hwf _ _ _) _ _)
  · exact wf_ite hwf (wf_mapEx (wf_setPtpPort (wf_sendPtp hwf _ _ _) _ _) _)
  · exact wf_ite hwf (wf_sendPtp hwf _ _ _)

theorem wf_evPtpMessageSend (port : PtpPort) (kind : PtpSend) : (evPtpMessageSend port kind s).memoryWf = true := by
  grind [evPtpMessageSend, wf_ptpSend, State.memoryWf]

theorem wf_evPtpHoldoverTimeout : (evPtpHoldoverTimeout s).memoryWf = true := by
  grind [evPtpHoldoverTimeout, wf_setDisc, State.selectSlave, State.mapPtp, State.mapQz, State.memoryWf]

theorem wf_doTimeSetPtp (c : Cmd) : (doTimeSetPtp c s).st.memoryWf = true := by
  grind [doTimeSetPtp, Res.bad, Res.ok, State.mapPtp, State.mapQz, State.memoryWf]

theorem wf_doTimeSetPtpPort (c : Cmd) : (doTimeSetPtpPort c s).st.memoryWf = true := by
  grind [doTimeSetPtpPort, Res.bad, Res.fail, Res.ok, State.selectSlave, State.mapPtp, State.mapQz, State.setPtpPort,
    State.memoryWf]

theorem wf_stopSchedule : s.stopSchedule.memoryWf = true := by
  grind [State.stopSchedule, wf_tryStop, State.mapTile, State.memoryWf]

theorem wf_quietCapture : s.quietCapture.memoryWf = true := by
  grind [State.quietCapture, State.mapCap, wf_releaseSegment, wf_foldl, wf_foldl_fst, State.memoryWf]

theorem wf_disableChains : s.disableChains.memoryWf = true := by
  grind [State.disableChains, State.setChain, State.mapFilt, wf_foldl, wf_foldl_fst, State.memoryWf]

theorem wf_startQuiesce (limitMs : Nat) : (s.startQuiesce limitMs).memoryWf = true := by
  grind [State.startQuiesce, wf_disableChains, wf_quietCapture, wf_stopSchedule, State.mapQuiesce, State.mapPwr, State.memoryWf]

theorem wf_requestQuiesce (limitMs : Nat) : (s.requestQuiesce limitMs).memoryWf = true := by
  grind [State.requestQuiesce, wf_startQuiesce, State.mapQuiesce, State.mapPwr, State.memoryWf]

theorem wf_enterQuiesced : s.enterQuiesced.memoryWf = true := by
  grind [State.enterQuiesced, State.mapJrnl, State.mapQuiesce, State.mapPwr, State.emit, wf_deviceReset, State.leaveQuiesce,
    State.memoryWf]

theorem wf_stopChannels : s.stopChannels.memoryWf = true := by
  grind [State.stopChannels, State.setDma, State.mapRing, wf_stopNow, wf_foldl, wf_foldl_fst, State.memoryWf]

theorem wf_evQuiesceDone : (evQuiesceDone s).memoryWf = true := by
  grind [evQuiesceDone, State.mapQuiesce, State.mapPwr, wf_stopChannels, wf_enterQuiesced, State.memoryWf]

theorem wf_cutChannels : s.cutChannels.memoryWf = true := by
  grind [State.cutChannels, wf_abortChannel, wf_foldl, wf_foldl_fst, State.memoryWf]

theorem wf_abandonDrain : s.abandonDrain.memoryWf = true := by
  grind [State.abandonDrain, State.mapDump, wf_cutChannels, wf_stopChannels, State.mapBas, State.mapCap, State.mapStg,
    State.mapTile, State.memoryWf]

theorem wf_evQuiesceTimeout : (evQuiesceTimeout s).memoryWf = true := by
  grind [evQuiesceTimeout, wf_abandonDrain, State.mapQuiesce, State.mapPwr, State.memoryWf]

theorem wf_evQuiescePinLow : (evQuiescePinLow s).memoryWf = true := by
  grind [evQuiescePinLow, wf_requestQuiesce, State.mapQuiesce, State.mapPwr, State.memoryWf]

theorem wf_evQuiescePinHigh : (evQuiescePinHigh s).memoryWf = true := by
  grind [evQuiescePinHigh, State.mapQuiesce, State.mapPwr, State.leaveQuiesce, State.emit, State.memoryWf]

theorem wf_evQuiesceAckPulseEnd : (evQuiesceAckPulseEnd s).memoryWf = true := by
  grind [evQuiesceAckPulseEnd, State.leaveQuiesce, State.mapQuiesce, State.mapPwr, State.emit, State.memoryWf]

theorem wf_doPwrQuiesce (c : Cmd) : (doPwrQuiesce c s).st.memoryWf = true := by
  grind [doPwrQuiesce, Res.bad, Res.accepted, wf_requestQuiesce, State.mapQuiesce, State.mapPwr, Res.ok, State.leaveQuiesce,
    State.emit, State.memoryWf]

theorem wf_doSecFwActivate (c : Cmd) : (doSecFwActivate c s).st.memoryWf = true := by
  grind [doSecFwActivate, Res.bad, Res.fail, State.mapPwr, wf_commitSlot, State.mapQuiesce, Res.accepted, wf_requestQuiesce,
    State.memoryWf]

end Keep

end Sys2Proof.Machine
end

section
/-! That executing a command keeps memory in canonical form: every command by its body, DIAG_BATCH by its entries. -/

namespace Sys2Proof.Machine

theorem specsAdmission_keep : ∀ sp ∈ specsAdmission, sp.Keeps := by
  simp only [specsAdmission, List.forall_mem_cons, List.not_mem_nil, false_implies, implies_true, and_true]
  exact ⟨fun c _ hwf => wf_doPwrSetOp hwf c, fun c _ hwf => wf_doPwrGetOp hwf c, fun c _ hwf => wf_doCorrSetShed hwf c, fun c _
    hwf => wf_doCorrGetLoad hwf c, fun c _ hwf => wf_doCorrSetLayout hwf c, fun c _ hwf => wf_doCorrGetLayout hwf c, fun c _ hwf
    => wf_doCorrGetTiles hwf c, fun c _ hwf => wf_doBeamSetConfig hwf c, fun c _ hwf => wf_doCorrSetSplit hwf c, fun c _ hwf =>
    wf_doCapSetRing hwf c, fun c _ hwf => wf_doMemSetHost hwf c⟩

theorem specsPorts_keep : ∀ sp ∈ specsPorts, sp.Keeps := by
  simp only [specsPorts, List.forall_mem_cons, List.not_mem_nil, false_implies, implies_true, and_true]
  exact ⟨fun c _ hwf => wf_doPortSetQuad hwf c, fun c _ hwf => wf_doPortSetLane hwf c, fun c _ hwf => wf_doPortSetKlp hwf c, fun
    c _ hwf => wf_doPortGetStatus hwf c, fun c _ hwf => wf_doPortGetLane hwf c, fun c _ hwf => wf_doPortEyeScan hwf c, fun c _
    hwf => wf_doPortEyeRead hwf c⟩

theorem specsIngest_keep : ∀ sp ∈ specsIngest, sp.Keeps := by
  simp only [specsIngest, List.forall_mem_cons, List.not_mem_nil, false_implies, implies_true, and_true]
  exact ⟨fun c _ hwf => wf_doIngestSetPort hwf c, fun c _ hwf => wf_doIngestMcast hwf c, fun c _ hwf => wf_doIngestSetSource hwf
    c, fun c _ hwf => wf_doIngestLoadMap hwf c, fun c _ hwf => wf_doIngestApplyMap hwf c, fun c _ hwf => wf_doIngestLoadGain hwf
    c, fun c _ hwf => wf_doIngestApplyGain hwf c, fun c _ hwf => wf_doIngestSetTiming hwf c, fun c _ hwf => wf_doIngestGetPort
    hwf c, fun c _ hwf => wf_doIngestGetInput hwf c⟩

theorem specsStaging_keep : ∀ sp ∈ specsStaging, sp.Keeps := by
  simp only [specsStaging, List.forall_mem_cons, List.not_mem_nil, false_implies, implies_true, and_true]
  exact ⟨fun c _ hwf => wf_doCorrLoadCoarse hwf c, fun c _ hwf => wf_doCorrApplyCoarse hwf c, fun c _ hwf => wf_doCorrGetStaging
    hwf c, fun c _ hwf => wf_doCorrStart hwf c, fun c _ hwf => wf_doCorrStop hwf c⟩

theorem specsDumpCmds_keep : ∀ sp ∈ specsDumpCmds, sp.Keeps := by
  simp only [specsDumpCmds, List.forall_mem_cons, List.not_mem_nil, false_implies, implies_true, and_true]
  exact ⟨fun c _ hwf => wf_doCorrSetPreload hwf c, fun c _ hwf => wf_doCorrLoadFringe hwf c, fun c _ hwf => wf_doCorrSetRotation
    hwf c, fun c _ hwf => wf_doCorrSetCombine hwf c, fun c _ hwf => wf_doCorrGetAccum hwf c, fun c _ hwf => wf_doCorrSetDump hwf
    c, fun c _ hwf => wf_doCorrDumpAt hwf c, fun c _ hwf => wf_doCorrMapDest hwf c, fun c _ hwf => wf_doCorrGetDump hwf c, fun c
    _ hwf => wf_doCorrSetDest hwf c, fun c _ hwf => wf_doBeamSetDest hwf c, fun c _ hwf => wf_doCapSetDest hwf c⟩

theorem specsBeams_keep : ∀ sp ∈ specsBeams, sp.Keeps := by
  simp only [specsBeams, List.forall_mem_cons, List.not_mem_nil, false_implies, implies_true, and_true]
  exact ⟨fun c _ hwf => wf_doBeamApply hwf c, fun c _ hwf => wf_doBeamLoadWeights hwf c, fun c _ hwf => wf_doBeamLoadScale hwf
    c, fun c _ hwf => wf_doBeamGetSet hwf c⟩

theorem specsFilters_keep : ∀ sp ∈ specsFilters, sp.Keeps := by
  simp only [specsFilters, List.forall_mem_cons, List.not_mem_nil, false_implies, implies_true, and_true]
  exact ⟨fun c _ hwf => wf_doFiltSetChain hwf c, fun c _ hwf => wf_doFiltEnable hwf c, fun c _ hwf => wf_doFiltSync hwf c, fun c
    _ hwf => wf_doFiltLoadCoef hwf c, fun c _ hwf => wf_doFiltApply hwf c, fun c _ hwf => wf_doFiltGetChain hwf c⟩

theorem specsTime_keep : ∀ sp ∈ specsTime, sp.Keeps := by
  simp only [specsTime, List.forall_mem_cons, List.not_mem_nil, false_implies, implies_true, and_true]
  exact ⟨fun c _ hwf => wf_doTimeSetSource hwf c, fun c _ hwf => wf_doTimeSet hwf c, fun c _ hwf => wf_doTimeSetPulse hwf c, fun
    c _ hwf => wf_doTimeSetEvt hwf c, fun c _ hwf => wf_doTimeSetMapping hwf c, fun c _ hwf => wf_doTimeConvert hwf c, fun c _
    hwf => wf_doTimeSetEpoch hwf c, fun c _ hwf => wf_doTimeResync hwf c, fun c _ hwf => wf_doTimeGetStatus hwf c⟩

theorem specsPtp_keep : ∀ sp ∈ specsPtp, sp.Keeps := by
  simp only [specsPtp, List.forall_mem_cons, List.not_mem_nil, false_implies, implies_true, and_true]
  exact ⟨fun c _ hwf => wf_doTimeSetPtp hwf c, fun c _ hwf => wf_doTimeSetPtpPort hwf c⟩

theorem specsFreran_keep : ∀ sp ∈ specsFreran, sp.Keeps := by
  simp only [specsFreran, List.forall_mem_cons, List.not_mem_nil, false_implies, implies_true, and_true]
  exact ⟨fun c _ hwf => wf_doFreranSetNode hwf c, fun c _ hwf => wf_doFreranSetPort hwf c, fun c _ hwf => wf_doFreranArm hwf c,
    fun c _ hwf => wf_doFreranGetStatus hwf c⟩

theorem specsCapture_keep : ∀ sp ∈ specsCapture, sp.Keeps := by
  simp only [specsCapture, List.forall_mem_cons, List.not_mem_nil, false_implies, implies_true, and_true]
  exact ⟨fun c _ hwf => wf_doCapSetSegment hwf c, fun c _ hwf => wf_doCapSetDetector hwf c, fun c _ hwf => wf_doCapArm hwf c,
    fun c _ hwf => wf_doCapTrigger hwf c, fun c _ hwf => wf_doCapGetStatus hwf c⟩

theorem specsEvents_keep : ∀ sp ∈ specsEvents, sp.Keeps := by
  simp only [specsEvents, List.forall_mem_cons, List.not_mem_nil, false_implies, implies_true, and_true]
  exact ⟨fun c _ hwf => wf_doEventSetRoute hwf c, fun c _ hwf => wf_doEventSetMode hwf c, fun c _ hwf => wf_doEventFire hwf c,
    fun c _ hwf => wf_doEventSetQueue hwf c, fun c _ hwf => wf_doEventGetStatus hwf c⟩

theorem specsOwnership_keep : ∀ sp ∈ specsOwnership, sp.Keeps := by
  simp only [specsOwnership, List.forall_mem_cons, List.not_mem_nil, false_implies, implies_true, and_true]
  exact ⟨fun c _ hwf => wf_doOwnClaim hwf c, fun c _ hwf => wf_doOwnRelease hwf c, fun c _ hwf => wf_doOwnKeepalive hwf c, fun c
    _ hwf => wf_doOwnHandover hwf c, fun c _ hwf => wf_doOwnSetLease hwf c, fun c _ hwf => wf_doOwnSetPolicy hwf c, fun c _ hwf
    => wf_doOwnGetChallenge hwf c, fun c _ hwf => wf_doOwnGetStatus hwf c⟩

theorem specsDevice_keep : ∀ sp ∈ specsDevice, sp.Keeps := by
  simp only [specsDevice, List.forall_mem_cons, List.not_mem_nil, false_implies, implies_true, and_true]
  exact ⟨fun c _ hwf => wf_doDevGetInfo hwf c, fun c _ hwf => wf_doDevGetStatus hwf c, fun c _ hwf => wf_doDevQueryOpcode hwf c,
    fun c _ hwf => wf_doDevSetLabel hwf c, fun c _ hwf => wf_doDevSetMgmt hwf c, fun c _ hwf => wf_doDevGetMgmt hwf c, fun c _
    hwf => wf_doDiagEcho hwf c, fun c _ hwf => wf_doDiagReadCsr hwf c, fun c _ hwf => wf_doDiagWriteCsr hwf c, fun c _ hwf =>
    wf_doDiagReadMem hwf c, fun c _ hwf => wf_doDiagWriteMem hwf c⟩

theorem specsMemory_keep : ∀ sp ∈ specsMemory, sp.Keeps := by
  simp only [specsMemory, List.forall_mem_cons, List.not_mem_nil, false_implies, implies_true, and_true]
  exact ⟨fun c _ hwf => wf_doMemGetErrors hwf c, fun c _ hwf => wf_doMemGetStats hwf c⟩

theorem specsRings_keep : ∀ sp ∈ specsRings, sp.Keeps := by
  simp only [specsRings, List.forall_mem_cons, List.not_mem_nil, false_implies, implies_true, and_true]
  exact ⟨fun c _ hwf => wf_doRingCreate hwf c, fun c _ hwf => wf_doRingDelete hwf c, fun c _ hwf => wf_doDmaSetChannel hwf c,
    fun c _ hwf => wf_doDmaStop hwf c, fun c _ hwf => wf_doRingGetStatus hwf c, fun c _ hwf => wf_doDmaGetStatus hwf c⟩

theorem specsCores_keep : ∀ sp ∈ specsCores, sp.Keeps := by
  simp only [specsCores, List.forall_mem_cons, List.not_mem_nil, false_implies, implies_true, and_true]
  exact ⟨fun c _ hwf => wf_doMcRehearse hwf c, fun c _ hwf => wf_doMcGetStatus hwf c⟩

theorem specsSpares_keep : ∀ sp ∈ specsSpares, sp.Keeps := by
  simp only [specsSpares, List.forall_mem_cons, List.not_mem_nil, false_implies, implies_true, and_true]
  exact ⟨fun c _ hwf => wf_doSpareSetAudit hwf c, fun c _ hwf => wf_doSpareRetire hwf c, fun c _ hwf => wf_doSpareGetStatus hwf
    c⟩

theorem specsJournal_keep : ∀ sp ∈ specsJournal, sp.Keeps := by
  simp only [specsJournal, List.forall_mem_cons, List.not_mem_nil, false_implies, implies_true, and_true]
  exact ⟨fun c _ hwf => wf_doJrnlGetStatus hwf c, fun c _ hwf => wf_doJrnlCompact hwf c, fun c _ hwf => wf_doJrnlRead hwf c⟩

theorem specsReset_keep : ∀ sp ∈ specsReset, sp.Keeps := by
  simp only [specsReset, List.forall_mem_cons, List.not_mem_nil, false_implies, implies_true, and_true]
  exact ⟨fun c _ hwf => wf_doPwrSetDomain hwf c, fun c _ hwf => wf_doPwrReset hwf c, fun c _ hwf => wf_doPwrGetDomains hwf c⟩

theorem specsQuiesce_keep : ∀ sp ∈ specsQuiesce, sp.Keeps := by
  simp only [specsQuiesce, List.forall_mem_cons, List.not_mem_nil, false_implies, implies_true, and_true]
  exact ⟨fun c _ hwf => wf_doPwrQuiesce hwf c, fun c _ hwf => wf_doSecFwActivate hwf c⟩

theorem specsBoot_keep : ∀ sp ∈ specsBoot, sp.Keeps := by
  simp only [specsBoot, List.forall_mem_cons, List.not_mem_nil, false_implies, implies_true, and_true]
  exact ⟨fun c _ hwf => wf_doSecSetCmdKey hwf c, fun c _ hwf => wf_doSecSetSignPolicy hwf c, fun c _ hwf => wf_doSecOtpRotate
    hwf c, fun c _ hwf => wf_doSecOtpRevoke hwf c, fun c _ hwf => wf_doSecFwStage hwf c, fun c _ hwf => wf_doSecGetIdentity hwf
    c, fun c _ hwf => wf_doSecAttest hwf c⟩

theorem specsEpochs_keep : ∀ sp ∈ specsEpochs, sp.Keeps := by
  simp only [specsEpochs, List.forall_mem_cons, List.not_mem_nil, false_implies, implies_true, and_true]
  exact ⟨fun c _ hwf => wf_doTimeLoadDelay hwf c, fun c _ hwf => wf_doTimeApplyDelay hwf c⟩

/-! ## DIAG_BATCH (R421), and a command by its opcode -/

theorem baseSpecs_keep : ∀ sp ∈ baseSpecs, sp.Keeps := by
  unfold baseSpecs
  refine List.forall_mem_append.mpr ⟨?_, specsEpochs_keep⟩
  refine List.forall_mem_append.mpr ⟨?_, specsBoot_keep⟩
  refine List.forall_mem_append.mpr ⟨?_, specsQuiesce_keep⟩
  refine List.forall_mem_append.mpr ⟨?_, specsReset_keep⟩
  refine List.forall_mem_append.mpr ⟨?_, specsJournal_keep⟩
  refine List.forall_mem_append.mpr ⟨?_, specsSpares_keep⟩
  refine List.forall_mem_append.mpr ⟨?_, specsCores_keep⟩
  refine List.forall_mem_append.mpr ⟨?_, specsRings_keep⟩
  refine List.forall_mem_append.mpr ⟨?_, specsMemory_keep⟩
  refine List.forall_mem_append.mpr ⟨?_, specsDevice_keep⟩
  refine List.forall_mem_append.mpr ⟨?_, specsOwnership_keep⟩
  refine List.forall_mem_append.mpr ⟨?_, specsEvents_keep⟩
  refine List.forall_mem_append.mpr ⟨?_, specsCapture_keep⟩
  refine List.forall_mem_append.mpr ⟨?_, specsFreran_keep⟩
  refine List.forall_mem_append.mpr ⟨?_, specsPtp_keep⟩
  refine List.forall_mem_append.mpr ⟨?_, specsTime_keep⟩
  refine List.forall_mem_append.mpr ⟨?_, specsFilters_keep⟩
  refine List.forall_mem_append.mpr ⟨?_, specsBeams_keep⟩
  refine List.forall_mem_append.mpr ⟨?_, specsDumpCmds_keep⟩
  refine List.forall_mem_append.mpr ⟨?_, specsStaging_keep⟩
  refine List.forall_mem_append.mpr ⟨?_, specsIngest_keep⟩
  refine List.forall_mem_append.mpr ⟨?_, specsPorts_keep⟩
  exact specsAdmission_keep

section Batch
variable {s : State} (hwf : s.memoryWf = true)
include hwf

theorem wf_batchEntry (c : Cmd) (code : Nat) (params : List Byte) : (s.batchEntry c code params).2.2.memoryWf = true := by
  unfold State.batchEntry
  dsimp only
  split
  · exact hwf
  · next sp hfind =>
    split
    · exact hwf
    · split
      · exact hwf
      · have hmem : sp ∈ baseSpecs := List.mem_of_find?_eq_some hfind
        exact baseSpecs_keep sp hmem { client := c.client, via := c.via, params := params } s hwf

theorem wf_runBatch (c : Cmd) (l : List (Nat × List Byte)) (acc : List Byte) (n : Nat) :
    (State.runBatch c l s acc n).2.2.memoryWf = true := by
  induction l generalizing s acc n with
  | nil => exact hwf
  | cons e l ih =>
    have hentry := wf_batchEntry hwf c e.1 e.2
    unfold State.runBatch
    dsimp only
    split
    · exact hwf
    · exact ih hentry _ _

theorem wf_doDiagBatch (c : Cmd) : (doDiagBatch c s).st.memoryWf = true := by
  grind [doDiagBatch, Res.bad, wf_runBatch, Res.okWith]

end Batch

theorem specDiagBatch_keeps : specDiagBatch.Keeps := fun c _ hwf => wf_doDiagBatch hwf c

theorem mem_specs_keeps {sp : OpSpec} (hsp : sp ∈ specDiagBatch :: baseSpecs) : sp.Keeps := by
  rcases List.mem_cons.mp hsp with rfl | hbase
  · exact specDiagBatch_keeps
  · exact baseSpecs_keep sp hbase

theorem specOf_keeps {code : Nat} {sp : OpSpec} (hspec : specOf code = some sp) : sp.Keeps :=
  mem_specs_keeps (List.mem_of_find?_eq_some hspec)

theorem specOfV1_keeps {code : Nat} {sp : OpSpec} (hspec : specOfV1 code = some sp) : sp.Keeps := by
  unfold specOfV1 at hspec
  split at hspec
  · cases hspec
  · exact mem_specs_keeps (List.mem_of_find?_eq_some hspec)

end Sys2Proof.Machine
end

section
/-! That packets, the commands that wait, the journal's group, bring-up and partial frames keep memory in canonical form, and so
every step (R389, R503, R525, R527). -/

namespace Sys2Proof.Machine

section Keep
variable {s : State} (hwf : s.memoryWf = true)
include hwf

theorem wf_drainOrder (n : Nat) : (State.drainOrder n s).memoryWf = true := by
  induction n generalizing s with
  | zero => exact hwf
  | succ n ih =>
    unfold State.drainOrder
    split
    · split
      · exact hwf
      · next w rest _ =>
        have hrest : (s.mapOwn fun o => { o with order := rest }).memoryWf = true := hwf
        exact ih (wf_process hrest (fun _ hspec => specOf_keeps hspec) w)
    · exact hwf

theorem wf_resume : s.resume.memoryWf = true := wf_drainOrder hwf _

theorem wf_receivePacket (client : Client) (via : Nat) (p : Packet) : (s.receivePacket client via p).memoryWf = true := by
  cases p with
  | silent => exact hwf
  | verdict v2 code seq st => exact wf_arrive hwf (spec := none) (fun _ hspec => by cases hspec) _
  | cmd code c =>
    refine wf_arrive hwf (fun sp hspec => ?_) _
    split at hspec
    · exact specOf_keeps hspec
    · exact specOfV1_keeps hspec

theorem wf_mgmtUdp (p : Nat) (f : Frame) (ip : Ip) : (s.mgmtUdp p f ip).memoryWf = true := by
  grind [State.mgmtUdp, State.malformed, State.count, State.mapOwn, State.rxDiscard, State.setMgmt, wf_receivePacket,
    State.rxFrame, State.memoryWf]

theorem wf_evMgmtDatagramReceive (port : Fin 2) (f : Frame) : (evMgmtDatagramReceive port f s).memoryWf = true := by
  have hdrop : (s.rxDiscard port.val).memoryWf = true := hwf
  have htaken : (s.rxFrame port.val).memoryWf = true := hwf
  have hsent (r : Frame) := wf_sendMgmt htaken port.val r
  have hudp (ip : Ip) := wf_mgmtUdp hwf port.val f ip
  unfold evMgmtDatagramReceive
  extract_lets p m a unicast multicast
  refine wf_ite hwf (wf_ite hdrop (wf_ite htaken ?_))
  split
  · exact wf_ite (hsent _) hdrop
  · split
    · exact hdrop
    · extract_lets mine
      refine wf_ite (wf_ite hdrop hdrop) ?_
      split
      · exact hsent _
      · refine wf_ite hdrop ?_
        split
        · exact hsent _
        · exact wf_ite (hudp _) hdrop

theorem wf_evSmbusBlockWrite (target : SmbusTarget) (data : List Byte) (pec : Option Byte) :
    (evSmbusBlockWrite target data pec s).memoryWf = true := by
  have hwhole : (s.mapOwn fun o => { o with smbusIn := [], smbusNext := 0, smbusOut := none, smbusRead := 0 }).memoryWf = true :=
    hwf
  unfold evSmbusBlockWrite
  split
  · exact hwf
  · refine wf_ite hwf (wf_ite hwf ?_)
    split
    · exact hwf
    · exact wf_ite hwf (wf_ite (wf_receivePacket hwhole _ _ _) hwf)

theorem wf_evSmbusBlockRead (target : SmbusTarget) : (evSmbusBlockRead target s).memoryWf = true := by
  grind [evSmbusBlockRead, State.smbusAnswer, State.emit, State.mapOwn, State.memoryWf]

theorem wf_evCommandQueueRead (q : Nat) (element : Option (List Byte)) : (evCommandQueueRead q element s).memoryWf = true := by
  unfold evCommandQueueRead
  split
  · exact hwf
  · dsimp only
    generalize hread : s.readElement _ _ _ = x
    have hs1 : x.1.memoryWf = true := hread ▸ wf_readElement hwf _ _ _
    generalize hback : State.writeBack _ _ _ = s2
    have hs2 : s2.memoryWf = true := hback ▸ wf_writeBack (s := x.1.setQueue _ _) hs1 _ _
    have hcounted : (s2.malformed 0).memoryWf = true := hs2
    split
    · exact wf_completeElement hs2 _ _ _
    · split
      · exact wf_completeElement hcounted _ _ _
      · exact wf_receivePacket hs2 _ _ _

theorem wf_evPcieOutboundTimeout (user : OutboundUser) : (evPcieOutboundTimeout user s).memoryWf = true := by
  have hdrawn : s.draw.draw.memoryWf = true := hwf
  cases user with
  | commandElement q => exact wf_ite (wf_evCommandQueueRead hwf q none) hwf
  | descriptor n reads off =>
    unfold evPcieOutboundTimeout
    dsimp only
    split
    · exact wf_ite hwf (wf_ite (wf_ite (wf_evDmaDescriptorComplete hdrawn n _) hwf)
        (wf_ite (wf_evDmaDescriptorComplete hdrawn n _) hwf))
    · exact hwf

theorem wf_settleCommand (ok : Bool) : (s.settleCommand ok).memoryWf = true := by
  unfold State.settleCommand
  split
  · exact hwf
  · split
    · next w _ _ _ =>
      extract_lets s1
      have hs1 : s1.memoryWf = true := hwf
      clear_value s1
      split
      · split
        · next sp hspec => exact wf_answer s1 w sp.row (specOf_keeps hspec _ _ hs1)
        · exact hs1
      · exact wf_finish hs1 _ _ _
    · exact hwf

theorem wf_evJournalCommitDone (failing : List Nat) : (evJournalCommitDone failing s).memoryWf = true := by
  grind [evJournalCommitDone, wf_commitOldest, State.noteRecorded, wf_resume, wf_settleCommand, State.memoryWf]

theorem wf_settleHold : s.settleHold.memoryWf = true := by
  have hfreed : (s.mapOwn fun o => { o with executing := none }).memoryWf = true := hwf
  unfold State.settleHold
  split
  · exact wf_ite (wf_finish hfreed _ _ _) hwf
  · split
    · extract_lets s1
      split
      · next sp hspec => exact wf_serve hfreed (specOf_keeps hspec) _
      · exact hfreed
    · exact hwf
  · exact hwf

theorem wf_evDomainPowerUpDone (domain : Fin 96) : (evDomainPowerUpDone domain s).memoryWf = true := by
  grind [evDomainPowerUpDone, wf_resume, wf_settleHold, wf_domainUp, State.memoryWf]

theorem wf_evStandbyTakeover : (evStandbyTakeover s).memoryWf = true := by
  grind [evStandbyTakeover, wf_expireToken, wf_resume, wf_standbyTakes, State.memoryWf]

theorem wf_evCoreBootClaim (core : Fin 2) : (evCoreBootClaim core s).memoryWf = true := by
  grind [evCoreBootClaim, wf_resume, wf_bootClaim, wf_expireToken, State.memoryWf]

theorem wf_restoreTile (t reason : Nat) : (s.restoreTile t reason).memoryWf = true := by
  grind [State.restoreTile, State.setTileInfo, State.memoryWf]

theorem wf_applyRecord (p : JParsed) : (s.applyRecord p).memoryWf = true := by
  grind [State.applyRecord, State.mapJrnl, wf_restoreTile, State.mapSpare, State.memoryWf]

theorem wf_bootRow (r : Nat × Nat) : (s.bootRow r).memoryWf = true := by
  grind [State.bootRow, wf_repairRow, wf_retireTile, State.mapSpare, State.memoryWf]

theorem wf_bootRepair (failed : List Nat) (e : HbmRepair × Nat) : (s.bootRepair failed e).memoryWf = true := by
  grind [State.bootRepair, State.handGroup, State.mapSpare, State.memoryWf]

theorem wf_powered (d : Nat) : (s.powered d).memoryWf = true := by
  grind [State.powered, State.setDomain, State.memoryWf]

theorem wf_bootHbm (failed : List Nat) : (s.bootHbm failed).memoryWf = true := by
  grind [State.bootHbm, wf_bootRepair, wf_powered, wf_bumpHc, wf_foldl, wf_foldl_fst, State.memoryWf]

theorem wf_bootBist (bad : List Nat) : (s.bootBist bad).memoryWf = true := by
  grind [State.bootBist, State.setTileInfo, State.mapSpare, wf_retireTile, wf_foldl, wf_foldl_fst, State.memoryWf]

theorem wf_assignSlots : s.assignSlots.memoryWf = true := by
  grind [State.assignSlots, State.setTileInfo, State.mapSpare, State.mapTile, wf_raise, wf_foldl, wf_foldl_fst, State.memoryWf]

theorem wf_replay (p : JParsed) : (s.replay p).memoryWf = true := by
  unfold State.replay
  split
  · exact hwf
  · next sp hspec =>
    extract_lets params r
    have hr : r.st.memoryWf = true := specOf_keeps hspec _ _ hwf
    exact wf_ite hwf (wf_ite hr hwf)

theorem wf_recordBoot (core : Nat) (failing : List Nat) : (s.recordBoot core failing).memoryWf = true := by
  grind [State.recordBoot, State.handGroup, State.mapJrnl, wf_commitOldest, wf_foldl, wf_foldl_fst, State.memoryWf]

theorem wf_enterService : s.enterService.memoryWf = true := by
  grind [State.enterService, State.mapPwr, wf_startQuiesce, State.memoryWf]

theorem wf_restoreLoadMap : s.restoreLoadMap.memoryWf = true := hwf

theorem wf_routerMode : (s.mapEr fun r => { r with mode := r.jMode.getD 1 }).memoryWf = true := hwf

theorem wf_evServiceBringUp (report : BootReport) : (evServiceBringUp report s).memoryWf = true := by
  unfold evServiceBringUp
  split
  · exact hwf
  · split
    · exact hwf
    · have hjournal := wf_recoverJournal hwf report.failingBlocks
      generalize s.recoverJournal report.failingBlocks = x at hjournal ⊢
      obtain ⟨s1, records⟩ := x
      have hrecords := wf_foldl (fun u p hu => wf_applyRecord hu p) records hjournal
      have hrows := wf_foldl (fun u r hu => wf_bootRow hu r) report.badRows hrecords
      have htiles := wf_assignSlots (wf_bootBist (wf_bootHbm hrows report.failedHbm) report.badTiles)
      have hsettings := wf_foldl (fun u p hu => wf_replay hu p) records htiles
      exact wf_resume (wf_enterService (wf_recordBoot (wf_routerMode (wf_restoreLoadMap hsettings)) _ _))

theorem wf_storePartial (x : Collect) (p : PartialLeaf) : (s.storePartial x p).memoryWf = true := by
  grind [State.storePartial, State.putCollect, State.mapBas, State.rejectPartial, wf_tryCombine, State.memoryWf]

theorem wf_collectPartial (f : PartialFrame) : (s.collectPartial f).memoryWf = true := by
  grind [State.collectPartial, State.mapBas, State.rejectPartial, wf_storePartial, State.memoryWf]

theorem wf_partialDatagram (b : List Byte) : (s.partialDatagram b).memoryWf = true := by
  grind [State.partialDatagram, wf_expireCollects, State.rejectPartial, State.mapBas, wf_collectPartial, State.memoryWf]

theorem wf_evPartialFrameReceive (port : Fin 80) (f : Frame) : (evPartialFrameReceive port f s).memoryWf = true := by
  grind [evPartialFrameReceive, wf_partialDatagram, State.countPort, State.setPort, wf_evEthFrameReceive, State.memoryWf]

end Keep

end Sys2Proof.Machine
end

section
/-! That a step keeps memory in canonical form, whatever command or event it takes (R389, R425, R433, R436, R503, R527):
the claim of O5. -/

namespace Sys2Proof.Machine

theorem wf_countCorrected {s : State} (hwf : s.memoryWf = true) : s.countCorrected.memoryWf = true := hwf

theorem wf_evRefInLock {s : State} (hwf : s.memoryWf = true) : (evRefInLock s).memoryWf = true := hwf

theorem wf_evRefInLoss {s : State} (hwf : s.memoryWf = true) : (evRefInLoss s).memoryWf = true := hwf

theorem wf_evChallengeExpiry {s : State} (hwf : s.memoryWf = true) (client : Client) :
    (evChallengeExpiry client s).memoryWf = true := hwf

/-- Every arm of the dispatch: a command by its body, an event by its effect. -/
theorem wf_exec {s t : State} (hwf : s.memoryWf = true) {i : Instr} (hnext : exec i s = .next t) : t.memoryWf = true := by
  cases i with
  | pwrSetOp c => exact wf_submit (spec := specPwrSetOp) hwf (fun c _ h => wf_doPwrSetOp h c) hnext
  | pwrGetOp c => exact wf_submit (spec := specPwrGetOp) hwf (fun c _ h => wf_doPwrGetOp h c) hnext
  | corrSetShed c => exact wf_submit (spec := specCorrSetShed) hwf (fun c _ h => wf_doCorrSetShed h c) hnext
  | corrGetLoad c => exact wf_submit (spec := specCorrGetLoad) hwf (fun c _ h => wf_doCorrGetLoad h c) hnext
  | portSetQuad c => exact wf_submit (spec := specPortSetQuad) hwf (fun c _ h => wf_doPortSetQuad h c) hnext
  | portSetLane c => exact wf_submit (spec := specPortSetLane) hwf (fun c _ h => wf_doPortSetLane h c) hnext
  | portSetKlp c => exact wf_submit (spec := specPortSetKlp) hwf (fun c _ h => wf_doPortSetKlp h c) hnext
  | portGetStatus c => exact wf_submit (spec := specPortGetStatus) hwf (fun c _ h => wf_doPortGetStatus h c) hnext
  | portGetLane c => exact wf_submit (spec := specPortGetLane) hwf (fun c _ h => wf_doPortGetLane h c) hnext
  | portEyeScan c => exact wf_submit (spec := specPortEyeScan) hwf (fun c _ h => wf_doPortEyeScan h c) hnext
  | portEyeRead c => exact wf_submit (spec := specPortEyeRead) hwf (fun c _ h => wf_doPortEyeRead h c) hnext
  | ingestSetPort c => exact wf_submit (spec := specIngestSetPort) hwf (fun c _ h => wf_doIngestSetPort h c) hnext
  | ingestMcast c => exact wf_submit (spec := specIngestMcast) hwf (fun c _ h => wf_doIngestMcast h c) hnext
  | ingestSetSource c => exact wf_submit (spec := specIngestSetSource) hwf (fun c _ h => wf_doIngestSetSource h c) hnext
  | ingestLoadMap c => exact wf_submit (spec := specIngestLoadMap) hwf (fun c _ h => wf_doIngestLoadMap h c) hnext
  | ingestApplyMap c => exact wf_submit (spec := specIngestApplyMap) hwf (fun c _ h => wf_doIngestApplyMap h c) hnext
  | ingestLoadGain c => exact wf_submit (spec := specIngestLoadGain) hwf (fun c _ h => wf_doIngestLoadGain h c) hnext
  | ingestApplyGain c => exact wf_submit (spec := specIngestApplyGain) hwf (fun c _ h => wf_doIngestApplyGain h c) hnext
  | ingestSetTiming c => exact wf_submit (spec := specIngestSetTiming) hwf (fun c _ h => wf_doIngestSetTiming h c) hnext
  | ingestGetPort c => exact wf_submit (spec := specIngestGetPort) hwf (fun c _ h => wf_doIngestGetPort h c) hnext
  | ingestGetInput c => exact wf_submit (spec := specIngestGetInput) hwf (fun c _ h => wf_doIngestGetInput h c) hnext
  | corrLoadCoarse c => exact wf_submit (spec := specCorrLoadCoarse) hwf (fun c _ h => wf_doCorrLoadCoarse h c) hnext
  | corrApplyCoarse c => exact wf_submit (spec := specCorrApplyCoarse) hwf (fun c _ h => wf_doCorrApplyCoarse h c) hnext
  | corrGetStaging c => exact wf_submit (spec := specCorrGetStaging) hwf (fun c _ h => wf_doCorrGetStaging h c) hnext
  | corrSetLayout c => exact wf_submit (spec := specCorrSetLayout) hwf (fun c _ h => wf_doCorrSetLayout h c) hnext
  | corrStart c => exact wf_submit (spec := specCorrStart) hwf (fun c _ h => wf_doCorrStart h c) hnext
  | corrStop c => exact wf_submit (spec := specCorrStop) hwf (fun c _ h => wf_doCorrStop h c) hnext
  | corrGetLayout c => exact wf_submit (spec := specCorrGetLayout) hwf (fun c _ h => wf_doCorrGetLayout h c) hnext
  | corrGetTiles c => exact wf_submit (spec := specCorrGetTiles) hwf (fun c _ h => wf_doCorrGetTiles h c) hnext
  | corrSetPreload c => exact wf_submit (spec := specCorrSetPreload) hwf (fun c _ h => wf_doCorrSetPreload h c) hnext
  | corrLoadFringe c => exact wf_submit (spec := specCorrLoadFringe) hwf (fun c _ h => wf_doCorrLoadFringe h c) hnext
  | corrSetRotation c => exact wf_submit (spec := specCorrSetRotation) hwf (fun c _ h => wf_doCorrSetRotation h c) hnext
  | corrSetCombine c => exact wf_submit (spec := specCorrSetCombine) hwf (fun c _ h => wf_doCorrSetCombine h c) hnext
  | corrGetAccum c => exact wf_submit (spec := specCorrGetAccum) hwf (fun c _ h => wf_doCorrGetAccum h c) hnext
  | corrSetDump c => exact wf_submit (spec := specCorrSetDump) hwf (fun c _ h => wf_doCorrSetDump h c) hnext
  | corrDumpAt c => exact wf_submit (spec := specCorrDumpAt) hwf (fun c _ h => wf_doCorrDumpAt h c) hnext
  | corrSetDest c => exact wf_submit (spec := specCorrSetDest) hwf (fun c _ h => wf_doCorrSetDest h c) hnext
  | corrMapDest c => exact wf_submit (spec := specCorrMapDest) hwf (fun c _ h => wf_doCorrMapDest h c) hnext
  | corrGetDump c => exact wf_submit (spec := specCorrGetDump) hwf (fun c _ h => wf_doCorrGetDump h c) hnext
  | beamSetConfig c => exact wf_submit (spec := specBeamSetConfig) hwf (fun c _ h => wf_doBeamSetConfig h c) hnext
  | beamLoadWeights c => exact wf_submit (spec := specBeamLoadWeights) hwf (fun c _ h => wf_doBeamLoadWeights h c) hnext
  | beamLoadScale c => exact wf_submit (spec := specBeamLoadScale) hwf (fun c _ h => wf_doBeamLoadScale h c) hnext
  | beamApply c => exact wf_submit (spec := specBeamApply) hwf (fun c _ h => wf_doBeamApply h c) hnext
  | beamSetDest c => exact wf_submit (spec := specBeamSetDest) hwf (fun c _ h => wf_doBeamSetDest h c) hnext
  | beamGetSet c => exact wf_submit (spec := specBeamGetSet) hwf (fun c _ h => wf_doBeamGetSet h c) hnext
  | filtSetChain c => exact wf_submit (spec := specFiltSetChain) hwf (fun c _ h => wf_doFiltSetChain h c) hnext
  | filtEnable c => exact wf_submit (spec := specFiltEnable) hwf (fun c _ h => wf_doFiltEnable h c) hnext
  | filtSync c => exact wf_submit (spec := specFiltSync) hwf (fun c _ h => wf_doFiltSync h c) hnext
  | filtLoadCoef c => exact wf_submit (spec := specFiltLoadCoef) hwf (fun c _ h => wf_doFiltLoadCoef h c) hnext
  | filtApply c => exact wf_submit (spec := specFiltApply) hwf (fun c _ h => wf_doFiltApply h c) hnext
  | filtGetChain c => exact wf_submit (spec := specFiltGetChain) hwf (fun c _ h => wf_doFiltGetChain h c) hnext
  | timeSetSource c => exact wf_submit (spec := specTimeSetSource) hwf (fun c _ h => wf_doTimeSetSource h c) hnext
  | timeSet c => exact wf_submit (spec := specTimeSet) hwf (fun c _ h => wf_doTimeSet h c) hnext
  | timeSetPtp c => exact wf_submit (spec := specTimeSetPtp) hwf (fun c _ h => wf_doTimeSetPtp h c) hnext
  | timeSetPtpPort c => exact wf_submit (spec := specTimeSetPtpPort) hwf (fun c _ h => wf_doTimeSetPtpPort h c) hnext
  | timeSetPulse c => exact wf_submit (spec := specTimeSetPulse) hwf (fun c _ h => wf_doTimeSetPulse h c) hnext
  | timeSetEvt c => exact wf_submit (spec := specTimeSetEvt) hwf (fun c _ h => wf_doTimeSetEvt h c) hnext
  | timeSetMapping c => exact wf_submit (spec := specTimeSetMapping) hwf (fun c _ h => wf_doTimeSetMapping h c) hnext
  | timeConvert c => exact wf_submit (spec := specTimeConvert) hwf (fun c _ h => wf_doTimeConvert h c) hnext
  | timeSetEpoch c => exact wf_submit (spec := specTimeSetEpoch) hwf (fun c _ h => wf_doTimeSetEpoch h c) hnext
  | timeLoadDelay c => exact wf_submit (spec := specTimeLoadDelay) hwf (fun c _ h => wf_doTimeLoadDelay h c) hnext
  | timeApplyDelay c => exact wf_submit (spec := specTimeApplyDelay) hwf (fun c _ h => wf_doTimeApplyDelay h c) hnext
  | timeResync c => exact wf_submit (spec := specTimeResync) hwf (fun c _ h => wf_doTimeResync h c) hnext
  | timeGetStatus c => exact wf_submit (spec := specTimeGetStatus) hwf (fun c _ h => wf_doTimeGetStatus h c) hnext
  | freranSetNode c => exact wf_submit (spec := specFreranSetNode) hwf (fun c _ h => wf_doFreranSetNode h c) hnext
  | freranSetPort c => exact wf_submit (spec := specFreranSetPort) hwf (fun c _ h => wf_doFreranSetPort h c) hnext
  | freranArm c => exact wf_submit (spec := specFreranArm) hwf (fun c _ h => wf_doFreranArm h c) hnext
  | freranGetStatus c => exact wf_submit (spec := specFreranGetStatus) hwf (fun c _ h => wf_doFreranGetStatus h c) hnext
  | corrSetSplit c => exact wf_submit (spec := specCorrSetSplit) hwf (fun c _ h => wf_doCorrSetSplit h c) hnext
  | capSetRing c => exact wf_submit (spec := specCapSetRing) hwf (fun c _ h => wf_doCapSetRing h c) hnext
  | capSetSegment c => exact wf_submit (spec := specCapSetSegment) hwf (fun c _ h => wf_doCapSetSegment h c) hnext
  | capSetDetector c => exact wf_submit (spec := specCapSetDetector) hwf (fun c _ h => wf_doCapSetDetector h c) hnext
  | capArm c => exact wf_submit (spec := specCapArm) hwf (fun c _ h => wf_doCapArm h c) hnext
  | capTrigger c => exact wf_submit (spec := specCapTrigger) hwf (fun c _ h => wf_doCapTrigger h c) hnext
  | capSetDest c => exact wf_submit (spec := specCapSetDest) hwf (fun c _ h => wf_doCapSetDest h c) hnext
  | capGetStatus c => exact wf_submit (spec := specCapGetStatus) hwf (fun c _ h => wf_doCapGetStatus h c) hnext
  | eventSetRoute c => exact wf_submit (spec := specEventSetRoute) hwf (fun c _ h => wf_doEventSetRoute h c) hnext
  | eventSetMode c => exact wf_submit (spec := specEventSetMode) hwf (fun c _ h => wf_doEventSetMode h c) hnext
  | eventFire c => exact wf_submit (spec := specEventFire) hwf (fun c _ h => wf_doEventFire h c) hnext
  | eventSetQueue c => exact wf_submit (spec := specEventSetQueue) hwf (fun c _ h => wf_doEventSetQueue h c) hnext
  | eventGetStatus c => exact wf_submit (spec := specEventGetStatus) hwf (fun c _ h => wf_doEventGetStatus h c) hnext
  | ownClaim c => exact wf_submit (spec := specOwnClaim) hwf (fun c _ h => wf_doOwnClaim h c) hnext
  | ownRelease c => exact wf_submit (spec := specOwnRelease) hwf (fun c _ h => wf_doOwnRelease h c) hnext
  | ownKeepalive c => exact wf_submit (spec := specOwnKeepalive) hwf (fun c _ h => wf_doOwnKeepalive h c) hnext
  | ownHandover c => exact wf_submit (spec := specOwnHandover) hwf (fun c _ h => wf_doOwnHandover h c) hnext
  | ownSetLease c => exact wf_submit (spec := specOwnSetLease) hwf (fun c _ h => wf_doOwnSetLease h c) hnext
  | ownSetPolicy c => exact wf_submit (spec := specOwnSetPolicy) hwf (fun c _ h => wf_doOwnSetPolicy h c) hnext
  | ownGetChallenge c => exact wf_submit (spec := specOwnGetChallenge) hwf (fun c _ h => wf_doOwnGetChallenge h c) hnext
  | ownGetStatus c => exact wf_submit (spec := specOwnGetStatus) hwf (fun c _ h => wf_doOwnGetStatus h c) hnext
  | devGetInfo c => exact wf_submit (spec := specDevGetInfo) hwf (fun c _ h => wf_doDevGetInfo h c) hnext
  | devGetStatus c => exact wf_submit (spec := specDevGetStatus) hwf (fun c _ h => wf_doDevGetStatus h c) hnext
  | devQueryOpcode c => exact wf_submit (spec := specDevQueryOpcode) hwf (fun c _ h => wf_doDevQueryOpcode h c) hnext
  | devSetMgmt c => exact wf_submit (spec := specDevSetMgmt) hwf (fun c _ h => wf_doDevSetMgmt h c) hnext
  | devGetMgmt c => exact wf_submit (spec := specDevGetMgmt) hwf (fun c _ h => wf_doDevGetMgmt h c) hnext
  | devSetLabel c => exact wf_submit (spec := specDevSetLabel) hwf (fun c _ h => wf_doDevSetLabel h c) hnext
  | diagEcho c => exact wf_submit (spec := specDiagEcho) hwf (fun c _ h => wf_doDiagEcho h c) hnext
  | diagBatch c => exact wf_submit (spec := specDiagBatch) hwf (fun c _ h => wf_doDiagBatch h c) hnext
  | diagReadCsr c => exact wf_submit (spec := specDiagReadCsr) hwf (fun c _ h => wf_doDiagReadCsr h c) hnext
  | diagWriteCsr c => exact wf_submit (spec := specDiagWriteCsr) hwf (fun c _ h => wf_doDiagWriteCsr h c) hnext
  | diagReadMem c => exact wf_submit (spec := specDiagReadMem) hwf (fun c _ h => wf_doDiagReadMem h c) hnext
  | diagWriteMem c => exact wf_submit (spec := specDiagWriteMem) hwf (fun c _ h => wf_doDiagWriteMem h c) hnext
  | memSetHost c => exact wf_submit (spec := specMemSetHost) hwf (fun c _ h => wf_doMemSetHost h c) hnext
  | memGetErrors c => exact wf_submit (spec := specMemGetErrors) hwf (fun c _ h => wf_doMemGetErrors h c) hnext
  | memGetStats c => exact wf_submit (spec := specMemGetStats) hwf (fun c _ h => wf_doMemGetStats h c) hnext
  | ringCreate c => exact wf_submit (spec := specRingCreate) hwf (fun c _ h => wf_doRingCreate h c) hnext
  | ringDelete c => exact wf_submit (spec := specRingDelete) hwf (fun c _ h => wf_doRingDelete h c) hnext
  | dmaSetChannel c => exact wf_submit (spec := specDmaSetChannel) hwf (fun c _ h => wf_doDmaSetChannel h c) hnext
  | dmaStop c => exact wf_submit (spec := specDmaStop) hwf (fun c _ h => wf_doDmaStop h c) hnext
  | ringGetStatus c => exact wf_submit (spec := specRingGetStatus) hwf (fun c _ h => wf_doRingGetStatus h c) hnext
  | dmaGetStatus c => exact wf_submit (spec := specDmaGetStatus) hwf (fun c _ h => wf_doDmaGetStatus h c) hnext
  | mcRehearse c => exact wf_submit (spec := specMcRehearse) hwf (fun c _ h => wf_doMcRehearse h c) hnext
  | mcGetStatus c => exact wf_submit (spec := specMcGetStatus) hwf (fun c _ h => wf_doMcGetStatus h c) hnext
  | spareSetAudit c => exact wf_submit (spec := specSpareSetAudit) hwf (fun c _ h => wf_doSpareSetAudit h c) hnext
  | spareRetire c => exact wf_submit (spec := specSpareRetire) hwf (fun c _ h => wf_doSpareRetire h c) hnext
  | spareGetStatus c => exact wf_submit (spec := specSpareGetStatus) hwf (fun c _ h => wf_doSpareGetStatus h c) hnext
  | jrnlGetStatus c => exact wf_submit (spec := specJrnlGetStatus) hwf (fun c _ h => wf_doJrnlGetStatus h c) hnext
  | jrnlCompact c => exact wf_submit (spec := specJrnlCompact) hwf (fun c _ h => wf_doJrnlCompact h c) hnext
  | jrnlRead c => exact wf_submit (spec := specJrnlRead) hwf (fun c _ h => wf_doJrnlRead h c) hnext
  | pwrSetDomain c => exact wf_submit (spec := specPwrSetDomain) hwf (fun c _ h => wf_doPwrSetDomain h c) hnext
  | pwrGetDomains c => exact wf_submit (spec := specPwrGetDomains) hwf (fun c _ h => wf_doPwrGetDomains h c) hnext
  | pwrQuiesce c => exact wf_submit (spec := specPwrQuiesce) hwf (fun c _ h => wf_doPwrQuiesce h c) hnext
  | pwrReset c => exact wf_submit (spec := specPwrReset) hwf (fun c _ h => wf_doPwrReset h c) hnext
  | secGetIdentity c => exact wf_submit (spec := specSecGetIdentity) hwf (fun c _ h => wf_doSecGetIdentity h c) hnext
  | secAttest c => exact wf_submit (spec := specSecAttest) hwf (fun c _ h => wf_doSecAttest h c) hnext
  | secSetCmdKey c => exact wf_submit (spec := specSecSetCmdKey) hwf (fun c _ h => wf_doSecSetCmdKey h c) hnext
  | secSetSignPolicy c => exact wf_submit (spec := specSecSetSignPolicy) hwf (fun c _ h => wf_doSecSetSignPolicy h c) hnext
  | secOtpRotate c => exact wf_submit (spec := specSecOtpRotate) hwf (fun c _ h => wf_doSecOtpRotate h c) hnext
  | secOtpRevoke c => exact wf_submit (spec := specSecOtpRevoke) hwf (fun c _ h => wf_doSecOtpRevoke h c) hnext
  | secFwStage c => exact wf_submit (spec := specSecFwStage) hwf (fun c _ h => wf_doSecFwStage h c) hnext
  | secFwActivate c => exact wf_submit (spec := specSecFwActivate) hwf (fun c _ h => wf_doSecFwActivate h c) hnext
  | mgmtDatagramReceive port f =>
    exact wf_guarded (i := .mgmtDatagramReceive port f) (s := s) (wf_evMgmtDatagramReceive hwf port f) hnext
  | smbusBlockWrite target data pec =>
    exact wf_guarded (i := .smbusBlockWrite target data pec) (s := s) (wf_evSmbusBlockWrite hwf target data pec) hnext
  | smbusBlockRead target => exact wf_guarded (i := .smbusBlockRead target) (s := s) (wf_evSmbusBlockRead hwf target) hnext
  | commandQueueRead q element =>
    exact wf_guarded (i := .commandQueueRead q element) (s := s) (wf_evCommandQueueRead hwf q element) hnext
  | qzSnapTake value => exact wf_guarded (i := .qzSnapTake value) (s := s) (wf_evQzSnapTake hwf value) hnext
  | erSwFire value => exact wf_guarded (i := .erSwFire value) (s := s) (wf_evErSwFire hwf value) hnext
  | erCfire value => exact wf_guarded (i := .erCfire value) (s := s) (wf_evErCfire hwf value) hnext
  | erConfigWrite offset value =>
    exact wf_guarded (i := .erConfigWrite offset value) (s := s) (wf_evErConfigWrite hwf offset value) hnext
  | mxCtrlRemap value master =>
    exact wf_guarded (i := .mxCtrlRemap value master) (s := s) (wf_evMxCtrlRemap hwf value master) hnext
  | rqDb q value => exact wf_guarded (i := .rqDb q value) (s := s) (wf_evRqDb hwf q value) hnext
  | rqCfgEnable q value => exact wf_guarded (i := .rqCfgEnable q value) (s := s) (wf_evRqCfgEnable hwf q value) hnext
  | btRecData value => exact wf_guarded (i := .btRecData value) (s := s) (wf_evBtRecData hwf value) hnext
  | btRecGo value => exact wf_guarded (i := .btRecGo value) (s := s) (wf_evBtRecGo hwf value) hnext
  | hcInjAddr stack value => exact wf_guarded (i := .hcInjAddr stack value) (s := s) (wf_evHcInjAddr hwf stack value) hnext
  | csrWrite addr value master =>
    exact wf_guarded (i := .csrWrite addr value master) (s := s) (wf_evCsrWrite hwf addr value master) hnext
  | pcieInboundRead place len =>
    exact wf_guarded (i := .pcieInboundRead place len) (s := s) (wf_evPcieInboundRead hwf place len) hnext
  | pcieInboundWrite place data =>
    exact wf_guarded (i := .pcieInboundWrite place data) (s := s) (wf_evPcieInboundWrite hwf place data) hnext
  | pcieOutboundTimeout user =>
    exact wf_guarded (i := .pcieOutboundTimeout user) (s := s) (wf_evPcieOutboundTimeout hwf user) hnext
  | ethFrameReceive port f => exact wf_guarded (i := .ethFrameReceive port f) (s := s) (wf_evEthFrameReceive hwf port f) hnext
  | klpPacketReceive port bytes =>
    exact wf_guarded (i := .klpPacketReceive port bytes) (s := s) (wf_evKlpPacketReceive hwf port bytes) hnext
  | heldPartRelease => exact wf_guarded (i := .heldPartRelease) (s := s) (wf_evHeldPartRelease hwf) hnext
  | visitHoldExpiry channel visit =>
    exact wf_guarded (i := .visitHoldExpiry channel visit) (s := s) (wf_evVisitHoldExpiry hwf channel visit) hnext
  | uncorrectableCodeword lane packets =>
    exact wf_guarded (i := .uncorrectableCodeword lane packets) (s := s) (wf_evUncorrectableCodeword hwf lane packets) hnext
  | sfmReceive lane block => exact wf_guarded (i := .sfmReceive lane block) (s := s) (wf_evSfmReceive hwf lane block) hnext
  | sfmTransmit port => exact wf_guarded (i := .sfmTransmit port) (s := s) (wf_evSfmTransmit hwf port) hnext
  | laneLock lane step => exact wf_guarded (i := .laneLock lane step) (s := s) (wf_evLaneLock hwf lane step) hnext
  | polarityTryTimeout lane =>
    exact wf_guarded (i := .polarityTryTimeout lane) (s := s) (wf_evPolarityTryTimeout hwf lane) hnext
  | bringupRetry lane => exact wf_guarded (i := .bringupRetry lane) (s := s) (wf_evBringupRetry hwf lane) hnext
  | laneLockLoss lane cause =>
    exact wf_guarded (i := .laneLockLoss lane cause) (s := s) (wf_evLaneLockLoss hwf lane cause) hnext
  | shedAgreeTimeout port => exact wf_guarded (i := .shedAgreeTimeout port) (s := s) (wf_evShedAgreeTimeout hwf port) hnext
  | eyeScanDone lane errors =>
    exact wf_guarded (i := .eyeScanDone lane errors) (s := s) (wf_evEyeScanDone hwf lane errors) hnext
  | mcastReportRepeat port => exact wf_guarded (i := .mcastReportRepeat port) (s := s) (wf_evMcastReportRepeat hwf port) hnext
  | mcastQueryResponse port =>
    exact wf_guarded (i := .mcastQueryResponse port) (s := s) (wf_evMcastQueryResponse hwf port) hnext
  | micaLoadStart => exact wf_guarded (i := .micaLoadStart) (s := s) (wf_evMicaLoadStart hwf) hnext
  | shedVisitSkip channel visit =>
    exact wf_guarded (i := .shedVisitSkip channel visit) (s := s) (wf_evShedVisitSkip hwf channel visit) hnext
  | micaLoadComplete => exact wf_guarded (i := .micaLoadComplete) (s := s) (wf_evMicaLoadComplete hwf) hnext
  | visitStart => exact wf_guarded (i := .visitStart) (s := s) (wf_evVisitStart hwf) hnext
  | visitDeadline channel visit =>
    exact wf_guarded (i := .visitDeadline channel visit) (s := s) (wf_evVisitDeadline hwf channel visit) hnext
  | tileVisitComplete slot upsets =>
    exact wf_guarded (i := .tileVisitComplete slot upsets) (s := s) (wf_evTileVisitComplete hwf slot upsets) hnext
  | basaltVisitProcess => exact wf_guarded (i := .basaltVisitProcess) (s := s) (wf_evBasaltVisitProcess hwf) hnext
  | dumpPass channel => exact wf_guarded (i := .dumpPass channel) (s := s) (wf_evDumpPass hwf channel) hnext
  | dumpWeightFrames channel =>
    exact wf_guarded (i := .dumpWeightFrames channel) (s := s) (wf_evDumpWeightFrames hwf channel) hnext
  | dumpDone channel => exact wf_guarded (i := .dumpDone channel) (s := s) (wf_evDumpDone hwf channel) hnext
  | roundEnd => exact wf_guarded (i := .roundEnd) (s := s) (wf_evRoundEnd hwf) hnext
  | slotMove slot tile => exact wf_guarded (i := .slotMove slot tile) (s := s) (wf_evSlotMove hwf slot tile) hnext
  | slotWithdraw slot => exact wf_guarded (i := .slotWithdraw slot) (s := s) (wf_evSlotWithdraw hwf slot) hnext
  | beamSwapDone set => exact wf_guarded (i := .beamSwapDone set) (s := s) (wf_evBeamSwapDone hwf set) hnext
  | chainVisitProcess chain =>
    exact wf_guarded (i := .chainVisitProcess chain) (s := s) (wf_evChainVisitProcess hwf chain) hnext
  | filterSwapDone => exact wf_guarded (i := .filterSwapDone) (s := s) (wf_evFilterSwapDone hwf) hnext
  | partialFrameReceive port f =>
    exact wf_guarded (i := .partialFrameReceive port f) (s := s) (wf_evPartialFrameReceive hwf port f) hnext
  | combineTimeout channel => exact wf_guarded (i := .combineTimeout channel) (s := s) (wf_evCombineTimeout hwf channel) hnext
  | refInLock => exact wf_guarded (i := .refInLock) (s := s) (wf_evRefInLock hwf) hnext
  | refInLoss => exact wf_guarded (i := .refInLoss) (s := s) (wf_evRefInLoss hwf) hnext
  | ppsEdge phase => exact wf_guarded (i := .ppsEdge phase) (s := s) (wf_evPpsEdge hwf phase) hnext
  | ppsHoldoverTimeout => exact wf_guarded (i := .ppsHoldoverTimeout) (s := s) (wf_evPpsHoldoverTimeout hwf) hnext
  | ptpMessageReceive port bytes =>
    exact wf_guarded (i := .ptpMessageReceive port bytes) (s := s) (wf_evPtpMessageReceive hwf port bytes) hnext
  | ptpMessageSend port kind =>
    exact wf_guarded (i := .ptpMessageSend port kind) (s := s) (wf_evPtpMessageSend hwf port kind) hnext
  | ptpHoldoverTimeout => exact wf_guarded (i := .ptpHoldoverTimeout) (s := s) (wf_evPtpHoldoverTimeout hwf) hnext
  | suspectHoldoverTimeout => exact wf_guarded (i := .suspectHoldoverTimeout) (s := s) (wf_evSuspectHoldoverTimeout hwf) hnext
  | pulseEdge gen => exact wf_guarded (i := .pulseEdge gen) (s := s) (wf_evPulseEdge hwf gen) hnext
  | evtEdge pin edge => exact wf_guarded (i := .evtEdge pin edge) (s := s) (wf_evEvtEdge hwf pin edge) hnext
  | epochEvent => exact wf_guarded (i := .epochEvent) (s := s) (wf_evEpochEvent hwf) hnext
  | replicaDissent replica fault =>
    exact wf_guarded (i := .replicaDissent replica fault) (s := s) (wf_evReplicaDissent hwf replica fault) hnext
  | replicaRejoin replica => exact wf_guarded (i := .replicaRejoin replica) (s := s) (wf_evReplicaRejoin hwf replica) hnext
  | majorityReturn => exact wf_guarded (i := .majorityReturn) (s := s) (wf_evMajorityReturn hwf) hnext
  | freranMessageReceive port message =>
    exact wf_guarded (i := .freranMessageReceive port message) (s := s) (wf_evFreranMessageReceive hwf port message) hnext
  | freranEchoSend ask => exact wf_guarded (i := .freranEchoSend ask) (s := s) (wf_evFreranEchoSend hwf ask) hnext
  | freranLinkTimeout port => exact wf_guarded (i := .freranLinkTimeout port) (s := s) (wf_evFreranLinkTimeout hwf port) hnext
  | freranWindowClose => exact wf_guarded (i := .freranWindowClose) (s := s) (wf_evFreranWindowClose hwf) hnext
  | freranRearm => exact wf_guarded (i := .freranRearm) (s := s) (wf_evFreranRearm hwf) hnext
  | captureWindowClose => exact wf_guarded (i := .captureWindowClose) (s := s) (wf_evCaptureWindowClose hwf) hnext
  | segmentEnd => exact wf_guarded (i := .segmentEnd) (s := s) (wf_evSegmentEnd hwf) hnext
  | autoForcedTrigger => exact wf_guarded (i := .autoForcedTrigger) (s := s) (wf_evAutoForcedTrigger hwf) hnext
  | segmentDone => exact wf_guarded (i := .segmentDone) (s := s) (wf_evSegmentDone hwf) hnext
  | eventDelivery => exact wf_guarded (i := .eventDelivery) (s := s) (wf_evEventDelivery hwf) hnext
  | dmaDescriptorStart channel element =>
    exact wf_guarded (i := .dmaDescriptorStart channel element) (s := s) (wf_evDmaDescriptorStart hwf channel element) hnext
  | dmaDescriptorComplete channel outcome =>
    exact wf_guarded (i := .dmaDescriptorComplete channel outcome) (s := s) (wf_evDmaDescriptorComplete hwf channel outcome) hnext
  | msixCoalesceExpiry q => exact wf_guarded (i := .msixCoalesceExpiry q) (s := s) (wf_evMsixCoalesceExpiry hwf q) hnext
  | dmaDrainTimeout => exact wf_guarded (i := .dmaDrainTimeout) (s := s) (wf_evDmaDrainTimeout hwf) hnext
  | scrubRead stack => exact wf_guarded (i := .scrubRead stack) (s := s) (wf_evScrubRead hwf stack) hnext
  | heartbeat core => exact wf_guarded (i := .heartbeat core) (s := s) (wf_evHeartbeat hwf core) hnext
  | tokenExpiry => exact wf_guarded (i := .tokenExpiry) (s := s) (wf_evTokenExpiry hwf) hnext
  | watchdogExpiry core => exact wf_guarded (i := .watchdogExpiry core) (s := s) (wf_evWatchdogExpiry hwf core) hnext
  | coreFault fault => exact wf_guarded (i := .coreFault fault) (s := s) (wf_evCoreFault hwf fault) hnext
  | standbyTakeover => exact wf_guarded (i := .standbyTakeover) (s := s) (wf_evStandbyTakeover hwf) hnext
  | coreBootClaim core => exact wf_guarded (i := .coreBootClaim core) (s := s) (wf_evCoreBootClaim hwf core) hnext
  | challengeExpiry client => exact wf_guarded (i := .challengeExpiry client) (s := s) (wf_evChallengeExpiry hwf client) hnext
  | pcieReset event => exact wf_guarded (i := .pcieReset event) (s := s) (wf_evPcieReset hwf event) hnext
  | powerOnReset event => exact wf_guarded (i := .powerOnReset event) (s := s) (wf_evPowerOnReset hwf event) hnext
  | pwrResetFire => exact wf_guarded (i := .pwrResetFire) (s := s) (wf_evPwrResetFire hwf) hnext
  | bootRom core => exact wf_guarded (i := .bootRom core) (s := s) (wf_evBootRom hwf core) hnext
  | serviceBringUp report => exact wf_guarded (i := .serviceBringUp report) (s := s) (wf_evServiceBringUp hwf report) hnext
  | domainPowerUpDone domain =>
    exact wf_guarded (i := .domainPowerUpDone domain) (s := s) (wf_evDomainPowerUpDone hwf domain) hnext
  | domainFence domain outstanding =>
    exact wf_guarded (i := .domainFence domain outstanding) (s := s) (wf_evDomainFence hwf domain outstanding) hnext
  | quiescePinLow => exact wf_guarded (i := .quiescePinLow) (s := s) (wf_evQuiescePinLow hwf) hnext
  | quiescePinHigh => exact wf_guarded (i := .quiescePinHigh) (s := s) (wf_evQuiescePinHigh hwf) hnext
  | quiesceDone => exact wf_guarded (i := .quiesceDone) (s := s) (wf_evQuiesceDone hwf) hnext
  | quiesceTimeout => exact wf_guarded (i := .quiesceTimeout) (s := s) (wf_evQuiesceTimeout hwf) hnext
  | journalCommitDone failing =>
    exact wf_guarded (i := .journalCommitDone failing) (s := s) (wf_evJournalCommitDone hwf failing) hnext
  | compactionStepDone failing =>
    exact wf_guarded (i := .compactionStepDone failing) (s := s) (wf_evCompactionStepDone hwf failing) hnext
  | auditStepDue => exact wf_guarded (i := .auditStepDue) (s := s) (wf_evAuditStepDue hwf) hnext
  | auditStep => exact wf_guarded (i := .auditStep) (s := s) (wf_evAuditStep hwf) hnext
  | faultMove slot => exact wf_guarded (i := .faultMove slot) (s := s) (wf_evFaultMove hwf slot) hnext
  | bistDone tile pass rows =>
    exact wf_guarded (i := .bistDone tile pass rows) (s := s) (wf_evBistDone hwf tile pass rows) hnext
  | egressFrameSent port => exact wf_guarded (i := .egressFrameSent port) (s := s) (wf_evEgressFrameSent hwf port) hnext
  | pulseTrailingEdge gen => exact wf_guarded (i := .pulseTrailingEdge gen) (s := s) (wf_evPulseTrailingEdge hwf gen) hnext
  | quiesceAckPulseEnd => exact wf_guarded (i := .quiesceAckPulseEnd) (s := s) (wf_evQuiesceAckPulseEnd hwf) hnext
  | mgmtLinkChange port up => exact wf_guarded (i := .mgmtLinkChange port up) (s := s) (wf_evMgmtLinkChange hwf port up) hnext
  | pcieLinkUp gen width => exact wf_guarded (i := .pcieLinkUp gen width) (s := s) (wf_evPcieLinkUp hwf gen width) hnext

/-- Settles O5: nothing that a command or an event does takes a memory out of canonical form, and neither does a tick. What an
unlisted byte reads as is the model's choice (log entry 7). -/
theorem everyStepKeepsTheMemory : Obligations.EveryStepKeepsTheMemory := by
  intro s t hwf hstep
  unfold step at hstep
  split at hstep
  · cases hstep
    exact wf_settled s (wf_countCorrected (wf_tick hwf))
  · next i rest _ =>
    have hrest : { s with pending := rest }.memoryWf = true := hwf
    exact wf_exec hrest hstep

end Sys2Proof.Machine
end

section
/-! What the commands of the operating point and of overload do when they are accepted (R48 to R51). The claims of O11 and O12 are
put together from them. -/

namespace Sys2Proof.Machine

section Commands
variable {c : Cmd} {s : State}

/-! ## The operating point (R48, R49) -/

theorem doPwrSetOp_bad (hrange : fld c.params 0 1 = 0 ∨ 5 < fld c.params 0 1) : doPwrSetOp c s = .bad 0 s := by
  refine if_pos ?_
  simp only [Bool.or_eq_true, decide_eq_true_eq]
  omega

/-- A point in range, declared by a command, is judged by the schedules it leaves. -/
theorem doPwrSetOp_judged (hrange : 1 ≤ fld c.params 0 1 ∧ fld c.params 0 1 ≤ 5) (hlive : s.replaying = false) :
    doPwrSetOp c s = s.whenAdmitted (s.mapLoad fun l => { l with op := fld c.params 0 1, source := 2 }) := by
  have hok : ¬ (fld c.params 0 1 < 1 || 5 < fld c.params 0 1 : Bool) = true := by
    simp only [Bool.or_eq_true, decide_eq_true_eq]
    omega
  rw [doPwrSetOp, if_neg hok, hlive]
  rfl

theorem whenAdmitted_admitted {t : State} (hadmitted : t.admitted = true) : s.whenAdmitted t = .ok t := by
  rw [State.whenAdmitted, hadmitted, Bool.or_true, if_pos rfl]

theorem whenAdmitted_refused {t : State} (hlive : s.replaying = false) (hrefused : t.admitted = false) :
    s.whenAdmitted t = .fail stResource s := by
  rw [State.whenAdmitted, hlive, hrefused, Bool.or_false, if_neg Bool.false_ne_true]

theorem doPwrGetOp_begins (c : Cmd) (s : State) :
    ∃ rest, doPwrGetOp c s = .okWith (beBytes 1 s.load.op ++ beBytes 1 s.load.source ++ rest) s := by
  unfold doPwrGetOp
  simp only [List.append_assoc]
  exact ⟨_, rfl⟩

/-! ## Overload (R50, R51) -/

/-- R50: the parameters of CORR_SET_SHED are in range. -/
structure ShedValid (p : List Byte) : Prop where
  auto : fld p 0 1 ≤ 1
  overcommit : fld p 1 1 ≤ 1
  drops : 1 ≤ fld p 2 1
  window : 1 ≤ fld p 3 1
  relax : 16 ≤ fld p 4 2 ∧ fld p 4 2 ≤ 4096
  slack : 1 ≤ fld p 6 1 ∧ fld p 6 1 ≤ 8

theorem doCorrSetShed_ok (s : State) (hvalid : ShedValid c.params) : doCorrSetShed c s = .ok (s.mapLoad fun l => { l with
    policy := { l.policy with overcommit := decide (fld c.params 1 1 = 1) },
    nextPolicy := some { auto := decide (fld c.params 0 1 = 1), overcommit := decide (fld c.params 1 1 = 1),
                         entryDrops := fld c.params 2 1, entryWindow := fld c.params 3 1, relaxRounds := fld c.params 4 2,
                         slackFactor := fld c.params 6 1 } }) := by
  obtain ⟨hauto, hover, hdrops, hwindow, hrelax, hslack⟩ := hvalid
  simp [doCorrSetShed, firstBad, hauto, hover, hdrops, hwindow, hrelax, hslack]

/-- What CORR_GET_LOAD shows first of the overload state. -/
def LoadState.head (l : LoadState) : Bool × Nat × Nat × Nat := (l.shed, l.op, l.s, l.shedMax)

theorem showRound_head (s : State) : s.showRound.load.head = s.load.head := by
  unfold State.showRound
  split <;> rfl

theorem noteSlack_head (s : State) (c k slack : Nat) : (s.noteSlack c k slack).load.head = s.load.head :=
  showRound_head _

/-- Slacks that become known change rounds alone. -/
theorem resolveSlacks_head (s : State) : s.resolveSlacks.load.head = s.load.head := by
  unfold State.resolveSlacks
  split
  · rfl
  · refine List.foldlRecOn (motive := fun u : State => u.load.head = s.load.head) _ _ rfl fun u hu r _ => ?_
    refine List.foldlRecOn (motive := fun v : State => v.load.head = s.load.head) _ _ hu fun v hv a _ => ?_
    exact (noteSlack_head ..).trans hv

theorem doCorrGetLoad_begins (c : Cmd) (s : State) : ∃ rest, doCorrGetLoad c s = .okWith
    (beBytes 1 (b2n s.load.shed) ++ beBytes 1 s.load.op ++ zeros 2 ++ beBytes 4 s.load.s ++ beBytes 4 s.load.shedMax ++ rest)
    s := by
  obtain ⟨hshed, hop, hs, hmax⟩ : s.resolveSlacks.load.shed = s.load.shed ∧ s.resolveSlacks.load.op = s.load.op ∧
      s.resolveSlacks.load.s = s.load.s ∧ s.resolveSlacks.load.shedMax = s.load.shedMax := by
    simpa only [LoadState.head, Prod.mk.injEq] using resolveSlacks_head s
  simp only [doCorrGetLoad, hshed, hop, hs, hmax, List.append_assoc]
  exact ⟨_, rfl⟩

end Commands

/-! ## The claims -/

/-- Settles O11: a point out of range is refused at once, and one in range stands or falls by the admission of the schedules that it
leaves. -/
theorem operatingPointIsDeclared : Obligations.OperatingPointIsDeclared := by
  unfold Obligations.OperatingPointIsDeclared
  refine ⟨needsOwner_of_access rfl, fun _ _ => rfl, ?declared, ?range, ?refused⟩
  case declared =>
    refine setsJournalled_of (fun _ _ => rfl) rfl (ownRecord_ne_nil _) fun c u hgood => ?_
    simp only [Bool.and_eq_true, decide_eq_true_eq, Bool.not_eq_true'] at hgood
    obtain ⟨⟨hrange, hlive⟩, hadmitted⟩ := hgood
    exact (doPwrSetOp_judged hrange hlive).trans (whenAdmitted_admitted hadmitted)
  case range => exact rejects_of (fun _ _ => rfl) fun c u hbad => doPwrSetOp_bad (of_decide_eq_true hbad)
  case refused =>
    refine executes_fail (fun _ _ => rfl) (by decide) fun c u hgood => ?_
    simp only [Bool.and_eq_true, decide_eq_true_eq, Bool.not_eq_true'] at hgood
    obtain ⟨⟨hrange, hlive⟩, hrefused⟩ := hgood
    exact (doPwrSetOp_judged hrange hlive).trans (whenAdmitted_refused hlive hrefused)

/-- Settles O12: each command's body does as claimed once its checks pass. What CORR_GET_LOAD shows with no layout is the model's
choice (log entry 104). -/
theorem overloadCommandsAct : Obligations.OverloadCommandsAct := by
  unfold Obligations.OverloadCommandsAct
  refine ⟨?point, ?policy, ?load⟩
  case point => exact reads_of (fun _ _ => rfl) (fun _ _ => rfl) (by decide) fun c u _ => doPwrGetOp_begins c u
  case policy =>
    refine sets_of (fun _ _ => rfl) (fun _ _ => rfl) (by decide) fun c u hgood => ?_
    obtain ⟨hauto, hover, hdrops, hwindow, hlow, hhigh, hslack⟩ := of_decide_eq_true hgood
    exact doCorrSetShed_ok u ⟨hauto, hover, hdrops, hwindow, ⟨hlow, hhigh⟩, hslack⟩
  case load => exact reads_of (fun _ _ => rfl) (fun _ _ => rfl) (by decide) fun c u _ => doCorrGetLoad_begins c u

end Sys2Proof.Machine
end

section
/-! What the commands of the device's shape do when they are accepted: the layout, the split, the transient ring and the host
region (R39, R165, R344, R365, R449). The claim of O13 is put together from them. -/

namespace Sys2Proof.Machine

section Commands
variable {c : Cmd} {s : State}

/-! ## The layout (R165) -/

section Layout
variable (hlayout : firstBad (layoutChecks (fld c.params 0 1) (layoutAt c.params)) = none)
  (hsettings : firstBad (s.settingChecks (layoutAt c.params)) = none)
include hlayout hsettings

theorem doCorrSetLayout_ok (hidle : s.schedLive = false) (hmem : s.hbmAway = false)
    (hslots : (s.loadLayout (layoutAt c.params)).slotsSuffice = true)
    (hadmitted : (s.loadLayout (layoutAt c.params)).admitted = true) :
    doCorrSetLayout c s = .ok (s.loadLayout (layoutAt c.params)) := by
  simp only [doCorrSetLayout, hlayout, hsettings, hidle, hmem, hslots, Bool.or_false, Bool.not_true, Bool.false_eq_true,
    if_false]
  exact whenAdmitted_admitted hadmitted

theorem doCorrSetLayout_busy (hlive : s.schedLive = true) : doCorrSetLayout c s = .fail stBusy s := by
  simp only [doCorrSetLayout, hlayout, hsettings, hlive, Bool.true_or, if_true]

end Layout

/-! ## The split (R344) -/

/-- The split that CORR_SET_SPLIT asks for. -/
def splitAt (p : List Byte) : SplitState :=
  { parts := fld p 0 1, index := fld p 1 1, group := fld p 2 2, psxUdp := fld p 4 2, mib := fld p 8 4 }

/-- R337, R344: a split is one that the combination in force allows: its parts are those combined, and its index is that of the
leaf, or of the combiner's own leaf. -/
structure SplitValid (p : List Byte) (k : Combine) : Prop where
  parts : fld p 0 1 = 1 ∨ fld p 0 1 = 2 ∨ fld p 0 1 = 4 ∨ fld p 0 1 = 8
  index : fld p 1 1 < fld p 0 1
  combined : k.role ≠ 0 → fld p 0 1 = k.parts
  leaf : k.role = 1 → fld p 1 1 = k.part
  own : k.role = 2 → k.localLeaf ≠ 0xFF → fld p 1 1 = k.localLeaf
  area : fld p 8 4 ≤ 16384

theorem doCorrSetSplit_ok (hvalid : SplitValid c.params s.bas.combine) (hidle : s.schedLive = false)
    (hmem : fld c.params 8 4 = 0 ∨ s.hbmAway = false) (hadmitted : ({ s with split := splitAt c.params } : State).admitted = true) :
    doCorrSetSplit c s = .ok { s with split := splitAt c.params } := by
  obtain ⟨hparts, hindex, hcombined, hleaf, hown, harea⟩ := hvalid
  have hfree : ¬ (s.schedLive || decide (fld c.params 8 4 ≠ 0) && s.hbmAway) = true := by
    rcases hmem with h | h <;> simp [hidle, h]
  unfold doCorrSetSplit
  dsimp only
  split
  · next off hbad =>
    refine absurd (hbad.symm.trans (firstBad_eq_none.mpr ?_)) (Option.some_ne_none off)
    simp only [List.all_cons, List.all_nil, Bool.and_eq_true, Bool.or_eq_true, decide_eq_true_eq, or_assoc]
    refine ⟨hparts, or_iff_not_imp_left.mpr hcombined, hindex, ?_, harea, trivial⟩
    by_cases hrole : s.bas.combine.role = 1
    · simp [hrole, hleaf]
    · by_cases howner : s.bas.combine.role = 2 ∧ s.bas.combine.localLeaf ≠ 0xFF
      · simp [howner, hown]
      · simp [hrole, howner]
  · exact (if_neg hfree).trans (whenAdmitted_admitted hadmitted)

/-! ## The transient ring (R365) -/

/-- The selection that CAP_SET_RING asks for. -/
def ringAt (p : List Byte) : RingSel := ⟨fld p 0 2, fld p 2 2, fld p 4 2, fld p 6 2, fld p 8 2⟩

/-- R365: the inputs and channels that CAP_SET_RING selects are there. -/
structure SelectionValid (p : List Byte) (s : State) : Prop where
  size : fld p 0 2 ≤ 8192
  input : fld p 2 2 < s.loadedN
  inputs : 1 ≤ fld p 4 2 ∧ fld p 4 2 ≤ 4096
  lastInput : fld p 2 2 + fld p 4 2 ≤ s.loadedN
  channel : fld p 6 2 < s.loadedChannels
  channels : 1 ≤ fld p 8 2 ∧ fld p 8 2 ≤ 4096
  lastChannel : fld p 6 2 + fld p 8 2 ≤ s.loadedChannels

/-- The selection as it is in force, before a sample is captured under it. -/
def State.withRing (s : State) (r : RingSel) : State := s.mapCap fun d => { d with sel := r, blocks := [], reused := [] }

theorem doCapSetRing_ok (hvalid : SelectionValid c.params s) (hidle : s.schedLive = false) (hsegs : s.cap.segs = [])
    (hmem : fld c.params 0 2 = 0 ∨ s.hbmAway = false)
    (hadmitted : s.replaying = true ∨ (s.withRing (ringAt c.params)).admitted = true) :
    doCapSetRing c s = .ok (s.withRing (ringAt c.params)) := by
  obtain ⟨hsize, hinput, hinputs, hlastInput, hchannel, hchannels, hlastChannel⟩ := hvalid
  have hfree : ¬ (s.schedLive || decide (s.cap.segs ≠ []) || decide (fld c.params 0 2 ≠ 0) && s.hbmAway) = true := by
    rcases hmem with h | h <;> simp [hidle, hsegs, h]
  simp only [doCapSetRing, firstBad, hsize, hinput, hinputs, hlastInput, hchannel, hchannels, hlastChannel, and_self,
    decide_true, if_true]
  exact (if_neg hfree).trans (if_pos (Bool.or_eq_true .. ▸ hadmitted))

/-! ## The host region (R449) -/

/-- A new size needs a schedule at rest and, for a region at all, the HBM; the region and queue fit. -/
theorem doMemSetHost_ok (hsize : fld c.params 0 4 % 64 = 0 ∧ fld c.params 0 4 ≤ 65536)
    (hresiduals : s.residualsIn (fld c.params 0 4) = true) (hqueue : s.queueOk (fld c.params 4 2) 5 = true)
    (hmem : fld c.params 0 4 = s.mem.hostMib ∨ s.schedLive = false ∧ (fld c.params 0 4 = 0 ∨ s.hbmAway = false))
    (hfits : s.replaying = true ∨
      (s.mapMem fun m => { m with hostMib := fld c.params 0 4, logQueue := fld c.params 4 2 }).memoryFits = true) :
    doMemSetHost c s = .ok (s.mapMem fun m => { m with hostMib := fld c.params 0 4, logQueue := fld c.params 4 2 }) := by
  have hfree : ¬ (decide (fld c.params 0 4 ≠ s.mem.hostMib) &&
      (s.schedLive || decide (fld c.params 0 4 ≠ 0) && s.hbmAway)) = true := by
    rcases hmem with h | ⟨hidle, h | h⟩
    · simp [h]
    · simp [hidle, h]
    · simp [hidle, h]
  have hroom : ¬ (!s.replaying &&
      !(s.mapMem fun m => { m with hostMib := fld c.params 0 4, logQueue := fld c.params 4 2 }).memoryFits) = true := by
    rcases hfits with h | h <;> simp [h]
  simp only [doMemSetHost, firstBad, hsize, hresiduals, hqueue, and_self, decide_true, Bool.and_self, if_true]
  exact (if_neg hfree).trans (if_neg hroom)

end Commands

/-! ## The claim -/

/-- Settles O13: each command's body does as claimed once its checks pass. -/
theorem shapeCommandsAct : Obligations.ShapeCommandsAct := by
  unfold Obligations.ShapeCommandsAct
  refine ⟨?layout, fun _ _ => ⟨rfl, rfl, rfl⟩, ?busy, ?split, ?ring, ?host⟩
  case layout =>
    refine setsJournalled_of (fun _ _ => rfl) rfl (ownRecord_ne_nil _) fun c u hgood => ?_
    simp only [Bool.and_eq_true, Option.isNone_iff_eq_none, Bool.not_eq_true'] at hgood
    obtain ⟨⟨⟨⟨⟨⟨hlayout, hsettings⟩, hidle⟩, hmem⟩, -⟩, hslots⟩, hadmitted⟩ := hgood
    exact doCorrSetLayout_ok hlayout hsettings hidle hmem hslots hadmitted
  case busy =>
    refine executes_fail (fun _ _ => rfl) (by decide) fun c u hgood => ?_
    simp only [Bool.and_eq_true, Option.isNone_iff_eq_none] at hgood
    obtain ⟨⟨hlayout, hsettings⟩, hlive⟩ := hgood
    exact doCorrSetLayout_busy hlayout hsettings hlive
  case split =>
    refine setsJournalled_of (fun _ _ => rfl) rfl (ownRecord_ne_nil _) fun c u hgood => ?_
    simp only [Bool.and_eq_true, Bool.or_eq_true, decide_eq_true_eq, Bool.not_eq_true', List.contains_iff_mem,
      List.mem_cons, List.not_mem_nil, or_false] at hgood
    obtain ⟨⟨⟨⟨⟨⟨⟨hparts, hindex⟩, hcombined, hleaf, hown⟩, harea⟩, hidle⟩, hmem⟩, -⟩, hadmitted⟩ := hgood
    exact doCorrSetSplit_ok ⟨hparts, hindex, hcombined, hleaf, hown, harea⟩ hidle hmem hadmitted
  case ring =>
    refine setsJournalled_of (fun _ _ => rfl) rfl (ownRecord_ne_nil _) fun c u hgood => ?_
    simp only [Bool.and_eq_true, Bool.or_eq_true, decide_eq_true_eq, Bool.not_eq_true'] at hgood
    obtain ⟨⟨⟨⟨⟨hsize, hinput, hone, hinputs, hlastInput, hchannel, hone', hchannels, hlastChannel⟩, hidle⟩, hsegs⟩, hmem⟩,
      hadmitted⟩ := hgood
    exact doCapSetRing_ok ⟨hsize, hinput, ⟨hone, hinputs⟩, hlastInput, hchannel, ⟨hone', hchannels⟩, hlastChannel⟩ hidle hsegs
      hmem hadmitted
  case host =>
    refine setsJournalled_of (fun _ _ => rfl) rfl (ownRecord_ne_nil _) fun c u hgood => ?_
    simp only [Bool.and_eq_true, Bool.or_eq_true, decide_eq_true_eq, Bool.not_eq_true'] at hgood
    obtain ⟨⟨⟨⟨hsize, hresiduals⟩, hqueue⟩, hmem⟩, hfits⟩ := hgood
    exact doMemSetHost_ok hsize hresiduals hqueue hmem hfits

end Sys2Proof.Machine
end

section
/-! What ports and lanes leave of the state as their states change (R70, R76, R84), and what the commands that set them do when they
are accepted (R55, R56, R77, R81 to R83). The claim of O14 is put together from them. -/

namespace Sys2Proof.Machine

/-- What every step of a fold keeps, the fold keeps. -/
theorem foldl_keeps {σ α β : Type} (view : σ → α) {f : σ → β → σ} (hstep : ∀ x b, view (f x b) = view x) (l : List β) (x : σ) :
    view (l.foldl f x) = view x :=
  List.foldlRecOn l f (motive := fun y => view y = view x) rfl fun y hy b _ => (hstep y b).trans hy

/-! ## What a port's state changes -/

/-- The state but for what a store in memory can change and what a port that comes up or goes down does: its own record, its frames,
the segments that counted on them, and the reports of its groups. -/
def State.besidePorts (s : State) : State :=
  { s.outsideStores with port := { s.port with txq := [], ports := [] }, cap := {}, ing := {} }

section BesidePorts
variable (s : State)

theorem besidePorts_raise (p arg : Nat) : (s.raise p arg).besidePorts = s.besidePorts :=
  have houtside := congrArg State.besidePorts (stored_raise s p arg).outside
  houtside

theorem besidePorts_frameGone (o : FrameOwner) (lost : Bool) : (s.frameGone o lost).besidePorts = s.besidePorts := by
  cases o <;> rfl

theorem besidePorts_dropTxq (p : Nat) : (s.dropTxq p).besidePorts = s.besidePorts :=
  foldl_keeps State.besidePorts (f := fun u (f : FrameOwner × Frame) => u.frameGone f.1 true)
    (fun u f => besidePorts_frameGone u f.1 true) (s.txq p) (s.setTxq p [])

theorem besidePorts_sendOwn (p : Nat) (f : Frame) : (s.sendOwn p f).besidePorts = s.besidePorts := by
  unfold State.sendOwn
  split <;> rfl

theorem besidePorts_reportChange (p : Nat) (m : Membership) (leave : Bool) :
    (s.reportChange p m leave).besidePorts = s.besidePorts := by
  unfold State.reportChange
  split
  · rfl
  · dsimp only
    split
    · rfl
    · exact besidePorts_sendOwn s p _

theorem besidePorts_enterPort (p new : Nat) : (s.enterPort p new).besidePorts = s.besidePorts := by
  unfold State.enterPort
  dsimp only
  split
  · rfl
  · split
    · exact (besidePorts_raise _ _ _).trans (besidePorts_dropTxq _ p)
    · split
      · exact (foldl_keeps State.besidePorts (fun u m => besidePorts_reportChange u p m false) _ _).trans (besidePorts_raise _ _ _)
      · rfl

end BesidePorts

/-! ## The ports as configured stay -/

/-- The state with this in place of its ports. -/
def State.withPort (s : State) (x : PortState) : State := { s with port := x }

theorem quads_of_besidePorts {s t : State} (h : t.besidePorts = s.besidePorts) : t.port.quads = s.port.quads :=
  have hquads := congrArg (fun u : State => u.port.quads) h
  hquads

theorem ns_of_besidePorts {s t : State} (h : t.besidePorts = s.besidePorts) : t.ns = s.ns :=
  have hns := congrArg State.ns h
  hns

theorem lanes_of_besidePorts {s t : State} (h : t.besidePorts = s.besidePorts) : t.port.lanes = s.port.lanes :=
  have hlanes := congrArg (fun u : State => u.port.lanes) h
  hlanes

/-- What has nothing to do with ports stays where their states change. -/
theorem rest_of_besidePorts {s t : State} (h : t.besidePorts = s.besidePorts) :
    t.load = s.load ∧ t.qz = s.qz ∧ t.tile = s.tile ∧ t.own = s.own :=
  have hload := congrArg State.load h
  have hqz := congrArg State.qz h
  have htile := congrArg State.tile h
  have hown := congrArg State.own h
  ⟨hload, hqz, htile, hown⟩

theorem rest_of_withPort {s t : State} {x : PortState} (h : t.withPort x = s.withPort x) :
    t.load = s.load ∧ t.qz = s.qz ∧ t.tile = s.tile ∧ t.own = s.own :=
  have hload := congrArg State.load h
  have hqz := congrArg State.qz h
  have htile := congrArg State.tile h
  have hown := congrArg State.own h
  ⟨hload, hqz, htile, hown⟩

theorem portCfg_of_quads {s t : State} (h : t.port.quads = s.port.quads) (p : Nat) : t.portCfg p = s.portCfg p := by
  unfold State.portCfg State.quad
  rw [h]

theorem portOfLane_of_quads {s t : State} (h : t.port.quads = s.port.quads) (l : Nat) : t.portOfLane l = s.portOfLane l := by
  unfold State.portOfLane State.quad
  rw [h]
  simp only [portCfg_of_quads h]

section Quads
variable (s : State)

theorem quads_settlePort (p : Nat) : (s.settlePort p).port.quads = s.port.quads := by
  unfold State.settlePort
  split
  · exact quads_of_besidePorts (besidePorts_enterPort s p 0)
  · dsimp only
    split
    · split <;> exact quads_of_besidePorts (besidePorts_enterPort _ p _)
    · exact quads_of_besidePorts (besidePorts_enterPort _ p _)

theorem quads_countLoss (l : Nat) (c : PortCfg) (before : Lane) : (s.countLoss l c before).port.quads = s.port.quads := by
  unfold State.countLoss
  split <;> rfl

theorem quads_dropLock (l : Nat) (c : PortCfg) (after : Lane) : (s.dropLock l c after).port.quads = s.port.quads :=
  quads_countLoss _ l c _

theorem quads_restartPort (p : Nat) (c : PortCfg) : (s.restartPort p c).port.quads = s.port.quads :=
  (quads_settlePort _ p).trans (foldl_keeps (fun u : State => u.port.quads) (fun u l => quads_dropLock u l c _) _ s)

theorem quads_agreeSheds (p : Nat) : (s.agreeSheds p).port.quads = s.port.quads := by
  refine foldl_keeps (fun u : State => u.port.quads) ?_ _ s
  intro u x
  exact (quads_of_besidePorts (besidePorts_raise _ 176 p)).trans (quads_settlePort _ p)

theorem quads_laneLost (l : Nat) (before : Lane) : (s.laneLost l before).port.quads = s.port.quads := by
  unfold State.laneLost
  split
  · rfl
  · next p c _ =>
    have hcount := quads_countLoss s l c before
    dsimp only
    split
    · exact (quads_settlePort _ p).trans hcount
    · split
      · exact (quads_settlePort _ p).trans
          ((foldl_keeps (fun u : State => u.port.quads) (fun u k => quads_dropLock u k c _) _ _).trans hcount)
      · split
        · exact (quads_settlePort _ p).trans hcount
        · split
          · exact (quads_settlePort _ p).trans hcount
          · split
            · exact (quads_agreeSheds _ p).trans ((quads_settlePort _ p).trans hcount)
            · exact (quads_restartPort _ p c).trans hcount

end Quads

/-! ## PORT_SET_QUAD (R55, R56, R81) -/

/-- The quad that PORT_SET_QUAD asks for. -/
def quadAt (p : List Byte) : Quad :=
  { rate := fld p 1 1, role := fld p 2 1, layout := fld p 3 1, modes := (List.range 4).map fun j => fld p (4 + 2 * j) 1,
    roles := (List.range 4).map fun j => fld p (5 + 2 * j) 1 }

/-- A lane that starts bring-up afresh. -/
def Lane.restarted (v : Lane) (ns : Nat) : Lane :=
  { v with signal := false, cdr := false, block := false, align := false, laneId := none, rxInv := decide (v.rxPol = 2),
           txInv := decide (v.txPol = 2), invSeen := 0, tryAt := ns, retryAt := ns }

/-- A port none of whose lanes has come up yet. -/
def Port.restarted (v : Port) : Port :=
  { v with shedMap := 0, pendingSheds := [], partnerSeen := false, partnerFlags := 0, partnerGood := 0, partnerActive := 0,
           partnerSf := none, rxGood := 0, txActive := 0, sfCount := 0, sfAt := 0 }

/-- The state once the four ports of a quad have gone down. -/
def State.quadDown (s : State) (q : Nat) : State := (List.range 4).foldl (fun u j => u.enterPort (4 * q + j) 0) s

theorem besidePorts_quadDown (s : State) (q : Nat) : (s.quadDown q).besidePorts = s.besidePorts :=
  foldl_keeps State.besidePorts (fun u j => besidePorts_enterPort u (4 * q + j) 0) _ s

/-- A lane without lock, its receiver of a given polarity. -/
def Lane.relocking (v : Lane) (inv : Bool) : Lane :=
  { v with signal := false, cdr := false, block := false, align := false, laneId := none, rxInv := inv }

/-- Where the polarity is given, the one that an unlocked lane would try first does not matter. -/
theorem unlock_rxInv (v : Lane) (inv : Bool) : { v.unlock with rxInv := inv } = v.relocking inv := by
  unfold Lane.unlock Lane.firstTry
  split <;> rfl

theorem unlock_restarted (v : Lane) (ns : Nat) :
    { v.unlock with rxInv := decide (v.rxPol = 2), txInv := decide (v.txPol = 2), invSeen := 0, tryAt := ns, retryAt := ns } =
      v.restarted ns :=
  congrArg (fun w : Lane => { w with txInv := decide (v.txPol = 2), invSeen := 0, tryAt := ns, retryAt := ns })
    (unlock_rxInv v (decide (v.rxPol = 2)))

/-- A quad's lane starts bring-up afresh, and its scan ends. -/
def State.restartLane (s : State) (l : Nat) : State := (s.setLane l ((s.lane l).restarted s.ns)).abortScan l

theorem restartQuad_eq (s : State) (q : Nat) :
    s.restartQuad q = (List.range 4).foldl (fun u j => u.restartLane (4 * q + j)) s := by
  simp only [State.restartQuad, unlock_restarted, State.restartLane]

/-- A scan still running after a lane's has ended ran before, on another lane. -/
theorem running_restartLane {s : State} {p : Nat → Prop} (h : ∀ e ∈ s.port.scans, e.2.running = true → p e.1) (l : Nat) :
    ∀ e ∈ (s.restartLane l).port.scans, e.2.running = true → e.1 ≠ l ∧ p e.1 := by
  intro e he hrun
  obtain ⟨x, hx, rfl⟩ := List.mem_map.mp he
  by_cases hend : (x.1 = l && x.2.running) = true
  · simp [hend] at hrun
  · rw [if_neg hend] at hrun ⊢
    refine ⟨fun hl => hend ?_, h x hx hrun⟩
    simp [hl, hrun]

theorem running_restartLanes (q : Nat) (js : List Nat) {s : State} {p : Nat → Prop}
    (h : ∀ e ∈ s.port.scans, e.2.running = true → p e.1) :
    ∀ e ∈ (js.foldl (fun u j => u.restartLane (4 * q + j)) s).port.scans, e.2.running = true →
      (∀ j ∈ js, e.1 ≠ 4 * q + j) ∧ p e.1 := by
  induction js generalizing s p with
  | nil => exact fun e he hrun => ⟨fun j hj => absurd hj List.not_mem_nil, h e he hrun⟩
  | cons j js ih =>
    intro e he hrun
    obtain ⟨hrest, hfirst, hp⟩ := ih (p := fun l => l ≠ 4 * q + j ∧ p l) (running_restartLane h (4 * q + j)) e he hrun
    exact ⟨List.forall_mem_cons.mpr ⟨hfirst, hrest⟩, hp⟩

/-- No scan of a lane of the quad runs on. -/
theorem restartQuad_scans (s : State) (q : Nat) :
    ∀ e ∈ (s.restartQuad q).port.scans, e.1 / 4 = q → e.2.running = false := by
  rw [restartQuad_eq]
  intro e he hq
  by_contra hon
  obtain ⟨hother, -⟩ := running_restartLanes (p := fun _ => True) q (List.range 4) (s := s) (fun _ _ _ => trivial) e he
    (by simpa using hon)
  exact hother (e.1 % 4) (List.mem_range.mpr (Nat.mod_lt _ (by decide))) (by omega)

/-- A restart of a quad changes ports and lanes alone. -/
theorem restartQuad_withPort (s : State) (q : Nat) (x : PortState) : (s.restartQuad q).withPort x = s.withPort x := by
  rw [restartQuad_eq]
  refine foldl_keeps (fun u : State => u.withPort x) ?_ _ s
  exact fun _ _ => rfl

theorem restartLanes_lanes (q : Nat) (js : List Nat) (s : State) :
    (js.foldl (fun u j => u.restartLane (4 * q + j)) s).port.lanes = js.foldl (fun m j =>
      kvSet Lane.init m (4 * q + j) ((kvGet Lane.init m (4 * q + j)).restarted s.ns)) s.port.lanes := by
  induction js generalizing s with
  | nil => rfl
  | cons j js ih => exact ih (s.restartLane (4 * q + j))

/-- Of the ports it changes lanes and scans alone. -/
theorem restartQuad_ports (s : State) (q : Nat) :
    (s.restartQuad q).port.quads = s.port.quads ∧ (s.restartQuad q).port.ports = s.port.ports := by
  rw [restartQuad_eq]
  constructor
  · exact foldl_keeps (fun u : State => u.port.quads) (f := fun u j => u.restartLane (4 * q + j)) (fun _ _ => rfl) _ s
  · exact foldl_keeps (fun u : State => u.port.ports) (f := fun u j => u.restartLane (4 * q + j)) (fun _ _ => rfl) _ s

theorem restartPorts_ports (q : Nat) (js : List Nat) (s : State) :
    (js.foldl (fun u j => u.setPort (4 * q + j) (u.portAt (4 * q + j)).restarted) s).port.ports = js.foldl (fun m j =>
      kvSet Port.init m (4 * q + j) (kvGet Port.init m (4 * q + j)).restarted) s.port.ports := by
  induction js generalizing s with
  | nil => rfl
  | cons j js ih => exact ih (s.setPort (4 * q + j) (s.portAt (4 * q + j)).restarted)

/-- The ports of a quad are as no lane of theirs had come up. -/
def State.restartPorts (s : State) (q : Nat) : State :=
  (List.range 4).foldl (fun u j => u.setPort (4 * q + j) (u.portAt (4 * q + j)).restarted) s

section RestartPorts
variable (s : State) (q : Nat)

theorem restartPorts_withPort (x : PortState) : (s.restartPorts q).withPort x = s.withPort x := by
  refine foldl_keeps (fun u : State => u.withPort x) ?_ _ s
  exact fun _ _ => rfl

/-- Of the ports that changes their records alone. -/
theorem restartPorts_lanes : (s.restartPorts q).port.quads = s.port.quads ∧ (s.restartPorts q).port.lanes = s.port.lanes ∧
    (s.restartPorts q).port.scans = s.port.scans := by
  refine ⟨?quads, ?lanes, ?scans⟩
  case quads =>
    refine foldl_keeps (fun u : State => u.port.quads) ?_ _ s
    exact fun _ _ => rfl
  case lanes =>
    refine foldl_keeps (fun u : State => u.port.lanes) ?_ _ s
    exact fun _ _ => rfl
  case scans =>
    refine foldl_keeps (fun u : State => u.port.scans) ?_ _ s
    exact fun _ _ => rfl

end RestartPorts

theorem withPort_port (s : State) : s.withPort s.port = s := rfl

/-! What PORT_SET_QUAD leaves of the ports, their lanes and scans, and of the rest. -/

section SetQuad
variable (s : State) (q : Nat) (v : Quad)

def State.putQuad : State := s.withPort { s.port with quads := kvSet Quad.init s.port.quads q v }

theorem putQuad_quads : (s.putQuad q v).port.quads = kvSet Quad.init s.port.quads q v := rfl
theorem putQuad_lanes : (s.putQuad q v).port.lanes = s.port.lanes := rfl
theorem putQuad_ports : (s.putQuad q v).port.ports = s.port.ports := rfl
theorem putQuad_scans : (s.putQuad q v).port.scans = s.port.scans := rfl
theorem putQuad_withPort (x : PortState) : (s.putQuad q v).withPort x = s.withPort x := rfl

/-- The state that PORT_SET_QUAD leaves. -/
def State.setQuad : State := (((s.quadDown q).restartQuad q).putQuad q v).restartPorts q

theorem setQuad_quads : (s.setQuad q v).port.quads = kvSet Quad.init s.port.quads q v := by
  rw [State.setQuad, (restartPorts_lanes _ q).1, putQuad_quads, (restartQuad_ports _ q).1,
    quads_of_besidePorts (besidePorts_quadDown s q)]

theorem setQuad_lanes : (s.setQuad q v).port.lanes = (List.range 4).foldl (fun m j =>
    kvSet Lane.init m (4 * q + j) ((kvGet Lane.init m (4 * q + j)).restarted s.ns)) s.port.lanes := by
  rw [State.setQuad, (restartPorts_lanes _ q).2.1, putQuad_lanes, restartQuad_eq, restartLanes_lanes,
    ns_of_besidePorts (besidePorts_quadDown s q), lanes_of_besidePorts (besidePorts_quadDown s q)]

theorem setQuad_ports : (s.setQuad q v).port.ports = (List.range 4).foldl (fun m j =>
    kvSet Port.init m (4 * q + j) (kvGet Port.init m (4 * q + j)).restarted) (s.quadDown q).port.ports := by
  rw [State.setQuad, State.restartPorts, restartPorts_ports, putQuad_ports, (restartQuad_ports _ q).2]

theorem setQuad_scans : ∀ e ∈ (s.setQuad q v).port.scans, e.1 / 4 = q → e.2.running = false := by
  rw [State.setQuad, (restartPorts_lanes _ q).2.2, putQuad_scans]
  exact restartQuad_scans (s.quadDown q) q

theorem setQuad_withPort (x : PortState) : (s.setQuad q v).withPort x = (s.quadDown q).withPort x := by
  rw [State.setQuad, restartPorts_withPort, putQuad_withPort, restartQuad_withPort]

theorem setQuad_rest : (s.setQuad q v).load = s.load ∧ (s.setQuad q v).qz = s.qz ∧ (s.setQuad q v).tile = s.tile ∧
    (s.setQuad q v).own = s.own := by
  obtain ⟨hload, hqz, htile, hown⟩ := rest_of_withPort (setQuad_withPort s q v {})
  obtain ⟨hload', hqz', htile', hown'⟩ := rest_of_besidePorts (besidePorts_quadDown s q)
  exact ⟨hload.trans hload', hqz.trans hqz', htile.trans htile', hown.trans hown'⟩

end SetQuad

section Commands
variable {c : Cmd} {s : State}

/-- R55, R56, R81: the parameters of PORT_SET_QUAD are in range, and its port entries are those that the layout allows; a rate OFF
has none. -/
structure QuadValid (p : List Byte) : Prop where
  quad : fld p 0 1 ≤ 19
  rate : fld p 1 1 ≤ 4
  role : fld p 2 1 ≤ 2
  layout : fld p 3 1 ≤ 3

theorem doPortSetQuad_ok (s : State) (hvalid : QuadValid c.params)
    (hports : fld c.params 1 1 = 0 ∨
      badPortEntry (fld c.params 1 1) (fld c.params 2 1) c.params (layoutPorts (fld c.params 3 1)) = none) :
    doPortSetQuad c s = .ok (s.setQuad (fld c.params 0 1) (quadAt c.params)) := by
  obtain ⟨hquad, hrate, hrole, hlayout⟩ := hvalid
  have hentries : (if fld c.params 1 1 = 0 then none else
      badPortEntry (fld c.params 1 1) (fld c.params 2 1) c.params (layoutPorts (fld c.params 3 1))) = none := by
    rcases hports with h | h <;> simp [h]
  simp only [doPortSetQuad, firstBad, hquad, hrate, hrole, hlayout, decide_true, if_true, hentries, State.setQuad,
    State.restartPorts, State.putQuad, State.withPort, State.quadDown, quadAt, Port.restarted]

theorem doPortSetQuad_bad (s : State) (hvalid : QuadValid c.params) {off : Nat} (hrate : 1 ≤ fld c.params 1 1)
    (hbad : badPortEntry (fld c.params 1 1) (fld c.params 2 1) c.params (layoutPorts (fld c.params 3 1)) = some off) :
    doPortSetQuad c s = .bad off s := by
  obtain ⟨hquad, hhigh, hrole, hlayout⟩ := hvalid
  simp only [doPortSetQuad, firstBad, hquad, hhigh, hrole, hlayout, decide_true, if_true, if_neg (Nat.ne_of_gt hrate), hbad]

/-! ## PORT_SET_LANE (R77, R82) -/

/-- The polarity or the preset that PORT_SET_LANE asks for is another. -/
def Relocks (v : Lane) (p : List Byte) : Prop := v.rxPol ≠ fld p 1 1 ∨ v.txPol ≠ fld p 2 1 ∨ v.preset ≠ fld p 3 1

/-- A direction that was active is so no more. -/
def Sleeps (v : Lane) (p : List Byte) : Prop := (v.rxState = 0 ∧ fld p 5 1 ≠ 0) ∨ (v.txState = 0 ∧ fld p 4 1 ≠ 0)

/-- The lane with the settings that PORT_SET_LANE asks for. -/
def Lane.given (v : Lane) (p : List Byte) : Lane :=
  { v with rxPol := fld p 1 1, txPol := fld p 2 1, preset := fld p 3 1, txState := fld p 4 1, rxState := fld p 5 1 }

/-- The lane of those settings as far as its receiver goes on; one that has to lock again, or is not active, is unlocked. -/
def Lane.givenLock (v : Lane) (p : List Byte) : Lane :=
  if (v.rxPol ≠ fld p 1 1 || v.txPol ≠ fld p 2 1 || v.preset ≠ fld p 3 1 || fld p 5 1 ≠ 0) = true
  then { (v.given p).unlock with rxInv := decide (fld p 1 1 = 2) } else v.given p

/-- The lane that PORT_SET_LANE leaves. -/
def Lane.set (v : Lane) (p : List Byte) (ns : Nat) : Lane :=
  { (if v.txPol = fld p 2 1 then v.givenLock p
      else { v.givenLock p with txInv := decide (fld p 2 1 = 2), invSeen := 0 }) with tryAt := ns, retryAt := ns }

/-- R78: a duplex port none of whose lanes transmits any more goes down. -/
def State.settleAsleep (s : State) (l : Nat) : State :=
  match s.portOfLane l with
  | some (q, k) => if k.duplex && !s.txAwake q k then s.settlePort q else s
  | none => s

/-- The port of a lane as its lanes stand. -/
def State.settleOwner (s : State) (l : Nat) : State :=
  match s.portOfLane l with
  | some (q, _) => s.settlePort q
  | none => s

/-- R82: the checks of PORT_SET_LANE; only a duplex port finds the polarity of its transmitters. -/
def State.laneChecks (s : State) (p : List Byte) : List (Bool × Nat) :=
  [(fld p 0 1 ≤ 79, 0), (fld p 1 1 ≤ 2, 1),
   (fld p 2 1 ≤ 2 && (fld p 2 1 ≠ 0 || (match s.portOfLane (fld p 0 1) with | some (_, k) => k.duplex | none => false)), 2),
   (fld p 3 1 ≤ 15, 3), (fld p 4 1 ≤ 2, 4), (fld p 5 1 ≤ 2, 5)]

/-- The lane as PORT_SET_LANE leaves it. -/
def State.laneSet (s : State) (p : List Byte) : State :=
  s.setLane (fld p 0 1) ((s.lane (fld p 0 1)).set p s.ns)

/-- The state once the lane has lost what the settings take from it. -/
def State.laneGone (s : State) (p : List Byte) : State :=
  ((s.laneSet p).laneLost (fld p 0 1) (s.lane (fld p 0 1))).abortScan (fld p 0 1)

/-- What PORT_SET_LANE answers of a lane, once its parameters are found in range. -/
theorem doPortSetLane_checked (hchecks : firstBad (s.laneChecks c.params) = none) : doPortSetLane c s =
    if ((s.lane (fld c.params 0 1)).rxPol ≠ fld c.params 1 1 || (s.lane (fld c.params 0 1)).txPol ≠ fld c.params 2 1 ||
        (s.lane (fld c.params 0 1)).preset ≠ fld c.params 3 1 ||
        ((s.lane (fld c.params 0 1)).rxState = 0 && fld c.params 5 1 ≠ 0 ||
          (s.lane (fld c.params 0 1)).txState = 0 && fld c.params 4 1 ≠ 0) : Bool) = true then
      .ok ((s.laneGone c.params).settleAsleep (fld c.params 0 1))
    else .ok ((s.laneSet c.params).settleOwner (fld c.params 0 1)) := by
  have hbody : doPortSetLane c s = match firstBad (s.laneChecks c.params) with
    | some off => .bad off s
    | none =>
      if ((s.lane (fld c.params 0 1)).rxPol ≠ fld c.params 1 1 || (s.lane (fld c.params 0 1)).txPol ≠ fld c.params 2 1 ||
          (s.lane (fld c.params 0 1)).preset ≠ fld c.params 3 1 ||
          ((s.lane (fld c.params 0 1)).rxState = 0 && fld c.params 5 1 ≠ 0 ||
            (s.lane (fld c.params 0 1)).txState = 0 && fld c.params 4 1 ≠ 0) : Bool) = true then
        .ok ((s.laneGone c.params).settleAsleep (fld c.params 0 1))
      else .ok ((s.laneSet c.params).settleOwner (fld c.params 0 1)) := rfl
  rw [hbody, hchecks]

/-- R82: the parameters of PORT_SET_LANE are in range; only a duplex port finds the polarity of its transmitters. -/
structure LaneValid (p : List Byte) (s : State) : Prop where
  lane : fld p 0 1 ≤ 79
  rxPol : fld p 1 1 ≤ 2
  txPol : fld p 2 1 ≤ 2
  preset : fld p 3 1 ≤ 15
  txState : fld p 4 1 ≤ 2
  rxState : fld p 5 1 ≤ 2
  auto : fld p 2 1 ≠ 0 ∨ ∃ q k, s.portOfLane (fld p 0 1) = some (q, k) ∧ k.duplex = true

theorem laneChecks_pass {p : List Byte} (hvalid : LaneValid p s) : firstBad (s.laneChecks p) = none := by
  obtain ⟨hlane, hrx, htx, hpreset, htxState, hrxState, hauto⟩ := hvalid
  rcases hauto with hauto | ⟨q, k, hport, hduplex⟩
  · simp [firstBad, State.laneChecks, hlane, hrx, htx, hpreset, htxState, hrxState, hauto]
  · simp [firstBad, State.laneChecks, hlane, hrx, htx, hpreset, htxState, hrxState, hport, hduplex]

/-- A lane that need not lock again and goes on in both directions keeps its lock. -/
theorem doPortSetLane_keeps (hvalid : LaneValid c.params s) (hlock : ¬ Relocks (s.lane (fld c.params 0 1)) c.params)
    (hawake : ¬ Sleeps (s.lane (fld c.params 0 1)) c.params) :
    doPortSetLane c s = .ok ((s.laneSet c.params).settleOwner (fld c.params 0 1)) := by
  refine (doPortSetLane_checked (laneChecks_pass hvalid)).trans (if_neg fun h => ?_)
  have hlose : Relocks (s.lane (fld c.params 0 1)) c.params ∨ Sleeps (s.lane (fld c.params 0 1)) c.params := by
    simpa only [Relocks, Sleeps, Bool.or_eq_true, Bool.and_eq_true, decide_eq_true_eq, or_assoc] using h
  exact hlose.elim hlock hawake

/-- Any other may lose its lock, and its scan ends. -/
theorem doPortSetLane_loses (hvalid : LaneValid c.params s) (hlose : Relocks (s.lane (fld c.params 0 1)) c.params ∨
    Sleeps (s.lane (fld c.params 0 1)) c.params) :
    doPortSetLane c s = .ok ((s.laneGone c.params).settleAsleep (fld c.params 0 1)) := by
  refine (doPortSetLane_checked (laneChecks_pass hvalid)).trans (if_pos ?_)
  simpa only [Relocks, Sleeps, Bool.or_eq_true, Bool.and_eq_true, decide_eq_true_eq, or_assoc] using hlose

theorem givenLock_relocks {v : Lane} {p : List Byte} (h : Relocks v p ∨ fld p 5 1 ≠ 0) :
    v.givenLock p = (v.given p).relocking (decide (fld p 1 1 = 2)) :=
  (if_pos (by simpa only [Relocks, Bool.or_eq_true, decide_eq_true_eq, or_assoc] using h)).trans (unlock_rxInv _ _)

theorem givenLock_keeps {v : Lane} {p : List Byte} (hlock : ¬ Relocks v p) (hrx : fld p 5 1 = 0) : v.givenLock p = v.given p := by
  refine if_neg fun h => ?_
  have hgone : Relocks v p ∨ fld p 5 1 ≠ 0 := by
    simpa only [Relocks, Bool.or_eq_true, decide_eq_true_eq, or_assoc] using h
  exact hgone.elim hlock (absurd hrx)

theorem givenLock_cases (v : Lane) (p : List Byte) :
    v.givenLock p = v.given p ∨ v.givenLock p = (v.given p).relocking (decide (fld p 1 1 = 2)) := by
  by_cases h : Relocks v p ∨ fld p 5 1 ≠ 0
  · exact .inr (givenLock_relocks h)
  · obtain ⟨hlock, hrx⟩ := not_or.mp h
    exact .inl (givenLock_keeps hlock (not_not.mp hrx))

section LaneSet
variable (v : Lane) (p : List Byte) (ns : Nat)

/-- What the settings give a lane, and the counts that they leave it. -/
theorem laneSet_given : (v.set p ns).rxPol = fld p 1 1 ∧ (v.set p ns).txPol = fld p 2 1 ∧ (v.set p ns).preset = fld p 3 1 ∧
    (v.set p ns).txState = fld p 4 1 ∧ (v.set p ns).rxState = fld p 5 1 ∧ (v.set p ns).tryAt = ns ∧ (v.set p ns).retryAt = ns ∧
    (v.set p ns).lockLosses = v.lockLosses ∧ (v.set p ns).flips = v.flips := by
  unfold Lane.set
  rcases givenLock_cases v p with h | h <;> rw [h] <;> split <;> exact ⟨rfl, rfl, rfl, rfl, rfl, rfl, rfl, rfl, rfl⟩

/-- What is said of a lane's lock is said of it before its transmitter is set. -/
theorem laneSet_lock : (v.set p ns).signal = (v.givenLock p).signal ∧ (v.set p ns).cdr = (v.givenLock p).cdr ∧
    (v.set p ns).block = (v.givenLock p).block ∧ (v.set p ns).align = (v.givenLock p).align ∧
    (v.set p ns).laneId = (v.givenLock p).laneId ∧ (v.set p ns).rxInv = (v.givenLock p).rxInv := by
  unfold Lane.set
  split <;> exact ⟨rfl, rfl, rfl, rfl, rfl, rfl⟩

theorem laneSet_txInv_new (h : v.txPol ≠ fld p 2 1) : (v.set p ns).txInv = decide (fld p 2 1 = 2) := by
  unfold Lane.set
  rw [if_neg h]

theorem laneSet_txInv_same (h : v.txPol = fld p 2 1) : (v.set p ns).txInv = v.txInv := by
  unfold Lane.set
  rcases givenLock_cases v p with hlock | hlock <;> rw [if_pos h, hlock] <;> rfl

end LaneSet

theorem quads_laneGone (s : State) (p : List Byte) : (s.laneGone p).port.quads = s.port.quads := quads_laneLost _ _ _

/-- A lane of no port leaves no port to settle. -/
theorem laneLost_noPort {l : Nat} {before : Lane} (hport : s.portOfLane l = none) : s.laneLost l before = s := by
  unfold State.laneLost
  rw [hport]

theorem settleOwner_noPort {l : Nat} (hport : s.portOfLane l = none) : s.settleOwner l = s := by
  unfold State.settleOwner
  rw [hport]

theorem settleOwner_port {l q : Nat} {k : PortCfg} (hport : s.portOfLane l = some (q, k)) : s.settleOwner l = s.settlePort q := by
  unfold State.settleOwner
  rw [hport]

theorem settleAsleep_noPort {l : Nat} (hport : s.portOfLane l = none) : s.settleAsleep l = s := by
  unfold State.settleAsleep
  rw [hport]

theorem settleAsleep_simplex {l q : Nat} {k : PortCfg} (hport : s.portOfLane l = some (q, k)) (hmode : k.mode ≠ 8) :
    s.settleAsleep l = s := by
  unfold State.settleAsleep
  simp [hport, PortCfg.duplex, hmode]

theorem settleAsleep_port {l q : Nat} {k : PortCfg} (hport : s.portOfLane l = some (q, k)) :
    s.settleAsleep l = s ∨ s.settleAsleep l = s.settlePort q := by
  unfold State.settleAsleep
  rw [hport]
  dsimp only
  split
  · exact .inr rfl
  · exact .inl rfl

/-- What PORT_SET_LANE leaves: the lane as set and its port settled, or the consequences of what the lane has lost. -/
theorem doPortSetLane_leaves (hvalid : LaneValid c.params s) : ∃ t, doPortSetLane c s = .ok t ∧
    (s.portOfLane (fld c.params 0 1) = none → t = s.laneSet c.params ∨ t = (s.laneSet c.params).abortScan (fld c.params 0 1)) ∧
    ∀ q k, s.portOfLane (fld c.params 0 1) = some (q, k) →
      (¬ Relocks (s.lane (fld c.params 0 1)) c.params → ¬ Sleeps (s.lane (fld c.params 0 1)) c.params →
        t = (s.laneSet c.params).settlePort q) ∧
      (Relocks (s.lane (fld c.params 0 1)) c.params ∨ Sleeps (s.lane (fld c.params 0 1)) c.params → k.mode ≠ 8 →
        t = s.laneGone c.params) ∧
      (Relocks (s.lane (fld c.params 0 1)) c.params ∨ Sleeps (s.lane (fld c.params 0 1)) c.params → k.mode = 8 →
        t = s.laneGone c.params ∨ t = (s.laneGone c.params).settlePort q) := by
  have hgone : (s.laneGone c.params).portOfLane (fld c.params 0 1) = s.portOfLane (fld c.params 0 1) :=
    portOfLane_of_quads (quads_laneGone s c.params) _
  by_cases hlose : Relocks (s.lane (fld c.params 0 1)) c.params ∨ Sleeps (s.lane (fld c.params 0 1)) c.params
  · refine ⟨_, doPortSetLane_loses hvalid hlose, fun hport => .inr ?_, fun q k hport =>
      ⟨fun hlock hawake => ?_, fun _ => ?_, fun _ _ => ?_⟩⟩
    · rw [settleAsleep_noPort (hgone.trans hport), State.laneGone,
        laneLost_noPort (show (s.laneSet c.params).portOfLane _ = none from hport)]
    · exact (hlose.elim hlock hawake).elim
    · exact settleAsleep_simplex (hgone.trans hport)
    · exact settleAsleep_port (hgone.trans hport)
  · obtain ⟨hlock, hawake⟩ := not_or.mp hlose
    refine ⟨_, doPortSetLane_keeps hvalid hlock hawake, fun hport => .inl ?_, fun q k hport =>
      ⟨fun _ _ => ?_, fun h => absurd h hlose, fun h => absurd h hlose⟩⟩
    · exact settleOwner_noPort (s := s.laneSet c.params) hport
    · exact settleOwner_port (s := s.laneSet c.params) hport

/-! ## PORT_SET_KLP (R83) -/

section Klp
variable {k : PortCfg} (hport : fld c.params 0 1 ≤ 79) (hcfg : s.portCfg (fld c.params 0 1) = some k)
  (hshed : fld c.params 1 1 ≤ 1) (hagree : 1 ≤ fld c.params 2 1 ∧ fld c.params 2 1 ≤ 8)
include hport hcfg hshed hagree

theorem doPortSetKlp_duplex (hmode : k.mode = 8) : doPortSetKlp c s = .ok (s.setPort (fld c.params 0 1)
    { s.portAt (fld c.params 0 1) with nextKlp := some (decide (fld c.params 1 1 = 1), fld c.params 2 1) }) := by
  simp [doPortSetKlp, firstBad, hport, hcfg, hshed, hagree, PortCfg.klp, PortCfg.duplex, hmode]

theorem doPortSetKlp_simplex (hmode : k.mode = 9) : doPortSetKlp c s = .ok (s.setPort (fld c.params 0 1)
    { s.portAt (fld c.params 0 1) with
      shed := decide (fld c.params 1 1 = 1), agreeSf := fld c.params 2 1, nextKlp := none }) := by
  simp [doPortSetKlp, firstBad, hport, hcfg, hshed, hagree, PortCfg.klp, PortCfg.duplex, hmode]

end Klp

theorem doPortSetKlp_bad (s : State) (hcfg : ∀ k ∈ s.portCfg (fld c.params 0 1), k.mode ≠ 8 ∧ k.mode ≠ 9) :
    doPortSetKlp c s = .bad 0 s := by
  cases hport : s.portCfg (fld c.params 0 1) with
  | none => simp [doPortSetKlp, firstBad, hport]
  | some k =>
    obtain ⟨hduplex, hsimplex⟩ := hcfg k hport
    simp [doPortSetKlp, firstBad, hport, PortCfg.klp, hduplex, hsimplex]

end Commands

/-! ## The claim -/

/-- Settles O14: each command's body does as claimed once its checks pass. That PORT_SET_QUAD clears sf_count and counts no loss,
and that a simplex KLP port takes its settings at once, are the model's choices (log entry 104); that a rate OFF reads no port
entry is its reading (log entry 76). -/
theorem portSettingsAct : Obligations.PortSettingsAct := by
  unfold Obligations.PortSettingsAct
  refine ⟨?quad, ?entry, ?lane, ?duplex, ?simplex, ?noKlp⟩
  case quad =>
    refine journalled_ok (fun _ _ => rfl) rfl (ownRecord_ne_nil _) fun c u hgood => ?_
    simp only [Bool.and_eq_true, Bool.or_eq_true, decide_eq_true_eq, Option.isNone_iff_eq_none] at hgood
    obtain ⟨⟨hquad, hrate, hrole, hlayout⟩, hports⟩ := hgood
    refine ⟨_, doPortSetQuad_ok u ⟨hquad, hrate, hrole, hlayout⟩ hports, ?_⟩
    have hquads := setQuad_quads u (fld c.params 0 1) (quadAt c.params)
    have hlanes := setQuad_lanes u (fld c.params 0 1) (quadAt c.params)
    have hrecords := setQuad_ports u (fld c.params 0 1) (quadAt c.params)
    have hscans := setQuad_scans u (fld c.params 0 1) (quadAt c.params)
    have hdown := (setQuad_withPort u (fld c.params 0 1) (quadAt c.params) (u.quadDown (fld c.params 0 1)).port).trans
      (withPort_port _)
    have hrest := setQuad_rest u (fld c.params 0 1) (quadAt c.params)
    generalize u.setQuad (fld c.params 0 1) (quadAt c.params) = t at *
    exact ⟨rfl, rfl, hquads, hlanes, hrecords, hscans, hdown, hrest⟩
  case entry =>
    refine executes_bad (fun _ _ => rfl) ?_ ?_
    all_goals intro c u hbad
    all_goals simp only [Bool.and_eq_true, decide_eq_true_eq] at hbad
    all_goals obtain ⟨⟨hquad, hlow, hrate, hrole, hlayout⟩, hentry⟩ := hbad
    all_goals obtain ⟨off, hoff⟩ := Option.isSome_iff_exists.mp hentry
    all_goals rw [show specPortSetQuad.body c u = _ from doPortSetQuad_bad u ⟨hquad, hrate, hrole, hlayout⟩ hlow hoff]
    · rfl
    · exact ⟨rfl, rfl, hoff⟩
  case lane =>
    refine journalled_ok (fun _ _ => rfl) rfl (ownRecord_ne_nil _) fun c u hgood => ?_
    simp only [Bool.and_eq_true, Bool.or_eq_true, decide_eq_true_eq] at hgood
    obtain ⟨⟨hlane, hrx, htx, hpreset, htxState, hrxState⟩, hauto⟩ := hgood
    have hvalid : LaneValid c.params u := by
      refine ⟨hlane, hrx, htx, hpreset, htxState, hrxState, hauto.imp_right fun hport => ?_⟩
      split at hport
      · next q k hsome => exact ⟨q, k, hsome, hport⟩
      · exact absurd hport Bool.false_ne_true
    obtain ⟨hrx', htx', hpreset', htxState', hrxState', htry, hretry, hlosses, hflips⟩ :=
      laneSet_given (u.lane (fld c.params 0 1)) c.params u.ns
    obtain ⟨hsignal, hcdr, hblock, halign, hid, hinv⟩ := laneSet_lock (u.lane (fld c.params 0 1)) c.params u.ns
    obtain ⟨t, hbody, hnone, hsome⟩ := doPortSetLane_leaves hvalid
    refine ⟨t, hbody, rfl, rfl, (u.lane (fld c.params 0 1)).set c.params u.ns, hrx', htx', hpreset', htxState', hrxState', htry,
      hretry, hlosses, hflips, fun hgone => ?gone, fun hlock hrx0 => ?kept, laneSet_txInv_new _ _ _, laneSet_txInv_same _ _ _,
      hnone, hsome⟩
    case gone =>
      rw [hsignal, hcdr, hblock, halign, hid, hinv, givenLock_relocks hgone]
      exact ⟨rfl, rfl, rfl, rfl, rfl, rfl⟩
    case kept =>
      rw [hsignal, hcdr, hblock, halign, hid, hinv, givenLock_keeps hlock hrx0]
      exact ⟨rfl, rfl, rfl, rfl, rfl, rfl⟩
  case duplex =>
    refine setsJournalled_of (fun _ _ => rfl) rfl (ownRecord_ne_nil _) fun c u hgood => ?_
    cases hcfg : u.portCfg (fld c.params 0 1) with
    | none => simp [hcfg] at hgood
    | some k =>
      simp only [hcfg, Bool.and_eq_true, decide_eq_true_eq] at hgood
      obtain ⟨hmode, hport, hshed, hagree⟩ := hgood
      exact doPortSetKlp_duplex hport hcfg hshed hagree hmode
  case simplex =>
    refine setsJournalled_of (fun _ _ => rfl) rfl (ownRecord_ne_nil _) fun c u hgood => ?_
    cases hcfg : u.portCfg (fld c.params 0 1) with
    | none => simp [hcfg] at hgood
    | some k =>
      simp only [hcfg, Bool.and_eq_true, decide_eq_true_eq] at hgood
      obtain ⟨hmode, hport, hshed, hagree⟩ := hgood
      exact doPortSetKlp_simplex hport hcfg hshed hagree hmode
  case noKlp =>
    refine rejects_of (fun _ _ => rfl) fun c u hbad => doPortSetKlp_bad u fun k hk => ?_
    rw [Option.mem_def.mp hk] at hbad
    exact of_decide_eq_true hbad

end Sys2Proof.Machine
end

section
/-! What the reports of ports, lanes, ingest and staging show, and how a scan of a lane's eye begins (R80, R84 to R87, R119, R141).
The claim of O15 is put together from these. -/

namespace Sys2Proof.Machine

section Commands
variable {c : Cmd} {s : State}

/-! ## Ports and lanes (R84, R85) -/

/-- What PORT_GET_STATUS shows of a port after the six bytes of its state. -/
def Port.counts (v : Port) : List Byte :=
  zeros 2 ++ beCount 8 v.correctedCw ++ beCount 8 v.uncorrectableCw ++ beCount 8 v.rxPackets ++ beCount 8 v.rxDiscard ++
    beCount 8 v.txPackets ++ beCount 8 v.txDiscard ++ beCount 4 v.downEvents ++ beCount 4 v.shedEvents ++
    beCount 4 v.restoreEvents ++ zeros 4 ++ beBytes 8 v.changeSec ++ beBytes 4 v.changeNs ++ zeros 4

theorem doPortGetStatus_unconfigured (hport : fld c.params 0 1 ≤ 79) (hcfg : s.portCfg (fld c.params 0 1) = none) :
    doPortGetStatus c s = .okWith ([0, 0, 0xFF, 0, 0, 0] ++ (s.portAt (fld c.params 0 1)).counts) s := by
  simp only [doPortGetStatus, if_neg (Nat.not_lt.mpr hport), hcfg, Port.counts, List.append_assoc]

theorem doPortGetStatus_configured {k : PortCfg} (hport : fld c.params 0 1 ≤ 79)
    (hcfg : s.portCfg (fld c.params 0 1) = some k) : doPortGetStatus c s = .okWith
      (beBytes 1 (s.portAt (fld c.params 0 1)).state ++ beBytes 1 k.width ++ beBytes 1 k.mode ++
        beBytes 1 (s.goodIds (fld c.params 0 1) k) ++
        beBytes 1 (if k.klp then (s.portAt (fld c.params 0 1)).partnerGood else 0) ++
        beBytes 1 (if k.klp then (s.portAt (fld c.params 0 1)).partnerActive else 0) ++
        (s.portAt (fld c.params 0 1)).counts) s := by
  simp only [doPortGetStatus, if_neg (Nat.not_lt.mpr hport), hcfg, Port.counts, List.append_assoc]

/-- What PORT_GET_LANE shows of a lane after the states of its directions. -/
def Lane.shown (v : Lane) : List Byte :=
  beBytes 1 (b2n v.signal + 2 * b2n v.cdr + 4 * b2n v.block + 8 * b2n v.align) ++
    beBytes 1 (b2n v.rxInv + 2 * b2n v.txInv) ++ beBytes 1 (v.laneId.getD 0xFF) ++ zeros 3 ++ beCount 4 v.lockLosses ++
    beCount 4 v.flips ++ beCount 8 v.correctedSymbols

theorem doPortGetLane_on (hlane : fld c.params 0 1 ≤ 79) (hrate : (s.quad (fld c.params 0 1 / 4)).rate ≠ 0) :
    doPortGetLane c s = .okWith (beBytes 1 (s.lane (fld c.params 0 1)).txState ++
      beBytes 1 (s.lane (fld c.params 0 1)).rxState ++ (s.lane (fld c.params 0 1)).shown) s := by
  simp only [doPortGetLane, if_neg (Nat.not_lt.mpr hlane), if_neg hrate, Lane.shown, List.append_assoc]

/-- The lanes of a quad whose rate is OFF are OFF (R77). -/
theorem doPortGetLane_off (hlane : fld c.params 0 1 ≤ 79) (hrate : (s.quad (fld c.params 0 1 / 4)).rate = 0) :
    doPortGetLane c s = .okWith ([2, 2] ++ (s.lane (fld c.params 0 1)).shown) s := by
  simp only [doPortGetLane, if_neg (Nat.not_lt.mpr hlane), if_pos hrate, Lane.shown, List.append_assoc]
  rfl

/-! ## Eye scans (R80, R86, R87) -/

/-- R80, R86: the parameters of PORT_EYE_SCAN are in range; a lane of two levels has eye 0, one of four has eyes 1 to 3. -/
structure ScanValid (p : List Byte) (rate : Nat) : Prop where
  lane : fld p 0 1 ≤ 79
  runs : 1 ≤ rate ∧ rate ≤ 4
  eye : if rate ≤ 2 then fld p 1 1 = 0 else 1 ≤ fld p 1 1 ∧ fld p 1 1 ≤ 3
  firstPhase : -32 ≤ sfld p 2 1
  phases : sfld p 2 1 ≤ sfld p 3 1
  lastPhase : sfld p 3 1 ≤ 31
  phaseStep : 1 ≤ sfld p 4 1 ∧ sfld p 4 1 ≤ 16
  firstVolt : -63 ≤ sfld p 5 1
  volts : sfld p 5 1 ≤ sfld p 6 1
  lastVolt : sfld p 6 1 ≤ 63
  voltStep : 1 ≤ sfld p 7 1 ∧ sfld p 7 1 ≤ 16
  dwell : 20 ≤ fld p 8 1 ∧ fld p 8 1 ≤ 36

/-- The scan that PORT_EYE_SCAN asks for, as it begins. -/
def scanAt (p : List Byte) (rate ns : Nat) : EyeScan :=
  { running := true, aborted := false, eye := fld p 1 1, phases := ((sfld p 3 1 - sfld p 2 1) / sfld p 4 1).toNat + 1,
    volts := ((sfld p 6 1 - sfld p 5 1) / sfld p 7 1).toNat + 1, dwell := fld p 8 1, rate := rate, startedAt := ns, points := [] }

/-- The state in which a lane's scan is this one. -/
def State.withScan (s : State) (l : Nat) (e : EyeScan) : State :=
  { s with port := { s.port with scans := (s.port.scans.filter (·.1 ≠ l)) ++ [(l, e)] } }

/-- The eye is there at the lane's rate. -/
theorem eye_of_valid {p : List Byte} {rate : Nat} (hvalid : ScanValid p rate) :
    if (rate = 1 || rate = 2 : Bool) = true then fld p 1 1 = 0
    else ((rate = 3 || rate = 4) && 1 ≤ fld p 1 1 && fld p 1 1 ≤ 3 : Bool) = true := by
  have hrate := hvalid.runs
  have heye := hvalid.eye
  by_cases h : rate ≤ 2
  · have hnrz : (rate = 1 || rate = 2 : Bool) = true := by simp; omega
    rw [if_pos h] at heye
    rwa [if_pos hnrz]
  · have hpam : ¬ (rate = 1 || rate = 2 : Bool) = true := by simp; omega
    have hfour : rate = 3 ∨ rate = 4 := by omega
    rw [if_neg h] at heye
    rw [if_neg hpam]
    simpa [and_assoc] using ⟨hfour, heye⟩

theorem fld_byte_lt (p : List Byte) (off : Nat) : fld p off 1 < 256 := by
  unfold fld slice
  cases p.drop off with
  | nil => simp [beNat]
  | cons b t => simpa [beNat] using b.isLt

/-- A signed byte that is positive reads the same unsigned. -/
theorem sfld_byte {p : List Byte} {off : Nat} (hpos : 1 ≤ sfld p off 1) : sfld p off 1 = fld p off 1 := by
  have hlt := fld_byte_lt p off
  unfold sfld toSigned at hpos ⊢
  norm_num [Nat.mod_eq_of_lt hlt] at hpos ⊢
  split at hpos <;> omega

/-- A scan in range begins, unless one of its quad runs. -/
theorem doPortEyeScan_judged (hvalid : ScanValid c.params (s.quad (fld c.params 0 1 / 4)).rate) : doPortEyeScan c s =
    if (s.port.scans.any fun e => e.1 / 4 = fld c.params 0 1 / 4 && e.2.running) = true then .fail stBusy s
    else .accepted (s.withScan (fld c.params 0 1) (scanAt c.params (s.quad (fld c.params 0 1 / 4)).rate s.ns)) := by
  have heye := eye_of_valid hvalid
  obtain ⟨hlane, -, -, hpmin, hp, hpmax, ⟨hpstep, hpstep'⟩, hvmin, hv, hvmax, ⟨hvstep, hvstep'⟩, hdwell, hdwell'⟩ := hvalid
  have hpmin' := hp.trans hpmax
  have hvmin' := hv.trans hvmax
  have hphase := sfld_byte hpstep
  have hvolt := sfld_byte hvstep
  have hpstep : 1 ≤ fld c.params 4 1 ∧ fld c.params 4 1 ≤ 16 := by omega
  have hvstep : 1 ≤ fld c.params 7 1 ∧ fld c.params 7 1 ≤ 16 := by omega
  simp only [doPortEyeScan, firstBad, hlane, heye, hpmin, hpmin', hp, hpmax, hpstep, hvmin, hvmin', hv, hvmax, hvstep,
    hdwell, hdwell', decide_true, Bool.and_self, if_true, State.withScan, scanAt, hphase, hvolt]

theorem mem_withScan (s : State) (l : Nat) (e : EyeScan) : (l, e) ∈ (s.withScan l e).port.scans :=
  List.mem_append_right _ List.mem_cons_self

/-- A scan has a point for each step of its ranges. -/
theorem points_eq {low high step : Int} (hrange : low ≤ high) (hstep : 1 ≤ step) :
    ((((high - low) / step).toNat + 1 : Nat) : Int) = (high - low) / step + 1 := by
  have hnonneg : 0 ≤ (high - low) / step := Int.ediv_nonneg (by omega) (by omega)
  omega

theorem doPortEyeRead_none (hlane : fld c.params 0 1 ≤ 79)
    (hnone : s.port.scans.find? (fun x => decide (x.1 = fld c.params 0 1)) = none) :
    doPortEyeRead c s = .okWith ([3] ++ zeros 9 ++ beBytes 2 (fld c.params 2 2)) s := by
  simp only [doPortEyeRead, if_neg (Nat.not_lt.mpr hlane), hnone]

theorem doPortEyeRead_some {l : Nat} {e : EyeScan} (hlane : fld c.params 0 1 ≤ 79)
    (hsome : s.port.scans.find? (fun x => decide (x.1 = fld c.params 0 1)) = some (l, e)) :
    doPortEyeRead c s = .okWith (beBytes 1 (if e.running then 0 else if e.aborted then 2 else 1) ++ beBytes 1 e.eye ++
      beBytes 1 e.phases ++ beBytes 1 e.volts ++ beBytes 2 (Config.eyeStepUv e.rate) ++ beBytes 1 e.dwell ++
      beBytes 1 (slice (e.counts l s.ns) (fld c.params 2 2) 64).length ++ beBytes 2 (e.counts l s.ns).length ++
      beBytes 2 (fld c.params 2 2) ++ ((slice (e.counts l s.ns) (fld c.params 2 2) 64).map (beBytes 4)).flatten) s := by
  have hl : l = fld c.params 0 1 := by simpa using List.find?_some hsome
  simp only [doPortEyeRead, if_neg (Nat.not_lt.mpr hlane), hsome, hl]

/-! ## Ingest and staging (R119, R141) -/

theorem doIngestGetPort_begins (s : State) (hport : fld c.params 0 1 ≤ 79) : ∃ rest, doIngestGetPort c s = .okWith
    (beCount 8 (s.inPort (fld c.params 0 1)).klp1 ++ beCount 8 (s.inPort (fld c.params 0 1)).klp2 ++
      beCount 8 (s.inPort (fld c.params 0 1)).filtered ++ beCount 8 (s.inPort (fld c.params 0 1)).malformed ++
      beCount 8 (s.inPort (fld c.params 0 1)).unknown ++ beCount 8 (s.inPort (fld c.params 0 1)).unmapped ++
      beCount 8 (s.inPort (fld c.params 0 1)).late ++ beCount 8 (s.inPort (fld c.params 0 1)).early ++
      beCount 8 (s.inPort (fld c.params 0 1)).duplicate ++ beCount 8 (s.inPort (fld c.params 0 1)).overflow ++ rest) s := by
  simp only [doIngestGetPort, if_neg (Nat.not_lt.mpr hport), List.append_assoc]
  exact ⟨_, rfl⟩

theorem doIngestGetInput_ok (s : State) (hinput : fld c.params 0 2 < 4096) : doIngestGetInput c s = .okWith
    (beCount 8 (s.inputCount (fld c.params 0 2)).samples ++ beCount 8 (s.inputCount (fld c.params 0 2)).valid ++
      beCount 8 (s.inputCount (fld c.params 0 2)).invalid ++ beCount 8 (s.inputCount (fld c.params 0 2)).saturated ++
      beBytes 8 (if (s.inputCount (fld c.params 0 2)).last = 0 then noIndex else (s.inputCount (fld c.params 0 2)).last - 1))
    s :=
  if_neg (Nat.not_le.mpr hinput)

theorem doIngestGetInput_bad (s : State) (hinput : 4096 ≤ fld c.params 0 2) : doIngestGetInput c s = .bad 0 s := if_pos hinput

theorem doCorrGetStaging_begins (s : State) (hinput : fld c.params 0 2 < 4096) : ∃ rest, doCorrGetStaging c s = .okWith
    (beCount 8 s.stg.loaded ++ beCount 8 s.stg.dropWaiting ++ beCount 8 s.stg.dropLoading ++ beCount 8 s.stg.dropLoaded ++ rest)
    s := by
  simp only [doCorrGetStaging, if_neg (Nat.not_le.mpr hinput), List.append_assoc]
  exact ⟨_, rfl⟩

end Commands

/-! ## The claim -/

/-- Settles O15: each report begins as claimed, and a scan begins unless one of its quad runs. What a receiver has corrected is a
free value (log entry 77). -/
theorem portAndIngestReportsAct : Obligations.PortAndIngestReportsAct := by
  unfold Obligations.PortAndIngestReportsAct
  refine ⟨?status, ?lane, ?laneOff, ?scan, ?busy, ?unread, ?read, ?port, ?input, ?inputBad, ?staging⟩
  case status =>
    refine reads_of (fun _ _ => rfl) (fun _ _ => rfl) (by decide) fun c u hgood => ⟨[], ?_⟩
    cases hcfg : u.portCfg (fld c.params 0 1) with
    | none =>
      refine (doPortGetStatus_unconfigured (of_decide_eq_true hgood) hcfg).trans ?_
      simp only [hcfg, Port.counts, List.append_assoc, List.append_nil]
    | some k =>
      refine (doPortGetStatus_configured (of_decide_eq_true hgood) hcfg).trans ?_
      simp only [hcfg, Port.counts, List.append_assoc, List.append_nil]
  case lane =>
    refine reads_of (fun _ _ => rfl) (fun _ _ => rfl) (by decide) fun c u hgood => ⟨[], ?_⟩
    obtain ⟨hlane, hrate⟩ := of_decide_eq_true hgood
    refine (doPortGetLane_on hlane hrate).trans ?_
    simp only [Lane.shown, List.append_assoc, List.append_nil]
  case laneOff =>
    refine reads_of (fun _ _ => rfl) (fun _ _ => rfl) (by decide) fun c u hgood => ?_
    obtain ⟨hlane, hrate⟩ := of_decide_eq_true hgood
    exact ⟨_, doPortGetLane_off hlane hrate⟩
  case scan =>
    refine executes_body (fun _ _ => rfl) (fun _ _ => rfl) (by decide) fun c u hgood => ?_
    simp only [Bool.and_eq_true, decide_eq_true_eq] at hgood
    obtain ⟨⟨hlane, hlow, hhigh, heye, hpmin, hp, hpmax, hpstep, hpstep', hvmin, hv, hvmax, hvstep, hvstep', hdwell⟩, hfree⟩ :=
      hgood
    have hvalid : ScanValid c.params (u.quad (fld c.params 0 1 / 4)).rate :=
      ⟨hlane, ⟨hlow, hhigh⟩, heye, hpmin, hp, hpmax, ⟨hpstep, hpstep'⟩, hvmin, hv, hvmax, ⟨hvstep, hvstep'⟩, hdwell⟩
    have hidle : ¬ (u.port.scans.any fun e => e.1 / 4 = fld c.params 0 1 / 4 && e.2.running) = true := by
      simpa [imp_iff_not_or] using hfree
    exact ⟨_, (doPortEyeScan_judged hvalid).trans (if_neg hidle), rfl, rfl, rfl, rfl, _, mem_withScan _ _ _, rfl, rfl, rfl,
      points_eq hp hpstep, points_eq hv hvstep⟩
  case busy =>
    refine executes_fail (fun _ _ => rfl) (by decide) fun c u hgood => ?_
    simp only [Bool.and_eq_true, decide_eq_true_eq] at hgood
    obtain ⟨⟨hlane, hlow, hhigh, heye, hpmin, hp, hpmax, hpstep, hpstep', hvmin, hv, hvmax, hvstep, hvstep', hdwell⟩, hbusy⟩ :=
      hgood
    have hvalid : ScanValid c.params (u.quad (fld c.params 0 1 / 4)).rate :=
      ⟨hlane, ⟨hlow, hhigh⟩, heye, hpmin, hp, hpmax, ⟨hpstep, hpstep'⟩, hvmin, hv, hvmax, ⟨hvstep, hvstep'⟩, hdwell⟩
    exact (doPortEyeScan_judged hvalid).trans (if_pos hbusy)
  case unread =>
    refine reads_of (fun _ _ => rfl) (fun _ _ => rfl) (by decide) fun c u hgood => ⟨[], ?_⟩
    simp only [Bool.and_eq_true, decide_eq_true_eq, Option.isNone_iff_eq_none] at hgood
    rw [List.append_nil]
    exact doPortEyeRead_none hgood.1 hgood.2
  case read =>
    refine reads_of (fun _ _ => rfl) (fun _ _ => rfl) (by decide) fun c u hgood => ⟨[], ?_⟩
    simp only [Bool.and_eq_true, decide_eq_true_eq] at hgood
    obtain ⟨hlane, hsome⟩ := hgood
    obtain ⟨⟨l, e⟩, hscan⟩ := Option.isSome_iff_exists.mp hsome
    simp only [hscan, List.append_nil]
    exact doPortEyeRead_some hlane hscan
  case port =>
    exact reads_of (fun _ _ => rfl) (fun _ _ => rfl) (by decide) fun c u hgood =>
      doIngestGetPort_begins u (of_decide_eq_true hgood)
  case input =>
    refine reads_of (fun _ _ => rfl) (fun _ _ => rfl) (by decide) fun c u hgood => ⟨[], ?_⟩
    rw [List.append_nil]
    exact doIngestGetInput_ok u (of_decide_eq_true hgood)
  case inputBad => exact rejects_of (fun _ _ => rfl) fun c u hbad => doIngestGetInput_bad u (of_decide_eq_true hbad)
  case staging =>
    exact reads_of (fun _ _ => rfl) (fun _ _ => rfl) (by decide) fun c u hgood =>
      doCorrGetStaging_begins u (of_decide_eq_true hgood)

end Sys2Proof.Machine
end

section
/-! What becomes of serial lanes and ports, event by event: bring-up (R66, R67), loss of lock (R69, R72, R73), codewords and eye
scans (R63, R80), and superframe markers (R64, R67, R74). The claim of O44 is put together from these. -/

namespace Sys2Proof.Machine

section Lane
variable {s : State} {l : Fin 80} {p : Nat} {c : PortCfg}

/-! ## Bring-up (R66, R67) -/

section LaneLock
variable (hport : s.portOfLane l.val = some (p, c)) (hon : s.serdesOn (l.val / 4) = true) (hrx : (s.lane l.val).rxState = 0)
include hon hrx

/-- The bring-up of a lane that listens, on a quad that is powered, goes on. -/
theorem lane_listens : ¬ (!s.serdesOn (l.val / 4) || (s.lane l.val).rxState ≠ 0 : Bool) = true := by simp [hon, hrx]

include hport

theorem evLaneLock_cdr (hcdr : (s.lane l.val).cdr = false) : evLaneLock l .cdr s =
    (s.setLane l.val { s.lane l.val with signal := true, cdr := true, tryAt := s.ns }).settlePort p := by
  simp only [evLaneLock, hport, if_neg (lane_listens hon hrx)]
  exact if_neg (by simp [hcdr])

theorem evLaneLock_block (hcdr : (s.lane l.val).cdr = true) (hblock : (s.lane l.val).block = false) : evLaneLock l .block s =
    (s.setLane l.val { s.lane l.val with
      block := true, lastInv := (s.lane l.val).rxInv,
      flips := (s.lane l.val).flips + b2n ((s.lane l.val).rxInv ≠ (s.lane l.val).lastInv) }).settlePort p := by
  simp only [evLaneLock, hport, if_neg (lane_listens hon hrx)]
  exact if_neg (by simp [hcdr, hblock])

theorem evLaneLock_align {id : Nat} (hblock : (s.lane l.val).block = true) (halign : (s.lane l.val).align = false)
    (hid : c.klp = true → id < c.width) : evLaneLock l (.align id) s =
    ((s.setLane l.val { s.lane l.val with align := true, laneId := some id }).settlePort p).restoreLanes p := by
  simp only [evLaneLock, hport, if_neg (lane_listens hon hrx)]
  exact if_neg (by simpa [hblock, halign] using hid)

end LaneLock

theorem evPolarityTryTimeout_tries (hauto : (s.lane l.val).rxPol = 0) (hcdr : (s.lane l.val).cdr = true)
    (hblock : (s.lane l.val).block = false) (htime : (s.lane l.val).tryAt + 2000000 ≤ s.ns) : evPolarityTryTimeout l s =
    s.setLane l.val { s.lane l.val with rxInv := !(s.lane l.val).rxInv, tryAt := s.ns } :=
  if_pos (by simp [hauto, hcdr, hblock, htime])

theorem evPolarityTryTimeout_early (htime : s.ns < (s.lane l.val).tryAt + 2000000) : evPolarityTryTimeout l s = s :=
  if_neg (by simp [htime])

/-- A lane without block lock is not in lock. -/
theorem inLock_noBlock {v : Lane} (c : PortCfg) (hblock : v.block = false) : v.inLock c = false := by
  simp [Lane.inLock, hblock]

theorem evBringupRetry_retries (hport : s.portOfLane l.val = some (p, c)) (hlock : (s.lane l.val).inLock c = false)
    (hrx : (s.lane l.val).rxState = 0) (htime : (s.lane l.val).retryAt + 10000000 ≤ s.ns) : evBringupRetry l s =
    (s.setLane l.val { (s.lane l.val).unlock with retryAt := s.ns }).settlePort p := by
  have hgo : ¬ ((s.lane l.val).inLock c || s.ns < (s.lane l.val).retryAt + 10000000 ||
      (s.lane l.val).rxState ≠ 0 : Bool) = true := by
    simp [hlock, hrx, htime]
  simp only [evBringupRetry, hport, if_neg hgo]

theorem evBringupRetry_early (htime : s.ns < (s.lane l.val).retryAt + 10000000) : evBringupRetry l s = s := by
  unfold evBringupRetry
  dsimp only
  split
  · rfl
  · exact if_pos (by simp [htime])

/-! ## Loss of lock (R69, R72, R73) -/

/-- What a lane has that a cause can take. -/
def Lane.has (v : Lane) : LossCause → PortCfg → Bool
  | .signal, _ => v.signal
  | .cdr, _ => v.cdr
  | .block, c => v.block && !c.klp
  | .am, c => if c.klp || 1 < c.width then v.align else v.block
  | .codeword, c => v.block && c.klp

/-- The lane as a cause leaves it. -/
def Lane.after (v : Lane) (ns : Nat) : LossCause → PortCfg → Lane
  | .signal, _ => v.unlock
  | .cdr, _ => { v.unlock with signal := v.signal }
  | .am, c => if c.klp || 1 < c.width then { v with align := false, laneId := none } else v.noBlock ns
  | _, _ => v.noBlock ns

/-- A lane of a port loses what its cause names, if it has it. -/
theorem evLaneLockLoss_eq (hport : s.portOfLane l.val = some (p, c)) (cause : LossCause) : evLaneLockLoss l cause s =
    if (s.lane l.val).has cause c then (s.setLane l.val ((s.lane l.val).after s.ns cause c)).laneLost l.val (s.lane l.val)
    else s := by
  simp only [evLaneLockLoss, hport]
  cases cause with
  | signal | cdr | block | codeword => rfl
  | am =>
    by_cases h : (c.klp || 1 < c.width : Bool) = true
    · simp only [Lane.has, Lane.after, if_pos h]
    · simp only [Lane.has, Lane.after, if_neg h]

theorem evLaneLockLoss_loses {cause : LossCause} (hport : s.portOfLane l.val = some (p, c))
    (hhas : (s.lane l.val).has cause c = true) : evLaneLockLoss l cause s =
    (s.setLane l.val ((s.lane l.val).after s.ns cause c)).laneLost l.val (s.lane l.val) :=
  (evLaneLockLoss_eq hport cause).trans (if_pos hhas)

theorem evLaneLockLoss_noPort (cause : LossCause) (hport : s.portOfLane l.val = none) : evLaneLockLoss l cause s = s := by
  simp only [evLaneLockLoss, hport]

/-- A lane loses only what it has. -/
theorem evLaneLockLoss_hasNot {cause : LossCause}
    (hhas : ∀ q k, s.portOfLane l.val = some (q, k) → (s.lane l.val).has cause k = false) :
    evLaneLockLoss l cause s = s := by
  cases hport : s.portOfLane l.val with
  | none => exact evLaneLockLoss_noPort cause hport
  | some e => exact (evLaneLockLoss_eq hport cause).trans (if_neg (by simp [hhas e.1 e.2 hport]))

end Lane

section Shed
variable {s : State} {p : Fin 80}

theorem evShedAgreeTimeout_late {c : PortCfg} (hcfg : s.portCfg p.val = some c)
    (hlate : ((s.portAt p.val).pendingSheds.any fun x => x.reported && decide ((s.portAt p.val).agreeSf ≤ x.sent)) = true) :
    evShedAgreeTimeout p s = s.restartPort p.val c := by
  simp only [evShedAgreeTimeout, hcfg, if_pos hlate]

theorem evShedAgreeTimeout_none (hnone : (s.portAt p.val).pendingSheds = []) : evShedAgreeTimeout p s = s := by
  unfold evShedAgreeTimeout
  dsimp only
  split
  · rfl
  · exact if_neg (by simp [hnone])

end Shed

/-! ## Codewords and eye scans (R63, R80) -/

section Codewords
variable {s : State} {l : Fin 80}

theorem evUncorrectableCodeword_counts {p : Nat} {c : PortCfg} (n : Nat) (hport : s.portOfLane l.val = some (p, c))
    (hblock : (s.lane l.val).block = true) : evUncorrectableCodeword l n s = s.setPort p { s.portAt p with
      uncorrectableCw := (s.portAt p).uncorrectableCw + 1, rxDiscard := (s.portAt p).rxDiscard + n } := by
  simp [evUncorrectableCodeword, hport, hblock]

theorem evUncorrectableCodeword_noBlock (n : Nat) (hblock : (s.lane l.val).block = false) :
    evUncorrectableCodeword l n s = s := by
  unfold evUncorrectableCodeword
  split
  · rfl
  · exact if_pos (by simp [hblock])

theorem evEyeScanDone_waits (errors : List Nat)
    (hwaits : ∀ e ∈ s.port.scans.find? (fun x : Nat × EyeScan => decide (x.1 = l.val)),
      e.2.running = false ∨ e.2.done s.ns ≠ e.2.total) : evEyeScanDone l errors s = s := by
  unfold evEyeScanDone
  split
  · rfl
  · next m e hscan => exact if_pos (by simpa using hwaits (m, e) hscan)

theorem evEyeScanDone_done {e : EyeScan} (errors : List Nat)
    (hscan : s.port.scans.find? (fun x => decide (x.1 = l.val)) = some (l.val, e)) (hruns : e.running = true)
    (hdone : e.done s.ns = e.total) : evEyeScanDone l errors s =
    State.raise { s with port := { s.port with scans := s.port.scans.map fun x =>
      if x.1 = l.val then (x.1, { e with
        running := false, points := padTo 0 e.total (errors.map fun n => min n 0xFFFFFFFF) }) else x } } 178 l.val := by
  have hover : ¬ (!e.running || e.done s.ns ≠ e.total : Bool) = true := by simp [hruns, hdone]
  simp only [evEyeScanDone, hscan, if_neg hover]

end Codewords

/-! ## Superframe markers (R64, R67, R74) -/

section Receive
variable {s : State} {l : Fin 80} {b : List Byte}

theorem evSfmReceive_noPort (hport : s.portOfLane l.val = none) : evSfmReceive l b s = s := by
  simp only [evSfmReceive, hport]

variable {p : Nat} {c : PortCfg} (hport : s.portOfLane l.val = some (p, c))
include hport

theorem evSfmReceive_ignored (hnone : c.klp = false ∨ (s.lane l.val).inLock c = false ∨ fld b 0 1 ≠ 0x78 ∨ fld b 1 1 ≠ 1) :
    evSfmReceive l b s = s := by
  simp only [evSfmReceive, hport]
  exact if_pos (by simpa [or_assoc] using hnone)

/-- The port as a partner's marker tells it. -/
def Port.told (v : Port) (b : List Byte) : Port :=
  { v with partnerSeen := true, partnerFlags := fld b 2 1, partnerGood := fld b 8 1, partnerActive := fld b 9 1,
           partnerSf := some (fld b 4 4) }

/-- The first marker of a superframe, on a duplex port, moves the polarity of its transmitters. -/
theorem evSfmReceive_taken (hklp : c.klp = true) (hlock : (s.lane l.val).inLock c = true) (hkind : fld b 0 1 = 0x78)
    (hversion : fld b 1 1 = 1) : evSfmReceive l b s =
    ((((if c.duplex = true ∧ (s.portAt p).partnerSf ≠ some (fld b 4 4)
      then (s.setPort p ((s.portAt p).told b)).followInversion p c (fld b 10 1)
      else s.setPort p ((s.portAt p).told b)).settlePort p).agreeSheds p).restoreLanes p) := by
  have hgo : ¬ (!c.klp || !(s.lane l.val).inLock c || fld b 0 1 ≠ 0x78 || fld b 1 1 ≠ 1 : Bool) = true := by
    simp [hklp, hlock, hkind, hversion]
  simp only [evSfmReceive, hport, if_neg hgo]
  by_cases hfirst : c.duplex = true ∧ (s.portAt p).partnerSf ≠ some (fld b 4 4)
  · have hmove : ¬ ((s.portAt p).partnerSf = some (fld b 4 4) || !c.duplex : Bool) = true := by simp [hfirst]
    rw [if_pos hfirst, if_neg hmove]
    rfl
  · have hstay : ((s.portAt p).partnerSf = some (fld b 4 4) || !c.duplex : Bool) = true := by
      simp only [Bool.or_eq_true, decide_eq_true_eq, Bool.not_eq_true']
      by_contra hneither
      exact hfirst (by simpa [and_comm] using hneither)
    rw [if_neg hfirst, if_pos hstay]
    rfl

end Receive

section Transmit
variable {s : State} {p : Fin 80} {c : PortCfg}

/-- A marker is due on a duplex port that transmits, once a superframe has passed. -/
theorem evSfmTransmit_sends {u : State} {klp : Bool × Nat} (hcfg : s.portCfg p.val = some c) (hduplex : c.duplex = true)
    (hon : s.serdesOn (p.val / 4) = true) (hawake : s.txAwake p.val c = true)
    (hdue : (s.portAt p.val).sfAt = 0 ∨ (s.portAt p.val).sfAt + 1048576 ≤ s.ns)
    (hklp : klp = (s.portAt p.val).nextKlp.getD ((s.portAt p.val).shed, (s.portAt p.val).agreeSf))
    (hu : u = s.setPort p.val { s.portAt p.val with
      rxGood := s.goodIds p.val c,
      txActive := (s.portLanes p.val c).foldl (fun acc l =>
        if decide ((s.lane l).txState = 0) && bit (s.portAt p.val).partnerGood (l - p.val)
          then withBit acc (l - p.val) true else acc) 0,
      sfAt := s.ns, sfCount := ((s.portAt p.val).sfCount + 1) % 2 ^ 32, shed := klp.1, agreeSf := klp.2, nextKlp := none,
      pendingSheds := (s.portAt p.val).pendingSheds.filterMap fun x =>
        if x.reported then some { x with sent := x.sent + 1 }
        else if bit (s.goodIds p.val c) x.laneId then none else some { x with reported := true } }) :
    evSfmTransmit p s = (((u.portLanes p.val c).foldl (fun w l => if (w.lane l).txState = 0
      then w.emit (.superframe l (l - p.val) c.width (u.sfmBlock p.val c)) else w) u).agreeSheds p.val).restoreLanes p.val := by
  have hgo : ¬ (!c.duplex || !s.serdesOn (p.val / 4) || !s.txAwake p.val c ||
      ((s.portAt p.val).sfAt ≠ 0 && s.ns < (s.portAt p.val).sfAt + 1048576) : Bool) = true := by
    rcases hdue with h | h <;> simp [hduplex, hon, hawake, h]
  subst hklp hu
  simp only [evSfmTransmit, hcfg, if_neg hgo]

theorem evSfmTransmit_early (hsent : (s.portAt p.val).sfAt ≠ 0) (hearly : s.ns < (s.portAt p.val).sfAt + 1048576) :
    evSfmTransmit p s = s := by
  unfold evSfmTransmit
  dsimp only
  split
  · rfl
  · exact if_pos (by simp [hsent, hearly])

theorem evSfmTransmit_simplex (hcfg : s.portCfg p.val = some c) (hduplex : c.duplex = false) : evSfmTransmit p s = s := by
  simp only [evSfmTransmit, hcfg]
  exact if_pos (by simp [hduplex])

end Transmit

/-! ## The claim -/

section Events
variable {s u : State}

theorem happens_laneLock {l : Fin 80} {step : LockStep} (h : evLaneLock l step s = u) : Happens (.laneLock l step) s u :=
  h ▸ happens_of_guarded rfl rfl

theorem happens_polarityTryTimeout {l : Fin 80} (h : evPolarityTryTimeout l s = u) : Happens (.polarityTryTimeout l) s u :=
  h ▸ happens_of_guarded rfl rfl

theorem happens_bringupRetry {l : Fin 80} (h : evBringupRetry l s = u) : Happens (.bringupRetry l) s u :=
  h ▸ happens_of_guarded rfl rfl

theorem happens_laneLockLoss {l : Fin 80} {cause : LossCause} (h : evLaneLockLoss l cause s = u) :
    Happens (.laneLockLoss l cause) s u := h ▸ happens_of_guarded rfl rfl

theorem happens_shedAgreeTimeout {p : Fin 80} (h : evShedAgreeTimeout p s = u) : Happens (.shedAgreeTimeout p) s u :=
  h ▸ happens_of_guarded rfl rfl

theorem happens_uncorrectableCodeword {l : Fin 80} {n : Nat} (h : evUncorrectableCodeword l n s = u) :
    Happens (.uncorrectableCodeword l n) s u := h ▸ happens_of_guarded rfl rfl

theorem happens_eyeScanDone {l : Fin 80} {errors : List Nat} (hwf : (errors.all fun x => decide (x < 2 ^ 37)) = true)
    (h : evEyeScanDone l errors s = u) : Happens (.eyeScanDone l errors) s u := h ▸ happens_of_guarded rfl hwf

theorem happens_sfmReceive {l : Fin 80} {b : List Byte} (hlen : b.length = 32) (h : evSfmReceive l b s = u) :
    Happens (.sfmReceive l b) s u := h ▸ happens_of_guarded rfl (decide_eq_true hlen)

theorem happens_sfmTransmit {p : Fin 80} (h : evSfmTransmit p s = u) : Happens (.sfmTransmit p) s u :=
  h ▸ happens_of_guarded rfl rfl

end Events

/-- Settles O44: each event happens as its meaning says, and the lemma for its case says what that leads to. The first sf_count, bit
0 of the flags and the PLL's time are the model's choices (log entry 104). -/
theorem lanesComeUpAndGo : Obligations.LanesComeUpAndGo := by
  unfold Obligations.LanesComeUpAndGo
  refine ⟨?cdr, ?block, ?align, ?polarity, ?polarityEarly, ?retry, ?retryUnlocked, ?retryEarly, ?noSignal, ?noCdr, ?noBlock,
    ?noAlign, ?hadNoSignal, ?hadNoCdr, ?hadNoBlock, ?hadNoAlign, ?noPort, ?shedLate, ?shedNone, ?codeword, ?codewordNoBlock,
    ?scanWaits, ?scanDone, ?ethAlign, ?marker, ?markerIgnored, ?markerNoPort, ?sends, ?sendsEarly, ?sendsSimplex⟩
  case cdr =>
    intro s l p c hport hon hrx hcdr
    exact happens_laneLock (evLaneLock_cdr hport hon hrx hcdr)
  case block =>
    intro s l p c hport hon hrx hcdr hblock
    exact happens_laneLock (evLaneLock_block hport hon hrx hcdr hblock)
  case align =>
    intro s l p id c hport hon hrx hblock halign hid
    exact happens_laneLock (evLaneLock_align hport hon hrx hblock halign hid)
  case polarity =>
    intro s l hauto hcdr hblock htime
    exact happens_polarityTryTimeout (evPolarityTryTimeout_tries hauto hcdr hblock htime)
  case polarityEarly =>
    intro s l htime
    exact happens_polarityTryTimeout (evPolarityTryTimeout_early htime)
  case retry =>
    intro s l p c hport hblock hrx htime
    exact happens_bringupRetry (evBringupRetry_retries hport (inLock_noBlock c hblock) hrx htime)
  case retryUnlocked =>
    intro s l p c hport hlock _ hrx htime
    exact happens_bringupRetry (evBringupRetry_retries hport hlock hrx htime)
  case retryEarly =>
    intro s l htime
    exact happens_bringupRetry (evBringupRetry_early htime)
  case noSignal =>
    intro s l p c hport hsignal
    exact happens_laneLockLoss (evLaneLockLoss_loses (cause := .signal) hport hsignal)
  case noCdr =>
    intro s l p c hport hcdr
    exact happens_laneLockLoss (evLaneLockLoss_loses (cause := .cdr) hport hcdr)
  case noBlock =>
    intro s l p c hport hblock
    cases hklp : c.klp with
    | true => exact happens_laneLockLoss (evLaneLockLoss_loses (cause := .codeword) hport (by simp [Lane.has, hblock, hklp]))
    | false => exact happens_laneLockLoss (evLaneLockLoss_loses (cause := .block) hport (by simp [Lane.has, hblock, hklp]))
  case noAlign =>
    intro s l p c hport halign hmarkers
    have hwide : (c.klp || 1 < c.width : Bool) = true := by simpa using hmarkers
    refine happens_laneLockLoss ((evLaneLockLoss_loses (cause := .am) hport ((if_pos hwide).trans halign)).trans ?_)
    rw [Lane.after, if_pos hwide]
  case hadNoSignal =>
    intro s l hsignal
    exact happens_laneLockLoss (evLaneLockLoss_hasNot fun _ _ _ => hsignal)
  case hadNoCdr =>
    intro s l hcdr
    exact happens_laneLockLoss (evLaneLockLoss_hasNot fun _ _ _ => hcdr)
  case hadNoBlock =>
    intro s l hblock
    exact ⟨happens_laneLockLoss (evLaneLockLoss_hasNot fun _ _ _ => by simp [Lane.has, hblock]),
      happens_laneLockLoss (evLaneLockLoss_hasNot fun _ _ _ => by simp [Lane.has, hblock])⟩
  case hadNoAlign =>
    intro s l p c hport hmarkers halign
    have hwide : (c.klp || 1 < c.width : Bool) = true := by simpa using hmarkers
    refine happens_laneLockLoss ((evLaneLockLoss_eq hport .am).trans (if_neg ?_))
    rw [Lane.has, if_pos hwide, halign]
    exact Bool.false_ne_true
  case noPort =>
    intro s l cause hport
    exact happens_laneLockLoss (evLaneLockLoss_noPort cause hport)
  case shedLate =>
    intro s p c hcfg hlate
    exact happens_shedAgreeTimeout (evShedAgreeTimeout_late hcfg hlate)
  case shedNone =>
    intro s p hnone
    exact happens_shedAgreeTimeout (evShedAgreeTimeout_none hnone)
  case codeword =>
    intro s l p n c hport hblock
    exact happens_uncorrectableCodeword (evUncorrectableCodeword_counts n hport hblock)
  case codewordNoBlock =>
    intro s l n hblock
    exact happens_uncorrectableCodeword (evUncorrectableCodeword_noBlock n hblock)
  case scanWaits =>
    intro s l errors hwf hwaits
    exact happens_eyeScanDone hwf (evEyeScanDone_waits errors hwaits)
  case scanDone =>
    intro s l e errors hwf hscan hruns hdone
    exact happens_eyeScanDone hwf (evEyeScanDone_done errors hscan hruns hdone)
  case ethAlign =>
    intro s l p c hport hklp hwidth hblock
    have hnarrow : ¬ (c.klp || 1 < c.width : Bool) = true := by simp [hklp, hwidth]
    refine happens_laneLockLoss ((evLaneLockLoss_loses (cause := .am) hport ((if_neg hnarrow).trans hblock)).trans ?_)
    rw [Lane.after, if_neg hnarrow]
  case marker =>
    rintro s _ l p c b hlen hport hklp hlock hkind hversion rfl
    exact happens_sfmReceive hlen (evSfmReceive_taken hport hklp hlock hkind hversion)
  case markerIgnored =>
    intro s l p c b hlen hport hnone
    exact happens_sfmReceive hlen (evSfmReceive_ignored hport hnone)
  case markerNoPort =>
    intro s l b hlen hport
    exact happens_sfmReceive hlen (evSfmReceive_noPort hport)
  case sends =>
    intro s u p c klp hcfg hduplex hon hawake hdue hklp hu
    exact happens_sfmTransmit (evSfmTransmit_sends hcfg hduplex hon hawake hdue hklp hu)
  case sendsEarly =>
    intro s p hsent hearly
    exact happens_sfmTransmit (evSfmTransmit_early hsent hearly)
  case sendsSimplex =>
    intro s p c hcfg hduplex
    exact happens_sfmTransmit (evSfmTransmit_simplex hcfg hduplex)

end Sys2Proof.Machine
end

section
/-! What becomes of frames and packets that arrive, of held parts, of visits whose hold expires, and of multicast reports, event
by event (R60, R88 to R91, R105, R106, R110). The claim of O45 is put together from these. -/

namespace Sys2Proof.Machine

/-! ## Ethernet frames (R88, R90, R91) -/

/-- Frames are received on an Ethernet port that is UP. -/
theorem received_onEth {c : PortCfg} {n : Nat} (heth : c.klp = false) (hup : 2 ≤ n) : ¬ (c.klp || n < 2 : Bool) = true := by
  simpa [heth] using Nat.lt_of_succ_le hup

section EthFrame
variable {s : State} {p : Fin 80} {f : Frame}

/-- Nothing is received on a port that is not UP. -/
theorem evEthFrameReceive_down (hdown : (s.portAt p.val).state < 2) : evEthFrameReceive p f s = s := by
  unfold evEthFrameReceive
  dsimp only
  split
  · rfl
  · exact if_pos (by simp [hdown])

variable {c : PortCfg} (hcfg : s.portCfg p.val = some c) (heth : c.klp = false) (hup : 2 ≤ (s.portAt p.val).state)
include hcfg heth hup

theorem evEthFrameReceive_pause (hpause : f.etherType = 0x8808) :
    evEthFrameReceive p f s = s.countPort p.val fun q => { q with rxDiscard := q.rxDiscard + 1 } := by
  have hgo := received_onEth heth hup
  simp only [evEthFrameReceive, hcfg, if_neg hgo, if_pos hpause]

variable (hkind : f.etherType ≠ 0x8808)
include hkind

/-- A frame for another station, or another VLAN, is filtered on an ingest port and discarded on an egress port. -/
theorem evEthFrameReceive_notOurs (hother : vlanOk (s.inPort p.val).vlan f = false ∨
      ((s.inPort p.val).mac = 0 ∨ f.dst ≠ (s.inPort p.val).mac) ∧ f.dst / 2 ^ 40 % 2 = 0) : evEthFrameReceive p f s =
    if c.role = 0 then (s.countPort p.val fun q => { q with rxPackets := q.rxPackets + 1 }).filtered p.val
    else s.countPort p.val fun q => { q with rxDiscard := q.rxDiscard + 1 } := by
  have hgo := received_onEth heth hup
  simp only [evEthFrameReceive, hcfg, if_neg hgo, if_neg hkind]
  refine if_pos ?_
  rcases hother with hvlan | ⟨hunicast, hmulticast⟩
  · simp [hvlan]
  · simp only [Bool.or_eq_true, Bool.not_eq_true', Bool.or_eq_false_iff, Bool.and_eq_false_iff, decide_eq_false_iff_not]
    exact .inr ⟨hunicast.imp not_not_intro id, by omega⟩

variable (hvlan : vlanOk (s.inPort p.val).vlan f = true)
include hvlan

/-- An ARP request for the port's address is answered. -/
theorem evEthFrameReceive_arp {r : Frame} (harp : f.etherType = 0x0806) (hmac : (s.inPort p.val).mac ≠ 0)
    (hdst : f.dst = (s.inPort p.val).mac ∨ f.dst = 0xFFFFFFFFFFFF) (hreply : arpReply (s.inPort p.val).addresses f = some r) :
    evEthFrameReceive p f s = (s.countPort p.val fun q => { q with rxPackets := q.rxPackets + 1 }).sendOwn p.val r := by
  have hgo := received_onEth heth hup
  have hptp := ptpTo_arp (kvGet {} s.qz.ptp.ports p.val) (s.inPort p.val).addresses harp
  have hours : ¬ (!vlanOk (s.inPort p.val).vlan f || !(((s.inPort p.val).mac ≠ 0 && f.dst = (s.inPort p.val).mac) ||
      f.dst / 2 ^ 40 % 2 = 1) : Bool) = true := by
    rcases hdst with h | h <;> simp [hvlan, hmac, h]
  have hasked : (((s.inPort p.val).mac ≠ 0 && f.dst = (s.inPort p.val).mac : Bool) || f.dst = 0xFFFFFFFFFFFF : Bool) = true := by
    rcases hdst with h | h <;> simp [hmac, h]
  simp only [evEthFrameReceive, hcfg, if_neg hgo, if_neg hkind, if_neg hours, hptp, Bool.false_eq_true, if_false,
    if_neg hmac, hreply]
  exact if_pos hasked

variable (hptp : ptpTo (kvGet {} s.qz.ptp.ports p.val) (s.inPort p.val).addresses f = false)
  (harp : arpReply (s.inPort p.val).addresses f = none)
  (hneighbour : ((parseIp f.etherType f.payload).bind fun x => neighbourReply (s.inPort p.val).addresses f x) = none)
  (hrole : c.role = 0)
include hptp harp hneighbour hrole

/-- A query waits for its answer. -/
theorem evEthFrameReceive_query {q : McastQuery} (hmulticast : f.dst / 2 ^ 40 % 2 = 1)
    (hquery : (parseIp f.etherType f.payload).bind queryOf = some q) : evEthFrameReceive p f s =
    (s.countPort p.val fun q => { q with rxPackets := q.rxPackets + 1 }).setInPort p.val
      { s.inPort p.val with queries := (s.inPort p.val).queries ++ [q] } := by
  have hgo := received_onEth heth hup
  have hours : ¬ (!vlanOk (s.inPort p.val).vlan f || !(((s.inPort p.val).mac ≠ 0 && f.dst = (s.inPort p.val).mac) ||
      f.dst / 2 ^ 40 % 2 = 1) : Bool) = true := by
    simpa [hvlan] using fun _ => hmulticast
  have hrole' : ¬ c.role ≠ 0 := not_not_intro hrole
  simp only [evEthFrameReceive, hcfg, if_neg hgo, if_neg hkind, if_neg hours, hptp, Bool.false_eq_true, if_false, harp,
    ite_self, hneighbour, if_neg hrole', hquery]

/-- A frame to the port's own address that is none of the messages above is looked at as ingest. -/
theorem evEthFrameReceive_ingest (hmac : (s.inPort p.val).mac ≠ 0) (hdst : f.dst = (s.inPort p.val).mac)
    (hquery : (parseIp f.etherType f.payload).bind queryOf = none)
    (hheeded : (parseIp f.etherType f.payload).any unheeded = false) (hip : f.etherType = 0x0800 ∨ f.etherType = 0x86DD) :
    evEthFrameReceive p f s = (s.countPort p.val fun q => { q with rxPackets := q.rxPackets + 1 }).ingestIp p.val f := by
  have hgo := received_onEth heth hup
  have hunicast : ((s.inPort p.val).mac ≠ 0 && f.dst = (s.inPort p.val).mac : Bool) = true := by simp [hmac, hdst]
  have hrole' : ¬ c.role ≠ 0 := not_not_intro hrole
  have hip' : ¬ (f.etherType ≠ 0x0800 && f.etherType ≠ 0x86DD : Bool) = true := by
    rcases hip with h | h <;> simp [h]
  simp only [evEthFrameReceive, hcfg, if_neg hgo, if_neg hkind, hvlan, hunicast, hptp, harp, ite_self, hneighbour,
    if_neg hrole', hquery, hheeded, if_neg hip', Bool.true_or, Bool.not_true, Bool.or_self, Bool.false_eq_true, if_false]

end EthFrame

/-! ## KLP packets (R60) -/

section KlpPacket
variable {s : State} {p : Fin 80} {b : List Byte}

theorem evKlpPacketReceive_taken {c : PortCfg} (hcfg : s.portCfg p.val = some c) (hklp : c.klp = true)
    (hup : 2 ≤ (s.portAt p.val).state) (hlen : klpLength b.length = true) : evKlpPacketReceive p b s =
    (s.countPort p.val fun q => { q with rxPackets := q.rxPackets + 1 }).klpPacket p.val none b := by
  have hgo : ¬ (!c.klp || (s.portAt p.val).state < 2 || !klpLength b.length : Bool) = true := by
    simpa [hklp, hlen] using Nat.lt_of_succ_le hup
  simp only [evKlpPacketReceive, hcfg, if_neg hgo]

/-- Nothing is received on a port that is not UP, and no packet that KLP framing does not carry. -/
theorem evKlpPacketReceive_none (hnone : (s.portAt p.val).state < 2 ∨ klpLength b.length = false) :
    evKlpPacketReceive p b s = s := by
  unfold evKlpPacketReceive
  split
  · rfl
  · exact if_pos (by rcases hnone with h | h <;> simp [h])

end KlpPacket

/-! ## Held parts, and visits whose hold expires (R105, R106, R110) -/

section Held
variable {s : State}


/-- The oldest item is the one let go of, when it is ready. -/
theorem evHeldPartRelease_part {p : Part} {rest : List HeldItem} (hheld : s.ing.held = .part p :: rest)
    (hready : (s.noVisit p.index || s.releasedSomewhere (s.visitOf p.index)) = true) :
    evHeldPartRelease s = State.judgePart { s with ing := { s.ing with held := rest } } p := by
  simp [evHeldPartRelease, hheld, hready, State.mapIng]

/-- A piece of a visit that is no more is late. -/
theorem evHeldPartRelease_late {p : Piece} {rest : List HeldItem} (hheld : s.ing.held = .piece p :: rest)
    (hlate : s.noVisit p.index = true) : evHeldPartRelease s =
      State.countIn { s with ing := { s.ing with held := rest } } p.port fun q => { q with late := q.late + 1 } := by
  simp [evHeldPartRelease, hheld, hlate, State.mapIng]

theorem evHeldPartRelease_piece {p : Piece} {rest : List HeldItem} (hheld : s.ing.held = .piece p :: rest)
    (hvisit : s.noVisit p.index = false) (hreleased : (s.chan p.channel).released p.visit = true) :
    evHeldPartRelease s = State.judgePiece { s with ing := { s.ing with held := rest } } p := by
  simp [evHeldPartRelease, hheld, hvisit, hreleased, State.mapIng]

theorem evHeldPartRelease_empty (hheld : s.ing.held = []) : evHeldPartRelease s = s := by
  simp [evHeldPartRelease, hheld]

variable {c k : Nat}

theorem evVisitHoldExpiry_closes (hexists : s.visitExists c k = true) (hreleased : (s.chan c).released k = true)
    (hopen : (s.chan c).closed k = false) (hexpired : s.holdExpired c k = true) : evVisitHoldExpiry c k s = s.closeVisit c k :=
  if_pos (by simp [hexists, hreleased, hopen, hexpired])

theorem evVisitHoldExpiry_waits (hheld : s.holdExpired c k = false) : evVisitHoldExpiry c k s = s :=
  if_neg (by simp [hheld])

end Held

/-! ## Multicast (R91) -/

section Mcast
variable {s : State} {p : Fin 80}

theorem evMcastQueryResponse_empty (hnone : (s.inPort p.val).queries = []) : evMcastQueryResponse p s = s := by
  simp only [evMcastQueryResponse, hnone]

theorem evMcastQueryResponse_answers {q : McastQuery} {rest : List McastQuery} (hnext : (s.inPort p.val).queries = q :: rest) :
    evMcastQueryResponse p s =
      ((((s.inPort p.val).groups.filter fun m =>
            decide (m.family = q.family) && q.group.all fun g => decide (m.group = g)).filterMap
          fun m => (answerRecord q m).map fun r => (m, r)).foldl
        (fun w e => w.sendOwn p.val (w.reportFrame p.val e.1 e.2))
        (s.setInPort p.val { s.inPort p.val with queries := rest })) := by
  simp only [evMcastQueryResponse, hnext]
  cases q.group <;> rfl

end Mcast

/-! ## The events -/

section Events
variable {s u : State} {p : Fin 80}

theorem happens_ethFrameReceive {f : Frame} (hwf : f.wf = true) (h : evEthFrameReceive p f s = u) :
    Happens (.ethFrameReceive p f) s u := h ▸ happens_of_guarded rfl hwf

theorem happens_klpPacketReceive {b : List Byte} (hlen : b.length ≤ 9216) (h : evKlpPacketReceive p b s = u) :
    Happens (.klpPacketReceive p b) s u := h ▸ happens_of_guarded rfl (decide_eq_true hlen)

theorem happens_heldPartRelease (h : evHeldPartRelease s = u) : Happens .heldPartRelease s u := h ▸ happens_of_guarded rfl rfl

theorem happens_visitHoldExpiry {c k : Nat} (h : evVisitHoldExpiry c k s = u) : Happens (.visitHoldExpiry c k) s u :=
  h ▸ happens_of_guarded rfl rfl

theorem happens_mcastQueryResponse (h : evMcastQueryResponse p s = u) : Happens (.mcastQueryResponse p) s u :=
  h ▸ happens_of_guarded rfl rfl

end Events

/-- Settles O45: what arrives is judged by the state of its port first, then by its kind; what a release lets go is the oldest
item held. -/
theorem ingestEventsAct : Obligations.IngestEventsAct := by
  unfold Obligations.IngestEventsAct
  refine ⟨?notOurs, ?pause, ?ingest, ?arp, ?query, ?ethDown, ?klpTaken, ?klpShort, ?klpDown, ?part, ?late, ?piece, ?noneHeld,
    ?closes, ?stays, ?repeats, ?noQuery, ?answers⟩
  case notOurs =>
    intro s p f c hwf hcfg heth hup hkind hother
    exact happens_ethFrameReceive hwf (evEthFrameReceive_notOurs hcfg heth hup hkind hother)
  case pause =>
    intro s p f c hwf hcfg heth hup hpause
    exact happens_ethFrameReceive hwf (evEthFrameReceive_pause hcfg heth hup hpause)
  case ingest =>
    intro s p f c hwf hcfg heth hup hrole hmac hdst hvlan hptp harp hneighbour hquery hheeded hip
    have hkind : f.etherType ≠ 0x8808 := by omega
    exact happens_ethFrameReceive hwf
      (evEthFrameReceive_ingest hcfg heth hup hkind hvlan hptp harp hneighbour hrole hmac hdst hquery hheeded hip)
  case arp =>
    intro s p f r c hwf hcfg heth hup harp hmac hdst hvlan hreply
    have hkind : f.etherType ≠ 0x8808 := by omega
    exact happens_ethFrameReceive hwf (evEthFrameReceive_arp hcfg heth hup hkind hvlan harp hmac hdst hreply)
  case query =>
    intro s p f c q hwf hcfg heth hup hkind hrole hmulticast hvlan hptp harp hneighbour hquery
    exact happens_ethFrameReceive hwf
      (evEthFrameReceive_query hcfg heth hup hkind hvlan hptp harp hneighbour hrole hmulticast hquery)
  case ethDown =>
    intro s p f hwf hdown
    exact happens_ethFrameReceive hwf (evEthFrameReceive_down hdown)
  case klpTaken =>
    intro s p b c hmin hmax hcfg hklp hup
    exact happens_klpPacketReceive hmax (evKlpPacketReceive_taken hcfg hklp hup (by simp [klpLength, hmin, hmax]))
  case klpShort =>
    intro s p b hshort
    exact happens_klpPacketReceive (by omega) (evKlpPacketReceive_none (.inr (by simp [klpLength]; omega)))
  case klpDown =>
    intro s p b hmax hdown
    exact happens_klpPacketReceive hmax (evKlpPacketReceive_none (.inl hdown))
  case part =>
    intro s p rest hheld hready
    exact happens_heldPartRelease (evHeldPartRelease_part hheld hready)
  case late =>
    intro s p rest hheld hlate
    exact happens_heldPartRelease (evHeldPartRelease_late hheld hlate)
  case piece =>
    intro s p rest hheld hvisit hreleased
    exact happens_heldPartRelease (evHeldPartRelease_piece hheld hvisit hreleased)
  case noneHeld => exact fun s hheld => happens_heldPartRelease (evHeldPartRelease_empty hheld)
  case closes =>
    intro s c k hexists hreleased hopen hexpired
    exact happens_visitHoldExpiry (evVisitHoldExpiry_closes hexists hreleased hopen hexpired)
  case stays => exact fun s c k hheld => happens_visitHoldExpiry (evVisitHoldExpiry_waits hheld)
  case repeats =>
    rintro s _ p rfl
    exact happens_of_guarded (i := .mcastReportRepeat p) rfl rfl
  case noQuery => exact fun s p hnone => happens_mcastQueryResponse (evMcastQueryResponse_empty hnone)
  case answers => exact fun s p q rest hnext => happens_mcastQueryResponse (evMcastQueryResponse_answers hnext)

end Sys2Proof.Machine
end

section
/-! What reading and writing memory leaves of Mica's banks (R129, R137, R424), and the events with which Mica takes up, loads,
starts, sheds and drops visits (R41, R128 to R135). The claim of O46 is put together from these. -/

namespace Sys2Proof.Machine

/-! ## What memory leaves of Mica

Bytes that fall in a channel's area change what `stg.chans` holds of it; the banks and the load in progress are no memory. -/

/-- Mica, but for the areas of the channels. -/
def State.banks (s : State) : StagingState := { s.stg with chans := [] }

section Bytes
variable (s : State)

theorem banks_ite {c : Prop} [Decidable c] {t u : State} {x : StagingState} (ht : t.banks = x) (hu : u.banks = x) :
    (if c then t else u).banks = x := (apply_ite State.banks c t u).trans (by rw [ht, hu, ite_self])

@[simp] theorem banks_mapMem (f : MemState → MemState) : (s.mapMem f).banks = s.banks := rfl
@[simp] theorem banks_draw : s.draw.banks = s.banks := rfl
@[simp] theorem banks_grant (req : Nat) : (s.grant req).banks = s.banks := rfl
@[simp] theorem banks_errResp : s.errResp.banks = s.banks := rfl
@[simp] theorem banks_decErr (req addr : Nat) (write : Bool) : (s.decErr req addr write).banks = s.banks := rfl
@[simp] theorem banks_bumpHc (h : Nat) (f : HbmCtl → HbmCtl) : (s.bumpHc h f).banks = s.banks := rfl
@[simp] theorem banks_countWrite (unit : Nat) : (s.countWrite unit).banks = s.banks := rfl
@[simp] theorem banks_unitWritten (o n : Nat) : (s.unitWritten o n).banks = s.banks := rfl
@[simp] theorem banks_setEvents (er : Router) (dev : DevState) : { s with er := er, dev := dev }.banks = s.banks := rfl
@[simp] theorem banks_engineRecords (req : Nat) : (s.engineRecords req).banks = s.banks := rfl
@[simp] theorem banks_countMissed (h : Fin 2) (wire mail : Bool) : (s.countMissed h wire mail).banks = s.banks := by
  unfold State.countMissed State.setCore
  split <;> rfl

@[simp] theorem banks_setQueue (q : Nat) (v : Queue) : (s.setQueue q v).banks = s.banks := rfl
@[simp] theorem banks_emit (o : Output) : (s.emit o).banks = s.banks := rfl
@[simp] theorem banks_setChan (c : Nat) (v : Chan) : (s.setChan c v).banks = s.banks := rfl
@[simp] theorem banks_setBeamSet (n : Nat) (v : BeamSet) : (s.setBeamSet n v).banks = s.banks := rfl

@[simp] theorem banks_msix (v : Nat) : (s.msix v).banks = s.banks := by
  unfold State.msix
  split <;> rfl

@[simp] theorem banks_touchResiduals (off len : Nat) : (s.touchResiduals off len).banks = s.banks := by
  unfold State.touchResiduals
  dsimp only
  split <;> rfl

/-- What stores a byte in an area keeps the banks, where it stores one. -/
structure AreaWriterBanks (store : State → Nat → Nat → Byte → Option State) : Prop where
  keeps (s : State) (c x : Nat) (v : Byte) : ∀ t ∈ store s c x v, t.banks = s.banks

/-- `areaStore` is taken apart as in `areaWriterKeeps_areaStore`, and for its reason. -/
theorem areaWriterBanks_areaStore : AreaWriterBanks State.areaStore := by
  delta State.areaStore
  constructor
  intro s c x v t ht
  replace ht := Option.mem_def.mp ht
  with_reducible conv at ht => lhs; whnf
  generalize s.layout.areaByte x = place at ht
  cases place with
  | plain => cases ht
  | corner _ | header _ => exact Option.some.inj ht ▸ rfl
  | acc _ _ | log _ _ _ =>
    obtain ⟨_, -, rfl⟩ := Option.map_eq_some_iff.mp ht
    exact (apply_ite State.banks _ _ _).trans (ite_self s.banks)
  | input _ _ | record _ _ =>
    dsimp only at ht
    repeat' split at ht
    all_goals cases ht
    all_goals rfl

theorem banks_hbmStoreGo (bs : List Byte) (o : Nat) : (State.hbmStore.go s o bs).banks = s.banks := by
  induction bs generalizing s o with
  | nil => rfl
  | cons b t ih =>
    unfold State.hbmStore.go
    dsimp only
    split
    · split <;> exact (ih _ _).trans rfl
    · refine (ih _ _).trans ?_
      split
      · next c x _ =>
        cases harea : s.areaStore c x b with
        | none => rfl
        | some u => exact areaWriterBanks_areaStore.keeps s c x b u harea
      · rfl

@[simp] theorem banks_hbmStore (off : Nat) (bs : List Byte) : (s.hbmStore off bs).banks = s.banks :=
  (banks_hbmStoreGo _ bs off).trans (banks_touchResiduals s off bs.length)

@[simp] theorem banks_hbmWrite (off : Nat) (bs : List Byte) : (s.hbmWrite off bs).banks = s.banks :=
  foldl_keeps State.banks (fun u _ => banks_hbmStore (u.unitWritten _ _) _ _) _ s

@[simp] theorem banks_sramStore (off : Nat) (bs : List Byte) : (s.sramStore off bs).banks = s.banks := by
  have hmail (t : State) : (State.sawMail s t).banks = t.banks := by
    unfold State.sawMail
    exact foldl_keeps State.banks (fun u h => banks_ite rfl (banks_countMissed u h false true)) _ t
  unfold State.sramStore
  dsimp only
  split
  · exact hmail _
  · rfl

end Bytes

/-! ## Records of memory errors (R371, R446, R454) -/

section Records
variable (s : State)

theorem banks_putBlind (addr : Nat) (bs : List Byte) : (putBlind s addr bs).1.banks = s.banks := by
  unfold putBlind
  split
  · split <;> simp
  · split <;> simp
  · split <;> simp
  · rfl

theorem banks_putBytesBy (addr : Nat) (bs : List Byte) : (s.putBytesBy putBlind addr bs).1.banks = s.banks := by
  unfold State.putBytesBy
  split
  · rfl
  · refine foldl_keeps (fun x : State × Bool => x.1.banks) (fun x c => ?_) _ (s, true)
    exact banks_putBlind (x.1.grant 4) c.1 (slice bs (c.1 - addr) c.2)

theorem banks_writeBackBy (qn idx : Nat) : (s.writeBackBy putBlind qn idx).banks = s.banks := by
  unfold State.writeBackBy
  dsimp only
  repeat' split
  all_goals simp [banks_putBytesBy]

theorem banks_pushBy (qn kind : Nat) (bs : List Byte) : (s.pushBy putBlind qn kind bs).1.banks = s.banks := by
  unfold State.pushBy
  dsimp only
  repeat' split
  all_goals simp [banks_putBytesBy, banks_writeBackBy]

theorem banks_pushOrDropBy (qn kind : Nat) (bs : List Byte) : (s.pushOrDropBy putBlind qn kind bs).1.banks = s.banks := by
  have hpush := banks_pushBy s qn kind bs
  unfold State.pushOrDropBy
  split
  all_goals next hpushed => rw [hpushed] at hpush; exact hpush

theorem banks_of_pushOrDropBy {s u : State} {qn kind : Nat} {bs : List Byte} {ok : Bool}
    (h : s.pushOrDropBy putBlind qn kind bs = (u, ok)) : u.banks = s.banks := by
  have hpush := banks_pushOrDropBy s qn kind bs
  rwa [h] at hpush

theorem banks_raiseEventBy (p index arg : Nat) (time : Option Instant) (late : Bool) :
    (s.raiseEventBy putBlind p index arg time late).banks = s.banks := by
  unfold State.raiseEventBy
  dsimp only
  split
  · rfl
  · split
    · next hpush => exact (banks_of_pushOrDropBy hpush).trans (banks_setEvents s _ _)
    · next hpush =>
      have hpushed := (banks_of_pushOrDropBy hpush).trans (banks_setEvents s _ _)
      exact banks_ite ((banks_setEvents _ _ _).trans hpushed) hpushed

@[simp] theorem banks_logMemErr (kind stack pc req words : Nat) (write : Bool) (addr : Nat) :
    (s.logMemErr kind stack pc req words write addr).banks = s.banks := by
  unfold State.logMemErr
  dsimp only
  repeat' split
  all_goals simp [banks_raiseEventBy, banks_pushOrDropBy]

@[simp] theorem banks_addCandidate (off : Nat) : (s.addCandidate off).banks = s.banks := by
  unfold State.addCandidate
  dsimp only
  split <;> rfl

@[simp] theorem banks_meetParity (req unit : Nat) (write : Bool) : (s.meetParity req unit write).1.banks = s.banks := by
  unfold State.meetParity
  dsimp only
  repeat' split
  all_goals simp

@[simp] theorem banks_readHbmUnit (req unit : Nat) (write : Bool) : (s.readHbmUnit req unit write).1.banks = s.banks := by
  unfold State.readHbmUnit
  dsimp only
  repeat' split
  all_goals simp

/-! ## What a load reads (R137) -/

@[simp] theorem banks_readPiece (req : Nat) (p : Nat × Nat) : (s.enginePiece req p false).banks = s.banks := by
  unfold State.enginePiece
  exact (banks_mapMem _ _).trans (foldl_keeps (fun x : State × Nat => x.1.banks)
    (fun x c => banks_readHbmUnit x.1 req (c.1 / 32 * 32) false) _ (s.grant req, 0))

@[simp] theorem banks_readRange (req off len : Nat) : (s.engineRange req off len false).banks = s.banks :=
  foldl_keeps State.banks (fun u p => banks_readPiece u req p) _ s

@[simp] theorem banks_loadTraffic (c k : Nat) (delays : List (Option Nat)) : (s.loadTraffic c k delays).banks = s.banks := by
  unfold State.loadTraffic
  exact (banks_engineRecords _ 9).trans (foldl_keeps State.banks (fun u e => by simp) _ s)

@[simp] theorem banks_loadBeams (c k : Nat) : (s.loadBeams c k).1.banks = s.banks := by
  unfold State.loadBeams
  refine foldl_keeps (fun x : State × List BeamLoad => x.1.banks) (fun x n => ?_) _ (s, [])
  dsimp only
  split <;> rfl

@[simp] theorem banks_leave (c k : Nat) : (s.leave c k).banks = s.banks := rfl

end Records

@[simp] theorem bank_setBank (s : State) (b : Nat) (v : Bank) : (s.setBank b v).bank b = v := by
  unfold State.bank State.setBank State.mapStg
  by_cases hb : b = 0 <;> simp [hb]

/-! ## The stop of a schedule (R168) -/

section Stop
variable {s : State} {c k : Nat}

theorem settleSched_running (hrunning : s.tile.sched = .running) : s.settleSched = s :=
  if_neg (by simp [hrunning])

theorem stopsAt_iff : s.stopsAt k = true ↔ s.tile.sched = .running ∧ ∃ x ∈ s.tile.stop, x ≤ s.firstIndex k := by
  unfold State.stopsAt
  cases s.tile.stop <;> simp

/-- A schedule that runs and is to run on has nothing to stop. -/
theorem tryStop_runsOn (hrunning : s.tile.sched = .running) (hstop : s.tile.stop = none) : s.tryStop = s := by
  have hruns (k : Nat) : s.stopsAt k = false := by simp [State.stopsAt, hstop]
  unfold State.tryStop
  split
  · rw [hruns, Bool.and_false, if_neg Bool.false_ne_true, settleSched_running hrunning]
  · exact settleSched_running hrunning

/-! ## Taking up a visit (R42, R128, R129, R131) -/

/-- The rounds that are due start before a visit is taken up. -/
theorem readyLoad_begins (hrunning : s.tile.sched = .running) (hstop : s.tile.stop = none) (hnext : s.candidate = some (c, k))
    (hfree : s.freeBank.isSome = true) (hidle : s.stg.loading = none) (hexists : s.visitExists c k = true) :
    s.readyLoad = s.beginRounds (k + s.layout.channels + 1) := by
  simp [State.readyLoad, tryStop_runsOn hrunning hstop, hnext, hfree, hidle, hexists]

theorem beginRounds_begins (hnext : s.candidate = some (c, k)) (hdue : s.load.toBegin ≤ k) (fuel : Nat) :
    s.beginRounds (fuel + 1) = (s.startRound s.load.toBegin).beginRounds fuel := by
  rw [State.beginRounds, hnext]
  exact if_pos hdue

theorem beginRounds_begun (hnext : s.candidate = some (c, k)) (hbegun : k < s.load.toBegin) (fuel : Nat) :
    s.beginRounds fuel = s := by
  cases fuel with
  | zero => rfl
  | succ n =>
    rw [State.beginRounds, hnext]
    exact if_neg (Nat.not_le.mpr hbegun)

/-- While a visit is loaded no round starts for another. -/
theorem readyLoad_loading (hstop : s.tryStop = s) (hloading : s.stg.loading.isSome = true) : s.readyLoad = s := by
  unfold State.readyLoad
  rw [hstop]
  dsimp only
  split
  · exact if_neg (by simp [Option.isSome_iff_ne_none.mp hloading])
  · rfl

theorem evMicaLoadStart_takes {b : Nat} (hready : s.readyLoad = s) (hnext : s.candidate = some (c, k))
    (hfree : s.freeBank = some b) (hidle : s.stg.loading = none) (hexists : s.visitExists c k = true)
    (hon : s.stagingOn b = true) :
    (evMicaLoadStart s).stg.loads = s.stg.loads + 1 ∧ (evMicaLoadStart s).stg.bank0 = s.stg.bank0 ∧
      (evMicaLoadStart s).stg.bank1 = s.stg.bank1 ∧ ∃ l, (evMicaLoadStart s).stg.loading = some l ∧ l.bank = b ∧
        l.channel = c ∧ l.visit = k ∧ l.since = s.ns := by
  have hgo : ¬ (s.stg.loading.isSome || !s.visitExists c k || !s.stagingOn b : Bool) = true := by simp [hidle, hexists, hon]
  simp only [evMicaLoadStart, hready, hnext, hfree, if_neg hgo]
  exact ⟨rfl, rfl, rfl, _, rfl, rfl, rfl, rfl, rfl⟩

/-- Mica waits while it loads a visit, and for a domain that is not ON. -/
theorem evMicaLoadStart_waits (hready : s.readyLoad = s)
    (hwaits : s.stg.loading.isSome = true ∨ ∃ b, s.freeBank = some b ∧ s.stagingOn b = false) : evMicaLoadStart s = s := by
  unfold evMicaLoadStart
  rw [hready]
  dsimp only
  split
  · next b _ hfree =>
    refine if_pos ?_
    rcases hwaits with hloading | ⟨b', hfree', hoff⟩
    · simp [hloading]
    · cases hfree.symm.trans hfree'
      simp [hoff]
  · rfl

end Stop

/-! ## A completed load (R128, R137) -/

theorem evMicaLoadComplete_idle {s : State} (hidle : s.stg.loading = none) : evMicaLoadComplete s = s := by
  simp only [evMicaLoadComplete, hidle]

/-- Mica when a load of bank `b` is over, which left `v` there and took `took` ns; `delays` are the delays of its inputs. -/
def StagingState.loadDone (g : StagingState) (b : Nat) (v : Bank) (took : Nat) (delays : KV Int) : StagingState :=
  { g with bank0 := if b = 0 then v else g.bank0, bank1 := if b = 0 then g.bank1 else v, loading := none, loadLast := took,
           loadMax := max g.loadMax took, lastDelay := delays }

theorem banks_loadDone (s : State) (b : Nat) (v : Bank) (took : Nat) (record : StagingState → KV Int) :
    ((s.setBank b v).mapStg fun g => { g with loading := none, loadLast := took, loadMax := max g.loadMax took,
                                              lastDelay := record g }).banks =
      s.banks.loadDone b v took (record (s.setBank b v).stg) := by
  unfold State.setBank State.mapStg
  by_cases hb : b = 0
  · simp only [if_pos hb, State.banks, StagingState.loadDone]
  · simp only [if_neg hb, State.banks, StagingState.loadDone]

/-- The bank holds what the load staged, and Mica is free; what the load reads of memory changes neither. -/
theorem banks_evMicaLoadComplete {s : State} {l : Loading} (hloading : s.stg.loading = some l) :
    ∃ beams delays, (evMicaLoadComplete s).banks =
      s.banks.loadDone l.bank { s.stage l with beams := beams } (s.ns - l.since) delays := by
  have hbeams := banks_loadBeams s l.channel l.visit
  simp only [evMicaLoadComplete, hloading, banks_leave, banks_loadTraffic, banks_setChan]
  rw [banks_loadDone, hbeams]
  exact ⟨_, _, rfl⟩

/-- The bank of a completed load. -/
theorem bank_loadDone {t : State} {g : StagingState} {b took : Nat} {v : Bank} {delays : KV Int}
    (h : t.banks = g.loadDone b v took delays) : t.bank b = v := by
  have h0 := congrArg StagingState.bank0 h
  have h1 := congrArg StagingState.bank1 h
  have hbank := congrArg₂ (fun x y => if b = 0 then x else y) h0 h1
  refine hbank.trans ?_
  by_cases hb : b = 0 <;> simp [StagingState.loadDone, hb]

theorem evMicaLoadComplete_fills {s : State} {l : Loading} (hloading : s.stg.loading = some l) :
    (evMicaLoadComplete s).stg.loading = none ∧ (evMicaLoadComplete s).stg.loadLast = s.ns - l.since ∧
      (evMicaLoadComplete s).stg.loadMax = max s.stg.loadMax (s.ns - l.since) ∧
      ∃ beams, (evMicaLoadComplete s).bank l.bank = { s.stage l with beams := beams } := by
  obtain ⟨beams, delays, hbanks⟩ := banks_evMicaLoadComplete hloading
  have hidle := congrArg StagingState.loading hbanks
  have hlast := congrArg StagingState.loadLast hbanks
  have hmax := congrArg StagingState.loadMax hbanks
  exact ⟨hidle, hlast, hmax, beams, bank_loadDone hbanks⟩

/-! ## Visits that the planner sheds (R132) -/

section Shed
variable {s : State} {c k : Nat}

theorem evShedVisitSkip_sheds (hexists : s.visitExists c k = true) (heligible : (s.chan c).eligible k = true)
    (hplanned : (s.load.round k).plan.contains c = true) (hother : ∀ l ∈ s.stg.loading, l.channel ≠ c ∨ l.visit ≠ k) :
    evShedVisitSkip c k s = if s.tile.sched = .running ∧ ∃ x ∈ s.tile.stop, x ≤ s.firstIndex k then s.stopSched
      else (((s.leave c k).countShed c k).loseVisit c k 2).tryStop := by
  unfold evShedVisitSkip
  dsimp only
  refine (if_pos ?_).trans (by simp only [stopsAt_iff])
  rw [hexists, heligible, hplanned]
  cases hloading : s.stg.loading with
  | none => rfl
  | some l => rcases hother l hloading with h | h <;> simp [h]

theorem evShedVisitSkip_loading {l : Loading} (hloading : s.stg.loading = some l) (hc : l.channel = c) (hk : l.visit = k) :
    evShedVisitSkip c k s = s := by
  unfold evShedVisitSkip
  rw [hloading]
  exact if_neg (by simp [hc, hk])

theorem evShedVisitSkip_unplanned (hnot : (s.load.round k).plan.contains c = false) : evShedVisitSkip c k s = s := by
  unfold evShedVisitSkip
  exact if_neg (by simp only [hnot, Bool.and_false, Bool.false_and, Bool.false_eq_true, not_false_eq_true])

end Shed

/-! ## Visits that start (R130, R135) -/

/-- The overload policy notes a visit that starts, and nothing else changes. -/
theorem roundStart_load (s : State) (c k : Nat) : ∃ l, s.roundStart c k = { s with load := l } := by
  have hshow (u : State) : ∃ l, u.showRound = { u with load := l } := by
    unfold State.showRound
    split
    · exact ⟨_, rfl⟩
    · exact ⟨u.load, rfl⟩
  have hknown (u : State) : ∃ l, u.slackKnown c k = { u with load := l } := by
    unfold State.slackKnown
    split
    · exact ⟨u.load, rfl⟩
    · obtain ⟨l, hl⟩ := hshow (u.mapRound k fun r => { r with
        awaiting := r.awaiting.filter (·.1 ≠ c),
        slackMin := some (match r.slackMin with | some x => min x (u.ns - _) | none => u.ns - _) })
      exact ⟨l, hl⟩
  unfold State.roundStart
  dsimp only
  split
  · exact ⟨_, rfl⟩
  · split
    · obtain ⟨l, hl⟩ := hknown (s.mapRound k fun r => { r with
        started := r.started + 1, running := r.running + 1, awaiting := r.awaiting ++ [(c, s.ns)] })
      exact ⟨l, hl⟩
    · exact ⟨_, rfl⟩

/-- What a bank gives to the tiles when its visit starts (R130). -/
def Bank.work (v : Bank) (since : Nat) : TileWork :=
  { channel := v.visit.1, visit := v.visit.2, data := v.data, valid := v.valid, delays := v.delays, beams := v.beams,
    tiles := [], since := since }

section Start
variable {s : State} {b c k : Nat}

theorem evVisitStart_starts (hidle : s.stg.working = none) (hbank : s.nextBank = some b) (hvisit : (s.bank b).visit = (c, k))
    (htime : s.deadlinePassed c k true = false) (hon : s.liveSlots.all s.slotOn = true) :
    evVisitStart s = ((((s.setBank b { s.bank b with inUse := true }).mapStg fun g =>
      { g with working := some (b, (s.bank b).work s.ns), loaded := g.loaded + 1 }).mapTile fun t =>
        { t with slots := t.slots.map fun x => { x with done := false } }).roundStart c k) := by
  have hgo : ¬ (s.deadlinePassed c k true || !s.liveSlots.all s.slotOn : Bool) = true := by simp [htime, hon]
  simp only [evVisitStart, hidle, hbank, hvisit, if_neg hgo, Bank.work]

/-- The bank is worked on from now. -/
theorem evVisitStart_works (hidle : s.stg.working = none) (hbank : s.nextBank = some b) (hvisit : (s.bank b).visit = (c, k))
    (htime : s.deadlinePassed c k true = false) (hon : s.liveSlots.all s.slotOn = true) :
    (evVisitStart s).stg.loaded = s.stg.loaded + 1 ∧ (evVisitStart s).bank b = { s.bank b with inUse := true } ∧
      (evVisitStart s).stg.working = some (b, (s.bank b).work s.ns) := by
  rw [evVisitStart_starts hidle hbank hvisit htime hon]
  generalize hu : ((s.setBank b { s.bank b with inUse := true }).mapStg fun g =>
    { g with working := some (b, (s.bank b).work s.ns), loaded := g.loaded + 1 }) = u
  have hbanked : u.bank b = { s.bank b with inUse := true } := hu ▸ bank_setBank s b _
  obtain ⟨l, hround⟩ := roundStart_load (u.mapTile fun t =>
    { t with slots := t.slots.map fun x => { x with done := false } }) c k
  rw [hround]
  refine ⟨?_, hbanked, ?_⟩
  · rw [← hu]
    unfold State.setBank State.mapStg
    split <;> rfl
  · rw [← hu]
    rfl

/-- The tiles take up one visit at a time, from a full bank, whose deadline has not passed, with their slots ON. -/
theorem evVisitStart_waits (hwaits : s.stg.working.isSome = true ∨ s.nextBank = none ∨ s.liveSlots.all s.slotOn = false ∨
      ∃ b, s.nextBank = some b ∧ s.deadlinePassed (s.bank b).visit.1 (s.bank b).visit.2 true = true) :
    evVisitStart s = s := by
  unfold evVisitStart
  split
  · next b hidle hbank =>
    rcases hwaits with hworks | hnone | hoff | ⟨b', hbank', hpast⟩
    · simp [hidle] at hworks
    · simp [hbank] at hnone
    · exact if_pos (by simp [hoff])
    · cases hbank.symm.trans hbank'
      exact if_pos (by simp [hpast])
  · rfl

end Start

/-! ## Visits that are dropped at their deadline (R133, R134) -/

section Deadline
variable {s : State} {c k : Nat} (hstarted : s.dropState c k ≠ .started) (hexists : s.visitExists c k = true)
  (hpassed : s.deadlinePassed c k false = true)
include hstarted hexists hpassed

theorem evVisitDeadline_due :
    evVisitDeadline c k s = if s.stopsAt k then s.stopSched else s.dropVisit c k (s.dropState c k) := by
  unfold evVisitDeadline
  split
  · next h => exact absurd h hstarted
  · exact if_pos (by rw [hexists, hpassed]; rfl)

end Deadline

theorem evVisitDeadline_waits {s : State} {c k : Nat}
    (hwaits : s.dropState c k = .started ∨ s.deadlinePassed c k false = false) : evVisitDeadline c k s = s := by
  unfold evVisitDeadline
  split
  · rfl
  · next h =>
    have hearly := hwaits.resolve_left h
    exact if_neg (by simp [hearly])

/-! ## The events -/

section Events
variable {s u : State}

theorem happens_micaLoadStart (h : evMicaLoadStart s = u) : Happens .micaLoadStart s u := h ▸ happens_of_guarded rfl rfl

theorem happens_micaLoadComplete (h : evMicaLoadComplete s = u) : Happens .micaLoadComplete s u :=
  h ▸ happens_of_guarded rfl rfl

theorem happens_shedVisitSkip {c k : Nat} (h : evShedVisitSkip c k s = u) : Happens (.shedVisitSkip c k) s u :=
  h ▸ happens_of_guarded rfl rfl

theorem happens_visitStart (h : evVisitStart s = u) : Happens .visitStart s u := h ▸ happens_of_guarded rfl rfl

theorem happens_visitDeadline {c k : Nat} (h : evVisitDeadline c k s = u) : Happens (.visitDeadline c k) s u :=
  h ▸ happens_of_guarded rfl rfl

end Events

/-- Settles O46: each event looks whether it is due and does one thing; what a load reads of memory leaves the banks alone. -/
theorem micaTakesUpVisits : Obligations.MicaTakesUpVisits := by
  unfold Obligations.MicaTakesUpVisits
  refine ⟨?takes, ?loads, ?fills, ?noLoad, ?sheds, ?shedLoading, ?notShed, ?starts, ?works, ?noBank, ?past, ?drops, ?keeps,
    ?stops, ?begins, ?begun, ?bankOff, ?slotOff⟩
  case takes =>
    intro s c k b hrunning hstop hnext hfree hidle hexists hbegun hon
    have hready : s.readyLoad = s :=
      (readyLoad_begins hrunning hstop hnext (by rw [hfree]; rfl) hidle hexists).trans (beginRounds_begun hnext hbegun _)
    exact happensTo_of_event rfl rfl (evMicaLoadStart_takes hready hnext hfree hidle hexists hon)
  case loads =>
    intro s hstop hloading
    exact happens_micaLoadStart (evMicaLoadStart_waits (readyLoad_loading hstop hloading) (.inl hloading))
  case fills =>
    intro s l hloading
    obtain ⟨hidle, hlast, hmax, beams, hbank⟩ := evMicaLoadComplete_fills hloading
    refine happensTo_of_event (ev := evMicaLoadComplete) rfl rfl ⟨hidle, hlast, hmax, ?_⟩
    rw [hbank]
    exact ⟨rfl, rfl, rfl, rfl, rfl, rfl, rfl⟩
  case noLoad => exact fun s hidle => happens_micaLoadComplete (evMicaLoadComplete_idle hidle)
  case sheds =>
    intro s c k hexists heligible hplanned hother
    exact happens_shedVisitSkip (evShedVisitSkip_sheds hexists heligible hplanned hother)
  case shedLoading => exact fun s c k l hloading hc hk => happens_shedVisitSkip (evShedVisitSkip_loading hloading hc hk)
  case notShed => exact fun s c k hnot => happens_shedVisitSkip (evShedVisitSkip_unplanned hnot)
  case starts =>
    intro s b c k hidle hbank hvisit htime hon
    obtain ⟨hloaded, hbanked, hwork⟩ := evVisitStart_works hidle hbank hvisit htime hon
    refine happensTo_of_event (ev := evVisitStart) rfl rfl ⟨hloaded, ?_⟩
    rw [hbanked]
    exact ⟨rfl, rfl, _, hwork, congrArg Prod.fst hvisit, congrArg Prod.snd hvisit, rfl, rfl, rfl, rfl, rfl, rfl⟩
  case works => exact fun s hworks => happens_visitStart (evVisitStart_waits (.inl hworks))
  case noBank => exact fun s hnone => happens_visitStart (evVisitStart_waits (.inr (.inl hnone)))
  case past =>
    intro s b c k hbank hvisit hpast
    exact happens_visitStart (evVisitStart_waits (.inr (.inr (.inr ⟨b, hbank, by rwa [hvisit]⟩))))
  case drops =>
    intro s c k hstarted hexists hpassed hstays
    exact happens_visitDeadline ((evVisitDeadline_due hstarted hexists hpassed).trans (if_neg (by simp [hstays])))
  case keeps => exact fun s c k hwaits => happens_visitDeadline (evVisitDeadline_waits hwaits)
  case stops =>
    intro s c k x hstarted hexists hpassed hrunning hstop hx
    exact happens_visitDeadline ((evVisitDeadline_due hstarted hexists hpassed).trans
      (if_pos (stopsAt_iff.mpr ⟨hrunning, x, hstop, hx⟩)))
  case begins => exact fun s c k hrunning hstop hnext hfree hidle hexists =>
    readyLoad_begins hrunning hstop hnext hfree hidle hexists
  case begun => exact fun s c k fuel hnext hdue => beginRounds_begins hnext hdue fuel
  case bankOff =>
    exact fun s b hready hfree hoff => happens_micaLoadStart (evMicaLoadStart_waits hready (.inr ⟨b, hfree, hoff⟩))
  case slotOff => exact fun s hoff => happens_visitStart (evVisitStart_waits (.inr (.inr (.inl hoff))))

end Sys2Proof.Machine
end

section
/-! How tiles complete a visit, how Basalt takes it out of its inbox, and how a round of one visit for each channel ends (R42,
R44, R130, R151, R157, R173). The claim of O47 is put together from these. -/

namespace Sys2Proof.Machine

/-! ## Tiles (R130, R151, R157) -/

section Tiles
variable {s : State} {i : Nat} {ups : List Upset}

/-- A slot that works for the visit in the tiles completes it once, with its domain ON and Basalt's inbox free. -/
theorem evTileVisitComplete_completes {u v : State} {b tile : Nat} {w : TileWork} (hworking : s.stg.working = some (b, w))
    (htile : (s.slotAt i).tile = some tile) (hnew : (s.slotAt i).done = false) (hinbox : s.stg.inbox = none)
    (hon : s.slotOn i = true)
    (hu : u = ((s.setSlot i { s.slotAt i with
        done := true, visits := (s.slotAt i).visits + b2n (s.slotWorks i w.channel) }).mapTile fun t =>
      { t with tileVisits := t.tileVisits + b2n (s.slotWorks i w.channel) }))
    (hv : v = (if s.blocksOf i = [] then u
      else u.setTileInfo tile ((u.tileInfo tile).afterVisit w s.layout (s.blocksOf i)
        (ups.filter fun x => (s.blocksOf i).contains (upsetBlock x))))) :
    evTileVisitComplete i ups s =
      if (v.liveSlots.all fun j => (v.slotAt j).done) = true
      then (((v.setBank b (v.bank b).emptied).mapStg fun g =>
          { g with working := none, idleAt := s.ns, inbox := some { w with tiles := w.tiles ++ [(i, tile)] } }).roundVisitDone
            w).tryStop
      else v.mapStg fun g => { g with working := some (b, { w with tiles := w.tiles ++ [(i, tile)] }) } := by
  have hgo : ¬ ((s.slotAt i).done || s.stg.inbox.isSome || !s.slotOn i : Bool) = true := by simp [hnew, hinbox, hon]
  subst hv hu
  simp only [evTileVisitComplete, hworking, htile, if_neg hgo]

/-- No slot completes a visit where none is worked on; nor does one that has no tile, is done, or waits. -/
theorem evTileVisitComplete_none (hnone : s.stg.working = none ∨ (s.slotAt i).done = true ∨ (s.slotAt i).tile = none ∨
      s.stg.inbox.isSome = true ∨ s.slotOn i = false) : evTileVisitComplete i ups s = s := by
  unfold evTileVisitComplete
  split
  · rfl
  · next hworking =>
    dsimp only
    split
    · rfl
    · next htile =>
      refine if_pos ?_
      rcases hnone with hidle | hdone | hbare | hfull | hoff
      · cases hworking.symm.trans hidle
      · simp [hdone]
      · cases htile.symm.trans hbare
      · simp [hfull]
      · simp [hoff]

end Tiles

/-! ## Basalt (R173) -/

/-- Basalt takes up no visit while its inbox is empty, nor while a domain that it needs is not ON. -/
theorem evBasaltVisitProcess_waits {s : State} (hwaits : ∀ w ∈ s.stg.inbox, s.basaltOn w = false) :
    evBasaltVisitProcess s = s := by
  unfold evBasaltVisitProcess
  split
  · rfl
  · next w hinbox => exact if_pos (by rw [hwaits w hinbox]; rfl)

/-- Basalt integrates the visit, forms its beams, forgets it, and ends the integration when this was its last. -/
theorem evBasaltVisitProcess_takes {s : State} {w : TileWork} (hinbox : s.stg.inbox = some w) (hon : s.basaltOn w = true) :
    ∃ u v : State, u = (s.mapStg fun g => { g with inbox := none }).catchUp w.channel w.visit ∧
      v = (((u.accumulate w).visitBeams w).forgetVisit w.channel w.visit).skipOthers w.channel ∧
      evBasaltVisitProcess s =
        ((((if v.integEnds w.channel && !(decide (v.pwr.phase = 6) && v.pastStop w.channel (v.integ w.channel).next)
          then v.endInteg w.channel else v).settleLost w.channel).settleDumps).settleSyncs).settleSched := by
  have hgo : ¬ (!s.basaltOn w) = true := by simp [hon]
  refine ⟨_, _, rfl, rfl, ?_⟩
  simp only [evBasaltVisitProcess, hinbox, if_neg hgo]

/-! ## Rounds (R42, R44) -/

section Rounds
variable {s : State} {r : Round}

/-- Slacks that no visit awaits need no resolving. -/
theorem resolveSlacks_known (hrounds : ∀ x ∈ s.load.rounds, x.awaiting = []) : s.resolveSlacks = s := by
  have hnone : s.load.rounds.filter (fun x => decide (x.awaiting ≠ [])) = [] :=
    List.filter_eq_nil_iff.mpr fun x hx => by simp [hrounds x hx]
  unfold State.resolveSlacks
  rw [hnone]
  exact ite_self s

theorem evRoundEnd_noRound (hnone : s.load.rounds = []) : evRoundEnd s = s := by
  have hslack : s.resolveSlacks = s := resolveSlacks_known (by simp [hnone])
  simp [evRoundEnd, hslack, hnone]

variable (hrounds : s.load.rounds = [r]) (hawaiting : r.awaiting = [])
include hrounds hawaiting

theorem resolveSlacks_one : s.resolveSlacks = s := resolveSlacks_known (by simp [hrounds, hawaiting])

/-- A round that has completed and is over is judged. -/
theorem evRoundEnd_judges (hended : r.ended = true) (hover : s.roundOver r = true) : evRoundEnd s = s.judgeRound r := by
  have hcomplete : s.roundComplete r = false := by simp [State.roundComplete, hended]
  simp [evRoundEnd, resolveSlacks_one hrounds hawaiting, hrounds, hcomplete, hover]

omit hawaiting in
/-- The round of one is the one whose record is put back. -/
theorem mapRound_one (f : Round → Round) (hk : (f r).k = r.k) :
    s.mapRound r.k f = s.mapLoad fun l => { l with rounds := [f r] } := by
  have hround : s.load.round r.k = r := by simp [LoadState.round, hrounds]
  simp [State.mapRound, State.mapLoad, hround, hrounds, putRound, hk]

omit hrounds hawaiting in
/-- With no policy to adopt and none acting, the start of a round notes which round it is and changes nothing else. -/
theorem startRound_normal (k : Nat) (hshed : s.load.shed = false) (hpolicy : s.load.nextPolicy = none) :
    s.startRound k = s.mapLoad fun l =>
      { l with toBegin := k + (s.chan 0).stride, ready := false, owed := l.owed.filter (k ≤ ·) } := by
  simp [State.startRound, State.adoptPolicy, State.planRound, State.mapLoad, hshed, hpolicy]

omit hrounds hawaiting in
/-- Whether the next round starts or not, with no policy to adopt and none acting. -/
theorem tryRound_normal (hshed : s.load.shed = false) (hpolicy : s.load.nextPolicy = none) :
    s.tryRound.load.rounds = s.load.rounds ∧ s.tryRound.load.shed = s.load.shed ∧ s.tryRound.load.window = s.load.window := by
  unfold State.tryRound
  split
  · rw [startRound_normal _ hshed hpolicy]
    exact ⟨rfl, rfl, rfl⟩
  · exact ⟨rfl, rfl, rfl⟩

/-- In NORMAL, without a policy of its own accord, a round that completes enters its drops in the window. -/
theorem evRoundEnd_completes (hlive : s.schedLive = true) (hnew : r.ended = false)
    (hall : r.started + r.dropped.length + r.shed.length = s.layout.channels) (hruns : r.running ≠ 0)
    (hshed : s.load.shed = false) (hauto : s.load.policy.auto = false) (hpolicy : s.load.nextPolicy = none) :
    (evRoundEnd s).load.rounds = [{ r with ended := true }] ∧ (evRoundEnd s).load.shed = false ∧
      (evRoundEnd s).load.window = ((r.dropped.length - r.forgiven) :: s.load.window).take 255 := by
  have hcomplete : s.roundComplete r = true := by simp [State.roundComplete, hnew, hall]
  obtain ⟨u, hu, hurounds, hushed, hupolicy, huwindow⟩ : ∃ u : State, s.endRound r = u.tryRound ∧
      u.load.rounds = [{ r with ended := true }] ∧ u.load.shed = false ∧ u.load.nextPolicy = none ∧
      u.load.window = ((r.dropped.length - r.forgiven) :: s.load.window).take 255 := by
    refine ⟨_, rfl, ?_⟩
    simp [mapRound_one hrounds (fun x => { x with ended := true }) rfl, State.mapLoad, hshed, hauto, hpolicy,
      State.showRound, hruns]
  obtain ⟨hrounds', hshed', hwindow'⟩ := tryRound_normal hushed hupolicy
  rw [← hu] at hrounds' hshed' hwindow'
  have hnotOver : (s.endRound r).roundOver { r with ended := true } = false := by simp [State.roundOver, hruns]
  have hev : evRoundEnd s = s.endRound r := by
    simp only [evRoundEnd, resolveSlacks_one hrounds hawaiting, hrounds, List.find?_cons, hcomplete, hlive, if_true,
      hrounds'.trans hurounds]
    exact if_neg (by simp [hnotOver])
  rw [hev]
  exact ⟨hrounds'.trans hurounds, hshed'.trans hushed, hwindow'.trans huwindow⟩

end Rounds

/-! ## The events -/

section Events
variable {s u : State}

theorem happens_tileVisitComplete {i : Nat} {ups : List Upset} (h : evTileVisitComplete i ups s = u) :
    Happens (.tileVisitComplete i ups) s u := h ▸ happens_of_guarded rfl rfl

theorem happens_basaltVisitProcess (h : evBasaltVisitProcess s = u) : Happens .basaltVisitProcess s u :=
  h ▸ happens_of_guarded rfl rfl

theorem happens_roundEnd (h : evRoundEnd s = u) : Happens .roundEnd s u := h ▸ happens_of_guarded rfl rfl

end Events

/-- Settles O47: each event looks first whether it is due; a round whose visits still run completes but is not judged. -/
theorem tilesAndBasaltWork : Obligations.TilesAndBasaltWork := by
  unfold Obligations.TilesAndBasaltWork
  refine ⟨?completes, ?idle, ?done, ?waits, ?basalt, ?noInbox, ?roundEnds, ?judged, ?noRound, ?basaltOff⟩
  case completes =>
    intro s u v i b tile w ups hworking htile hnew hinbox hon hu hv
    exact happens_tileVisitComplete (evTileVisitComplete_completes hworking htile hnew hinbox hon hu hv)
  case idle => exact fun s i u hidle => happens_tileVisitComplete (evTileVisitComplete_none (.inl hidle))
  case done => exact fun s i u hdone => happens_tileVisitComplete (evTileVisitComplete_none (.inr (.inl hdone)))
  case waits => exact fun s i u hwaits => happens_tileVisitComplete (evTileVisitComplete_none (.inr (.inr hwaits)))
  case basalt => exact fun s w hinbox hon => happensTo_of_event rfl rfl (evBasaltVisitProcess_takes hinbox hon)
  case noInbox =>
    intro s hnone
    exact happens_basaltVisitProcess (evBasaltVisitProcess_waits (by simp [hnone]))
  case roundEnds =>
    intro s r hrounds hlive hnew hall hruns hawaiting hshed hauto hpolicy
    exact happensTo_of_event (ev := evRoundEnd) rfl rfl
      (evRoundEnd_completes hrounds hawaiting hlive hnew hall hruns hshed hauto hpolicy)
  case judged =>
    intro s r hrounds _ hended hawaiting hover
    exact happens_roundEnd (evRoundEnd_judges hrounds hawaiting hended hover)
  case noRound => exact fun s hnone => happens_roundEnd (evRoundEnd_noRound hnone)
  case basaltOff =>
    intro s w hinbox hoff
    refine happens_basaltVisitProcess (evBasaltVisitProcess_waits fun x hx => ?_)
    cases hinbox.symm.trans hx
    exact hoff

end Sys2Proof.Machine
end

section
/-! How a dump leaves (its pass, its weights, its DUMP_END), how partial frames are taken in and combined, and how frames leave
their ports and queues (R46, R187, R198, R215 to R218, R339, R455). The claim of O48 is put together from these. -/

namespace Sys2Proof.Machine

/-! ## Dumps (R46, R216, R218) -/

section Dumps
variable {s : State} {c : Nat} {j : DumpJob}

theorem evDumpPass_ends (hchannel : c < s.layout.channels) (hends : s.integEnds c = true) (hphase : s.pwr.phase ≠ 6) :
    evDumpPass c s = (s.endInteg c).settleLost c := by
  simp [evDumpPass, hchannel, hends, hphase]

theorem evDumpPass_none (hgoes : s.integEnds c = false) : evDumpPass c s = s := if_neg (by simp [hgoes])

/-- Of two tests, the second of which the first element that passes the first one passes too. -/
theorem find?_and_of_find? {α : Type} {p q : α → Bool} {l : List α} {x : α} (hfirst : l.find? p = some x) (hx : q x = true) :
    (l.find? fun y => p y && q y) = some x := by
  obtain ⟨hp, before, after, rfl, hbefore⟩ := List.find?_eq_some_iff_append.mp hfirst
  refine List.find?_eq_some_iff_append.mpr ⟨by rw [hp, hx]; rfl, before, after, rfl, fun y hy => ?_⟩
  have hnot := hbefore y hy
  simp only [Bool.not_eq_true'] at hnot
  simp [hnot]

/-- The channel's oldest dump hands over its weights once its other frames have left. -/
theorem evDumpWeightFrames_hands (hjob : s.dump.jobs.find? (fun x => decide (x.channel = c)) = some j)
    (hfirst : j.first s.dump.jobs = true) (hframes : j.frames = []) (hleft : j.inFlight = 0) (hnew : j.weightsDone = false) :
    evDumpWeightFrames c s =
      (s.mapJob j.channel j.seq fun x => { x with weightsDone := true }).handAll j (j.weightBytes.map fun f => (f, 0)) := by
  have hfound := find?_and_of_find? (q := fun x => x.first s.dump.jobs && x.frames = [] && x.inFlight = 0 && !x.weightsDone)
    hjob (by simp [hfirst, hframes, hleft, hnew])
  simp only [← Bool.and_assoc] at hfound
  simp only [evDumpWeightFrames, hfound]

theorem evDumpWeightFrames_noJob (hnone : s.dump.jobs = []) : evDumpWeightFrames c s = s := by
  simp [evDumpWeightFrames, hnone]

theorem evDumpDone_noJob (hnone : s.dump.jobs = []) : evDumpDone c s = s := by
  simp [evDumpDone, hnone]

variable (hjobs : s.dump.jobs = [j])
include hjobs

/-- A dump that an event asked for waits for its time. -/
theorem evDumpDone_early (hearly : s.ns < j.due) : evDumpDone c s = s := by
  simp [evDumpDone, hjobs, Nat.not_le.mpr hearly]

/-- The DUMP_END leaves by its port, and the dump is over. -/
theorem evDumpDone_sends (hchannel : j.channel = c) (hfirst : j.first [j] = true) (hweights : j.weightsDone = true)
    (hdue : j.due ≤ s.ns) (hleft : j.inFlight = 0) (hport : j.dst.kind = 1) (hup : s.portTransmits j.dst.port = true) :
    ∃ u : State, u = (s.setPort j.dst.port { s.portAt j.dst.port with txPackets := (s.portAt j.dst.port).txPackets + 1 }).emit
        (.frame j.dst.port (j.dst.frame (j.endFrame j.lost))) ∧
      evDumpDone c s = ((u.mapDump fun d => { d with
        jobs := [], kept := kvSet [] d.kept c
          ((kvGet [] d.kept c).map fun r => if r.seq = j.seq then { r with complete := true } else r) }).raiseEvent 181
          j.integStart (c * 65536 + j.seq % 65536)).pumpJobs := by
  subst hchannel
  refine ⟨_, rfl, ?_⟩
  have hfound : (s.dump.jobs.find? fun x => decide (x.channel = j.channel) && x.first s.dump.jobs && x.weightsDone &&
      decide (x.inFlight = 0) && decide (x.due ≤ s.ns)) = some j := by
    simp [hjobs, hfirst, hweights, hleft, hdue]
  have hgone : s.dump.jobs.filter (fun x => !(decide (x.channel = j.channel) && decide (x.seq = j.seq))) = [] := by
    simp [hjobs]
  simp only [evDumpDone, hfound, if_pos hport, hup, if_true]
  rw [show ((s.setPort _ _).emit _).dump = s.dump from rfl, hgone]
  rfl

end Dumps

/-! ## Combinations (R187, R339) -/

section Partials
variable {s : State} {p : Fin 80} {f : Frame}

theorem evPartialFrameReceive_partial {b : List Byte} (hpayload : s.partialPayload p.val f = some b) :
    evPartialFrameReceive p f s = (s.countPort p.val fun q => { q with rxPackets := q.rxPackets + 1 }).partialDatagram b := by
  simp only [evPartialFrameReceive, hpayload]

theorem evPartialFrameReceive_other (hpayload : s.partialPayload p.val f = none) :
    evPartialFrameReceive p f s = evEthFrameReceive p f s := by
  simp only [evPartialFrameReceive, hpayload]

theorem evCombineTimeout_combines {c : Nat} {x : Collect} (hcollects : s.bas.collects = [x]) (hchannel : x.channel = c)
    (hdue : x.startedAt + s.bas.combine.timeoutUs * 1000 ≤ s.ns) : evCombineTimeout c s = s.combine x := by
  simp [evCombineTimeout, hcollects, hchannel, hdue]

theorem evCombineTimeout_waits {c : Nat}
    (hearly : ∀ x ∈ s.bas.collects, x.channel = c → s.ns < x.startedAt + s.bas.combine.timeoutUs * 1000) :
    evCombineTimeout c s = s := by
  have hnone : (s.bas.collects.find? fun x => decide (x.channel = c) &&
      decide (x.startedAt + s.bas.combine.timeoutUs * 1000 ≤ s.ns)) = none :=
    List.find?_eq_none.mpr fun x hx => by simpa using hearly x hx
  simp only [evCombineTimeout, hnone]

end Partials

/-! ## Frames at their ports and queues (R215, R455) -/

section Egress
variable {s : State} {p : Nat}

theorem evEgressFrameSent_empty (hnone : s.txq p = []) : evEgressFrameSent p s = s := by
  simp only [evEgressFrameSent, hnone]

variable {o : FrameOwner} {f : Frame} {rest : List (FrameOwner × Frame)} (hhead : s.txq p = (o, f) :: rest)
include hhead

theorem evEgressFrameSent_port (hport : p < 80) : evEgressFrameSent p s =
    (((s.setTxq p rest).emit (.frame p f)).setPort p
      { s.portAt p with txPackets := (s.portAt p).txPackets + 1 }).frameGone o false := by
  simp only [evEgressFrameSent, hhead, if_pos hport]
  rfl

section Queue
variable (hqueue : 80 ≤ p) {u : State}
include hqueue

theorem evEgressFrameSent_pushed {lost : Bool} (hpush : s.push (p - 80) 4 f.payload = (u, .done lost)) :
    evEgressFrameSent p s = (u.setTxq p rest).frameGone o lost := by
  simp only [evEgressFrameSent, hhead, if_neg (Nat.not_lt.mpr hqueue), hpush]

/-- A frame for a queue that is not there is lost. -/
theorem evEgressFrameSent_absent (hpush : s.push (p - 80) 4 f.payload = (u, .absent)) :
    evEgressFrameSent p s = (u.setTxq p rest).frameGone o true := by
  simp only [evEgressFrameSent, hhead, if_neg (Nat.not_lt.mpr hqueue), hpush]

/-- A frame waits while its queue is full. -/
theorem evEgressFrameSent_full (hpush : s.push (p - 80) 4 f.payload = (u, .full)) : evEgressFrameSent p s = s := by
  simp only [evEgressFrameSent, hhead, if_neg (Nat.not_lt.mpr hqueue), hpush]

end Queue

end Egress

/-! ## The events -/

section Events
variable {s u : State} {c : Nat}

theorem happens_dumpPass (h : evDumpPass c s = u) : Happens (.dumpPass c) s u := h ▸ happens_of_guarded rfl rfl

theorem happens_dumpWeightFrames (h : evDumpWeightFrames c s = u) : Happens (.dumpWeightFrames c) s u :=
  h ▸ happens_of_guarded rfl rfl

theorem happens_dumpDone (h : evDumpDone c s = u) : Happens (.dumpDone c) s u := h ▸ happens_of_guarded rfl rfl

theorem happens_partialFrameReceive {p : Fin 80} {f : Frame} (hwf : f.wf = true) (h : evPartialFrameReceive p f s = u) :
    Happens (.partialFrameReceive p f) s u := h ▸ happens_of_guarded rfl hwf

theorem happens_combineTimeout (h : evCombineTimeout c s = u) : Happens (.combineTimeout c) s u :=
  h ▸ happens_of_guarded rfl rfl

theorem happens_egressFrameSent {p : Nat} (h : evEgressFrameSent p s = u) : Happens (.egressFrameSent p) s u :=
  h ▸ happens_of_guarded rfl rfl

end Events

/-- Settles O48: each event takes the oldest dump, collection or frame that is ready, and waits where none is. -/
theorem dumpsAndFramesLeave : Obligations.DumpsAndFramesLeave := by
  unfold Obligations.DumpsAndFramesLeave
  refine ⟨?passes, ?noPass, ?weights, ?noJob, ?ends, ?takesPartial, ?frame,
    ?combines, ?collecting, ?sent, ?pushed, ?absent, ?full, ?empty, ?early⟩
  case passes => exact fun s c hchannel hends hphase => happens_dumpPass (evDumpPass_ends hchannel hends hphase)
  case noPass => exact fun s c hgoes => happens_dumpPass (evDumpPass_none hgoes)
  case weights =>
    intro s c j hjob hfirst hframes hleft hnew
    exact happens_dumpWeightFrames (evDumpWeightFrames_hands hjob hfirst hframes hleft hnew)
  case noJob =>
    exact fun s c hnone =>
      ⟨happens_dumpWeightFrames (evDumpWeightFrames_noJob hnone), happens_dumpDone (evDumpDone_noJob hnone)⟩
  case ends =>
    intro s c j hjobs hchannel hfirst hweights hdue hleft hport hup
    obtain ⟨u, hu, hev⟩ := evDumpDone_sends hjobs hchannel hfirst hweights hdue hleft hport hup
    exact ⟨u, hu, happens_dumpDone hev⟩
  case takesPartial =>
    exact fun s p f b hwf hpayload => happens_partialFrameReceive hwf (evPartialFrameReceive_partial hpayload)
  case frame => exact fun s p f hwf hpayload => happens_partialFrameReceive hwf (evPartialFrameReceive_other hpayload)
  case combines =>
    exact fun s c x hcollects hchannel hdue => happens_combineTimeout (evCombineTimeout_combines hcollects hchannel hdue)
  case collecting => exact fun s c hearly => happens_combineTimeout (evCombineTimeout_waits hearly)
  case sent => exact fun s p o f rest hport hhead => happens_egressFrameSent (evEgressFrameSent_port hhead hport)
  case pushed =>
    intro s u p o f rest lost hqueue hhead hpush
    exact happens_egressFrameSent (evEgressFrameSent_pushed hhead hqueue hpush)
  case absent =>
    intro s u p o f rest hqueue hhead hpush
    exact happens_egressFrameSent (evEgressFrameSent_absent hhead hqueue hpush)
  case full =>
    intro s u p o f rest hqueue hhead hpush
    exact happens_egressFrameSent (evEgressFrameSent_full hhead hqueue hpush)
  case empty => exact fun s p hnone => happens_egressFrameSent (evEgressFrameSent_empty hnone)
  case early => exact fun s c j hjobs hearly => happens_dumpDone (evDumpDone_early hjobs hearly)

end Sys2Proof.Machine
end

section
/-! What KLP framing makes of packets and codewords (R59 to R61): a packet's blocks spell it, and a codeword has 544 symbols. The
claim of O60 is put together from these. -/

namespace Sys2Proof.Machine

/-! ## Chunks -/

section Chunks
variable {α : Type} {n : Nat} {l : List α}

theorem chunks_nil (n : Nat) : chunks n ([] : List α) = [] := by
  unfold chunks
  refine (ite_congr rfl (fun _ => rfl) fun hn => ?_).trans (ite_self [])
  rw [ceilDiv, List.length_nil, Nat.div_eq_of_lt (by omega)]
  rfl

/-- The first chunk, and the chunks of what is left. -/
theorem chunks_cons (hn : 0 < n) (hl : l ≠ []) : chunks n l = l.take n :: chunks n (l.drop n) := by
  have hlen := List.length_pos_iff.mpr hl
  have hcount : ceilDiv l.length n = ceilDiv (l.drop n).length n + 1 := by
    unfold ceilDiv
    rw [List.length_drop]
    by_cases h : n ≤ l.length
    · rw [show l.length + n - 1 = l.length - n + n - 1 + n by omega, Nat.add_div_right _ hn]
    · rw [show l.length - n = 0 by omega, Nat.div_eq_of_lt (a := 0 + n - 1) (by omega),
        show l.length + n - 1 = l.length - 1 + n by omega, Nat.add_div_right _ hn, Nat.div_eq_of_lt (by omega)]
  unfold chunks
  rw [if_neg (by omega), if_neg (by omega), hcount, List.range_succ_eq_map, List.map_cons, List.map_map]
  refine congrArg₂ _ (by simp [slice]) (List.map_congr_left fun i _ => ?_)
  simp [slice, Nat.succ_mul, Nat.add_comm]

theorem length_chunks (hn : 0 < n) (l : List α) : (chunks n l).length = ceilDiv l.length n := by
  rw [chunks, if_neg (by omega), List.length_map, List.length_range]

theorem length_le_of_mem_chunks {c : List α} (hc : c ∈ chunks n l) : c.length ≤ n := by
  unfold chunks at hc
  split at hc
  · cases hc
  · obtain ⟨i, -, rfl⟩ := List.mem_map.mp hc
    exact List.length_take_le _ _

/-- Chunks that are padded to their size spell the list, followed by padding. -/
theorem flatten_padded_chunks (hn : 0 < n) (pad : Nat → List α) (hpad : pad 0 = []) (l : List α) :
    ∃ t, ((chunks n l).map fun c => c ++ pad (n - c.length)).flatten = l ++ t := by
  by_cases hl : l = []
  · exact ⟨[], by rw [hl, chunks_nil]; rfl⟩
  · rw [chunks_cons hn hl]
    have hlen := List.length_pos_iff.mpr hl
    by_cases hshort : l.length ≤ n
    · exact ⟨pad (n - l.length), by
        rw [List.drop_eq_nil_of_le hshort, chunks_nil, List.take_of_length_le hshort]
        simp⟩
    · obtain ⟨t, ht⟩ := flatten_padded_chunks hn pad hpad (l.drop n)
      refine ⟨t, ?_⟩
      rw [List.map_cons, List.flatten_cons, ht, List.length_take, Nat.min_eq_left (by omega), Nat.sub_self, hpad,
        List.append_nil, ← List.append_assoc, List.take_append_drop]
termination_by l.length
decreasing_by simp only [List.length_drop]; omega

end Chunks

/-! ## Packets (R60, R61) -/

theorem beNat_beBytes_two {n : Nat} (hn : n < 65536) : beNat (beBytes 2 n) = n := by
  simp [beBytes, beNat]
  omega

theorem klpLength_iff {n : Nat} : klpLength n = true ↔ 64 ≤ n ∧ n ≤ 9216 := decide_eq_true_iff

section Packet
variable (b : List Byte)

/-- The PKT_START block of a packet. -/
def klpStart : KlpBlock := ⟨false, [0x1E] ++ beBytes 2 b.length ++ [0] ++ b.take 28⟩

/-- The data blocks of a packet. -/
def klpData : List KlpBlock := (chunks 32 (b.drop 28)).map fun c => ⟨true, c ++ zeros (32 - c.length)⟩

theorem klpBlocks_eq : klpBlocks b = klpStart b :: klpData b := rfl

theorem klpData_data {k : KlpBlock} (hk : k ∈ klpData b) : k.data = true := by
  obtain ⟨c, -, rfl⟩ := List.mem_map.mp hk
  rfl

theorem length_klpData : (klpData b).length = ceilDiv (b.length - 28) 32 := by
  rw [klpData, List.length_map, length_chunks (by decide), List.length_drop]

theorem klpData_bytes : ∃ t, ((klpData b).map (·.bytes)).flatten = b.drop 28 ++ t := by
  rw [klpData, List.map_map]
  exact flatten_padded_chunks (by decide) zeros rfl (b.drop 28)

theorem klpStart_kind : fld (klpStart b).bytes 0 1 = 0x1E := by
  simp [klpStart, fld, slice, beNat]

theorem klpStart_payload : (klpStart b).bytes.drop 4 = b.take 28 := rfl

variable {b}

theorem klpStart_length (hlen : klpLength b.length = true) : fld (klpStart b).bytes 1 2 = b.length :=
  beNat_beBytes_two (by have := klpLength_iff.mp hlen; omega)

/-- The blocks of a packet spell it. -/
theorem klpPacketOf_klpBlocks (hlen : klpLength b.length = true) : klpPacketOf (klpBlocks b) = some b := by
  have hdata : (klpData b).any (!·.data) = false := by simpa using fun k hk => klpData_data b hk
  obtain ⟨t, ht⟩ := klpData_bytes b
  rw [klpBlocks_eq, klpPacketOf, klpStart_length hlen, klpStart_kind, length_klpData, hdata, klpStart_payload, ht,
    ← List.append_assoc, List.take_append_drop, List.take_left]
  simp [hlen, klpStart]

theorem klpBlocks_length (hlen : klpLength b.length = true) {k : KlpBlock} (hk : k ∈ klpBlocks b) : k.bytes.length = 32 := by
  rcases List.mem_cons.mp hk with rfl | hk
  · have := klpLength_iff.mp hlen
    simp
    omega
  · obtain ⟨c, hc, rfl⟩ := List.mem_map.mp hk
    have := length_le_of_mem_chunks hc
    simp [zeros]
    omega

/-- No packet starts at a data block. -/
theorem klpPacketOf_data {k : KlpBlock} (hk : k.data = true) (rest : List KlpBlock) : klpPacketOf (k :: rest) = none :=
  if_pos (by rw [hk]; rfl)

/-- The receiver finds the packet in its blocks, and no other. -/
theorem klpReceived_of_filter {blocks : List KlpBlock} (hlen : klpLength b.length = true)
    (hblocks : blocks.filter (fun k => !k.marker) = klpBlocks b) : klpReceived blocks = [b] := by
  have hwhole : (klpData b).take (ceilDiv (b.length - 28) 32) = klpData b :=
    List.take_of_length_le (length_klpData b).le
  have hfirst : klpPacketOf (klpStart b :: (klpData b).take (ceilDiv (fld (klpStart b).bytes 1 2 - 28) 32)) = some b := by
    rw [klpStart_length hlen, hwhole]
    exact klpPacketOf_klpBlocks hlen
  unfold klpReceived
  rw [hblocks, klpBlocks_eq]
  dsimp only
  rw [List.length_cons, List.range_succ_eq_map]
  refine (List.filterMap_cons_some (b := b) ?_).trans (congrArg (b :: ·) (List.filterMap_eq_nil_iff.mpr fun i hi => ?_))
  · exact hfirst
  obtain ⟨j, -, rfl⟩ := List.mem_map.mp hi
  rw [List.drop_succ_cons]
  cases hdrop : (klpData b).drop j with
  | nil => rfl
  | cons k rest =>
    have hk : k ∈ klpData b := List.mem_of_mem_drop (hdrop ▸ List.mem_cons_self)
    exact klpPacketOf_data (klpData_data b hk) _

end Packet

/-! ## Codewords (R59) -/

/-- Each root of the generator adds one coefficient. -/
theorem length_rsGenerator : rsGenerator.length = 30 := by
  have hgrows (l : List Nat) : ∀ g : List Nat, (l.foldl (fun g j =>
      List.zipWith (· ^^^ ·) (g ++ [0]) (0 :: g.map (gfMul (gfPow j)))) g).length = g.length + l.length := by
    induction l with
    | nil => exact fun g => rfl
    | cons j t ih =>
      intro g
      rw [List.foldl_cons, ih]
      simp
      omega
  rw [rsGenerator, List.length_drop, hgrows, List.length_range]
  rfl

theorem length_rsParity (msg : List Nat) : (rsParity msg).length = 30 := by
  unfold rsParity
  exact List.foldlRecOn msg _ (motive := fun reg : List Nat => reg.length = 30) List.length_replicate
    fun reg hreg m _ => by simp [hreg, length_rsGenerator]

theorem length_klpBits {k : KlpBlock} (hk : k.bytes.length = 32) : k.bits.length = 257 := by
  simp [KlpBlock.bits, List.length_flatten, Function.comp_def, hk]

/-- Every 20 blocks make a codeword of 544 symbols. -/
theorem length_klpCodeword {blocks : List KlpBlock} (hcount : blocks.length = 20)
    (hblocks : ∀ k ∈ blocks, k.bytes.length = 32) : (klpCodeword blocks).length = 544 := by
  have hbits : (blocks.map (·.bits)).flatten.length = 5140 := by
    have hall : (blocks.map (·.bits)).map List.length = List.replicate 20 257 :=
      List.eq_replicate_iff.mpr ⟨by simp [hcount], by simpa using fun k hk => length_klpBits (hblocks k hk)⟩
    rw [List.length_flatten, hall]
    rfl
  rw [klpCodeword, List.length_append, length_rsParity, List.length_map, length_chunks (by decide), hbits]
  rfl

theorem superframeBlock_length (id width : Nat) {sfm : List Byte} (hsfm : sfm.length = 32) (n j : Nat) :
    (superframeBlock id width sfm n j).bytes.length = 32 := by
  unfold superframeBlock
  split
  · simp [klpAm, zeros]
  · split
    · exact hsfm
    · exact List.length_replicate

theorem length_superframeCodeword (id width n : Nat) {sfm : List Byte} (hsfm : sfm.length = 32) :
    (superframeCodeword id width sfm n).length = 544 := by
  refine length_klpCodeword (by simp) fun k hk => ?_
  obtain ⟨j, -, rfl⟩ := List.mem_map.mp hk
  exact superframeBlock_length id width hsfm n j

/-- Settles O60: the length in a packet's first block says how many data blocks follow and where the padding of
the last one begins. -/
theorem klpFramingKeepsPackets : Obligations.KlpFramingKeepsPackets := by
  unfold Obligations.KlpFramingKeepsPackets
  exact ⟨fun b hlen => klpPacketOf_klpBlocks hlen, fun b hlen k hk => klpBlocks_length hlen hk,
    fun b blocks hlen hblocks => klpReceived_of_filter hlen hblocks,
    fun id width n sfm hsfm => length_superframeCodeword id width n hsfm⟩

end Sys2Proof.Machine
end
